-- ==== Sys2Proof/Word.lean ====
section
/-! DEFINITION. Bytes, byte strings and object references (R8, R29). -/
namespace Sys2Proof

/-- One byte. Multi-byte fields are little-endian (R8). -/
abbrev Byte := BitVec 8

/-- A byte string, offset 0 first. -/
abbrev Bytes := List Byte

/-- A packed object reference: INDEX in [23:8], SUB in [7:0] (Table 02-5, "claimant"). -/
abbrev ObjRef := Nat

end Sys2Proof
end

