-- ==== Sys2Proof/Syntax.lean ====
section
/-! DEFINITION. The commands of the block: one constructor of `Instr` per row of spec/opcode_table.json, in the table's
order, with the operands of each. An operand is what reaches the device from its surroundings (bytes of a message, a
sample, a level at a ball, data returned by host memory) or a physical fault inside a unit (rails that disagree, flipped
bits of a stored word): what the spec lets the device compute by itself is never an operand. -/
namespace Sys2Proof

/-- The port on which a Faceplate message arrives (R34, R43). -/
inductive Via | ctl0 | ctl1 | spi
  deriving DecidableEq, Repr

/-- Source address and source port of a datagram (R39, "Binding"). -/
structure Source where
  addr : Nat
  port : Nat
  deriving DecidableEq, Repr

/-- A Faceplate datagram less its TYPE byte, which the command gives (Table 02-3). `size` is the datagram's length in
bytes, `dport` its UDP destination port, `fragment` whether it is an IP fragment (R34; unused on SPI). -/
structure Datagram where
  dport    : Nat
  fragment : Bool
  size     : Nat
  magic    : Nat
  version  : Nat
  flags    : Byte
  status   : Byte
  session  : Nat
  seq      : Nat
  length   : Nat
  reserved : Nat
  payload  : Bytes
  tag      : Bytes
  crc      : BitVec 32
  deriving DecidableEq, Repr

/-- A session that writes an object outside a decoded WRITE message: the port and the session ID (0xFFFF for SPI). -/
structure Caller where
  via     : Via
  session : Nat
  deriving DecidableEq, Repr

/-- How a commit or an abort is asked for: a value written to its object, or a message (R45, R56). -/
inductive Request where
  | write (by_ : Caller) (value : Nat)
  | message (via : Via) (src : Source) (dg : Datagram)
  deriving DecidableEq, Repr

/-- The two rings (R77). -/
inductive Ring | stream | repair
  deriving DecidableEq, Repr

/-- A descriptor as the host wrote it (Table 03-10). -/
structure Desc where
  ring  : Ring
  index : Nat
  addr  : Nat
  length : Nat
  reserved : Nat
  tag   : Nat
  deriving DecidableEq, Repr

/-- The types of Fiufen blocks (Table 03-2). -/
inductive BlockType | job | stripe | celldef | band | halo | marks | endBlock
  deriving DecidableEq, Repr

/-- A box in 1/256 pixel (R60). -/
structure Box where
  xMin : Int
  yMin : Int
  xMax : Int
  yMax : Int
  deriving DecidableEq, Repr

/-- A fetched block (Table 03-1), with the stored payload. Its TYPE byte is the one that the command names, but where `unknownType`
holds a byte that Table 03-2 does not have. -/
structure BlockImage where
  magic    : Nat
  version  : Nat
  flags    : Byte
  resv1    : Byte
  jobId    : Nat
  stripe   : Nat
  band     : Nat
  resv2    : Nat
  seq      : Nat
  payloadLength : Nat
  rawLength : Nat
  itemCount : Nat
  aux      : Nat
  bbox     : Box
  payloadCrc : BitVec 32
  headerCrc  : BitVec 32
  payload  : Bytes
  unknownType : Option Byte := none
  deriving DecidableEq, Repr

/-- One fetch of a block by its descriptor. `error`: a PCIe completion error or a poisoned completion (R82 step 2).
`rails`: per region whose placement unit or density units met a mismatch on this block, whether the rails agreed at the first
and each further computation (R135). `refFails`: Gouge cells with a wrong output in the reference test of a JOB block (R107). -/
structure Fetch where
  desc  : Desc
  error : Bool
  image : BlockImage
  rails : List (Nat × List Bool) := []
  refFails : List Nat := []
  deriving DecidableEq, Repr

/-- What a read of the configuration space asks for (Table 03-14). -/
inductive ConfigItem
  | vendorId | deviceId | subsystemVendorId | subsystemId | revisionId | classCode | bar (n : Nat) | expansionRom | command
  | msixVectors | maxPayloadSize | maxReadRequestSize
  deriving DecidableEq, Repr

/-- A request of the host to the configuration space (R80, Table 03-14): Bus Master Enable in the command register, the sizes that
the host sets, the base of BAR0, or a read. -/
inductive ConfigRequest
  | busMaster (on : Bool) | maxPayload (bytes : Nat) | maxReadRequest (bytes : Nat) | bar0 (base : Nat) | read (item : ConfigItem)
  deriving DecidableEq, Repr

/-- What reset the host port (R81). -/
inductive HostReset | perst | hotReset | linkDisable
  deriving DecidableEq, Repr

/-- A physical disturbance of a stored 80-bit word met by a read: the stored bits that are flipped (data in [63:0],
check bits in [79:64]) and the XOR of the address written with the address read (R270, R271). -/
structure WordFault where
  word    : Nat
  flips   : BitVec 80
  addrXor : Nat
  deriving DecidableEq, Repr

/-- What a Gouge cell and an area unit deliver in place of the right output, if anything (R103 to R105). -/
structure CellFault where
  wCell  : Option Int                  -- integral of the cell's edge walk, in 2^-16 px^2
  wUnit  : Option Int                  -- the area unit's value, in 2^-16 px^2
  simple : Option Bool                 -- the SIMPLE flag
  pixels : List (Nat × Nat × Nat)      -- pixel number of R101, coverage code, class
  valueRails : Nat                     -- rail mismatches of the spool value step: 0, 1 or 2 (R136)
  deriving DecidableEq, Repr

/-- Disturbed copies of the valid bit (bit 8) and the cause flags (bits 7 to 0) of a window word (R284): the bits in which each of the
three copies differs from what was written. -/
structure MarkFault where
  region : Nat
  word   : Nat
  flips  : List (BitVec 9)
  deriving DecidableEq, Repr

/-- Faults met while the codes of one flash are computed (R154, R192, R285). -/
structure FlashFaults where
  rails   : List Nat := []   -- beams whose two rails disagree
  window  : List (Nat × Nat) := []   -- window words (line, word of the ring) that read as uncorrectable
  table   : List Nat := []   -- per-beam table words (beam div 2) that read as uncorrectable
  crcRail : List Nat := []   -- lanes whose frame CRC rails differ
  corrected : List (Nat × Nat) := []   -- words read as corrected: store 0 to 3 a window slice, 4 the per-beam table; index of the word
  marks   : List MarkFault := []       -- copies of valid bits and cause flags that disagree
  deriving DecidableEq, Repr

/-- Faults met by the window loader on one word (R297): a tile fails its CRC, in a Burnish sweep the retained spool tile or the residual
tile; the computations of an inflate unit whose rails disagreed. -/
structure LoadFault where
  crcFail  : Bool
  inflateMismatches : Nat
  retained : Bool := false
  deriving DecidableEq, Repr

/-- SerDes ports whose lane PLLs can lose lock (R193). -/
inductive LanePort | blk | hst | plk
  deriving DecidableEq, Repr

/-- A head acknowledgement (Table 08-5) with the CRC of its EOF block. -/
structure AckMessage where
  frame   : Nat
  fired   : BitVec 24
  resv1   : Nat
  rxOk    : BitVec 24
  status  : Byte
  temp    : Int
  resv2   : Nat
  cmdEcho : BitVec 32
  resv3   : Nat
  rxCrc   : List (BitVec 32)
  resv4   : Nat
  crc     : BitVec 32
  deriving DecidableEq, Repr

/-- What the head identity memory returns (Table 08-7): whether it acknowledges its address, and its contents from address 0. -/
structure HeadMemory where
  ack   : Bool
  bytes : Bytes
  deriving DecidableEq, Repr

/-- Samples of the gate ADC as GATE_RX0 brings them (Table 08-11): per shot, from the rise of its FRAME_SYNC on, 100 MSa/s, two's
complement, 16 bits. -/
abbrev Shots := List (List (BitVec 16))

/-- How a message of PLK4 to PLK7 has arrived (R246): its lane, its SEQ, whether its CRC is right. -/
structure Receipt where
  lane  : Nat
  seq   : Nat
  crcOk : Bool
  deriving DecidableEq, Repr

/-- Words of the code history that read as corrected or as uncorrectable when a decision takes them at a boundary (R284, Table 11-6):
lane and payload word, per period. -/
structure HistoryFault where
  period : Nat
  lane   : Nat
  word   : Nat
  corrected : Bool
  deriving DecidableEq, Repr

/-- Levels and faults seen at a decision point. `stageHoldN`: the level of STAGE_HOLD_N (R178). -/
structure DecisionInputs where
  stageHoldN : Bool
  history    : List HistoryFault
  deriving DecidableEq, Repr

/-- A run of late lines (Table 10-4). -/
structure LateRun where
  firstLine : Nat
  lineCount : Nat
  loadLimit : Int
  deriving DecidableEq, Repr

/-- A flash record (Table 10-4). -/
structure FlashRecord where
  frame     : Nat
  decision  : Nat
  cap       : Nat
  thermal   : Nat
  events    : Byte
  flashIndex : Int
  crcRail   : BitVec 24
  laneCrc   : List (BitVec 32)
  decisions : List (Nat × BitVec 24)
  lateRuns  : List LateRun
  railRuns  : List (Nat × Nat)         -- first beam, count
  deriving DecidableEq, Repr

/-- A STREAM_EVENT of the mirror link (Table 10-3). -/
inductive StreamEvent where
  | producers (stream repair : Nat)
  | consumers (stream release repair repairRelease : Nat)
  | rejection (headerKnown waits : Bool) (type jobId stripe band seq due aux status : Nat) (bbox : Option Box) (tile : Option (Nat × Nat))
  | repaired (seq : Nat)
  | giveUp (seq region : Nat)
  deriving DecidableEq, Repr

/-- A change to the per-beam table carried by BEAM_CHANGES (Table 10-3): beam and new entry. -/
abbrev BeamChange := Nat × BitVec 32

/-- The head identity as the device holds it after an attach (object 2701 and Table 08-7). -/
structure HeadIdentity where
  model   : Bytes
  serial  : Nat
  rank    : Nat
  pitch   : Nat
  tsettle : Nat
  tempWarn : Int
  tempLimit : Int
  tempHyst : Nat
  minSyncDelay : Nat
  deadCount : Nat
  deriving DecidableEq, Repr

/-- A ledger entry as checkpoint item 8 carries it (Tables 09-2, 10-7), with its residual values by pixel. -/
structure LedgerItem where
  stripe : Nat
  u      : Nat
  t      : Nat
  region : Nat
  cause  : Nat
  flags  : Nat
  state  : Nat
  pixels : Nat
  pass   : Nat
  sum    : Nat
  vals   : List (Nat × Nat)
  length : Nat
  addr   : Nat
  owner  : Option Nat
  left   : Nat
  deriving DecidableEq, Repr

/-- A defect record as checkpoint item 8 carries it (Table 09-4). -/
structure DefectItem where
  x : Int
  y : Int
  missing : Nat
  stripe  : Nat
  cause   : Nat
  flags   : Nat
  entry   : Option Nat
  deriving DecidableEq, Repr

/-- One chunk of checkpoint data (Table 10-7): the state it carries in the forms the model holds it in; one constructor per
item, and one for the blocks of items 4 and 5. -/
inductive CheckpointData where
  | objects (entries : List (ObjRef × Int)) (pendingHold : Bool)
  | head (identity : Option HeadIdentity) (thermal : Nat) (commands : List (Nat × Nat))
  | beamTable (entries : List BeamChange) (epoch : Nat)
  | stream (consumer release repairConsumer repairRelease expectedSeq : Nat) (pending : List StreamEvent)
  | block (type : BlockType) (ring : Ring) (index : Nat) (image : BlockImage)
  | density (stripe : Nat) (cells : List (Int × Int × Nat × Nat))
  | spoolTile (stripe u t : Nat) (values : Bytes) (freed poisoned : Bool)
  | ledger (entries : List LedgerItem) (defects : List DefectItem)
  | counts (entries : List (ObjRef × Int)) (retired : Nat)
  deriving DecidableEq, Repr

/-- What a DMA burst meets outside the engine (R310, R318): bytes returned by host memory, a PCIe fault, disturbed DRAM
words, and whether the level request is withdrawn while the burst runs (R311). -/
structure DmaInputs where
  hostData  : Bytes
  hostFault : Option Nat               -- offset in the burst of the byte that failed
  faults    : List WordFault
  withdrawn : Bool
  deriving DecidableEq, Repr

/-- Where the descriptor read of a channel found a disturbed word (R318). -/
abbrev DescFaults := List WordFault

/-- Kinds of CSI-2 packets that are discarded (R331). -/
inductive CsiDiscard | uncorrectableHeader | otherChannel | otherType
  deriving DecidableEq, Repr

/-- An output with a pulse (R358, R339). -/
inductive PulseOut | tto (k : Nat) | strobe (p : Nat)
  deriving DecidableEq, Repr

/-- The part of a received PTP message that the device uses (R352, R353). Times in 2^-32 ns; correction in 2^-16 ns. -/
structure PtpMessage where
  domain     : Nat
  sdoId      : Nat
  clockId    : Nat
  portNumber : Nat
  seqId      : Nat
  twoStep    : Bool
  correction : Int
  timestamp  : Nat
  logInterval : Int
  requestingId : Nat                   -- requestingPortIdentity: clockIdentity
  requestingPort : Nat                 -- and portNumber
  deriving DecidableEq, Repr

/-- The body of an Announce message (IEEE 1588 clause 13.5). -/
structure PtpAnnounce where
  priority1  : Nat
  clockClass : Nat
  accuracy   : Nat
  variance   : Nat
  priority2  : Nat
  gmId       : Nat
  stepsRemoved : Nat
  utcOffset  : Int
  timeFlags  : Byte
  logInterval : Int
  deriving DecidableEq, Repr

/-- The straps (Table 18-5). -/
structure Straps where
  nid      : Nat
  roleB    : Bool
  bootsel  : Nat
  ctlmode  : Nat
  peLrev   : Bool
  dpop     : Nat
  deriving DecidableEq, Repr

/-- The PLLs that start with a power state (R386) and the lane PLLs. -/
inductive Pll | control | core | dram (ch : Nat) | lane (port : LanePort) (lane : Nat) | pcie
  deriving DecidableEq, Repr

/-- Why the watchdog expires (R405). -/
inductive WatchdogCause | period | trap | pageReload
  deriving DecidableEq, Repr

/-- What a supply fault is (R384, R386). -/
inductive SupplyCause | loadPoint | noSource | vio | corePll
  deriving DecidableEq, Repr

/-- Address configuration gained from outside in CTLMODE 0b01 (R396). -/
structure NetConfig where
  addr0 : Nat
  prefix0 : Nat
  gateway0 : Nat
  addr1 : Nat
  prefix1 : Nat
  gateway1 : Nat
  deriving DecidableEq, Repr

/-- The commands: one constructor per row of spec/opcode_table.json, in its order. Times `t` are core cycles since
PORST_N deasserted. Where an operand is a pair, its parts are: of `mirrorBlock` the index and the tag of the descriptor, of `checkpoint` the
data and its bytes, of `nak` the lane and the SEQ asked for, of `releaseMessage` the trigger code and k_r, of `remapCopyDone` the channel
and the disturbed words of the row, of `sramScrub` the disturbed words by store and the disturbed copies of valid bits and cause flags; of `streamEvent`, `confirm` and `health` how the message arrived and its body. The rates of
`dramTrainingDone` are those at which the channel trains. -/
inductive Instr where
  | read (via : Via) (src : Source) (dg : Datagram)
  | write (via : Via) (src : Source) (dg : Datagram)
  | readBlock (via : Via) (src : Source) (dg : Datagram)
  | writeBlock (via : Via) (src : Source) (dg : Datagram)
  | subscribe (via : Via) (src : Source) (dg : Datagram)
  | malformedTypeMessage (via : Via) (src : Source) (type : Nat) (dg : Datagram)
  | sessionOpen (via : Via) (src : Source) (nonce : Bytes) (tagged : Bool)
  | sessionClose (by_ : Caller) (id : Nat)
  | sessionTimeout (id : Nat)
  | authKey (by_ : Caller) (key : Bytes)
  | objectWrite (by_ : Caller) (obj : ObjRef) (typeCode : Nat) (value : Bytes)
  | rcRead (by_ : Caller) (obj : ObjRef)
  | notifyOnChange (session : Nat) (obj : ObjRef)
  | notifyPeriodic (session : Nat) (obj : ObjRef)
  | commit (r : Request)
  | abortJob (r : Request)
  | abortQuiet
  | abortDma (r : Request)
  | abortCompression (r : Request)
  | abortCamera (r : Request)
  | abortCalibration (r : Request)
  | discardStaging (r : Request)
  | abortDramFill (via : Via) (src : Source) (dg : Datagram)
  | start (by_ : Caller)
  | hold (by_ : Caller)
  | resume (by_ : Caller)
  | jobAutoStart
  | progressSnapshot
  | streamProducer (value : Nat)
  | repairProducer (value : Nat)
  | barAccessError (offset size : Nat) (write : Option Nat)
  | jobBlock (f : Fetch)
  | stripeBlock (f : Fetch)
  | celldefBlock (f : Fetch)
  | bandBlock (f : Fetch)
  | haloBlock (f : Fetch)
  | marksBlock (f : Fetch)
  | endBlock (f : Fetch)
  | blockRefetch (type : BlockType) (f : Fetch)
  | repairBlock (type : BlockType) (f : Fetch)
  | writeback
  | hostPortReset (cause : HostReset)
  | hostLinkUp (width speed : Nat)
  | tileDispatch (cell : Nat)
  | tileComplete (cell : Nat) (fault : CellFault)
  | shadowTest (cell : Nat)
  | shadowTestResult (cell : Nat) (crc : BitVec 32)
  | factorCompute (region : Nat) (column : Int) (railsAgree : List Bool)
  | fitField (by_ : Caller) (f : Nat)
  | fitComplete
  | fitStage (by_ : Caller)
  | flashDecision (inp : DecisionInputs)
  | flashCompute (faults : FlashFaults)
  | windowLoad (line word : Nat) (fault : LoadFault)
  | turnaroundRelease (by_ : Caller)
  | positionSample (t idle : Nat) (levels : List (BitVec 4))
  | posTimeout (t : Nat)
  | posFault (lowNs : Nat)
  | posFaultClear
  | firingCheck
  | frameSync
  | deflectorWord (tOut : Nat)
  | deflLinkChange (running : Bool)
  | laneLockLoss (port : LanePort) (lane : Nat)
  | acknowledgement (hst : Nat) (t : Nat) (msg : AckMessage)
  | ackTimeout
  | tempStale
  | cmdUnechoed
  | headAttachFactory (by_ : Caller)
  | headAttachKeep (by_ : Caller)
  | headAttachComplete (mem : HeadMemory)
  | i2cStretchTimeout
  | beamEdit (by_ : Caller) (value : BitVec 64)
  | beamEpoch
  | gateCheckStart (by_ : Caller)
  | gateCheckStop (by_ : Caller)
  | gateDarkDone (shots : Shots)
  | gateBeamMeasured (t : Nat) (shots : Shots)
  | imageStart (by_ : Caller)
  | imagePhaseDone (t : Nat)
  | burnishRepairWait
  | defectAck (by_ : Caller) (n : Nat)
  | peerActFall
  | takeoverCheck
  | peerActRise
  | claimDelay
  | ownActRelease
  | flashRecord (r : FlashRecord) (bad : List Nat)
  | recordDeadline
  | mirrorBlock (rx : Receipt) (type : BlockType) (ring : Ring) (slot : Nat × Nat) (image : BlockImage)
  | streamEvent (m : Receipt × StreamEvent)
  | mirrorCommit (rx : Receipt) (entries : List (ObjRef × Int))
  | beamChanges (rx : Receipt) (changes : List BeamChange) (epoch : Nat) (identity : Option HeadIdentity)
  | confirm (m : Receipt × Nat)
  | confirmTimeout
  | checkpoint (rx : Receipt) (chunk : CheckpointData × Nat)
  | health (m : Receipt × Bytes)
  | healthSend
  | peerHealthTimeout
  | nak (rx : Receipt) (ask : Nat × Nat)
  | releaseMessage (rx : Receipt) (body : Nat × Nat)
  | mirrorLinkChange (lanes : BitVec 8)
  | handoverRequest (by_ : Caller)
  | syncStart (by_ : Option Caller)
  | syncComplete
  | dramTrainingDone (ch : Nat) (rates : List Nat)
  | dramFillDone (timeUs : Nat)
  | dramTempPoll (ch : Nat) (temps : List Int)
  | refresh (ch : Nat) (busy : List Nat)
  | neighbourRefresh (ch bank : Nat) (activates : List Nat)
  | disturbCountClear (ch : Nat)
  | scrubRead (faults : List WordFault)
  | remapCopyDone (copy : Nat × List WordFault)
  | remapAdd (by_ : Caller) (value : BitVec 32)
  | sramScrub (met : List (Nat × WordFault) × List MarkFault)
  | dramParityAlert (ch : Nat) (t : Nat) (retrained : Bool)
  | dramPllLockLoss (ch : Nat)
  | compressionUnitDone (lane : Nat) (railsAgree : Bool) (inputFaults : List WordFault)
  | spoolLaneWait (region : Nat)
  | hjProducer (value : Nat)
  | hjAssign
  | hjResume (by_ : Caller) (lanes : BitVec 16)
  | chStart (by_ : Caller) (ch : Nat) (addr : Nat) (faults : DescFaults)
  | dmaBurst (ch : Nat) (inp : DmaInputs)
  | dmaDescriptorEnd (ch : Nat) (samePulse : Bool) (faults : DescFaults)
  | cuFeed8 (u : Nat) (v : BitVec 8)
  | cuFeed16 (u : Nat) (v : BitVec 16)
  | cuFeed32 (u : Nat) (v : BitVec 32)
  | cuPortWrite (ch u : Nat)
  | cuValueWrite (u : Nat) (v : BitVec 64)
  | cuInit (u : Nat)
  | cuPoly (u : Nat) (poly : Nat)
  | cuStateRead (u : Nat) (result : Bool)
  | cuLatch (u : Nat)
  | csiFrameStart (p : Nat) (t : Nat) (frameNumber : Nat)
  | csiFrameEnd (p : Nat) (t : Nat)
  | csiLine (p : Nat) (t : Nat) (eccCorrected crcOk : Bool) (pixels : List Nat)
  | csiEmbeddedData (p : Nat) (data : Bytes)
  | csiPacketDiscard (p : Nat) (why : CsiDiscard)
  | camLineTimeout (p : Nat) (t : Nat)
  | camFramePublish (p : Nat)
  | camRestart (by_ : Caller) (p : Nat)
  | mfRequest (by_ : Caller) (offset : Nat) (data : Bytes)
  | mfResult (railsAgree : Bool)
  | mfTimeout
  | spotStrobe
  | spotSumsDone (railsAgree : Bool)
  | spotTimeout
  | timeTick
  | timeIncrement (by_ : Caller) (v : Nat)
  | timeStep (by_ : Caller) (v : Int)
  | timeSet (by_ : Caller) (value : Bytes)
  | ptpSync (p : Nat) (rx : Nat) (m : PtpMessage)
  | ptpFollowUp (p : Nat) (m : PtpMessage)
  | ptpDelayResp (p : Nat) (m : PtpMessage)
  | ptpDelayReqSend (tx : Nat)
  | ptpPdelayReqSend (tx : Nat)
  | ptpPdelayReq (p : Nat) (rx tx : Nat) (m : PtpMessage)
  | ptpPdelayResp (p : Nat) (rx : Nat) (followUp : Bool) (m : PtpMessage)
  | ptpAnnounce (p : Nat) (m : PtpMessage) (a : PtpAnnounce)
  | ptpAnnounceTimeout
  | comparatorMatch (c : Nat)
  | pulseEnd (o : PulseOut)
  | tciEdge (k : Nat) (t : Nat) (rising : Bool)
  | tciAck (by_ : Caller) (k n : Nat)
  | calStart (by_ : Caller) (mask : Nat)
  | calItemStart
  | calRefclkDone (cycles : Nat) (refcalOk : Bool)
  | calStrobeSkewDone (edges : List (List Int)) (refcalOk : Bool)
  | calGateOffsetDone (shots : Shots)
  | calGateGainDone (t : Nat) (dark shots : Shots)
  | calBeamEfficiencyDone (t : Nat) (dark : Shots) (beams : List (Nat × Shots))
  | calDeflScanDone (t : Nat) (dark : Shots) (steps : List Shots) (positions : List Int)
  | calDeflSolveDone
  | calCamDarkDone (frames : List (List (List Nat)))
  | calCamFlatDone (frames : List (List (List Nat)))
  | calCamTimeout
  | deflPointsClear (by_ : Caller)
  | porstNDeassert (straps : Straps) (peerAct : Bool) (mainGood backupGood : BitVec 5)
  | porstNAssert
  | pllLock (pll : Pll)
  | corePllLoss
  | bootLoadDone (flashOk : Bool)
  | bootVerifyDone
  | firmwareReady (net : Option NetConfig)
  | firmwareReadyTimeout
  | imageVerify (by_ : Caller)
  | imageBoot (by_ : Caller)
  | imageProgramA (by_ : Caller)
  | imageProgramB (by_ : Caller)
  | imageProgramDone (ok : Bool)
  | rollbackRaise (by_ : Caller)
  | keyRevoke (by_ : Caller) (slot : Nat)
  | netSave (by_ : Caller)
  | powerRequestDeep (by_ : Caller)
  | powerRequestControl (by_ : Caller)
  | powerRequestReady (by_ : Caller)
  | powerTransitionDone
  | wake (source : Nat)
  | wakeRestoreDone (saveReadable : Bool)
  | vaonMainFail
  | vaonMainReturn
  | railSourceFault (rail : Nat)
  | switchoverEngage (rail : Nat)
  | supplyReturn (rail : Nat)
  | supplyReturnNow (by_ : Caller) (mainGood : BitVec 5)
  | supplyFault (rail : Nat) (cause : SupplyCause)
  | supplyTrip (rail : Nat)
  | tjSample (temps : List Int)
  | watchdogExpiry (cause : WatchdogCause)
  | healthIndexUpdate
  | descriptorFetch (d : Desc)
  | busMasterEnable (request : ConfigRequest := .busMaster true)
  | regionWakeDone (region : Nat) (writingSide : Bool)
  | hstLaneLock (lane : Nat)
  | gateRxLinkChange (dataPhase : Bool)
  | refcalPresentChange (present : Bool)
  | ctlLinkChange (port : Nat) (up : Bool)
  | vaonGood (mainGood backupGood : BitVec 5)
  | vaonLoss
  | pageReloadDone (page : Nat) (good : Bool)
  | memtestRead (words : Nat) (faults : List WordFault)
  deriving DecidableEq, Repr

end Sys2Proof
end

