-- ==== Sys2Proof/Machine/Num.lean ====
section
/-! DEFINITION. Integer arithmetic that many chapters share: roundings, clamps, little-endian byte strings (R8), and
association lists kept in one canonical form (keys strictly rising). -/
namespace Sys2Proof.Machine

/-- Clamp to the closed interval from `lo` to `hi`. -/
def clampI (lo hi x : Int) : Int := if x < lo then lo else if x > hi then hi else x

/-- Quotient of integers, rounded to nearest with ties to even; the divisor is positive. -/
def rneDiv (a : Int) (b : Nat) : Int :=
  let q := a / (b : Int)
  let r := a - q * (b : Int)
  if 2 * r < (b : Int) then q
  else if 2 * r > (b : Int) then q + 1
  else if q % 2 = 0 then q else q + 1

/-- Quotient of naturals, rounded to nearest with ties to even; the divisor is positive. -/
def rneDivN (a b : Nat) : Nat :=
  let q := a / b
  let r := a % b
  if 2 * r < b then q else if 2 * r > b then q + 1 else if q % 2 = 0 then q else q + 1

/-- Quotient of integers rounded to nearest with ties away from zero; the divisor is positive. -/
def rnaDiv (a : Int) (b : Nat) : Int :=
  if a ≥ 0 then (2 * a + b) / (2 * (b : Int)) else -((2 * (-a) + b) / (2 * (b : Int)))

/-- Quotient rounded up; the divisor is positive. -/
def ceilDiv (a b : Nat) : Nat := (a + b - 1) / b

/-- Integer quotient rounded up; the divisor is positive. -/
def ceilDivI (a : Int) (b : Nat) : Int := -((-a) / (b : Int))

/-- The two's complement value of the low `w` bits of `x`. -/
def toSigned (w x : Nat) : Int :=
  let y := x % 2 ^ w
  if 2 * y < 2 ^ w then (y : Int) else (y : Int) - 2 ^ w

/-- The low `w` bits of `x` in two's complement. -/
def toUnsigned (w : Nat) (x : Int) : Nat := (x % (2 ^ w : Int)).toNat

/-- Bit `i` of a natural. -/
def bitOf (x i : Nat) : Bool := x / 2 ^ i % 2 = 1

/-- Bits [hi:lo] of a natural. -/
def bitsOf (x hi lo : Nat) : Nat := x / 2 ^ lo % 2 ^ (hi + 1 - lo)

/-- `x` with bit `i` set. -/
def setBit (x i : Nat) : Nat := if bitOf x i then x else x + 2 ^ i

/-- `x` with bit `i` cleared. -/
def clearBit (x i : Nat) : Nat := if bitOf x i then x - 2 ^ i else x

/-- A Boolean as 0 or 1. -/
def b2n (b : Bool) : Nat := if b then 1 else 0

/-- A Boolean as 0 or 1. -/
def b2i (b : Bool) : Int := if b then 1 else 0

/-- `n` bytes of `x`, least significant first (R8). -/
def leBytes : Nat → Nat → Bytes
  | 0, _ => []
  | n + 1, x => BitVec.ofNat 8 x :: leBytes n (x / 256)

/-- `n` bytes of an integer in two's complement, least significant first. -/
def leBytesI (n : Nat) (x : Int) : Bytes := leBytes n (toUnsigned (8 * n) x)

/-- The natural whose bytes are given least significant first. -/
def ofLe : Bytes → Nat
  | [] => 0
  | b :: bs => b.toNat + 256 * ofLe bs

/-- The natural whose bytes are given most significant first. -/
def ofBe (bs : Bytes) : Nat := bs.foldl (fun a b => a * 256 + b.toNat) 0

/-- `n` bytes of `x`, most significant first. -/
def beBytes (n x : Nat) : Bytes := (leBytes n x).reverse

/-- `n` bytes at offset `off` (fewer at the end of the string). -/
def slice (bs : Bytes) (off n : Nat) : Bytes := (bs.drop off).take n

/-- The unsigned field of `n` bytes at offset `off`. -/
def leAt (bs : Bytes) (off n : Nat) : Nat := ofLe (slice bs off n)

/-- The two's complement field of `n` bytes at offset `off`. -/
def leAtI (bs : Bytes) (off n : Nat) : Int := toSigned (8 * n) (leAt bs off n)

/-- A byte of a natural. -/
def byte (x : Nat) : Byte := BitVec.ofNat 8 x

/-- `n` zero bytes. -/
def zeros (n : Nat) : Bytes := List.replicate n 0

/-- The bytes of a string, in ASCII. -/
def asciiBytes (s : String) : Bytes := s.toList.map fun c => BitVec.ofNat 8 c.toNat

/-- Sum of a function over a list. -/
def sumMap (f : α → Nat) (l : List α) : Nat := l.foldl (fun a x => a + f x) 0

/-- Sum of an integer function over a list. -/
def sumMapI (f : α → Int) (l : List α) : Int := l.foldl (fun a x => a + f x) 0

/-- The integers from `lo` to `hi`, none if `hi < lo`. -/
def rangeI (lo hi : Int) : List Int := (List.range (hi + 1 - lo).toNat).map fun (i : Nat) => lo + (i : Int)

/-- The naturals from `lo` to `hi`, none if `hi < lo`. -/
def rangeN (lo hi : Nat) : List Nat := (List.range (hi + 1 - lo)).map fun i => lo + i

/-- The value of a key in an association list. -/
def kvGet (l : List (Nat × α)) (k : Nat) : Option α :=
  match l with
  | [] => none
  | (k', v) :: r => if k' = k then some v else kvGet r k

/-- Set a key, keeping the keys in rising order. -/
def kvSet (l : List (Nat × α)) (k : Nat) (v : α) : List (Nat × α) :=
  match l with
  | [] => [(k, v)]
  | (k', v') :: r =>
    if k < k' then (k, v) :: (k', v') :: r
    else if k = k' then (k, v) :: r
    else (k', v') :: kvSet r k v

/-- Remove a key. -/
def kvDel (l : List (Nat × α)) (k : Nat) : List (Nat × α) := l.filter fun p => p.1 ≠ k

/-- Change the value of a key that is present. -/
def kvModify (l : List (Nat × α)) (k : Nat) (f : α → α) : List (Nat × α) :=
  l.map fun p => if p.1 = k then (p.1, f p.2) else p

/-- Replace the `i`-th element, if there is one. -/
def setAt (l : List α) (i : Nat) (v : α) : List α := l.set i v

/-- Change the `i`-th element, if there is one. -/
def modifyAt (l : List α) (i : Nat) (f : α → α) : List α := l.modify i f

/-- The `i`-th element or a default. -/
def atD (l : List α) (i : Nat) (d : α) : α := l.getD i d

/-- Fold over the numbers from 0 to `n - 1`. -/
def foldN (n : Nat) (f : σ → Nat → σ) (s : σ) : σ := (List.range n).foldl f s

/-- Integer square root, rounded down. -/
def isqrt (n : Nat) : Nat := go (n.log2 / 2 + 1) 0
where
  go : Nat → Nat → Nat
    | 0, r => r
    | k + 1, r => go k (if (r + 2 ^ k) * (r + 2 ^ k) ≤ n then r + 2 ^ k else r)

/-- Number of bits set among the low `w` bits. -/
def popcount (w x : Nat) : Nat := ((List.range w).filter (bitOf x ·)).length

/-- Put an element before the first one that it does not stand behind. -/
def insertBy (le : α → α → Bool) (x : α) : List α → List α
  | [] => [x]
  | y :: r => if le x y then x :: y :: r else y :: insertBy le x r

/-- A list in order; equals keep their order. -/
def sortBy (le : α → α → Bool) : List α → List α
  | [] => []
  | x :: r => insertBy le x (sortBy le r)

end Sys2Proof.Machine
end

