-- ==== Sys2Proof/Machine/Ecc.lean ====
section
/-! DEFINITION. The code of DRAM and on-chip words (R270 to R272) and the outcome of a read (Table 11-4). -/
namespace Sys2Proof.Machine

/-- m1(x) = x^7 + x^3 + 1. -/
def eccM1 : Nat := 0x89
/-- m3(x), the minimal polynomial of α^3 for a root α of m1: x^7 + x^3 + x^2 + x + 1. -/
def eccM3 : Nat := 0x8F

/-- Product of polynomials over GF(2), `n` bits of the second factor. -/
def polyMul : Nat → Nat → Nat → Nat
  | 0, _, _ => 0
  | n + 1, a, b => (if b % 2 = 1 then a else 0) ^^^ polyMul n (2 * a) (b / 2)

/-- G(x) = (x + 1)·m1(x)·m3(x), of degree 15. -/
def eccG : Nat := polyMul 8 (polyMul 8 3 eccM1) eccM3

/-- x^n mod G(x). -/
def eccPow : Nat → Nat
  | 0 => 1
  | n + 1 => let y := 2 * eccPow n; if y ≥ 2 ^ 15 then y ^^^ eccG else y

/-- Contribution of the bits of `x`, `w` of them, standing at degrees from `d`. -/
def eccSum (w d x : Nat) : Nat :=
  (List.range w).foldl (fun a i => if bitOf x i then a ^^^ eccPow (d + i) else a) 0

/-- Parity of the 34 address bits. -/
def addrParity (a : Nat) : Bool := popcount 34 a % 2 = 1

/-- The 16 check bits of a word of data `d` at address `a` with parity bit `p` (R270). -/
def checkBits (d a : Nat) (p : Bool) : Nat :=
  let c := eccSum 64 15 d ^^^ (if p then eccPow 79 else 0) ^^^ eccSum 34 80 a
  c + (if p then 2 ^ 15 else 0)

/-- A good word: data in [63:0], check bits in [79:64]. -/
def goodWord (d a : Nat) : Nat := d % 2 ^ 64 + 2 ^ 64 * checkBits d a (addrParity a)

/-- A poisoned word (R272). -/
def poisonWord (a : Nat) : Nat := 2 ^ 64 * checkBits 0 a (!addrParity a)

/-- The syndrome of stored bits `w` read at address `a`. -/
def syndrome (w a : Nat) : Nat :=
  eccSum 15 0 (bitsOf w 78 64) ^^^ eccSum 64 15 (w % 2 ^ 64) ^^^ (if bitOf w 79 then eccPow 79 else 0) ^^^ eccSum 34 80 a

/-- Error positions by degree: check bits 0 to 14, data from 15, parity at 79, address from 80 to 113. -/
def errorPair (s : Nat) : Option (List Nat) :=
  match (List.range 114).find? fun i => eccPow i = s with
  | some i => some [i]
  | none =>
    (List.range 114).findSome? fun i =>
      ((List.range i).find? fun j => eccPow i ^^^ eccPow j = s).map fun j => [j, i]

/-- Flip the stored bit at a degree. -/
def flipDegree (w d : Nat) : Nat :=
  if d < 15 then w ^^^ 2 ^ (64 + d) else if d < 79 then w ^^^ 2 ^ (d - 15) else w ^^^ 2 ^ 79

/-- The outcome of a read (Table 11-4). -/
inductive ReadOutcome | good | corrected | poisoned | misdirected | uncorrectable
  deriving DecidableEq, Repr

/-- Read stored bits `w` at address `a`: the outcome and the data (0 where the word reads as uncorrectable). -/
def readWord (w a : Nat) : ReadOutcome × Nat :=
  let s := syndrome w a
  if s = 0 then
    if bitOf w 79 = addrParity a then (.good, w % 2 ^ 64) else (.poisoned, 0)
  else
    match errorPair s with
    | none => (.uncorrectable, 0)
    | some ps =>
      if ps.any (· ≥ 80) then (.misdirected, 0)
      else
        let w' := ps.foldl flipDegree w
        if bitOf w' 79 = addrParity a then (.corrected, w' % 2 ^ 64) else (.poisoned, 0)

/-- "Reads as uncorrectable" includes poisoned and misdirected words (R272). -/
def ReadOutcome.bad : ReadOutcome → Bool
  | .good | .corrected => false
  | _ => true

end Sys2Proof.Machine
end

