-- ==== Sys2Proof/Config.lean ====
section
/-! DEFINITION. What the spec leaves to the factory, to an implementation or open: constants with no body, so that no
proof can see a value. A statement about any of them holds for every value. -/
namespace Sys2Proof.Config

/-- Factory constants held in objects whose Default is "factory", "image" or "record" (1000.03, 1000.04, 2004.01, 2004.02,
2200.11, 2200.12). -/
opaque factory : ObjRef → Nat
/-- The hash of the public key of a key slot, in one-time-programmable memory (Table 18-8), 32 bytes. -/
opaque keyHash : Nat → Bytes
/-- SECURITY_VERSION_MIN and KEYS_REVOKED as the part left the factory. -/
opaque otpSecurityMin : Nat
opaque otpRevoked : BitVec 4
/-- Contents of the boot flash before the device first programs it: slot A (0), slot B (1), network record (2). -/
opaque bootFlash : Nat → Bytes
/-- The code that the TYPE field of an entry carries for an I64 object: Table 02-1 gives none. -/
opaque i64Code : Nat
/-- A value the spec leaves open, by the running number of the occasion. -/
opaque freeNat : Nat → Nat
/-- A byte that the spec leaves open: a nonce, or a byte of a store whose layout is the device's own. -/
opaque freeByte : Nat → Byte
/-- A reading of a counter object past the greatest value of its type, where the spec does not say that it wraps. -/
opaque counterPastMax : ObjRef → Int → Int
/-- Which stored block, if any, an uncorrectable word of the block buffer or the cell store belongs to. -/
opaque blockOfWord : Nat → Nat
/-- The check value of reference tile `i` (R107). -/
opaque refTileCrc : Nat → BitVec 32
/-- Which slot lane of its region, among those in service, computes a beam's visits (R13). -/
opaque slotLane : Nat → Nat
/-- An index of an unstated choice between equals (which cell, lane or spare unit goes first): by occasion. -/
opaque choice : Nat → Nat

end Sys2Proof.Config
end

