-- ==== Sys2Proof/Machine/Crc.lean ====
section
/-! DEFINITION. The check values of the spec: CRC-32C (Faceplate, Fiufen, boot, head memory), CRC-32/ISO-HDLC (Svetfin
frames), CRC-64/XZ and CRC-16/IBM-3740 (check-value units), CRC-4/G-704 (position samples). -/
namespace Sys2Proof.Machine

/-- One bit of a reflected CRC of width `w` with reversed polynomial `poly`. -/
def crcReflBit (w : Nat) (poly : BitVec w) (c : BitVec w) : BitVec w :=
  if c.getLsbD 0 then (c >>> 1) ^^^ poly else c >>> 1

/-- One byte of a reflected CRC. -/
def crcReflByte (w : Nat) (poly : BitVec w) (c : BitVec w) (b : Byte) : BitVec w :=
  foldN 8 (fun c _ => crcReflBit w poly c) (c ^^^ b.setWidth w)

/-- Bytes of a reflected CRC, from register value `c`. -/
def crcRefl (w : Nat) (poly : BitVec w) (c : BitVec w) (bs : Bytes) : BitVec w :=
  bs.foldl (crcReflByte w poly) c

/-- One byte of an unreflected CRC, most significant bit first. -/
def crcFwdByte (w : Nat) (poly : BitVec w) (c : BitVec w) (b : Byte) : BitVec w :=
  foldN 8 (fun c i =>
    let top := c.getMsbD 0
    let bit := b.getMsbD i
    if top != bit then (c <<< 1) ^^^ poly else c <<< 1) c

/-- Bytes of an unreflected CRC, from register value `c`. -/
def crcFwd (w : Nat) (poly : BitVec w) (c : BitVec w) (bs : Bytes) : BitVec w :=
  bs.foldl (crcFwdByte w poly) c

/-- CRC-32C: reflected, polynomial 0x1EDC6F41 (reversed 0x82F63B78), initial value and final XOR all ones. -/
def crc32c (bs : Bytes) : BitVec 32 := crcRefl 32 0x82F63B78#32 0xFFFFFFFF#32 bs ^^^ 0xFFFFFFFF#32

/-- CRC-32/ISO-HDLC: reflected, polynomial 0x04C11DB7 (reversed 0xEDB88320), initial value and final XOR all ones. -/
def crc32iso (bs : Bytes) : BitVec 32 := crcRefl 32 0xEDB88320#32 0xFFFFFFFF#32 bs ^^^ 0xFFFFFFFF#32

/-- CRC-4/G-704 over bits in the order given: reflected, polynomial x^4 + x + 1 (reversed 0xC), initial value 0, no final
XOR; over the bits of "123456789", least significant first, it gives 7 (R168). -/
def crc4 (bits : List Bool) : Nat :=
  (bits.foldl (fun (c : BitVec 4) b => if c.getLsbD 0 != b then (c >>> 1) ^^^ 0xC#4 else c >>> 1) 0#4).toNat

end Sys2Proof.Machine
end

