-- ==== Sys2Proof/Machine/Line.lean ====
section
/-! DEFINITION. The line code of the BLK, HST and PLK lanes: 64b/66b blocks, the control blocks of Table 08-1, the scrambler
(R188 to R192, R246). -/
namespace Sys2Proof.Machine

/-- A 64b/66b block before scrambling: control or data, and its 8 bytes. -/
structure Block where
  control : Bool
  bytes   : Bytes
  deriving DecidableEq, Repr

/-- SOF on a BLK lane (Table 08-1). -/
def sofBlk (lane : Nat) : Block := ⟨true, [0x5A, 0x53, 0x56, 0x46, byte lane, 0, 0, 0]⟩
/-- SOF on a PLK lane (R246). -/
def sofPlk (lane : Nat) : Block := ⟨true, [0x5A, 0x53, 0x56, 0x50, byte lane, 0, 0, 0]⟩
/-- EOF: the CRC-32 of the message in bytes 1 to 4, least significant byte first (R192). -/
def eofBlock (crc : BitVec 32) : Block := ⟨true, 0xE1 :: leBytes 4 crc.toNat ++ [0, 0, 0]⟩
/-- IDLE. -/
def idleBlock : Block := ⟨true, [0x1E, 0, 0, 0, 0, 0, 0, 0]⟩
/-- ALIGN: lane and FRAME_NUMBER of the last frame sent. -/
def alignBlock (lane frame : Nat) : Block := ⟨true, 0x4B :: byte lane :: leBytes 4 frame ++ [0, 0]⟩

/-- Data blocks of a message: eight bytes each, the last one padded with zeros. -/
def dataBlocks : Bytes → List Block
  | a :: b :: c :: d :: e :: f :: g :: h :: r => ⟨false, [a, b, c, d, e, f, g, h]⟩ :: dataBlocks r
  | [] => []
  | r => [⟨false, r ++ List.replicate (8 - r.length) 0⟩]

/-- A message on its lane: SOF, data, EOF (R190, R246). -/
def messageBlocks (sof : Block) (bytes : Bytes) (crc : BitVec 32) : List Block := sof :: dataBlocks bytes ++ [eofBlock crc]

/-- One bit of the self-synchronous scrambler x^58 + x^39 + 1 (R188): `r` holds the last 58 bits sent, the latest in bit 0. -/
def scrambleBit (r : BitVec 58) (b : Bool) : BitVec 58 × Bool :=
  let o := (b ^^ r.getLsbD 38) ^^ r.getLsbD 57
  ((r <<< 1) ||| (BitVec.ofBool o).setWidth 58, o)

/-- The bits of a block, bit 0 of its first byte first. -/
def blockBits (bytes : Bytes) : List Bool := bytes.flatMap fun b => (List.range 8).map b.getLsbD

/-- Bits through the scrambler, in order. -/
def scrambleBits : List Bool → BitVec 58 → List Bool × BitVec 58
  | [], r => ([], r)
  | b :: bs, r =>
    let (r, o) := scrambleBit r b
    let (os, r) := scrambleBits bs r
    (o :: os, r)

/-- Bits in order of sending as a number: the first is bit 0. -/
def bitsNat : List Bool → Nat
  | [] => 0
  | b :: bs => (if b then 1 else 0) + 2 * bitsNat bs

/-- A block on the line: the sync header, 0b01 for data and 0b10 for control, in bits 1 and 0, above it the 64 scrambled bits. DEDUCED:
a header is read as a number whose bit 0 is sent first, as bit 0 of the block is (R191). -/
def lineBlock (b : Block) (r : BitVec 58) : BitVec 66 × BitVec 58 :=
  let (os, r) := scrambleBits (blockBits b.bytes) r
  (BitVec.ofNat 66 ((if b.control then 2 else 1) + 4 * bitsNat os), r)

/-- Blocks on the line. -/
def lineBlocks : List Block → BitVec 58 → List (BitVec 66) × BitVec 58
  | [], r => ([], r)
  | b :: bs, r =>
    let (x, r) := lineBlock b r
    let (xs, r) := lineBlocks bs r
    (x :: xs, r)

/-- Blocks that a lane at 25.78125 Gbit/s sends from core cycle `a` to core cycle `b`: 125 in 128 cycles. -/
def blocksIn (a b : Nat) : Nat := 125 * b / 128 - 125 * a / 128

/-- What a BLK lane sends outside frames (R189): `n` blocks from block `i` of the period on, every thousandth an ALIGN block, so that no
1,024 blocks pass without one; only IDLE blocks where `only` (a retired lane, R193). -/
def idleRun (lane frame : Nat) (only : Bool) (i n : Nat) : List Block :=
  (List.range n).map fun j => if !only && (i + j) % 1000 = 0 then alignBlock lane frame else idleBlock

end Sys2Proof.Machine
end

