-- ==== Sys2Proof/Machine/Objects.lean ====
section
/-! DEFINITION. The object dictionary (R29 to R33, R412): the types, access codes, defaults and ranges of every object
table of the spec, one row per object or per run of objects of one name, and one constant per name. -/
namespace Sys2Proof.Machine

/-- The object types of Table 02-1; `i64` is used by 3500.05, 3500.08, 3502.04, 3502.05 and 3707.05, and Table 02-1
gives it no code. -/
inductive OType | bool | u8 | u16 | u32 | u64 | i16 | i32 | i64 | f32 | time | str | dom
  deriving DecidableEq, Repr

/-- The access codes of Table 02-2. -/
inductive Access | ro | rw | rs | wo | rc
  deriving DecidableEq, Repr

/-- The Default column: a value, values by sub-index, or where the value comes from (R32, R415). -/
inductive Dflt
  | val (v : Int)
  | cyc (vs : List Int)
  | strap | factory | otp | derived | none
  deriving DecidableEq, Repr

/-- The Range column, as far as it depends on the value alone (R30). -/
inductive Rng
  | any
  | span (lo hi : Int)
  | spanOr (lo hi other : Int)
  | oneOf (vs : List Int)
  | mult (m : Nat)
  | pow2 (lo hi : Nat)
  | even (lo hi : Int)
  | odd (lo hi : Int)
  | nonzero
  | f32NonNeg
  | f32Pos
  deriving DecidableEq, Repr

/-- A row of an object table: `count` consecutive sub-indices at each of `span` consecutive indexes from `base`. -/
structure ObjRow where
  base     : ObjRef
  count    : Nat
  span     : Nat
  name     : String
  type     : OType
  access   : Access
  dflt     : Dflt
  range    : Rng
  jobFixed : Bool
  stripe   : Bool
  thisJob  : Bool
  listed   : Bool
  chapter  : Nat
  deriving DecidableEq, Repr

/-- Rows of the object table of chapter 01. -/
def rows01_0 : List ObjRow := [
  ⟨0x201001, 4, 1, "REGION_STATE", .u8, .ro, (.val 0), (.span 0 4), false, false, false, false, 1⟩,
  ⟨0x201101, 4, 1, "RASTER_BLOCKS_IN_SERVICE", .u8, .ro, (.val 3), (.span 0 3), false, false, false, false, 1⟩,
  ⟨0x201201, 4, 1, "GOUGE_CELLS_IN_SERVICE", .u8, .ro, (.val 12), (.span 0 12), false, false, false, false, 1⟩,
  ⟨0x201301, 4, 1, "SLOT_LANES_IN_SERVICE", .u8, .ro, (.val 80), (.span 0 80), false, false, false, false, 1⟩,
  ⟨0x201400, 1, 1, "TILE_CLOCK_GATING", .bool, .rs, (.val 1), (.oneOf [0, 1]), false, false, false, false, 1⟩,
  ⟨0x201500, 1, 1, "REGION_IDLE_SLEEP", .bool, .rs, (.val 1), (.oneOf [0, 1]), false, false, false, false, 1⟩,
  ⟨0x201601, 4, 1, "REGION_WAKES", .u32, .ro, (.val 0), .any, false, false, false, false, 1⟩]

/-- Rows of the object table of chapter 02. -/
def rows02_0 : List ObjRow := [
  ⟨0x100001, 1, 1, "VENDOR_NAME", .str, .ro, .none, .any, false, false, false, false, 2⟩,
  ⟨0x100002, 1, 1, "PART_NAME", .str, .ro, .none, .any, false, false, false, false, 2⟩,
  ⟨0x100003, 1, 1, "STEPPING", .u8, .ro, .factory, (.span 1 255), false, false, false, false, 2⟩,
  ⟨0x100004, 1, 1, "SERIAL", .u64, .ro, .factory, .any, false, false, false, false, 2⟩,
  ⟨0x100005, 1, 1, "NODE_ID", .u16, .ro, .strap, (.span 0 511), false, false, false, false, 2⟩,
  ⟨0x100006, 1, 1, "PAIR_ROLE", .u8, .ro, .strap, (.oneOf [0, 1]), false, false, false, true, 2⟩,
  ⟨0x100007, 1, 1, "FIRMWARE_VERSION", .u32, .ro, .factory, .any, false, false, false, false, 2⟩,
  ⟨0x101001, 1, 1, "BEHAVIOUR_LEVEL_MAX", .u8, .ro, (.val 1), (.span 1 255), false, false, false, false, 2⟩,
  ⟨0x101002, 1, 1, "BEHAVIOUR_LEVEL", .u8, .rs, .derived, (.span 1 1), true, false, false, true, 2⟩,
  ⟨0x102001, 1, 1, "AUTH_REQUIRED", .bool, .rw, (.val 0), (.oneOf [0, 1]), false, false, false, false, 2⟩,
  ⟨0x102002, 1, 1, "SESSION_OPEN", .dom, .wo, .none, .any, false, false, false, false, 2⟩,
  ⟨0x102003, 1, 1, "SESSION_CLOSE", .u16, .wo, .none, (.span 1 65534), false, false, false, false, 2⟩,
  ⟨0x102004, 1, 1, "SESSION_TIMEOUT", .u16, .rw, (.val 10), (.span 1 3600), false, false, false, false, 2⟩,
  ⟨0x102005, 1, 1, "AUTH_KEY", .dom, .wo, .none, .any, false, false, false, false, 2⟩,
  ⟨0x102006, 1, 1, "FACEPLATE_PORT", .u16, .rs, (.val 47300), (.span 1024 65535), false, false, false, false, 2⟩,
  ⟨0x102007, 1, 1, "SESSIONS_OPEN", .u8, .ro, (.val 0), (.span 0 8), false, false, false, false, 2⟩,
  ⟨0x103001, 1, 1, "FP_MESSAGES_ACCEPTED", .u32, .rc, (.val 0), .any, false, false, false, false, 2⟩,
  ⟨0x103002, 1, 1, "FP_CRC_DISCARDS", .u32, .rc, (.val 0), .any, false, false, false, false, 2⟩,
  ⟨0x103003, 1, 1, "FP_AUTH_DISCARDS", .u32, .rc, (.val 0), .any, false, false, false, false, 2⟩,
  ⟨0x103004, 1, 1, "FP_SEQ_ERRORS", .u32, .rc, (.val 0), .any, false, false, false, false, 2⟩]

/-- Rows of the object table of chapter 02. -/
def rows02_1 : List ObjRow := [
  ⟨0x103005, 1, 1, "FP_SESSION_REFUSALS", .u32, .rc, (.val 0), .any, false, false, false, false, 2⟩,
  ⟨0x110001, 1, 1, "COMMIT", .u8, .wo, .none, (.span 1 1), false, false, false, false, 2⟩,
  ⟨0x110002, 1, 1, "STAGING_OWNER", .u16, .ro, (.val 0), (.span 0 65535), false, false, false, false, 2⟩,
  ⟨0x110003, 1, 1, "STAGED_ENTRIES", .u16, .ro, (.val 0), (.span 0 4096), false, false, false, false, 2⟩,
  ⟨0x110004, 1, 1, "COMMITS_ACCEPTED", .u32, .ro, (.val 0), .any, false, false, false, false, 2⟩,
  ⟨0x110005, 1, 1, "LAST_COMMIT_RESULT", .u8, .ro, (.val 0), (.oneOf [0, 6, 12]), false, false, false, true, 2⟩,
  ⟨0x110006, 1, 1, "LAST_CLAIMANT_1", .u32, .ro, (.val 0), .any, false, false, false, false, 2⟩,
  ⟨0x110007, 1, 1, "LAST_CLAIMANT_2", .u32, .ro, (.val 0), .any, false, false, false, false, 2⟩,
  ⟨0x110008, 1, 1, "LAST_CONFLICT", .u8, .ro, (.val 0), (.span 0 12), false, false, false, false, 2⟩,
  ⟨0x120001, 1, 1, "ABORT_JOB", .u8, .wo, .none, (.span 1 1), false, false, false, false, 2⟩,
  ⟨0x120002, 1, 1, "ABORT_DMA", .u32, .wo, .none, .nonzero, false, false, false, true, 2⟩,
  ⟨0x120003, 1, 1, "ABORT_COMPRESSION", .u16, .wo, .none, .nonzero, false, false, false, true, 2⟩,
  ⟨0x120004, 1, 1, "ABORT_CAMERA", .u8, .wo, .none, (.span 1 3), false, false, false, false, 2⟩,
  ⟨0x120005, 1, 1, "ABORT_CALIBRATION", .u8, .wo, .none, (.span 1 1), false, false, false, false, 2⟩,
  ⟨0x120006, 1, 1, "DISCARD_STAGING", .u8, .wo, .none, (.span 1 1), false, false, false, false, 2⟩,
  ⟨0x120101, 5, 1, "ABORT_STATE", .u8, .ro, (.val 0), (.span 0 2), false, false, false, false, 2⟩,
  ⟨0x210001, 1, 1, "JOB_STATE", .u8, .ro, (.val 0), (.span 0 8), false, false, false, false, 2⟩,
  ⟨0x210002, 1, 1, "JOB_ID", .u32, .ro, (.val 0), .any, false, false, false, false, 2⟩,
  ⟨0x210003, 1, 1, "JOB_CONTROL", .u8, .wo, .none, (.span 1 3), false, false, false, false, 2⟩,
  ⟨0x210004, 1, 1, "JOB_AUTO_START", .bool, .rs, (.val 0), (.oneOf [0, 1]), false, false, false, false, 2⟩]

/-- Rows of the object table of chapter 02. -/
def rows02_2 : List ObjRow := [
  ⟨0x210005, 1, 1, "JOBS_COMPLETED", .u32, .ro, (.val 0), .any, false, false, false, false, 2⟩,
  ⟨0x210006, 1, 1, "START_REFUSAL", .u8, .ro, (.val 0), (.oneOf [0, 4, 5, 13]), false, false, false, true, 2⟩,
  ⟨0x210101, 1, 1, "PROG_STRIPE", .u32, .ro, (.val 0), .any, false, false, false, false, 2⟩,
  ⟨0x210102, 1, 1, "PROG_BAND", .u16, .ro, (.val 0), .any, false, false, false, false, 2⟩,
  ⟨0x210103, 1, 1, "PROG_FLASH_INDEX", .i32, .ro, (.val 0), .any, false, false, false, false, 2⟩,
  ⟨0x210104, 1, 1, "PROG_PERMILLE", .u16, .ro, (.val 0), (.span 0 1000), false, false, false, false, 2⟩,
  ⟨0x210105, 1, 1, "PROG_PASS", .u8, .ro, (.val 0), (.oneOf [0, 1]), false, false, false, true, 2⟩,
  ⟨0x210106, 1, 1, "PROG_TIME", .time, .ro, (.val 0), .any, false, false, false, false, 2⟩]

/-- Rows of the object table of chapter 03. -/
def rows03_0 : List ObjRow := [
  ⟨0x220001, 1, 1, "RING_BASE", .u64, .rs, (.val 0), (.mult 64), true, false, false, true, 3⟩,
  ⟨0x220002, 1, 1, "RING_ENTRIES", .u32, .rs, (.val 256), (.pow2 16 65536), true, false, false, true, 3⟩,
  ⟨0x220003, 1, 1, "REPAIR_RING_BASE", .u64, .rs, (.val 0), (.mult 64), true, false, false, true, 3⟩,
  ⟨0x220004, 1, 1, "REPAIR_RING_ENTRIES", .u16, .rs, (.val 64), (.pow2 16 1024), true, false, false, true, 3⟩,
  ⟨0x220005, 1, 1, "WRITEBACK_ADDR", .u64, .rs, (.val 0), (.mult 16), true, false, false, true, 3⟩,
  ⟨0x220006, 1, 1, "STREAM_ENABLE", .bool, .rw, (.val 0), (.oneOf [0, 1]), false, false, false, false, 3⟩,
  ⟨0x220007, 1, 1, "STREAM_PRODUCER", .u32, .rw, (.val 0), .any, false, false, false, false, 3⟩,
  ⟨0x220008, 1, 1, "REPAIR_PRODUCER", .u32, .rw, (.val 0), .any, false, false, false, false, 3⟩,
  ⟨0x220009, 1, 1, "STREAM_CONSUMER", .u32, .ro, (.val 0), .any, false, false, false, false, 3⟩,
  ⟨0x22000A, 1, 1, "STREAM_RELEASE", .u32, .ro, (.val 0), .any, false, false, false, false, 3⟩,
  ⟨0x22000B, 1, 1, "STREAM_STATE", .u8, .ro, (.val 0), (.span 0 5), false, false, false, false, 3⟩,
  ⟨0x22000C, 1, 1, "PREFETCH_DEPTH", .u8, .rs, (.val 8), (.span 1 16), false, false, false, false, 3⟩,
  ⟨0x22000D, 1, 1, "WRITEBACK_MSIX", .bool, .rs, (.val 1), (.oneOf [0, 1]), false, false, false, false, 3⟩,
  ⟨0x22000E, 1, 1, "HOST_LINK_STATE", .u8, .ro, (.val 0), (.oneOf [0, 1]), false, false, false, true, 3⟩,
  ⟨0x22000F, 1, 1, "HOST_LINK_WIDTH", .u8, .ro, (.val 0), (.oneOf [0, 1, 2, 4, 8]), false, false, false, true, 3⟩,
  ⟨0x220010, 1, 1, "HOST_LINK_SPEED", .u8, .ro, (.val 0), (.span 0 5), false, false, false, false, 3⟩,
  ⟨0x220011, 1, 1, "PCI_VENDOR_ID", .u16, .ro, .factory, .any, false, false, false, false, 3⟩,
  ⟨0x220012, 1, 1, "PCI_DEVICE_ID", .u16, .ro, .factory, .any, false, false, false, false, 3⟩,
  ⟨0x220013, 1, 1, "BAR_ACCESS_ERRORS", .u32, .rc, (.val 0), .any, false, false, false, false, 3⟩,
  ⟨0x220014, 1, 1, "HOST_RESETS", .u32, .ro, (.val 0), .any, false, false, false, false, 3⟩]

/-- Rows of the object table of chapter 03. -/
def rows03_1 : List ObjRow := [
  ⟨0x220101, 1, 1, "BLOCKS_ACCEPTED", .u32, .ro, (.val 0), .any, false, false, true, false, 3⟩,
  ⟨0x220102, 1, 1, "BYTES_ACCEPTED", .u64, .ro, (.val 0), .any, false, false, true, false, 3⟩,
  ⟨0x220103, 1, 1, "REFETCHES", .u32, .rc, (.val 0), .any, false, false, false, false, 3⟩,
  ⟨0x220104, 1, 1, "REJECTIONS", .u32, .rc, (.val 0), .any, false, false, false, false, 3⟩,
  ⟨0x220105, 1, 1, "REPAIRS_ACCEPTED", .u32, .ro, (.val 0), .any, false, false, true, false, 3⟩,
  ⟨0x220106, 1, 1, "PENDING_REJECTIONS", .u16, .ro, (.val 0), (.span 0 256), false, false, false, false, 3⟩,
  ⟨0x220107, 1, 1, "EXPECTED_SEQ", .u32, .ro, (.val 0), .any, false, false, false, false, 3⟩,
  ⟨0x220108, 1, 1, "AREAS_GIVEN_UP", .u32, .ro, (.val 0), .any, false, false, true, false, 3⟩,
  ⟨0x220109, 1, 1, "DOORBELL_ERRORS", .u32, .rc, (.val 0), .any, false, false, false, false, 3⟩,
  ⟨0x220201, 1, 1, "LAST_REJ_RING", .u8, .ro, (.val 0), (.oneOf [0, 1]), false, false, false, true, 3⟩,
  ⟨0x220202, 1, 1, "LAST_REJ_INDEX", .u32, .ro, (.val 0), .any, false, false, false, false, 3⟩,
  ⟨0x220203, 1, 1, "LAST_REJ_TAG", .u32, .ro, (.val 0), .any, false, false, false, false, 3⟩,
  ⟨0x220204, 1, 1, "LAST_REJ_STATUS", .u8, .ro, (.val 0), (.span 2 12), false, false, false, false, 3⟩,
  ⟨0x220205, 1, 1, "LAST_REJ_TYPE", .u8, .ro, (.val 0), .any, false, false, false, false, 3⟩,
  ⟨0x220206, 1, 1, "LAST_REJ_JOB", .u32, .ro, (.val 0), .any, false, false, false, false, 3⟩,
  ⟨0x220207, 1, 1, "LAST_REJ_STRIPE", .u32, .ro, (.val 0), .any, false, false, false, false, 3⟩,
  ⟨0x220208, 1, 1, "LAST_REJ_BAND", .u16, .ro, (.val 0), .any, false, false, false, false, 3⟩,
  ⟨0x220209, 1, 1, "LAST_REJ_SEQ", .u32, .ro, (.val 0), .any, false, false, false, false, 3⟩,
  ⟨0x22020A, 1, 1, "LAST_REJ_DETAIL", .u32, .ro, (.val 0), .any, false, false, false, false, 3⟩,
  ⟨0x22020B, 1, 1, "PENDING_LIST", .dom, .ro, .none, .any, false, false, false, false, 3⟩]

/-- Rows of the object table of chapter 03. -/
def rows03_2 : List ObjRow := [
  ⟨0x220301, 1, 1, "BLOCK_BUFFER_BASE", .u64, .rs, (.val 0), .any, true, false, false, false, 3⟩,
  ⟨0x220302, 1, 1, "BLOCK_BUFFER_SIZE", .u64, .rs, (.val 268435456), (.span 67108864 4294967296), true, false, false, false, 3⟩,
  ⟨0x220303, 1, 1, "CELL_STORE_BASE", .u64, .rs, (.val 268435456), .any, true, false, false, false, 3⟩,
  ⟨0x220304, 1, 1, "CELL_STORE_SIZE", .u64, .rs, (.val 1073741824), (.span 16777216 17179869184), true, false, false, false, 3⟩,
  ⟨0x220305, 1, 1, "CELL_STORE_USED", .u64, .ro, (.val 0), .any, false, false, true, false, 3⟩,
  ⟨0x220306, 1, 1, "CELLS_DEFINED", .u16, .ro, (.val 0), (.span 0 65535), false, false, true, false, 3⟩,
  ⟨0x220307, 1, 1, "MARKS_LOADED", .u16, .ro, (.val 0), (.span 0 4096), false, false, false, false, 3⟩,
  ⟨0x220400, 1, 1, "REJECT_GIVE_UP_LEAD", .u32, .rs, (.val 16384), (.span 4096 1048576), false, false, false, false, 3⟩,
  ⟨0x220501, 1, 1, "JOB_AREA", .u64, .ro, (.val 0), .any, false, false, false, false, 3⟩,
  ⟨0x220502, 1, 1, "JOB_STRIPES", .u32, .ro, (.val 0), .any, false, false, false, false, 3⟩,
  ⟨0x220503, 1, 1, "JOB_PIXEL_SIZE", .u32, .ro, (.val 0), .any, false, false, false, false, 3⟩]

/-- Rows of the object table of chapter 04. -/
def rows04_0 : List ObjRow := [
  ⟨0x230001, 1, 1, "SHADOW_TEST_ENABLE", .bool, .rs, (.val 1), (.oneOf [0, 1]), false, false, false, false, 4⟩,
  ⟨0x230002, 1, 1, "SHADOW_TEST_PERIOD", .u16, .rs, (.val 100), (.span 1 10000), false, false, false, false, 4⟩,
  ⟨0x230003, 1, 1, "PACE_WARN_LEAD", .u32, .rs, (.val 16384), (.span 0 1048576), false, false, false, false, 4⟩,
  ⟨0x230101, 4, 1, "TILES_RASTERIZED", .u64, .ro, (.val 0), .any, false, false, true, false, 4⟩,
  ⟨0x230201, 4, 1, "TILES_EMPTY", .u64, .ro, (.val 0), .any, false, false, true, false, 4⟩,
  ⟨0x230301, 4, 1, "AREA_CHECK_FAILS", .u32, .rc, (.val 0), .any, false, false, false, false, 4⟩,
  ⟨0x230401, 4, 1, "DUAL_MISMATCHES", .u32, .rc, (.val 0), .any, false, false, false, false, 4⟩,
  ⟨0x230501, 4, 1, "TILES_SPLIT", .u32, .ro, (.val 0), .any, false, false, true, false, 4⟩,
  ⟨0x230601, 4, 1, "TILES_UNRESOLVED", .u32, .ro, (.val 0), .any, false, false, true, false, 4⟩,
  ⟨0x230701, 4, 1, "RASTER_LEAD", .i32, .ro, (.val 0), .any, false, false, false, false, 4⟩,
  ⟨0x230801, 4, 1, "PACE_WARNINGS", .u32, .rc, (.val 0), .any, false, false, false, false, 4⟩,
  ⟨0x230901, 48, 1, "CELL_STATE", .u8, .ro, (.val 0), (.span 0 5), false, false, false, false, 4⟩,
  ⟨0x230A01, 48, 1, "CELL_FAILS", .u16, .ro, (.val 0), (.span 0 1000), false, false, false, false, 4⟩,
  ⟨0x230B01, 12, 1, "BLOCK_STATE", .u8, .ro, (.val 0), (.oneOf [0, 1]), false, false, false, true, 4⟩,
  ⟨0x230C01, 1, 1, "LAST_FAIL_REGION", .u8, .ro, (.val 0), (.span 0 3), false, false, false, false, 4⟩,
  ⟨0x230C02, 1, 1, "LAST_FAIL_CELL", .u8, .ro, (.val 0), (.span 0 47), false, false, false, false, 4⟩,
  ⟨0x230C03, 1, 1, "LAST_FAIL_STRIPE", .u32, .ro, (.val 0), .any, false, false, false, false, 4⟩,
  ⟨0x230C04, 1, 1, "LAST_FAIL_TILE_COLUMN", .u32, .ro, (.val 0), .any, false, false, false, false, 4⟩,
  ⟨0x230C05, 1, 1, "LAST_FAIL_TILE_ROW", .u16, .ro, (.val 0), .any, false, false, false, false, 4⟩,
  ⟨0x230C06, 1, 1, "LAST_FAIL_CHECK", .u8, .ro, (.val 0), (.span 0 4), false, false, false, false, 4⟩]

/-- Rows of the object table of chapter 04. -/
def rows04_1 : List ObjRow := [
  ⟨0x230C07, 1, 1, "LAST_FAIL_DEVIATION", .i32, .ro, (.val 0), .any, false, false, false, false, 4⟩,
  ⟨0x230D00, 1, 1, "SHADOW_TEST_FAILS", .u32, .rc, (.val 0), .any, false, false, false, false, 4⟩]

/-- Rows of the object table of chapter 05. -/
def rows05_0 : List ObjRow := [
  ⟨0x240001, 1, 1, "PEC_ENABLE", .bool, .rs, (.val 0), (.oneOf [0, 1]), true, false, false, false, 5⟩,
  ⟨0x240002, 1, 1, "DOSE_NOMINAL", .u8, .rs, (.val 128), (.span 1 255), true, false, false, false, 5⟩,
  ⟨0x240003, 1, 1, "KERNEL_RADIUS_CELLS", .u8, .ro, (.val 0), (.span 0 128), false, false, false, false, 5⟩,
  ⟨0x240004, 1, 1, "KERNEL_RADIUS_PIXELS", .u16, .ro, (.val 0), (.span 0 4096), false, false, false, false, 5⟩,
  ⟨0x240005, 1, 1, "CORR_WARN_LEAD", .u32, .rs, (.val 16384), (.span 0 1048576), false, false, false, false, 5⟩,
  ⟨0x240101, 3, 1, "TERM_SIGMA", .u32, .rs, (.val 8192), (.span 256 1048576), true, false, false, false, 5⟩,
  ⟨0x240201, 3, 1, "TERM_ETA", .u16, .rs, (.val 0), (.span 0 32768), true, false, false, false, 5⟩,
  ⟨0x240301, 3, 1, "TERM_TAPS", .dom, .ro, .none, .any, false, false, false, false, 5⟩,
  ⟨0x240401, 4, 1, "CORR_LEAD", .i32, .ro, (.val 0), .any, false, false, false, false, 5⟩,
  ⟨0x240501, 4, 1, "CORR_WARNINGS", .u32, .rc, (.val 0), .any, false, false, false, false, 5⟩,
  ⟨0x240601, 4, 1, "CORR_MISMATCHES", .u32, .rc, (.val 0), .any, false, false, false, false, 5⟩,
  ⟨0x240701, 4, 1, "CORR_BLOCK_STATE", .u8, .ro, (.val 0), (.oneOf [0, 1]), false, false, false, true, 5⟩,
  ⟨0x240801, 4, 1, "SPOOL_SATURATIONS", .u64, .ro, (.val 0), .any, false, false, true, false, 5⟩,
  ⟨0x240901, 4, 1, "FACTOR_CLAMPS", .u64, .ro, (.val 0), .any, false, false, true, false, 5⟩,
  ⟨0x240A01, 4, 1, "PLACEMENT_SATURATIONS", .u64, .ro, (.val 0), .any, false, false, true, false, 5⟩,
  ⟨0x241001, 64, 1, "CLASS_ENTRY", .u16, .rs, .derived, .any, true, false, false, true, 5⟩,
  ⟨0x243001, 1, 1, "FIT_FIELD", .u8, .wo, .none, (.span 0 63), false, false, false, false, 5⟩,
  ⟨0x243002, 1, 1, "FIT_ORDER", .u8, .rw, (.val 3), (.span 1 3), false, false, false, false, 5⟩,
  ⟨0x243003, 1, 1, "FIT_MAX_RESIDUAL", .u32, .rw, (.val 256), (.span 1 65536), false, false, false, false, 5⟩,
  ⟨0x243004, 1, 1, "FIT_STAGE", .u8, .wo, .none, (.span 1 1), false, false, false, false, 5⟩]

/-- Rows of the object table of chapter 05. -/
def rows05_1 : List ObjRow := [
  ⟨0x243101, 1, 1, "FIT_STATUS", .u8, .ro, (.val 0), (.span 0 6), false, false, false, false, 5⟩,
  ⟨0x243102, 1, 1, "FIT_FIELD_LAST", .u8, .ro, (.val 0), (.span 0 63), false, false, false, false, 5⟩,
  ⟨0x243103, 1, 1, "FIT_MARKS_USED", .u16, .ro, (.val 0), (.span 0 4096), false, false, false, false, 5⟩,
  ⟨0x243104, 1, 1, "FIT_RMS", .u32, .ro, (.val 0), .any, false, false, false, false, 5⟩,
  ⟨0x243105, 1, 1, "FIT_MAX", .u32, .ro, (.val 0), .any, false, false, false, false, 5⟩,
  ⟨0x243201, 10, 1, "FIT_A", .i32, .ro, (.val 0), .any, false, false, false, false, 5⟩,
  ⟨0x243301, 10, 1, "FIT_B", .i32, .ro, (.val 0), .any, false, false, false, false, 5⟩,
  ⟨0x244001, 1, 64, "FIELD_ENABLE", .bool, .rs, (.val 0), (.oneOf [0, 1]), false, true, false, false, 5⟩,
  ⟨0x244002, 1, 64, "X_LO", .i32, .rs, (.val 0), .any, false, true, false, false, 5⟩,
  ⟨0x244003, 1, 64, "X_HI", .i32, .rs, (.val 0), .any, false, true, false, false, 5⟩,
  ⟨0x244004, 1, 64, "Y_LO", .i32, .rs, (.val 0), .any, false, true, false, false, 5⟩,
  ⟨0x244005, 1, 64, "Y_HI", .i32, .rs, (.val 0), .any, false, true, false, false, 5⟩,
  ⟨0x244006, 1, 64, "FIELD_XC", .i32, .rs, (.val 0), .any, false, true, false, false, 5⟩,
  ⟨0x244007, 1, 64, "FIELD_YC", .i32, .rs, (.val 0), .any, false, true, false, false, 5⟩,
  ⟨0x244008, 1, 64, "FIELD_SHIFT", .u8, .rs, (.val 16), (.span 0 31), false, true, false, false, 5⟩,
  ⟨0x244009, 10, 64, "FIELD_A", .i32, .rs, (.val 0), (.span (-8388608) 8388608), false, true, false, false, 5⟩,
  ⟨0x244013, 10, 64, "FIELD_B", .i32, .rs, (.val 0), (.span (-8388608) 8388608), false, true, false, false, 5⟩]

/-- Rows of the object table of chapter 06. -/
def rows06_0 : List ObjRow := [
  ⟨0x250001, 1, 1, "BEAM_PITCH", .u8, .ro, (.val 32), (.oneOf [16, 20, 24, 30, 32]), false, false, false, true, 6⟩,
  ⟨0x250002, 1, 1, "ROWS_PER_GROUP", .u8, .ro, (.val 15), (.span 15 30), false, false, false, false, 6⟩,
  ⟨0x250003, 1, 1, "DELIVERABLE_CEILING", .u16, .ro, (.val 210), (.span 180 450), false, false, false, false, 6⟩,
  ⟨0x250004, 1, 1, "LOAD_REACH", .u16, .ro, (.val 56), (.span 40 56), false, false, false, false, 6⟩,
  ⟨0x250101, 1, 1, "SWEEP_STATE", .u8, .ro, (.val 0), (.span 0 4), false, false, false, false, 6⟩,
  ⟨0x250102, 1, 1, "SWEEP_KIND", .u8, .ro, (.val 0), (.oneOf [0, 1]), false, false, false, true, 6⟩,
  ⟨0x250103, 1, 1, "SWEEP_DIRECTION", .u8, .ro, (.val 0), (.oneOf [0, 1]), false, false, false, true, 6⟩,
  ⟨0x250104, 1, 1, "SWEEP_LENGTH", .u32, .ro, (.val 0), (.span 1 2147483647), false, false, false, true, 6⟩,
  ⟨0x250105, 1, 1, "SWEEP_LAST_INDEX", .i32, .ro, (.val 0), .any, false, false, false, false, 6⟩,
  ⟨0x250106, 1, 1, "TURNAROUND_HOLD", .bool, .rs, (.val 0), (.oneOf [0, 1]), false, false, false, false, 6⟩,
  ⟨0x250107, 1, 1, "TURNAROUND_RELEASE", .u8, .wo, .none, (.span 1 1), false, false, false, false, 6⟩,
  ⟨0x250108, 1, 1, "TURNAROUND_HELD", .bool, .ro, (.val 0), (.oneOf [0, 1]), false, false, false, false, 6⟩,
  ⟨0x250301, 1, 1, "RESIDUAL_TOLERANCE", .u8, .rs, (.val 32), (.span 0 64), true, false, false, false, 6⟩,
  ⟨0x250302, 1, 1, "SLOT_RESERVE", .u8, .rs, (.val 1), (.span 0 3), true, false, false, false, 6⟩,
  ⟨0x250303, 1, 1, "CAP_IN_EFFECT", .u8, .ro, (.val 15), (.span 1 15), false, false, false, false, 6⟩,
  ⟨0x250401, 4, 1, "VISITS_COMPUTED", .u64, .ro, (.val 0), .any, false, false, true, false, 6⟩,
  ⟨0x250501, 9, 1, "LOST_VISITS", .u64, .ro, (.val 0), .any, false, false, true, false, 6⟩,
  ⟨0x250601, 4, 1, "RAIL_MISMATCHES", .u32, .rc, (.val 0), .any, false, false, false, false, 6⟩,
  ⟨0x250701, 4, 1, "ADDED_BACK_CODES", .u64, .ro, (.val 0), .any, false, false, true, false, 6⟩,
  ⟨0x250801, 4, 1, "REM_SATURATIONS", .u32, .rc, (.val 0), .any, false, false, false, false, 6⟩]

/-- Rows of the object table of chapter 06. -/
def rows06_1 : List ObjRow := [
  ⟨0x250901, 4, 1, "PIXELS_RESIDUAL", .u64, .ro, (.val 0), .any, false, false, true, false, 6⟩,
  ⟨0x250A01, 4, 1, "PIXELS_NEVER_LOADED", .u64, .ro, (.val 0), .any, false, false, true, false, 6⟩,
  ⟨0x250B01, 4, 1, "LOAD_LEAD", .i32, .ro, (.val 0), .any, false, false, false, false, 6⟩]

/-- Rows of the object table of chapter 07. -/
def rows07_0 : List ObjRow := [
  ⟨0x260001, 1, 1, "FLASH_PERIOD", .u16, .rs, (.val 1000), (.span 1000 8000), true, false, false, false, 7⟩,
  ⟨0x260002, 1, 1, "FRAME_SYNC_DELAY", .u16, .rs, (.val 400), (.span 0 4000), true, false, false, false, 7⟩,
  ⟨0x260003, 1, 1, "PREDICTION_HORIZON", .u16, .ro, (.val 2400), (.span 2000 20000), false, false, false, false, 7⟩,
  ⟨0x260101, 1, 1, "POS_ENABLE", .bool, .rs, (.val 0), (.oneOf [0, 1]), false, false, false, false, 7⟩,
  ⟨0x260102, 1, 1, "POS_TIMEOUT", .u16, .rs, (.val 200), (.span 50 10000), false, false, false, false, 7⟩,
  ⟨0x260103, 1, 1, "POS_JUMP_LIMIT", .u32, .rs, (.val 65536), (.span 1024 134217727), false, false, false, false, 7⟩,
  ⟨0x260104, 1, 1, "POS_RESUME_LIMIT", .u32, .rs, (.val 10000), (.span 0 10000000), false, false, false, false, 7⟩,
  ⟨0x260105, 1, 1, "POS_STATE", .u8, .ro, (.val 0), (.span 0 4), false, false, false, false, 7⟩,
  ⟨0x260106, 1, 1, "POS_SAMPLES_GOOD", .u64, .ro, (.val 0), .any, false, false, false, false, 7⟩,
  ⟨0x260107, 1, 1, "POS_CRC_ERRORS", .u32, .rc, (.val 0), .any, false, false, false, false, 7⟩,
  ⟨0x260108, 1, 1, "POS_FRAMING_ERRORS", .u32, .rc, (.val 0), .any, false, false, false, false, 7⟩,
  ⟨0x260109, 1, 1, "POS_SEQ_GAPS", .u32, .rc, (.val 0), .any, false, false, false, false, 7⟩,
  ⟨0x26010A, 1, 1, "POS_JUMPS", .u32, .rc, (.val 0), .any, false, false, false, false, 7⟩,
  ⟨0x26010B, 1, 1, "POS_LOSSES", .u32, .rc, (.val 0), .any, false, false, false, false, 7⟩,
  ⟨0x260201, 1, 1, "POS_SWEEP_PIXEL", .i32, .ro, (.val 0), .any, false, false, false, false, 7⟩,
  ⟨0x260202, 1, 1, "POS_SWEEP_FRACTION", .u16, .ro, (.val 0), (.span 0 1023), false, false, false, false, 7⟩,
  ⟨0x260203, 1, 1, "POS_Y", .i32, .ro, (.val 0), .any, false, false, false, false, 7⟩,
  ⟨0x260204, 1, 1, "POS_VELOCITY", .i32, .ro, (.val 0), .any, false, false, false, false, 7⟩,
  ⟨0x260205, 1, 1, "POS_TIME", .time, .ro, (.val 0), .any, false, false, false, false, 7⟩,
  ⟨0x260301, 1, 1, "FLASHES_ISSUED", .u64, .ro, (.val 0), .any, false, false, true, false, 7⟩]

/-- Rows of the object table of chapter 07. -/
def rows07_1 : List ObjRow := [
  ⟨0x260302, 1, 1, "REPEATS_BLANKED", .u64, .ro, (.val 0), .any, false, false, true, false, 7⟩,
  ⟨0x260303, 1, 1, "INDEXES_SKIPPED", .u64, .ro, (.val 0), .any, false, false, true, false, 7⟩,
  ⟨0x260304, 1, 1, "OVERSPEED_SKIPS_WINDOW", .u16, .ro, (.val 0), (.span 0 1000), false, false, false, false, 7⟩,
  ⟨0x260305, 1, 1, "RANGE_REFUSALS", .u32, .ro, (.val 0), .any, false, false, true, false, 7⟩,
  ⟨0x260306, 1, 1, "FIRE_WITHHELD", .u32, .ro, (.val 0), .any, false, false, true, false, 7⟩,
  ⟨0x260307, 1, 1, "HOLD_PERIODS", .u64, .ro, (.val 0), .any, false, false, true, false, 7⟩,
  ⟨0x260308, 1, 1, "STRIPES_BLANKED", .u32, .ro, (.val 0), .any, false, false, true, false, 7⟩,
  ⟨0x260309, 1, 1, "STAGE_SLOW", .bool, .ro, (.val 0), (.oneOf [0, 1]), false, false, false, false, 7⟩,
  ⟨0x26030A, 1, 1, "STAGE_HOLD", .bool, .ro, (.val 0), (.oneOf [0, 1]), false, false, false, false, 7⟩,
  ⟨0x260401, 1, 1, "SKIP_WARN", .u16, .rs, (.val 4), (.span 1 1000), false, false, false, false, 7⟩,
  ⟨0x260402, 1, 1, "SKIP_CLEAR", .u16, .rs, (.val 1), (.span 0 999), false, false, false, false, 7⟩,
  ⟨0x260403, 1, 1, "SKIP_LIMIT", .u16, .rs, (.val 20), (.span 1 1000), false, false, false, false, 7⟩,
  ⟨0x260501, 1, 1, "DEFL_RANGE", .u8, .rs, (.val 16), (.span 2 16), false, true, false, false, 7⟩,
  ⟨0x260502, 1, 1, "DEFL_GAIN_X", .i32, .rs, (.val 131072), .any, false, true, false, false, 7⟩,
  ⟨0x260503, 1, 1, "DEFL_GAIN_Y", .i32, .rs, (.val 131072), .any, false, true, false, false, 7⟩,
  ⟨0x260504, 1, 1, "DEFL_OFFSET_X", .i16, .rs, (.val 0), .any, false, true, false, false, 7⟩,
  ⟨0x260505, 1, 1, "DEFL_OFFSET_Y", .i16, .rs, (.val 0), .any, false, true, false, false, 7⟩,
  ⟨0x260506, 1, 1, "DEFL_OUT_DELAY", .u16, .rs, (.val 80), (.span 0 4000), false, true, false, false, 7⟩,
  ⟨0x260507, 1, 1, "DEFL_WORD_X", .i16, .ro, (.val 0), .any, false, false, false, false, 7⟩,
  ⟨0x260508, 1, 1, "DEFL_WORD_Y", .i16, .ro, (.val 0), .any, false, false, false, false, 7⟩]

/-- Rows of the object table of chapter 07. -/
def rows07_2 : List ObjRow := [
  ⟨0x260509, 1, 1, "DEFL_CLAMPS", .u32, .rc, (.val 0), .any, false, false, false, false, 7⟩,
  ⟨0x260601, 1, 1, "DEFL_LINK_ENABLE", .bool, .rs, (.val 0), (.oneOf [0, 1]), false, false, false, false, 7⟩,
  ⟨0x260602, 1, 1, "DEFL_LINK_STATE", .u8, .ro, (.val 0), (.oneOf [0, 1]), false, false, false, true, 7⟩,
  ⟨0x260603, 1, 1, "SYSREF_MODE", .u8, .rs, (.val 1), (.oneOf [0, 1]), false, false, false, true, 7⟩,
  ⟨0x260604, 1, 1, "SYSREF_PERIOD", .u16, .rs, (.val 8), (.span 1 256), false, false, false, false, 7⟩,
  ⟨0x260701, 1, 1, "PREWAKE_LEAD", .u32, .rs, (.val 500), (.span 0 100000), false, false, false, false, 7⟩,
  ⟨0x260702, 1, 1, "PREWAKE_DISTANCE", .u32, .rs, (.val 4096), (.span 0 1048576), false, false, false, false, 7⟩,
  ⟨0x260703, 1, 1, "WAKE_LATE", .u32, .rc, (.val 0), .any, false, false, false, false, 7⟩]

/-- Rows of the object table of chapter 08. -/
def rows08_0 : List ObjRow := [
  ⟨0x270001, 1, 1, "HEAD_ATTACH", .u8, .wo, .none, (.oneOf [1, 2]), false, false, false, true, 8⟩,
  ⟨0x270002, 1, 1, "HEAD_STATE", .u8, .ro, (.val 0), (.span 0 3), false, false, false, false, 8⟩,
  ⟨0x270003, 1, 1, "HEAD_ATTACH_ERROR", .u8, .ro, (.val 0), (.span 0 8), false, false, false, false, 8⟩,
  ⟨0x270004, 1, 1, "HEAD_I2C_SPEED", .u8, .rs, (.val 2), (.span 0 2), false, false, false, false, 8⟩,
  ⟨0x270005, 1, 1, "HEAD_AUTO_ATTACH", .bool, .rs, (.val 1), (.oneOf [0, 1]), false, false, false, false, 8⟩,
  ⟨0x270006, 1, 1, "HEAD_ATTACH_PERMILLE", .u16, .ro, (.val 0), (.span 0 1000), false, false, false, false, 8⟩,
  ⟨0x270101, 1, 1, "HEAD_MODEL", .str, .ro, .none, .any, false, false, false, false, 8⟩,
  ⟨0x270102, 1, 1, "HEAD_SERIAL", .u64, .ro, (.val 0), .any, false, false, false, false, 8⟩,
  ⟨0x270103, 1, 1, "HEAD_RANK", .u8, .ro, (.val 0), (.span 0 3), false, false, false, false, 8⟩,
  ⟨0x270104, 1, 1, "HEAD_PITCH", .u8, .ro, (.val 0), (.span 0 32), false, false, false, true, 8⟩,
  ⟨0x270105, 1, 1, "HEAD_TSETTLE", .u16, .ro, (.val 0), .any, false, false, false, false, 8⟩,
  ⟨0x270106, 1, 1, "HEAD_TEMP_WARN", .i16, .ro, (.val 0), .any, false, false, false, false, 8⟩,
  ⟨0x270107, 1, 1, "HEAD_TEMP_LIMIT", .i16, .ro, (.val 0), .any, false, false, false, false, 8⟩,
  ⟨0x270108, 1, 1, "HEAD_TEMP_HYST", .u16, .ro, (.val 0), .any, false, false, false, false, 8⟩,
  ⟨0x270109, 1, 1, "HEAD_MIN_SYNC_DELAY", .u16, .ro, (.val 0), .any, false, false, false, false, 8⟩,
  ⟨0x27010A, 1, 1, "HEAD_DEAD_COUNT", .u32, .ro, (.val 0), (.span 0 16384), false, false, false, false, 8⟩,
  ⟨0x270201, 1, 1, "FIRE_WIDTH", .u8, .rs, (.val 40), (.span 8 60), true, false, false, false, 8⟩,
  ⟨0x270202, 1, 1, "FIRE_STAGGER", .u8, .rs, (.val 1), (.span 0 8), true, false, false, false, 8⟩,
  ⟨0x270203, 1, 1, "FIRE_ROTATE", .bool, .rs, (.val 1), (.oneOf [0, 1]), true, false, false, false, 8⟩,
  ⟨0x270301, 8, 1, "FIRE_TRIM", .i16, .rs, (.val 0), (.span (-16) 16), false, true, false, false, 8⟩]

/-- Rows of the object table of chapter 08. -/
def rows08_1 : List ObjRow := [
  ⟨0x270401, 1, 1, "THERMAL_CAP", .u8, .rs, (.val 10), (.span 1 14), false, false, false, false, 8⟩,
  ⟨0x270402, 1, 1, "TEMP_STALE_LIMIT", .u16, .rs, (.val 64), (.span 8 1024), false, false, false, false, 8⟩,
  ⟨0x270403, 1, 1, "HEAD_TEMP", .i16, .ro, (.val 0), .any, false, false, false, false, 8⟩,
  ⟨0x270404, 1, 1, "THERMAL_STATE", .u8, .ro, (.val 0), (.span 0 2), false, false, false, false, 8⟩,
  ⟨0x270405, 1, 1, "THERMAL_CAP_ENTRIES", .u32, .rc, (.val 0), .any, false, false, false, false, 8⟩,
  ⟨0x270406, 1, 1, "HEAD_LIMIT_ENTRIES", .u32, .rc, (.val 0), .any, false, false, false, false, 8⟩,
  ⟨0x270501, 24, 1, "BLK_LANE_STATE", .u8, .ro, (.val 0), (.span 0 3), false, false, false, false, 8⟩,
  ⟨0x270601, 2, 1, "HST_LANE_STATE", .u8, .ro, (.val 0), (.oneOf [0, 1]), false, false, false, true, 8⟩,
  ⟨0x270701, 1, 1, "ACKS_ACCEPTED", .u64, .ro, (.val 0), .any, false, false, true, false, 8⟩,
  ⟨0x270702, 1, 1, "ACK_CRC_ERRORS", .u32, .rc, (.val 0), .any, false, false, false, false, 8⟩,
  ⟨0x270703, 1, 1, "ACK_TIMEOUTS", .u32, .rc, (.val 0), .any, false, false, false, false, 8⟩,
  ⟨0x270704, 1, 1, "ACK_LATE", .u32, .rc, (.val 0), .any, false, false, false, false, 8⟩,
  ⟨0x270705, 1, 1, "ACK_STRAY", .u32, .rc, (.val 0), .any, false, false, false, false, 8⟩,
  ⟨0x270706, 1, 1, "ACK_COPY_DISAGREE", .u32, .rc, (.val 0), .any, false, false, false, false, 8⟩,
  ⟨0x270707, 1, 1, "HEAD_PROTOCOL_ERRORS", .u32, .rc, (.val 0), .any, false, false, false, false, 8⟩,
  ⟨0x270708, 1, 1, "HEAD_CRC_MISMATCHES", .u32, .rc, (.val 0), .any, false, false, false, false, 8⟩,
  ⟨0x270709, 1, 1, "FRAMES_NOT_FIRED", .u64, .ro, (.val 0), .any, false, false, true, false, 8⟩,
  ⟨0x27070A, 1, 1, "LINK_CRC_MISMATCHES", .u32, .rc, (.val 0), .any, false, false, false, false, 8⟩,
  ⟨0x270801, 24, 1, "LANE_RX_FAILS", .u32, .rc, (.val 0), .any, false, false, false, false, 8⟩,
  ⟨0x270901, 1, 1, "GATE_CHECK_START", .u8, .wo, .none, (.span 1 1), false, false, false, false, 8⟩]

/-- Rows of the object table of chapter 08. -/
def rows08_2 : List ObjRow := [
  ⟨0x270902, 1, 1, "GATE_CHECK_STOP", .u8, .wo, .none, (.span 1 1), false, false, false, false, 8⟩,
  ⟨0x270903, 1, 1, "GATE_STATE", .u8, .ro, (.val 0), (.span 0 5), false, false, false, false, 8⟩,
  ⟨0x270904, 1, 1, "GATE_BEAMS", .u32, .rs, (.val 2048), (.span 1 307200), false, false, false, false, 8⟩,
  ⟨0x270905, 1, 1, "GATE_CODE", .u8, .rs, (.val 15), (.span 1 15), false, false, false, false, 8⟩,
  ⟨0x270906, 1, 1, "GATE_SHOTS", .u8, .rs, (.val 4), (.span 1 64), false, false, false, false, 8⟩,
  ⟨0x270907, 1, 1, "GATE_DELAY", .u16, .rs, (.val 2), (.span 0 1000), false, false, false, false, 8⟩,
  ⟨0x270908, 1, 1, "GATE_SPAN", .u16, .rs, (.val 200), (.span 1 2000), false, false, false, false, 8⟩,
  ⟨0x270909, 1, 1, "GATE_DARK_LIMIT", .u32, .rs, (.val 10000), .any, false, false, false, false, 8⟩,
  ⟨0x27090A, 1, 1, "GATE_WEAK_LEVEL", .u16, .rs, (.val 103), (.span 0 1023), false, false, false, false, 8⟩,
  ⟨0x27090B, 1, 1, "GATE_EFF_TOLERANCE", .u16, .rs, (.val 64), (.span 1 1023), false, false, false, false, 8⟩,
  ⟨0x27090C, 1, 1, "GATE_FAULT_LIMIT", .u8, .rs, (.val 3), (.span 1 15), false, false, false, false, 8⟩,
  ⟨0x27090D, 1, 1, "GATE_CURSOR", .u32, .ro, (.val 0), (.span 0 307199), false, false, false, false, 8⟩,
  ⟨0x27090E, 1, 1, "GATE_PERMILLE", .u16, .ro, (.val 0), (.span 0 1000), false, false, false, false, 8⟩,
  ⟨0x27090F, 1, 1, "GATE_BEAMS_DONE", .u32, .ro, (.val 0), .any, false, false, false, false, 8⟩,
  ⟨0x270910, 1, 1, "GATE_WORD_X", .i16, .rs, (.val 0), .any, false, false, false, false, 8⟩,
  ⟨0x270911, 1, 1, "GATE_WORD_Y", .i16, .rs, (.val 0), .any, false, false, false, false, 8⟩,
  ⟨0x270912, 1, 1, "GATE_RX_STATE", .u8, .ro, (.val 0), (.oneOf [0, 1]), false, false, false, true, 8⟩,
  ⟨0x270913, 1, 1, "GATE_LAST_BEAM", .u32, .ro, (.val 0), .any, false, false, false, false, 8⟩,
  ⟨0x270914, 1, 1, "GATE_LAST_ECODE", .i16, .ro, (.val 0), .any, false, false, false, false, 8⟩,
  ⟨0x270A00, 1, 1, "TURNAROUND_COUNT", .u32, .ro, (.val 0), .any, false, false, false, false, 8⟩]

/-- Rows of the object table of chapter 08. -/
def rows08_3 : List ObjRow := [
  ⟨0x270B01, 1, 1, "IMAGE_START", .u8, .wo, .none, (.span 1 1), false, false, false, false, 8⟩,
  ⟨0x270B02, 1, 1, "IMAGE_STATE", .u8, .ro, (.val 0), (.span 0 4), false, false, false, false, 8⟩,
  ⟨0x270B03, 1, 1, "IMAGE_CODE", .u8, .rs, (.val 15), (.span 1 15), false, false, false, false, 8⟩,
  ⟨0x270B04, 1, 1, "IMAGE_SHOTS", .u8, .rs, (.val 16), (.span 1 255), false, false, false, false, 8⟩,
  ⟨0x270B05, 1, 1, "IMAGE_STUCK_LEVEL", .u16, .rs, (.val 16384), .any, false, false, false, false, 8⟩,
  ⟨0x270B06, 1, 1, "IMAGE_OFF_LEVEL", .u16, .rs, (.val 19661), .any, false, false, false, false, 8⟩,
  ⟨0x270B07, 1, 1, "IMAGE_STUCK_FOUND", .u32, .ro, (.val 0), .any, false, false, false, false, 8⟩,
  ⟨0x270B08, 1, 1, "IMAGE_OFF_FOUND", .u32, .ro, (.val 0), .any, false, false, false, false, 8⟩,
  ⟨0x270B09, 1, 1, "IMAGE_PERMILLE", .u16, .ro, (.val 0), (.span 0 1000), false, false, false, false, 8⟩,
  ⟨0x270C01, 1, 1, "CMD_PENDING", .u16, .ro, (.val 0), .any, false, false, false, false, 8⟩,
  ⟨0x270C02, 1, 1, "CMD_RETRIES", .u32, .rc, (.val 0), .any, false, false, false, false, 8⟩,
  ⟨0x280000, 1, 1, "BEAM_TABLE", .dom, .ro, .none, .any, false, false, false, false, 8⟩,
  ⟨0x280100, 1, 1, "BEAM_EDIT", .u64, .wo, .none, .any, false, false, false, true, 8⟩,
  ⟨0x280201, 4, 1, "BEAMS_IN_STATE", .u32, .ro, (.cyc [307200, 0, 0, 0]), (.span 0 307200), false, false, false, false, 8⟩,
  ⟨0x280300, 1, 1, "BEAM_EPOCH", .u32, .ro, (.val 0), .any, false, false, false, false, 8⟩,
  ⟨0x280400, 1, 1, "BEAM_EDITS_PENDING", .u16, .ro, (.val 0), (.span 0 1024), false, false, false, false, 8⟩]

/-- Rows of the object table of chapter 09. -/
def rows09_0 : List ObjRow := [
  ⟨0x290001, 1, 1, "BURNISH_MODE", .u8, .rs, (.val 2), (.span 0 2), true, false, false, false, 9⟩,
  ⟨0x290002, 1, 1, "BURNISH_RETRIES", .u8, .rs, (.val 2), (.span 0 2), true, false, false, false, 9⟩,
  ⟨0x290003, 1, 1, "BURNISH_REPAIR_WAIT", .u32, .rs, (.val 1000), (.span 0 600000), false, false, false, false, 9⟩,
  ⟨0x290004, 1, 1, "LEDGER_EARLY_LEVEL", .u8, .rs, (.val 50), (.span 0 90), false, false, false, false, 9⟩,
  ⟨0x290101, 1, 1, "LEDGER_BASE", .u64, .rs, (.val 17179869184), .any, true, false, false, false, 9⟩,
  ⟨0x290102, 1, 1, "LEDGER_SIZE", .u64, .rs, (.val 4294967296), (.span 1073741824 68719476736), true, false, false, false, 9⟩,
  ⟨0x290103, 1, 1, "LEDGER_RESERVE", .u64, .ro, (.val 636866560), .any, false, false, false, false, 9⟩,
  ⟨0x290104, 1, 1, "LEDGER_USED", .u64, .ro, (.val 0), .any, false, false, false, false, 9⟩,
  ⟨0x290105, 1, 1, "LEDGER_ENTRIES", .u32, .ro, (.val 0), .any, false, false, true, false, 9⟩,
  ⟨0x290106, 1, 1, "LEDGER_OPEN", .u32, .ro, (.val 0), .any, false, false, false, false, 9⟩,
  ⟨0x290201, 6, 1, "TILES_BY_CAUSE", .u32, .ro, (.val 0), .any, false, false, true, false, 9⟩,
  ⟨0x290300, 1, 1, "LEDGER", .dom, .ro, .none, .any, false, false, false, false, 9⟩,
  ⟨0x290400, 1, 1, "LEDGER_TILE", .dom, .ro, .none, .any, false, false, false, false, 9⟩,
  ⟨0x290501, 1, 1, "BURNISH_STATE", .u8, .ro, (.val 0), (.span 0 2), false, false, false, false, 9⟩,
  ⟨0x290502, 1, 1, "BURNISH_STRIPE", .u32, .ro, (.val 0), .any, false, false, false, false, 9⟩,
  ⟨0x290503, 1, 1, "BURNISH_ATTEMPT", .u8, .ro, (.val 0), (.span 0 2), false, false, false, false, 9⟩,
  ⟨0x290504, 1, 1, "BURNISH_PERMILLE", .u16, .ro, (.val 0), (.span 0 1000), false, false, false, false, 9⟩,
  ⟨0x290505, 1, 1, "BURNISH_FLASH_INDEX", .i32, .ro, (.val 0), .any, false, false, false, false, 9⟩,
  ⟨0x290506, 1, 1, "BURNISH_PLAN", .dom, .ro, .none, .any, false, false, false, false, 9⟩,
  ⟨0x290601, 1, 1, "TILES_REPAIRED", .u32, .ro, (.val 0), .any, false, false, true, false, 9⟩]

/-- Rows of the object table of chapter 09. -/
def rows09_1 : List ObjRow := [
  ⟨0x290602, 1, 1, "TILES_REPORTED", .u32, .ro, (.val 0), .any, false, false, true, false, 9⟩,
  ⟨0x290603, 1, 1, "BURNISH_SWEEPS", .u32, .ro, (.val 0), .any, false, false, true, false, 9⟩,
  ⟨0x290604, 1, 1, "PARKS", .u32, .ro, (.val 0), .any, false, false, true, false, 9⟩,
  ⟨0x290605, 1, 1, "PARK_INDEX", .i32, .ro, (.val (-1)), .any, false, false, true, false, 9⟩,
  ⟨0x290606, 1, 1, "EARLY_BURNISHES", .u32, .ro, (.val 0), .any, false, false, true, false, 9⟩,
  ⟨0x290701, 1, 1, "DEFECT_LIST", .dom, .ro, .none, .any, false, false, false, false, 9⟩,
  ⟨0x290702, 1, 1, "DEFECT_RECORDS", .u32, .ro, (.val 0), .any, false, false, false, false, 9⟩,
  ⟨0x290703, 1, 1, "DEFECT_ACK", .u32, .wo, .none, (.span 1 4294967295), false, false, false, true, 9⟩,
  ⟨0x290704, 1, 1, "DEFECT_RECORDS_TOTAL", .u64, .ro, (.val 0), .any, false, false, true, false, 9⟩]

/-- Rows of the object table of chapter 10. -/
def rows10_0 : List ObjRow := [
  ⟨0x360001, 1, 1, "PAIR_STATE", .u8, .ro, .derived, (.span 0 5), false, false, false, false, 10⟩,
  ⟨0x360002, 1, 1, "PEER_STATE", .u8, .ro, (.val 255), (.spanOr 0 5 255), false, false, false, true, 10⟩,
  ⟨0x360003, 1, 1, "MIRROR_LINK_STATE", .u8, .ro, (.val 0), (.oneOf [0, 1]), false, false, false, true, 10⟩,
  ⟨0x360004, 1, 1, "PLK_LANES_UP", .u8, .ro, (.val 0), .any, false, false, false, false, 10⟩,
  ⟨0x360005, 1, 1, "HEAD_SWITCH_TIME", .u16, .rs, (.val 10000), (.span 1000 25000), true, false, false, false, 10⟩,
  ⟨0x360006, 1, 1, "AUTO_SYNC", .bool, .rs, (.val 1), (.oneOf [0, 1]), false, false, false, false, 10⟩,
  ⟨0x360007, 1, 1, "PACE_RELEASE", .bool, .rs, (.val 1), (.oneOf [0, 1]), false, false, false, false, 10⟩,
  ⟨0x360008, 1, 1, "SYNC_START", .u8, .wo, .none, (.span 1 1), false, false, false, false, 10⟩,
  ⟨0x360009, 1, 1, "HANDOVER_REQUEST", .u8, .wo, .none, (.span 1 1), false, false, false, false, 10⟩,
  ⟨0x360101, 1, 1, "SYNC_PERMILLE", .u16, .ro, (.val 0), (.span 0 1000), false, false, false, false, 10⟩,
  ⟨0x360102, 1, 1, "SYNC_ITEM", .u8, .ro, (.val 0), (.span 0 9), false, false, false, false, 10⟩,
  ⟨0x360103, 1, 1, "SYNC_BYTES", .u64, .ro, (.val 0), .any, false, false, false, false, 10⟩,
  ⟨0x360201, 1, 1, "HANDOVERS_TAKEN", .u32, .ro, (.val 0), .any, false, false, false, false, 10⟩,
  ⟨0x360202, 1, 1, "RELEASES", .u32, .ro, (.val 0), .any, false, false, false, false, 10⟩,
  ⟨0x360203, 1, 1, "LAST_TRIGGER", .u8, .ro, (.val 0), (.span 0 8), false, false, false, false, 10⟩,
  ⟨0x360204, 1, 1, "LAST_KR", .u32, .ro, (.val 0), .any, false, false, false, false, 10⟩,
  ⟨0x360205, 1, 1, "LAST_K1", .u32, .ro, (.val 0), .any, false, false, false, false, 10⟩,
  ⟨0x360206, 1, 1, "LAST_INTERRUPTION", .u32, .ro, (.val 0), .any, false, false, false, false, 10⟩,
  ⟨0x360207, 1, 1, "TRIGGERS_HELD", .u32, .rc, (.val 0), .any, false, false, false, false, 10⟩,
  ⟨0x360208, 1, 1, "ABRUPT_RELEASES", .u32, .rc, (.val 0), .any, false, false, false, false, 10⟩]

/-- Rows of the object table of chapter 10. -/
def rows10_1 : List ObjRow := [
  ⟨0x360301, 1, 1, "RECORDS_RECEIVED", .u64, .ro, (.val 0), .any, false, false, false, false, 10⟩,
  ⟨0x360302, 1, 1, "RECORD_GAPS", .u32, .rc, (.val 0), .any, false, false, false, false, 10⟩,
  ⟨0x360303, 1, 1, "FRAME_DIVERGENCES", .u32, .rc, (.val 0), .any, false, false, false, false, 10⟩,
  ⟨0x360304, 1, 1, "RXCRC_DIVERGENCES", .u32, .rc, (.val 0), .any, false, false, false, false, 10⟩,
  ⟨0x360305, 1, 1, "DECISION_DISAGREEMENTS", .u32, .rc, (.val 0), .any, false, false, false, false, 10⟩,
  ⟨0x360306, 1, 1, "DESYNCS", .u32, .rc, (.val 0), .any, false, false, false, false, 10⟩,
  ⟨0x360307, 1, 1, "LAST_DESYNC_CAUSE", .u8, .ro, (.val 0), (.span 0 8), false, false, false, false, 10⟩,
  ⟨0x360308, 1, 1, "MEMTEST_BYTES", .u64, .ro, (.val 0), .any, false, false, false, false, 10⟩,
  ⟨0x360309, 1, 1, "MEMTEST_FAILS", .u32, .rc, (.val 0), .any, false, false, false, false, 10⟩,
  ⟨0x360400, 1, 1, "RAIL_WINDOW", .u8, .ro, (.val 0), (.span 0 255), false, false, false, false, 10⟩,
  ⟨0x360500, 1, 1, "PEER_HEALTH", .dom, .ro, .none, .any, false, false, false, false, 10⟩,
  ⟨0x360601, 1, 1, "LATE_RUN_MERGES", .u32, .rc, (.val 0), .any, false, false, false, false, 10⟩,
  ⟨0x360602, 1, 1, "RAIL_RUN_MERGES", .u32, .rc, (.val 0), .any, false, false, false, false, 10⟩]

/-- Rows of the object table of chapter 11. -/
def rows11_0 : List ObjRow := [
  ⟨0x300001, 1, 1, "DRAM_POPULATION", .u8, .ro, .strap, (.span 0 3), false, false, false, false, 11⟩,
  ⟨0x300002, 1, 1, "DRAM_CAPACITY", .u64, .ro, .strap, (.span 34359738368 137438953472), false, false, false, false, 11⟩,
  ⟨0x300003, 1, 1, "DRAM_RESERVED_BASE", .u64, .ro, .derived, .any, false, false, false, false, 11⟩,
  ⟨0x300004, 1, 1, "SCRUB_PERIOD", .u32, .rs, (.val 86400), (.span 3600 604800), false, false, false, false, 11⟩,
  ⟨0x300005, 1, 1, "DISTURB_THRESHOLD", .u16, .rs, (.val 2048), (.span 256 32768), false, false, false, false, 11⟩,
  ⟨0x300006, 1, 1, "DISTURB_RADIUS", .u8, .rs, (.val 2), (.oneOf [1, 2]), false, false, false, true, 11⟩,
  ⟨0x300007, 1, 1, "WINDOW_FAULT_LIMIT", .u8, .rs, (.val 4), (.span 1 64), true, false, false, false, 11⟩,
  ⟨0x300101, 1, 1, "FILL_STATE", .u8, .ro, (.val 0), (.span 0 2), false, false, false, false, 11⟩,
  ⟨0x300102, 1, 1, "FILL_PERMILLE", .u16, .ro, (.val 0), (.span 0 1000), false, false, false, false, 11⟩,
  ⟨0x300103, 1, 1, "FILL_POSITION", .u64, .ro, (.val 0), .any, false, false, false, false, 11⟩,
  ⟨0x300104, 1, 1, "FILL_TIME", .u32, .ro, (.val 0), .any, false, false, false, false, 11⟩,
  ⟨0x300201, 4, 1, "MC_STATE", .u8, .ro, (.val 0), (.span 0 3), false, false, false, false, 11⟩,
  ⟨0x300301, 4, 1, "MC_SPEED", .u16, .ro, (.val 0), (.oneOf [0, 4800, 5600, 6400]), false, false, false, true, 11⟩,
  ⟨0x300401, 4, 1, "MC_CORRECTED", .u64, .ro, (.val 0), .any, false, false, false, false, 11⟩,
  ⟨0x300501, 4, 1, "MC_UNCORRECTABLE", .u32, .ro, (.val 0), .any, false, false, false, false, 11⟩,
  ⟨0x300601, 4, 1, "MC_MISDIRECTED", .u32, .ro, (.val 0), .any, false, false, false, false, 11⟩,
  ⟨0x300701, 4, 1, "MC_POISON_READS", .u64, .ro, (.val 0), .any, false, false, false, false, 11⟩,
  ⟨0x300801, 4, 1, "MC_NARROW_WRITES", .u64, .ro, (.val 0), .any, false, false, false, false, 11⟩,
  ⟨0x300901, 4, 1, "MC_FORWARDS", .u64, .ro, (.val 0), .any, false, false, false, false, 11⟩,
  ⟨0x300A01, 4, 1, "MC_REFRESH_RATE", .u8, .ro, (.val 1), (.oneOf [1, 2]), false, false, false, true, 11⟩]

/-- Rows of the object table of chapter 11. -/
def rows11_1 : List ObjRow := [
  ⟨0x300B01, 4, 1, "MC_NEIGHBOUR_REFRESHES", .u64, .ro, (.val 0), .any, false, false, false, false, 11⟩,
  ⟨0x300C01, 4, 1, "REMAP_USED", .u8, .ro, (.val 0), (.span 0 16), false, false, false, false, 11⟩,
  ⟨0x300D01, 4, 1, "REMAP_TABLE", .dom, .ro, .none, .any, false, false, false, false, 11⟩,
  ⟨0x300E00, 1, 1, "REMAP_ADD", .u32, .wo, .none, .any, false, false, false, true, 11⟩,
  ⟨0x300F01, 4, 1, "REMAP_OVERFLOWS", .u32, .rc, (.val 0), .any, false, false, false, false, 11⟩,
  ⟨0x301001, 1, 1, "SCRUB_PERMILLE", .u16, .ro, (.val 0), (.span 0 1000), false, false, false, false, 11⟩,
  ⟨0x301002, 1, 1, "SCRUB_POSITION", .u64, .ro, (.val 0), .any, false, false, false, false, 11⟩,
  ⟨0x301003, 1, 1, "SCRUB_PASSES", .u32, .ro, (.val 0), .any, false, false, false, false, 11⟩,
  ⟨0x301004, 1, 1, "SCRUB_CORRECTED", .u64, .ro, (.val 0), .any, false, false, false, false, 11⟩,
  ⟨0x301005, 1, 1, "SCRUB_POISONED", .u32, .ro, (.val 0), .any, false, false, false, false, 11⟩,
  ⟨0x301101, 1, 1, "LAST_UE_ADDRESS", .u64, .ro, (.val 0), .any, false, false, false, false, 11⟩,
  ⟨0x301102, 1, 1, "LAST_UE_KIND", .u8, .ro, (.val 0), (.span 0 3), false, false, false, false, 11⟩,
  ⟨0x301103, 1, 1, "LAST_UE_REGION", .u8, .ro, (.val 0), (.span 0 9), false, false, false, false, 11⟩,
  ⟨0x301104, 1, 1, "LAST_UE_FINDER", .u8, .ro, (.val 0), (.oneOf [0, 1]), false, false, false, true, 11⟩,
  ⟨0x301201, 6, 1, "SRAM_CORRECTED", .u64, .ro, (.val 0), .any, false, false, false, false, 11⟩,
  ⟨0x301301, 6, 1, "SRAM_UNCORRECTABLE", .u32, .ro, (.val 0), .any, false, false, false, false, 11⟩,
  ⟨0x301401, 4, 1, "WINDOW_WORDS_POISONED", .u32, .ro, (.val 0), .any, false, false, true, false, 11⟩]

/-- Rows of the object table of chapter 12. -/
def rows12_0 : List ObjRow := [
  ⟨0x320001, 1, 1, "SPOOL_BASE", .u64, .rs, (.val 1342177280), (.mult 4096), true, false, false, true, 12⟩,
  ⟨0x320002, 1, 1, "SPOOL_SIZE", .u64, .rs, (.val 12884901888), (.span 1073741824 103079215104), true, false, false, false, 12⟩,
  ⟨0x320003, 1, 1, "RUN_AHEAD_DEPTH", .u32, .rs, (.val 524288), (.span 65536 16777216), true, false, false, false, 12⟩,
  ⟨0x320004, 1, 1, "SPOOL_TABLES", .u8, .rs, (.val 1), (.oneOf [0, 1]), true, false, false, true, 12⟩,
  ⟨0x320005, 1, 1, "SPOOL_NEED", .u64, .ro, (.val 11097794560), .any, false, false, false, false, 12⟩,
  ⟨0x320101, 4, 1, "SPOOL_USED", .u64, .ro, (.val 0), .any, false, false, false, false, 12⟩,
  ⟨0x320201, 4, 1, "SPOOL_RETAINED", .u64, .ro, (.val 0), .any, false, false, false, false, 12⟩,
  ⟨0x320301, 4, 1, "SPOOL_RATIO", .u16, .ro, (.val 0), .any, false, false, true, false, 12⟩,
  ⟨0x320401, 4, 1, "SPOOL_RAW_TILES", .u64, .ro, (.val 0), .any, false, false, true, false, 12⟩,
  ⟨0x320501, 1, 1, "HJ_RING_BASE", .u64, .rs, (.val 0), (.mult 64), false, false, false, true, 12⟩,
  ⟨0x320502, 1, 1, "HJ_RING_ENTRIES", .u16, .rs, (.val 16), (.pow2 16 1024), false, false, false, true, 12⟩,
  ⟨0x320503, 1, 1, "HJ_PRODUCER", .u32, .rw, (.val 0), .any, false, false, false, false, 12⟩,
  ⟨0x320504, 1, 1, "HJ_CONSUMER", .u32, .ro, (.val 0), .any, false, false, false, false, 12⟩,
  ⟨0x320505, 1, 1, "HJ_RESUME", .u16, .wo, .none, .nonzero, false, false, false, true, 12⟩,
  ⟨0x320506, 1, 1, "HJ_LANE_MASK", .u16, .rs, (.val 65535), .nonzero, false, false, false, true, 12⟩,
  ⟨0x320601, 16, 1, "LANE_STATE", .u8, .ro, (.val 0), (.span 0 3), false, false, false, false, 12⟩,
  ⟨0x320701, 16, 1, "LANE_HOST_STATE", .u8, .ro, (.val 0), (.span 0 2), false, false, false, false, 12⟩,
  ⟨0x320801, 16, 1, "LANE_FAILS", .u16, .ro, (.val 0), (.span 0 1000), false, false, false, false, 12⟩,
  ⟨0x320901, 1, 1, "LANE_MISMATCHES", .u32, .rc, (.val 0), .any, false, false, false, false, 12⟩,
  ⟨0x320902, 1, 1, "SPOOL_CRC_FAILS", .u32, .rc, (.val 0), .any, false, false, false, false, 12⟩]

/-- Rows of the object table of chapter 12. -/
def rows12_1 : List ObjRow := [
  ⟨0x320903, 1, 1, "LOADER_MISMATCHES", .u32, .rc, (.val 0), .any, false, false, false, false, 12⟩,
  ⟨0x320904, 1, 1, "HJ_COMPLETED", .u32, .ro, (.val 0), .any, false, false, false, false, 12⟩,
  ⟨0x320905, 1, 1, "HJ_ERRORS", .u32, .rc, (.val 0), .any, false, false, false, false, 12⟩]

/-- Rows of the object table of chapter 13. -/
def rows13_0 : List ObjRow := [
  ⟨0x310001, 32, 1, "CH_START", .u64, .wo, .none, (.mult 64), false, false, false, true, 13⟩,
  ⟨0x310101, 32, 1, "CH_REQUEST", .u8, .rs, (.val 0), (.span 0 68), false, false, false, false, 13⟩,
  ⟨0x310201, 32, 1, "CH_BURST", .u16, .rs, (.val 4096), (.span 1 4096), false, false, false, true, 13⟩,
  ⟨0x310301, 32, 1, "CH_EVENT_LINE", .u8, .rs, .derived, (.span 0 63), false, false, false, false, 13⟩,
  ⟨0x310401, 32, 1, "CH_STATE", .u8, .ro, (.val 0), (.span 0 5), false, false, false, false, 13⟩,
  ⟨0x310501, 32, 1, "CH_HALT_CAUSE", .u8, .ro, (.val 0), (.span 0 5), false, false, false, false, 13⟩,
  ⟨0x310601, 32, 1, "CH_DESC_ADDR", .u64, .ro, (.val 0), .any, false, false, false, false, 13⟩,
  ⟨0x310701, 32, 1, "CH_REMAINING", .u32, .ro, (.val 0), .any, false, false, false, false, 13⟩,
  ⟨0x310801, 32, 1, "CH_BYTES", .u64, .ro, (.val 0), .any, false, false, false, false, 13⟩,
  ⟨0x310901, 32, 1, "CH_TAG", .u32, .ro, (.val 0), .any, false, false, false, false, 13⟩,
  ⟨0x310921, 32, 1, "CH_HALT_ADDR", .u64, .ro, (.val 0), .any, false, false, false, false, 13⟩,
  ⟨0x310A01, 32, 1, "CH_OVERRUNS", .u32, .rc, (.val 0), .any, false, false, false, false, 13⟩,
  ⟨0x310B01, 32, 1, "CH_WITHDRAWN", .u32, .rc, (.val 0), .any, false, false, false, false, 13⟩,
  ⟨0x310C01, 9, 1, "EVENT_CONSUMER", .u8, .rs, (.val 255), (.spanOr 0 63 255), false, false, false, true, 13⟩,
  ⟨0x310D00, 1, 1, "EVENT_MERGES", .u32, .rc, (.val 0), .any, false, false, false, false, 13⟩,
  ⟨0x310E01, 4, 1, "EVENT_TIME", .time, .ro, (.val 0), .any, false, false, false, false, 13⟩]

/-- Rows of the object table of chapter 14. -/
def rows14_0 : List ObjRow := [
  ⟨0x330001, 4, 1, "CU_POLY", .u8, .rw, (.val 0), (.span 0 3), false, false, false, false, 14⟩,
  ⟨0x330005, 4, 1, "CU_INIT", .u8, .wo, .none, (.span 1 1), false, false, false, false, 14⟩,
  ⟨0x330101, 4, 1, "CU_VALUE", .u64, .rw, (.val 4294967295), .any, false, false, false, true, 14⟩,
  ⟨0x330201, 4, 1, "CU_RESULT", .u64, .ro, (.val 0), .any, false, false, false, false, 14⟩,
  ⟨0x330301, 4, 1, "CU_LATCH_COUNT", .u32, .rc, (.val 0), .any, false, false, false, false, 14⟩,
  ⟨0x330401, 4, 1, "CU_FEED_LEVEL", .u16, .ro, (.val 0), (.span 0 8192), false, false, false, false, 14⟩,
  ⟨0x330501, 4, 1, "CU_BYTES", .u64, .ro, (.val 0), .any, false, false, false, false, 14⟩,
  ⟨0x330601, 4, 1, "CU_LATCH", .u64, .ro, (.val 0), .any, false, false, false, false, 14⟩,
  ⟨0x330701, 4, 1, "CU_FEED8", .u8, .wo, .none, .any, false, false, false, false, 14⟩,
  ⟨0x330801, 4, 1, "CU_FEED16", .u16, .wo, .none, .any, false, false, false, false, 14⟩,
  ⟨0x330901, 4, 1, "CU_FEED32", .u32, .wo, .none, .any, false, false, false, false, 14⟩,
  ⟨0x330A01, 4, 1, "CU_LATCH_BYTES", .u64, .ro, (.val 0), .any, false, false, false, false, 14⟩]

/-- Rows of the object table of chapter 15. -/
def rows15_0 : List ObjRow := [
  ⟨0x340001, 2, 1, "CAM_ENABLE", .bool, .rs, (.val 0), (.oneOf [0, 1]), false, false, false, false, 15⟩,
  ⟨0x340101, 2, 1, "CAM_LANES", .u8, .rs, (.val 4), (.oneOf [1, 2, 4]), false, false, false, true, 15⟩,
  ⟨0x340201, 2, 1, "CAM_VC", .u8, .rs, (.val 0), (.span 0 3), false, false, false, false, 15⟩,
  ⟨0x340301, 2, 1, "CAM_DATA_TYPE", .u8, .rs, (.val 43), (.span 42 45), false, false, false, false, 15⟩,
  ⟨0x340401, 2, 1, "CAM_WIDTH", .u16, .rs, (.val 2048), (.even 16 8192), false, false, false, true, 15⟩,
  ⟨0x340501, 2, 1, "CAM_HEIGHT", .u16, .rs, (.val 1536), (.even 16 8192), false, false, false, true, 15⟩,
  ⟨0x340601, 2, 1, "CAM_CFA", .u8, .rs, (.val 0), (.span 0 4), false, false, false, false, 15⟩,
  ⟨0x340700, 1, 1, "CAM_PRIORITY", .u8, .rs, (.val 0), (.oneOf [0, 1]), false, false, false, true, 15⟩,
  ⟨0x340801, 2, 1, "CAM_STATE", .u8, .ro, (.val 0), (.span 0 4), false, false, false, false, 15⟩,
  ⟨0x340901, 2, 1, "CAM_RESTART", .u8, .wo, .none, (.span 1 1), false, false, false, false, 15⟩,
  ⟨0x340A01, 2, 1, "CAM_STROBE_ENABLE", .bool, .rs, (.val 0), (.oneOf [0, 1]), false, false, false, false, 15⟩,
  ⟨0x340B01, 2, 1, "CAM_TRIGGER", .u8, .rs, (.val 0), (.span 0 2), false, false, false, false, 15⟩,
  ⟨0x340C01, 2, 1, "CAM_COMPARATOR", .u8, .rs, (.val 0), (.span 0 7), false, false, false, false, 15⟩,
  ⟨0x340D01, 2, 1, "CAM_STROBE_WIDTH", .u32, .rs, (.val 1000), (.span 20 10000000), false, false, false, false, 15⟩,
  ⟨0x341001, 8, 1, "BLACK_LEVEL", .u16, .rs, (.val 0), .any, false, false, false, false, 15⟩,
  ⟨0x341101, 8, 1, "BLACK_GAIN", .u16, .rs, (.val 4096), .any, false, false, false, false, 15⟩,
  ⟨0x341201, 2, 1, "CAM_DEFECT_LIST", .dom, .rs, .derived, .any, false, false, false, false, 15⟩,
  ⟨0x341301, 2, 1, "DEFECT_THRESHOLD", .u16, .rs, (.val 0), .any, false, false, false, false, 15⟩,
  ⟨0x341401, 2, 1, "SHADING_ENABLE", .bool, .rs, (.val 0), (.oneOf [0, 1]), false, false, false, false, 15⟩,
  ⟨0x341501, 2, 1, "SHADING_GRID", .dom, .rs, .derived, .any, false, false, false, false, 15⟩]

/-- Rows of the object table of chapter 15. -/
def rows15_1 : List ObjRow := [
  ⟨0x341601, 6, 1, "WB_GAIN", .u16, .rs, (.val 4096), .any, false, false, false, false, 15⟩,
  ⟨0x341701, 2, 1, "COLOUR_MATRIX", .dom, .rs, .derived, .any, false, false, false, false, 15⟩,
  ⟨0x341801, 2, 1, "TONE_CURVES", .dom, .rs, .derived, .any, false, false, false, false, 15⟩,
  ⟨0x341901, 6, 1, "VISION_WEIGHT", .u16, .rs, (.cyc [19595, 38470, 7471]), .any, false, false, false, false, 15⟩,
  ⟨0x342001, 6, 1, "OUT_BASE", .u64, .rs, (.val 0), (.mult 4096), false, false, false, true, 15⟩,
  ⟨0x342101, 6, 1, "OUT_SLOTS", .u8, .rs, (.val 4), (.span 2 8), false, false, false, false, 15⟩,
  ⟨0x342201, 6, 1, "OUT_ENABLE", .bool, .rs, (.val 0), (.oneOf [0, 1]), false, false, false, false, 15⟩,
  ⟨0x342301, 6, 1, "OUT_SLOT_SIZE", .u64, .ro, .none, .any, false, false, false, false, 15⟩,
  ⟨0x342401, 6, 1, "OUT_LAST_SLOT", .u8, .ro, (.val 255), (.spanOr 0 7 255), false, false, false, true, 15⟩,
  ⟨0x342501, 2, 1, "DISP_WIDTH", .u16, .rs, (.val 1024), (.even 16 8192), false, false, false, true, 15⟩,
  ⟨0x342601, 2, 1, "DISP_HEIGHT", .u16, .rs, (.val 768), (.even 16 8192), false, false, false, true, 15⟩,
  ⟨0x343001, 2, 1, "FRAMES_RECEIVED", .u32, .ro, (.val 0), .any, false, false, false, false, 15⟩,
  ⟨0x343101, 2, 1, "FRAMES_PUBLISHED", .u32, .ro, (.val 0), .any, false, false, false, false, 15⟩,
  ⟨0x343201, 2, 1, "FRAMES_DROPPED", .u32, .rc, (.val 0), .any, false, false, false, false, 15⟩,
  ⟨0x343301, 2, 1, "SHORT_FRAMES", .u32, .rc, (.val 0), .any, false, false, false, false, 15⟩,
  ⟨0x343401, 2, 1, "LONG_FRAMES", .u32, .rc, (.val 0), .any, false, false, false, false, 15⟩,
  ⟨0x343501, 2, 1, "SHORT_LINES", .u32, .rc, (.val 0), .any, false, false, false, false, 15⟩,
  ⟨0x343601, 2, 1, "LONG_LINES", .u32, .rc, (.val 0), .any, false, false, false, false, 15⟩,
  ⟨0x343701, 2, 1, "ECC_CORRECTED", .u32, .rc, (.val 0), .any, false, false, false, false, 15⟩,
  ⟨0x343801, 2, 1, "ECC_UNCORRECTABLE", .u32, .rc, (.val 0), .any, false, false, false, false, 15⟩]

/-- Rows of the object table of chapter 15. -/
def rows15_2 : List ObjRow := [
  ⟨0x343901, 2, 1, "CRC_ERRORS", .u32, .rc, (.val 0), .any, false, false, false, false, 15⟩,
  ⟨0x343A01, 2, 1, "PACKETS_DISCARDED", .u32, .rc, (.val 0), .any, false, false, false, false, 15⟩,
  ⟨0x343B01, 2, 1, "LINE_PERIOD", .u32, .ro, (.val 0), .any, false, false, false, false, 15⟩,
  ⟨0x344001, 1, 1, "MF_REQUEST", .dom, .wo, .none, .any, false, false, false, false, 15⟩,
  ⟨0x344002, 1, 1, "MF_STATE", .u8, .ro, (.val 0), (.span 0 2), false, false, false, false, 15⟩,
  ⟨0x344003, 1, 1, "MF_TIMEOUT", .u16, .rs, (.val 100), (.span 1 10000), false, false, false, false, 15⟩,
  ⟨0x344004, 1, 1, "MF_MIN_CONTRAST", .u16, .rs, (.val 1024), .any, false, false, false, false, 15⟩,
  ⟨0x344101, 2, 1, "CAM_GEOMETRY", .dom, .rs, .derived, .any, false, false, false, false, 15⟩,
  ⟨0x344200, 1, 1, "MF_RESULTS", .dom, .ro, .none, .any, false, false, false, false, 15⟩,
  ⟨0x345001, 1, 1, "SPOT_PORT", .u8, .rs, (.val 0), (.oneOf [0, 1]), false, false, false, true, 15⟩,
  ⟨0x345002, 1, 1, "SPOT_BOX", .u8, .rs, (.val 5), (.odd 3 15), false, false, false, true, 15⟩,
  ⟨0x345003, 1, 1, "SPOT_TIMEOUT", .u16, .rs, (.val 200), (.span 1 10000), false, false, false, false, 15⟩,
  ⟨0x345004, 1, 1, "SPOT_LEAD", .u16, .rs, (.val 1000), (.span 0 60000), false, false, false, false, 15⟩,
  ⟨0x345005, 1, 1, "SPOT_STATE", .u8, .ro, (.val 0), (.span 0 4), false, false, false, false, 15⟩,
  ⟨0x345100, 1, 1, "SPOT_GEOMETRY", .dom, .rs, .derived, .any, false, false, false, false, 15⟩,
  ⟨0x345200, 1, 1, "SPOT_RESULTS", .dom, .ro, .none, .any, false, false, false, false, 15⟩,
  ⟨0x345300, 1, 1, "SPOT_MEDIAN", .u32, .ro, (.val 0), .any, false, false, false, false, 15⟩,
  ⟨0x345400, 1, 1, "SPOT_FAILURE", .u8, .ro, (.val 0), (.span 0 5), false, false, false, false, 15⟩]

/-- Rows of the object table of chapter 16. -/
def rows16_0 : List ObjRow := [
  ⟨0x350001, 1, 1, "TIME_NOW", .time, .ro, .none, .any, false, false, false, false, 16⟩,
  ⟨0x350002, 1, 1, "TIME_STATE", .u8, .ro, (.val 0), (.oneOf [0, 1]), false, false, false, true, 16⟩,
  ⟨0x350003, 1, 1, "TIME_INCREMENT", .u64, .rw, (.val 171798691840), (.span 171626893148 171970490532), false, false, false, false, 16⟩,
  ⟨0x350004, 1, 1, "TIME_SET", .time, .wo, .none, .any, false, false, false, false, 16⟩,
  ⟨0x350005, 1, 1, "TIME_STEP", .i64, .wo, .none, .any, false, false, false, false, 16⟩,
  ⟨0x350006, 1, 1, "JUMP_THRESHOLD", .u64, .rs, (.val 1000), (.span 1 9223372036854775807), true, false, false, false, 16⟩,
  ⟨0x350007, 1, 1, "JUMPS_REFUSED", .u32, .rc, (.val 0), .any, false, false, false, false, 16⟩,
  ⟨0x350008, 1, 1, "LAST_REFUSED_JUMP", .i64, .ro, (.val 0), .any, false, false, false, false, 16⟩,
  ⟨0x350009, 1, 1, "STEPS_APPLIED", .u32, .ro, (.val 0), .any, false, false, false, false, 16⟩,
  ⟨0x35000A, 1, 1, "TIMESTAMP_RESOLUTION", .u16, .ro, (.val 40000), (.oneOf [2500, 40000]), false, false, false, true, 16⟩,
  ⟨0x350101, 2, 1, "PTP_ENABLE", .bool, .rs, (.val 0), (.oneOf [0, 1]), false, false, false, false, 16⟩,
  ⟨0x350103, 1, 1, "PTP_TRANSPORT", .u8, .rs, (.val 1), (.span 1 3), false, false, false, false, 16⟩,
  ⟨0x350104, 1, 1, "PTP_DOMAIN", .u8, .rs, (.val 0), (.span 0 127), false, false, false, false, 16⟩,
  ⟨0x350105, 1, 1, "PTP_DELAY_MECHANISM", .u8, .rs, (.val 1), (.oneOf [1, 2]), false, false, false, true, 16⟩,
  ⟨0x350106, 1, 1, "PTP_LOG_PDELAY_INTERVAL", .i16, .rs, (.val 0), (.span (-4) 5), false, false, false, false, 16⟩,
  ⟨0x350107, 1, 1, "PTP_ANNOUNCE_TIMEOUT", .u8, .rs, (.val 3), (.span 2 10), false, false, false, false, 16⟩,
  ⟨0x350108, 1, 1, "PTP_RX_LATENCY", .u32, .rs, (.val 0), (.span 0 1000000), false, false, false, false, 16⟩,
  ⟨0x350109, 1, 1, "PTP_TX_LATENCY", .u32, .rs, (.val 0), (.span 0 1000000), false, false, false, false, 16⟩,
  ⟨0x350201, 1, 1, "PTP_PORT_STATE", .u8, .ro, (.val 0), (.span 0 6), false, false, false, false, 16⟩,
  ⟨0x350202, 1, 1, "PTP_MASTER_ID", .u64, .ro, (.val 0), .any, false, false, false, false, 16⟩]

/-- Rows of the object table of chapter 16. -/
def rows16_1 : List ObjRow := [
  ⟨0x350203, 1, 1, "PTP_MASTER_PORT", .u16, .ro, (.val 0), .any, false, false, false, false, 16⟩,
  ⟨0x350204, 1, 1, "PTP_OFFSET", .i64, .ro, (.val 0), .any, false, false, false, false, 16⟩,
  ⟨0x350205, 1, 1, "PTP_MEAN_DELAY", .i64, .ro, (.val 0), .any, false, false, false, false, 16⟩,
  ⟨0x350206, 4, 1, "PTP_T1", .time, .ro, (.val 0), .any, false, false, false, false, 16⟩,
  ⟨0x35020A, 1, 1, "PTP_EXCHANGES", .u32, .ro, (.val 0), .any, false, false, false, false, 16⟩,
  ⟨0x35020B, 1, 1, "PTP_UTC_OFFSET", .i16, .ro, (.val 0), .any, false, false, false, false, 16⟩,
  ⟨0x35020C, 1, 1, "PTP_TIME_FLAGS", .u8, .ro, (.val 0), .any, false, false, false, false, 16⟩,
  ⟨0x350301, 1, 1, "PTP_RX_EVENTS", .u32, .rc, (.val 0), .any, false, false, false, false, 16⟩,
  ⟨0x350302, 1, 1, "PTP_TX_EVENTS", .u32, .rc, (.val 0), .any, false, false, false, false, 16⟩,
  ⟨0x350303, 1, 1, "PTP_DISCARDED", .u32, .rc, (.val 0), .any, false, false, false, false, 16⟩,
  ⟨0x350304, 1, 1, "PTP_EXCHANGES_DISCARDED", .u32, .rc, (.val 0), .any, false, false, false, false, 16⟩,
  ⟨0x351001, 8, 1, "CMP_MODE", .u8, .rs, (.val 0), (.span 0 2), false, false, false, false, 16⟩,
  ⟨0x351101, 8, 1, "CMP_TARGET", .time, .rs, (.val 0), .any, false, false, false, false, 16⟩,
  ⟨0x351201, 8, 1, "CMP_PERIOD", .time, .rs, (.val 4294967296000000), (.span 429496729600 18446744073709551616000000000), false, false, false, false, 16⟩,
  ⟨0x351301, 8, 1, "CMP_MATCHES", .u32, .ro, (.val 0), .any, false, false, false, false, 16⟩,
  ⟨0x351401, 8, 1, "CMP_OWNER", .u8, .ro, (.val 0), (.span 0 7), false, false, false, false, 16⟩,
  ⟨0x351501, 8, 1, "CMP_LATE_ARMS", .u32, .rc, (.val 0), .any, false, false, false, false, 16⟩,
  ⟨0x352001, 4, 1, "TTO_ENABLE", .bool, .rs, (.val 0), (.oneOf [0, 1]), false, false, false, false, 16⟩,
  ⟨0x352101, 4, 1, "TTO_COMPARATOR", .u8, .rs, (.val 0), (.span 0 7), false, false, false, false, 16⟩,
  ⟨0x352201, 4, 1, "TTO_WIDTH", .u32, .rs, (.val 1000), (.span 10 1000000000), false, false, false, false, 16⟩]

/-- Rows of the object table of chapter 16. -/
def rows16_2 : List ObjRow := [
  ⟨0x352301, 4, 1, "TTO_INVERT", .bool, .rs, (.val 0), (.oneOf [0, 1]), false, false, false, false, 16⟩,
  ⟨0x353001, 4, 1, "TCI_EDGE", .u8, .rs, (.val 0), (.span 0 3), false, false, false, false, 16⟩,
  ⟨0x353101, 4, 1, "TCI_LAST", .time, .ro, (.val 0), .any, false, false, false, false, 16⟩,
  ⟨0x353201, 4, 1, "TCI_COUNT", .u32, .ro, (.val 0), .any, false, false, false, false, 16⟩,
  ⟨0x353301, 4, 1, "TCI_QUEUE", .dom, .ro, .none, .any, false, false, false, false, 16⟩,
  ⟨0x353401, 4, 1, "TCI_QUEUED", .u8, .ro, (.val 0), (.span 0 16), false, false, false, false, 16⟩,
  ⟨0x353501, 4, 1, "TCI_ACK", .u8, .wo, .none, (.span 1 255), false, false, false, true, 16⟩,
  ⟨0x353601, 4, 1, "TCI_OVERRUNS", .u32, .rc, (.val 0), .any, false, false, false, false, 16⟩]

/-- Rows of the object table of chapter 17. -/
def rows17_0 : List ObjRow := [
  ⟨0x370001, 1, 1, "CAL_START", .u16, .wo, .none, (.span 1 511), false, false, false, false, 17⟩,
  ⟨0x370002, 1, 1, "CAL_STATE", .u8, .ro, (.val 0), (.span 0 2), false, false, false, false, 17⟩,
  ⟨0x370003, 1, 1, "CAL_ITEM", .u8, .ro, (.val 0), (.span 0 8), false, false, false, false, 17⟩,
  ⟨0x370004, 1, 1, "CAL_PERMILLE", .u16, .ro, (.val 0), (.span 0 1000), false, false, false, false, 17⟩,
  ⟨0x370005, 1, 1, "CAL_QUEUE", .u16, .ro, (.val 0), .any, false, false, false, false, 17⟩,
  ⟨0x370006, 1, 1, "CAL_SCHED_ENABLE", .bool, .rs, (.val 0), (.oneOf [0, 1]), false, false, false, false, 17⟩,
  ⟨0x370007, 1, 1, "CAL_SCHED_COMPARATOR", .u8, .rs, (.val 0), (.span 0 7), false, false, false, false, 17⟩,
  ⟨0x370008, 1, 1, "CAL_SCHED_ITEMS", .u16, .rs, (.val 0), (.span 0 511), false, false, false, false, 17⟩,
  ⟨0x370101, 9, 1, "CAL_STATUS", .u8, .ro, (.val 0), (.span 0 6), false, false, false, false, 17⟩,
  ⟨0x370201, 9, 1, "CAL_TIME", .time, .ro, (.val 0), .any, false, false, false, false, 17⟩,
  ⟨0x370301, 1, 1, "CAL_REF_SECONDS", .u8, .rs, (.val 10), (.span 1 100), false, false, false, false, 17⟩,
  ⟨0x370302, 1, 1, "REFCLK_ERROR", .i32, .ro, (.val 0), .any, false, false, false, false, 17⟩,
  ⟨0x370303, 1, 1, "SUGGESTED_INCREMENT", .u64, .ro, (.val 0), .any, false, false, false, false, 17⟩,
  ⟨0x370304, 1, 1, "REFCAL_PRESENT", .bool, .ro, (.val 0), (.oneOf [0, 1]), false, false, false, false, 17⟩,
  ⟨0x370401, 8, 1, "FIRE_SKEW_TARGET", .i16, .rs, (.val 0), (.span (-1250) 1250), false, false, false, false, 17⟩,
  ⟨0x370409, 8, 1, "FIRE_SKEW_MEASURED", .i16, .ro, (.val 0), .any, false, false, false, false, 17⟩,
  ⟨0x370501, 1, 1, "GATE_OFFSET", .f32, .rs, (.val 0), .any, false, false, false, false, 17⟩,
  ⟨0x370502, 1, 1, "GATE_GAIN", .f32, .rs, (.val 0), .f32NonNeg, false, false, false, false, 17⟩,
  ⟨0x370503, 1, 1, "GATE_REF_BEAM", .u32, .rs, (.val 153920), (.span 0 307199), false, false, false, false, 17⟩,
  ⟨0x370504, 1, 1, "GATE_REF_DOSE", .u32, .rs, (.val 0), (.spanOr 32768 98240 0), false, false, false, true, 17⟩]

/-- Rows of the object table of chapter 17. -/
def rows17_1 : List ObjRow := [
  ⟨0x370505, 1, 1, "GATE_OFFSET_LIMIT", .f32, .rs, (.val 0x447A0000), .f32Pos, false, false, false, true, 17⟩,
  ⟨0x370506, 1, 1, "GATE_GAIN_CHANGE", .u8, .rs, (.val 20), (.span 1 100), false, false, false, false, 17⟩,
  ⟨0x370601, 1, 1, "BEAM_OFF_LIMIT", .u16, .rs, (.val 5), (.span 0 1000), false, false, false, false, 17⟩,
  ⟨0x370602, 1, 1, "BEAM_RESULTS_OFF", .u32, .ro, (.val 0), .any, false, false, false, false, 17⟩,
  ⟨0x370603, 1, 1, "BEAM_RESULTS_CHANGED", .u32, .ro, (.val 0), .any, false, false, false, false, 17⟩,
  ⟨0x370701, 1, 1, "DEFL_REF_BEAM", .u32, .rs, (.val 153920), (.span 0 307199), false, false, false, false, 17⟩,
  ⟨0x370702, 1, 1, "DEFL_SCAN_AXIS", .u8, .rs, (.val 0), (.oneOf [0, 1]), false, false, false, true, 17⟩,
  ⟨0x370703, 1, 1, "DEFL_SCAN_STEPS", .u16, .rs, (.val 256), (.span 16 4096), false, false, false, false, 17⟩,
  ⟨0x370704, 1, 1, "DEFL_STILL_LIMIT", .u32, .rs, (.val 64), (.span 1 65536), false, false, false, false, 17⟩,
  ⟨0x370705, 1, 1, "DEFL_EDGE_X", .i64, .rs, (.val 0), .any, false, false, false, false, 17⟩,
  ⟨0x370706, 1, 1, "DEFL_EDGE_Y", .i32, .rs, (.val 0), .any, false, false, false, false, 17⟩,
  ⟨0x370707, 1, 1, "DEFL_POINTS", .dom, .ro, .none, .any, false, false, false, false, 17⟩,
  ⟨0x370708, 1, 1, "DEFL_POINTS_CLEAR", .u8, .wo, .none, (.span 1 1), false, false, false, false, 17⟩,
  ⟨0x370709, 1, 1, "DEFL_FIT_LIMIT", .u16, .rs, (.val 64), (.span 1 4096), false, false, false, false, 17⟩,
  ⟨0x37070A, 2, 1, "DEFL_FIT_RMS", .u32, .ro, (.val 0), .any, false, false, false, false, 17⟩,
  ⟨0x370801, 1, 1, "CAM_CAL_PORT", .u8, .rs, (.val 0), (.oneOf [0, 1]), false, false, false, true, 17⟩,
  ⟨0x370802, 1, 1, "CAM_CAL_FRAMES", .u8, .rs, (.val 16), (.span 1 64), false, false, false, false, 17⟩,
  ⟨0x370803, 1, 1, "CAM_BLACK_LIMIT", .u16, .rs, (.val 16384), .any, false, false, false, false, 17⟩]

/-- Rows of the object table of chapter 18. -/
def rows18_0 : List ObjRow := [
  ⟨0x200001, 1, 1, "STARTUP_PHASE", .u8, .ro, (.val 0), (.span 0 8), false, false, false, false, 18⟩,
  ⟨0x200002, 1, 1, "STARTUP_PERMILLE", .u16, .ro, (.val 0), (.span 0 1000), false, false, false, false, 18⟩,
  ⟨0x200003, 1, 1, "STARTUP_ERROR", .u8, .ro, (.val 0), (.span 0 3), false, false, false, false, 18⟩,
  ⟨0x200004, 1, 1, "STARTUP_DETAIL", .u32, .ro, (.val 0), .any, false, false, false, false, 18⟩,
  ⟨0x200005, 1, 1, "STARTUP_TIME", .u32, .ro, (.val 0), .any, false, false, false, false, 18⟩,
  ⟨0x200101, 1, 1, "BOOTSEL", .u8, .ro, .strap, (.span 0 3), false, false, false, false, 18⟩,
  ⟨0x200102, 1, 1, "BOOT_SLOT", .u8, .ro, (.val 0), (.span 0 2), false, false, false, false, 18⟩,
  ⟨0x200103, 2, 1, "IMAGE_STATUS", .u8, .ro, (.val 0), (.span 0 7), false, false, false, false, 18⟩,
  ⟨0x200105, 1, 1, "SECURITY_VERSION_MIN", .u32, .ro, .otp, .any, false, false, false, false, 18⟩,
  ⟨0x200106, 1, 1, "ROLLBACK_RAISE", .u8, .wo, .none, (.span 1 1), false, false, false, false, 18⟩,
  ⟨0x200107, 1, 1, "KEYS_REVOKED", .u8, .ro, .otp, (.span 0 15), false, false, false, false, 18⟩,
  ⟨0x200108, 1, 1, "KEY_REVOKE", .u8, .wo, .none, (.span 0 3), false, false, false, false, 18⟩,
  ⟨0x200201, 1, 1, "IMAGE_BUFFER", .dom, .wo, .none, .any, false, false, false, false, 18⟩,
  ⟨0x200202, 1, 1, "IMAGE_COMMAND", .u8, .wo, .none, (.span 1 4), false, false, false, false, 18⟩,
  ⟨0x200203, 1, 1, "IMAGE_COMMAND_STATE", .u8, .ro, (.val 0), (.span 0 3), false, false, false, false, 18⟩,
  ⟨0x200204, 1, 1, "IMAGE_BUFFER_STATUS", .u8, .ro, (.val 0), (.span 0 7), false, false, false, false, 18⟩,
  ⟨0x200301, 1, 1, "CTLMODE", .u8, .ro, .strap, (.span 0 3), false, false, false, false, 18⟩,
  ⟨0x200302, 1, 1, "PE_LANE_REVERSAL", .bool, .ro, .strap, (.oneOf [0, 1]), false, false, false, false, 18⟩,
  ⟨0x200401, 2, 1, "CTL_MAC", .u64, .ro, .factory, .any, false, false, false, false, 18⟩,
  ⟨0x200403, 2, 1, "CTL_IPV4_ADDR", .u32, .rs, .derived, .any, false, false, false, false, 18⟩]

/-- Rows of the object table of chapter 18. -/
def rows18_1 : List ObjRow := [
  ⟨0x200405, 2, 1, "CTL_IPV4_PREFIX", .u8, .rs, .derived, (.span 0 32), false, false, false, false, 18⟩,
  ⟨0x200407, 2, 1, "CTL_IPV4_GATEWAY", .u32, .rs, .derived, .any, false, false, false, false, 18⟩,
  ⟨0x200409, 2, 1, "CTL_LINK", .u8, .ro, (.val 0), (.oneOf [0, 1]), false, false, false, true, 18⟩,
  ⟨0x20040B, 1, 1, "NET_SAVE", .u8, .wo, .none, (.span 1 1), false, false, false, false, 18⟩,
  ⟨0x380001, 1, 1, "POWER_STATE", .u8, .ro, (.val 4), (.span 0 5), false, false, false, false, 18⟩,
  ⟨0x380002, 1, 1, "POWER_REQUEST", .u8, .wo, .none, (.span 0 2), false, false, false, false, 18⟩,
  ⟨0x380003, 1, 1, "WAKE_TARGET", .u8, .rs, (.val 2), (.oneOf [1, 2]), false, false, false, true, 18⟩,
  ⟨0x380004, 1, 1, "WAKE_SOURCES", .u8, .rs, (.val 3), (.span 1 3), false, false, false, false, 18⟩,
  ⟨0x380005, 1, 1, "LAST_WAKE_SOURCE", .u8, .ro, (.val 0), (.span 0 3), false, false, false, false, 18⟩,
  ⟨0x380006, 1, 1, "DEEP_ENTRIES", .u32, .ro, (.val 0), .any, false, false, false, false, 18⟩,
  ⟨0x380101, 7, 1, "RAIL_SOURCE", .u8, .ro, (.val 0), (.span 0 2), false, false, false, false, 18⟩,
  ⟨0x380201, 7, 1, "RAIL_VOLTAGE", .u16, .ro, (.val 0), .any, false, false, false, false, 18⟩,
  ⟨0x380301, 7, 1, "SWITCHOVERS", .u32, .rc, (.val 0), .any, false, false, false, false, 18⟩,
  ⟨0x380400, 1, 1, "SUPPLY_RETURN", .u8, .rs, (.val 1), (.oneOf [0, 1]), false, false, false, true, 18⟩,
  ⟨0x380500, 1, 1, "SUPPLY_RETURN_NOW", .u8, .wo, .none, (.span 1 1), false, false, false, false, 18⟩,
  ⟨0x380601, 1, 1, "TJ", .i16, .ro, (.val 0), .any, false, false, false, false, 18⟩,
  ⟨0x380602, 1, 1, "TJ_PEAK", .i16, .ro, (.val 0), .any, false, false, false, false, 18⟩,
  ⟨0x380603, 1, 1, "TJ_WARN", .i16, .rs, (.val 2000), (.span 1600 2384), false, false, false, false, 18⟩,
  ⟨0x380604, 1, 1, "THERMAL_TRIPS", .u32, .ro, (.val 0), .any, false, false, false, false, 18⟩,
  ⟨0x380605, 1, 1, "SUPPLY_FAULTS", .u32, .ro, (.val 0), .any, false, false, false, false, 18⟩]

/-- Rows of the object table of chapter 18. -/
def rows18_2 : List ObjRow := [
  ⟨0x380700, 1, 1, "CORE_PLL_LOSSES", .u32, .rc, (.val 0), .any, false, false, false, false, 18⟩]

/-- Rows of the object table of chapter 19. -/
def rows19_0 : List ObjRow := [
  ⟨0x130001, 6, 1, "CLASS_COUNT", .u32, .ro, (.val 0), .any, false, false, false, false, 19⟩,
  ⟨0x130101, 6, 1, "CLASS_COUNT_JOB", .u32, .ro, (.val 0), .any, false, false, true, false, 19⟩,
  ⟨0x131000, 1, 1, "ERROR_LOG", .dom, .ro, .none, .any, false, false, false, false, 19⟩,
  ⟨0x131101, 1, 1, "LOG_NEWEST_SEQ", .u32, .ro, (.val 4294967295), .any, false, false, false, false, 19⟩,
  ⟨0x131102, 1, 1, "LOG_OLDEST_SEQ", .u32, .ro, (.val 4294967295), .any, false, false, false, false, 19⟩,
  ⟨0x131103, 1, 1, "LOG_COALESCED", .u32, .rc, (.val 0), .any, false, false, false, false, 19⟩,
  ⟨0x132001, 16, 1, "HEALTH_INDEX", .u8, .ro, (.val 100), (.span 0 100), false, false, false, false, 19⟩,
  ⟨0x132100, 1, 1, "HEALTH_MIN", .u8, .ro, (.val 100), (.span 0 100), false, false, false, false, 19⟩,
  ⟨0x133001, 1, 1, "WATCHDOG_PERIOD", .u16, .rs, (.val 100), (.span 10 10000), false, false, false, false, 19⟩,
  ⟨0x133002, 1, 1, "WATCHDOG_EXPIRIES", .u32, .ro, (.val 0), .any, false, false, false, false, 19⟩,
  ⟨0x134001, 1, 1, "HALT_CAUSE", .u8, .ro, (.val 0), (.span 0 5), false, false, false, false, 19⟩,
  ⟨0x134002, 1, 1, "HALT_TIME", .time, .ro, (.val 0), .any, false, false, false, false, 19⟩,
  ⟨0x134003, 1, 1, "HALT_DETAIL", .u32, .ro, (.val 0), .any, false, false, false, false, 19⟩]

/-- Rows of the object table of chapter 20. -/
def rows20_0 : List ObjRow := [
  ⟨0x140001, 1, 1, "DIRECTORY_ENTRIES", .u32, .ro, .derived, .any, false, false, false, false, 20⟩,
  ⟨0x140002, 1, 1, "DIRECTORY_CRC", .u32, .ro, .derived, .any, false, false, false, false, 20⟩,
  ⟨0x140003, 1, 1, "DIRECTORY", .dom, .ro, .none, .any, false, false, false, false, 20⟩]

/-- The rows whose indexes lie in the page `index / 256` (Table 20-2). -/
def pageRows (page : Nat) : List ObjRow :=
  match page with
  | 0x10 | 0x11 | 0x12 | 0x21 => rows02_0 ++ rows02_1 ++ rows02_2
  | 0x13 => rows19_0
  | 0x14 => rows20_0
  | 0x20 => rows01_0 ++ rows18_0 ++ rows18_1 ++ rows18_2
  | 0x22 => rows03_0 ++ rows03_1 ++ rows03_2
  | 0x23 => rows04_0 ++ rows04_1
  | 0x24 => rows05_0 ++ rows05_1
  | 0x25 => rows06_0 ++ rows06_1
  | 0x26 => rows07_0 ++ rows07_1 ++ rows07_2
  | 0x27 | 0x28 => rows08_0 ++ rows08_1 ++ rows08_2 ++ rows08_3
  | 0x29 => rows09_0 ++ rows09_1
  | 0x30 => rows11_0 ++ rows11_1
  | 0x31 => rows13_0
  | 0x32 => rows12_0 ++ rows12_1
  | 0x33 => rows14_0
  | 0x34 => rows15_0 ++ rows15_1 ++ rows15_2
  | 0x35 => rows16_0 ++ rows16_1 ++ rows16_2
  | 0x36 => rows10_0 ++ rows10_1
  | 0x37 => rows17_0 ++ rows17_1
  | 0x38 => rows18_0 ++ rows18_1 ++ rows18_2
  | _ => []

/-- The pages that hold objects, in ascending order. -/
def objPages : List Nat :=
  [0x10, 0x11, 0x12, 0x13, 0x14, 0x20, 0x21, 0x22, 0x23, 0x24, 0x25, 0x26, 0x27, 0x28, 0x29,
   0x30, 0x31, 0x32, 0x33, 0x34, 0x35, 0x36, 0x37, 0x38]

/-- Whether a row holds an object. -/
def ObjRow.holds (r : ObjRow) (o : ObjRef) : Bool :=
  r.base / 256 ≤ o / 256 && o / 256 < r.base / 256 + r.span &&
  r.base % 256 ≤ o % 256 && o % 256 < r.base % 256 + r.count

/-- The row of an object that an owning table defines; none for any other index or sub-index (R29, R412). -/
def objRow (o : ObjRef) : Option ObjRow := (pageRows (o / 65536)).find? (·.holds o)

/-- Bytes of a value of a type; 0 where the length varies (Table 02-1). -/
def OType.bytes : OType → Nat
  | .bool | .u8 => 1
  | .u16 | .i16 => 2
  | .u32 | .i32 | .f32 => 4
  | .u64 | .i64 => 8
  | .time => 16
  | .str | .dom => 0

/-- Whether values of a type are two's complement. -/
def OType.signed : OType → Bool
  | .i16 | .i32 | .i64 => true
  | _ => false

/-- The objects of a row: `count` sub-indices at `span` indexes. -/
def ObjRow.refs (r : ObjRow) : List ObjRef :=
  (List.range r.span).flatMap fun i => (List.range r.count).map fun k => r.base + 256 * i + k

namespace Obj

abbrev VENDOR_NAME : ObjRef := 0x100001
abbrev PART_NAME : ObjRef := 0x100002
abbrev STEPPING : ObjRef := 0x100003
abbrev SERIAL : ObjRef := 0x100004
abbrev NODE_ID : ObjRef := 0x100005
abbrev PAIR_ROLE : ObjRef := 0x100006
abbrev FIRMWARE_VERSION : ObjRef := 0x100007
abbrev BEHAVIOUR_LEVEL_MAX : ObjRef := 0x101001
abbrev BEHAVIOUR_LEVEL : ObjRef := 0x101002
abbrev AUTH_REQUIRED : ObjRef := 0x102001
abbrev SESSION_OPEN : ObjRef := 0x102002
abbrev SESSION_CLOSE : ObjRef := 0x102003
abbrev SESSION_TIMEOUT : ObjRef := 0x102004
abbrev AUTH_KEY : ObjRef := 0x102005
abbrev FACEPLATE_PORT : ObjRef := 0x102006
abbrev SESSIONS_OPEN : ObjRef := 0x102007
abbrev FP_MESSAGES_ACCEPTED : ObjRef := 0x103001
abbrev FP_CRC_DISCARDS : ObjRef := 0x103002
abbrev FP_AUTH_DISCARDS : ObjRef := 0x103003
abbrev FP_SEQ_ERRORS : ObjRef := 0x103004
abbrev FP_SESSION_REFUSALS : ObjRef := 0x103005
abbrev COMMIT : ObjRef := 0x110001
abbrev STAGING_OWNER : ObjRef := 0x110002
abbrev STAGED_ENTRIES : ObjRef := 0x110003
abbrev COMMITS_ACCEPTED : ObjRef := 0x110004
abbrev LAST_COMMIT_RESULT : ObjRef := 0x110005
abbrev LAST_CLAIMANT_1 : ObjRef := 0x110006
abbrev LAST_CLAIMANT_2 : ObjRef := 0x110007
abbrev LAST_CONFLICT : ObjRef := 0x110008
abbrev ABORT_JOB : ObjRef := 0x120001
abbrev ABORT_DMA : ObjRef := 0x120002
abbrev ABORT_COMPRESSION : ObjRef := 0x120003
abbrev ABORT_CAMERA : ObjRef := 0x120004
abbrev ABORT_CALIBRATION : ObjRef := 0x120005
abbrev DISCARD_STAGING : ObjRef := 0x120006
abbrev ABORT_STATE : ObjRef := 0x120101
abbrev CLASS_COUNT : ObjRef := 0x130001
abbrev CLASS_COUNT_JOB : ObjRef := 0x130101
abbrev ERROR_LOG : ObjRef := 0x131000
abbrev LOG_NEWEST_SEQ : ObjRef := 0x131101
abbrev LOG_OLDEST_SEQ : ObjRef := 0x131102
abbrev LOG_COALESCED : ObjRef := 0x131103
abbrev HEALTH_INDEX : ObjRef := 0x132001
abbrev HEALTH_MIN : ObjRef := 0x132100
abbrev WATCHDOG_PERIOD : ObjRef := 0x133001
abbrev WATCHDOG_EXPIRIES : ObjRef := 0x133002
abbrev HALT_CAUSE : ObjRef := 0x134001
abbrev HALT_TIME : ObjRef := 0x134002
abbrev HALT_DETAIL : ObjRef := 0x134003
abbrev DIRECTORY_ENTRIES : ObjRef := 0x140001
abbrev DIRECTORY_CRC : ObjRef := 0x140002
abbrev DIRECTORY : ObjRef := 0x140003
abbrev STARTUP_PHASE : ObjRef := 0x200001
abbrev STARTUP_PERMILLE : ObjRef := 0x200002
abbrev STARTUP_ERROR : ObjRef := 0x200003
abbrev STARTUP_DETAIL : ObjRef := 0x200004
abbrev STARTUP_TIME : ObjRef := 0x200005
abbrev BOOTSEL : ObjRef := 0x200101
abbrev BOOT_SLOT : ObjRef := 0x200102
abbrev IMAGE_STATUS : ObjRef := 0x200103
abbrev SECURITY_VERSION_MIN : ObjRef := 0x200105
abbrev ROLLBACK_RAISE : ObjRef := 0x200106
abbrev KEYS_REVOKED : ObjRef := 0x200107
abbrev KEY_REVOKE : ObjRef := 0x200108
abbrev IMAGE_BUFFER : ObjRef := 0x200201
abbrev IMAGE_COMMAND : ObjRef := 0x200202
abbrev IMAGE_COMMAND_STATE : ObjRef := 0x200203
abbrev IMAGE_BUFFER_STATUS : ObjRef := 0x200204
abbrev CTLMODE : ObjRef := 0x200301
abbrev PE_LANE_REVERSAL : ObjRef := 0x200302
abbrev CTL_MAC : ObjRef := 0x200401
abbrev CTL_IPV4_ADDR : ObjRef := 0x200403
abbrev CTL_IPV4_PREFIX : ObjRef := 0x200405
abbrev CTL_IPV4_GATEWAY : ObjRef := 0x200407
abbrev CTL_LINK : ObjRef := 0x200409
abbrev NET_SAVE : ObjRef := 0x20040B
abbrev REGION_STATE : ObjRef := 0x201001
abbrev RASTER_BLOCKS_IN_SERVICE : ObjRef := 0x201101
abbrev GOUGE_CELLS_IN_SERVICE : ObjRef := 0x201201
abbrev SLOT_LANES_IN_SERVICE : ObjRef := 0x201301
abbrev TILE_CLOCK_GATING : ObjRef := 0x201400
abbrev REGION_IDLE_SLEEP : ObjRef := 0x201500
abbrev REGION_WAKES : ObjRef := 0x201601
abbrev JOB_STATE : ObjRef := 0x210001
abbrev JOB_ID : ObjRef := 0x210002
abbrev JOB_CONTROL : ObjRef := 0x210003
abbrev JOB_AUTO_START : ObjRef := 0x210004
abbrev JOBS_COMPLETED : ObjRef := 0x210005
abbrev START_REFUSAL : ObjRef := 0x210006
abbrev PROG_STRIPE : ObjRef := 0x210101
abbrev PROG_BAND : ObjRef := 0x210102
abbrev PROG_FLASH_INDEX : ObjRef := 0x210103
abbrev PROG_PERMILLE : ObjRef := 0x210104
abbrev PROG_PASS : ObjRef := 0x210105
abbrev PROG_TIME : ObjRef := 0x210106
abbrev RING_BASE : ObjRef := 0x220001
abbrev RING_ENTRIES : ObjRef := 0x220002
abbrev REPAIR_RING_BASE : ObjRef := 0x220003
abbrev REPAIR_RING_ENTRIES : ObjRef := 0x220004
abbrev WRITEBACK_ADDR : ObjRef := 0x220005
abbrev STREAM_ENABLE : ObjRef := 0x220006
abbrev STREAM_PRODUCER : ObjRef := 0x220007
abbrev REPAIR_PRODUCER : ObjRef := 0x220008
abbrev STREAM_CONSUMER : ObjRef := 0x220009
abbrev STREAM_RELEASE : ObjRef := 0x22000A
abbrev STREAM_STATE : ObjRef := 0x22000B
abbrev PREFETCH_DEPTH : ObjRef := 0x22000C
abbrev WRITEBACK_MSIX : ObjRef := 0x22000D
abbrev HOST_LINK_STATE : ObjRef := 0x22000E
abbrev HOST_LINK_WIDTH : ObjRef := 0x22000F
abbrev HOST_LINK_SPEED : ObjRef := 0x220010
abbrev PCI_VENDOR_ID : ObjRef := 0x220011
abbrev PCI_DEVICE_ID : ObjRef := 0x220012
abbrev BAR_ACCESS_ERRORS : ObjRef := 0x220013
abbrev HOST_RESETS : ObjRef := 0x220014
abbrev BLOCKS_ACCEPTED : ObjRef := 0x220101
abbrev BYTES_ACCEPTED : ObjRef := 0x220102
abbrev REFETCHES : ObjRef := 0x220103
abbrev REJECTIONS : ObjRef := 0x220104
abbrev REPAIRS_ACCEPTED : ObjRef := 0x220105
abbrev PENDING_REJECTIONS : ObjRef := 0x220106
abbrev EXPECTED_SEQ : ObjRef := 0x220107
abbrev AREAS_GIVEN_UP : ObjRef := 0x220108
abbrev DOORBELL_ERRORS : ObjRef := 0x220109
abbrev LAST_REJ_RING : ObjRef := 0x220201
abbrev LAST_REJ_INDEX : ObjRef := 0x220202
abbrev LAST_REJ_TAG : ObjRef := 0x220203
abbrev LAST_REJ_STATUS : ObjRef := 0x220204
abbrev LAST_REJ_TYPE : ObjRef := 0x220205
abbrev LAST_REJ_JOB : ObjRef := 0x220206
abbrev LAST_REJ_STRIPE : ObjRef := 0x220207
abbrev LAST_REJ_BAND : ObjRef := 0x220208
abbrev LAST_REJ_SEQ : ObjRef := 0x220209
abbrev LAST_REJ_DETAIL : ObjRef := 0x22020A
abbrev PENDING_LIST : ObjRef := 0x22020B
abbrev BLOCK_BUFFER_BASE : ObjRef := 0x220301
abbrev BLOCK_BUFFER_SIZE : ObjRef := 0x220302
abbrev CELL_STORE_BASE : ObjRef := 0x220303
abbrev CELL_STORE_SIZE : ObjRef := 0x220304
abbrev CELL_STORE_USED : ObjRef := 0x220305
abbrev CELLS_DEFINED : ObjRef := 0x220306
abbrev MARKS_LOADED : ObjRef := 0x220307
abbrev REJECT_GIVE_UP_LEAD : ObjRef := 0x220400
abbrev JOB_AREA : ObjRef := 0x220501
abbrev JOB_STRIPES : ObjRef := 0x220502
abbrev JOB_PIXEL_SIZE : ObjRef := 0x220503
abbrev SHADOW_TEST_ENABLE : ObjRef := 0x230001
abbrev SHADOW_TEST_PERIOD : ObjRef := 0x230002
abbrev PACE_WARN_LEAD : ObjRef := 0x230003
abbrev TILES_RASTERIZED : ObjRef := 0x230101
abbrev TILES_EMPTY : ObjRef := 0x230201
abbrev AREA_CHECK_FAILS : ObjRef := 0x230301
abbrev DUAL_MISMATCHES : ObjRef := 0x230401
abbrev TILES_SPLIT : ObjRef := 0x230501
abbrev TILES_UNRESOLVED : ObjRef := 0x230601
abbrev RASTER_LEAD : ObjRef := 0x230701
abbrev PACE_WARNINGS : ObjRef := 0x230801
abbrev CELL_STATE : ObjRef := 0x230901
abbrev CELL_FAILS : ObjRef := 0x230A01
abbrev BLOCK_STATE : ObjRef := 0x230B01
abbrev LAST_FAIL_REGION : ObjRef := 0x230C01
abbrev LAST_FAIL_CELL : ObjRef := 0x230C02
abbrev LAST_FAIL_STRIPE : ObjRef := 0x230C03
abbrev LAST_FAIL_TILE_COLUMN : ObjRef := 0x230C04
abbrev LAST_FAIL_TILE_ROW : ObjRef := 0x230C05
abbrev LAST_FAIL_CHECK : ObjRef := 0x230C06
abbrev LAST_FAIL_DEVIATION : ObjRef := 0x230C07
abbrev SHADOW_TEST_FAILS : ObjRef := 0x230D00
abbrev PEC_ENABLE : ObjRef := 0x240001
abbrev DOSE_NOMINAL : ObjRef := 0x240002
abbrev KERNEL_RADIUS_CELLS : ObjRef := 0x240003
abbrev KERNEL_RADIUS_PIXELS : ObjRef := 0x240004
abbrev CORR_WARN_LEAD : ObjRef := 0x240005
abbrev TERM_SIGMA : ObjRef := 0x240101
abbrev TERM_ETA : ObjRef := 0x240201
abbrev TERM_TAPS : ObjRef := 0x240301
abbrev CORR_LEAD : ObjRef := 0x240401
abbrev CORR_WARNINGS : ObjRef := 0x240501
abbrev CORR_MISMATCHES : ObjRef := 0x240601
abbrev CORR_BLOCK_STATE : ObjRef := 0x240701
abbrev SPOOL_SATURATIONS : ObjRef := 0x240801
abbrev FACTOR_CLAMPS : ObjRef := 0x240901
abbrev PLACEMENT_SATURATIONS : ObjRef := 0x240A01
abbrev CLASS_ENTRY : ObjRef := 0x241001
abbrev FIT_FIELD : ObjRef := 0x243001
abbrev FIT_ORDER : ObjRef := 0x243002
abbrev FIT_MAX_RESIDUAL : ObjRef := 0x243003
abbrev FIT_STAGE : ObjRef := 0x243004
abbrev FIT_STATUS : ObjRef := 0x243101
abbrev FIT_FIELD_LAST : ObjRef := 0x243102
abbrev FIT_MARKS_USED : ObjRef := 0x243103
abbrev FIT_RMS : ObjRef := 0x243104
abbrev FIT_MAX : ObjRef := 0x243105
abbrev FIT_A : ObjRef := 0x243201
abbrev FIT_B : ObjRef := 0x243301
abbrev FIELD_ENABLE : ObjRef := 0x244001
abbrev X_LO : ObjRef := 0x244002
abbrev X_HI : ObjRef := 0x244003
abbrev Y_LO : ObjRef := 0x244004
abbrev Y_HI : ObjRef := 0x244005
abbrev FIELD_XC : ObjRef := 0x244006
abbrev FIELD_YC : ObjRef := 0x244007
abbrev FIELD_SHIFT : ObjRef := 0x244008
abbrev FIELD_A : ObjRef := 0x244009
abbrev FIELD_B : ObjRef := 0x244013
abbrev BEAM_PITCH : ObjRef := 0x250001
abbrev ROWS_PER_GROUP : ObjRef := 0x250002
abbrev DELIVERABLE_CEILING : ObjRef := 0x250003
abbrev LOAD_REACH : ObjRef := 0x250004
abbrev SWEEP_STATE : ObjRef := 0x250101
abbrev SWEEP_KIND : ObjRef := 0x250102
abbrev SWEEP_DIRECTION : ObjRef := 0x250103
abbrev SWEEP_LENGTH : ObjRef := 0x250104
abbrev SWEEP_LAST_INDEX : ObjRef := 0x250105
abbrev TURNAROUND_HOLD : ObjRef := 0x250106
abbrev TURNAROUND_RELEASE : ObjRef := 0x250107
abbrev TURNAROUND_HELD : ObjRef := 0x250108
abbrev RESIDUAL_TOLERANCE : ObjRef := 0x250301
abbrev SLOT_RESERVE : ObjRef := 0x250302
abbrev CAP_IN_EFFECT : ObjRef := 0x250303
abbrev VISITS_COMPUTED : ObjRef := 0x250401
abbrev LOST_VISITS : ObjRef := 0x250501
abbrev RAIL_MISMATCHES : ObjRef := 0x250601
abbrev ADDED_BACK_CODES : ObjRef := 0x250701
abbrev REM_SATURATIONS : ObjRef := 0x250801
abbrev PIXELS_RESIDUAL : ObjRef := 0x250901
abbrev PIXELS_NEVER_LOADED : ObjRef := 0x250A01
abbrev LOAD_LEAD : ObjRef := 0x250B01
abbrev FLASH_PERIOD : ObjRef := 0x260001
abbrev FRAME_SYNC_DELAY : ObjRef := 0x260002
abbrev PREDICTION_HORIZON : ObjRef := 0x260003
abbrev POS_ENABLE : ObjRef := 0x260101
abbrev POS_TIMEOUT : ObjRef := 0x260102
abbrev POS_JUMP_LIMIT : ObjRef := 0x260103
abbrev POS_RESUME_LIMIT : ObjRef := 0x260104
abbrev POS_STATE : ObjRef := 0x260105
abbrev POS_SAMPLES_GOOD : ObjRef := 0x260106
abbrev POS_CRC_ERRORS : ObjRef := 0x260107
abbrev POS_FRAMING_ERRORS : ObjRef := 0x260108
abbrev POS_SEQ_GAPS : ObjRef := 0x260109
abbrev POS_JUMPS : ObjRef := 0x26010A
abbrev POS_LOSSES : ObjRef := 0x26010B
abbrev POS_SWEEP_PIXEL : ObjRef := 0x260201
abbrev POS_SWEEP_FRACTION : ObjRef := 0x260202
abbrev POS_Y : ObjRef := 0x260203
abbrev POS_VELOCITY : ObjRef := 0x260204
abbrev POS_TIME : ObjRef := 0x260205
abbrev FLASHES_ISSUED : ObjRef := 0x260301
abbrev REPEATS_BLANKED : ObjRef := 0x260302
abbrev INDEXES_SKIPPED : ObjRef := 0x260303
abbrev OVERSPEED_SKIPS_WINDOW : ObjRef := 0x260304
abbrev RANGE_REFUSALS : ObjRef := 0x260305
abbrev FIRE_WITHHELD : ObjRef := 0x260306
abbrev HOLD_PERIODS : ObjRef := 0x260307
abbrev STRIPES_BLANKED : ObjRef := 0x260308
abbrev STAGE_SLOW : ObjRef := 0x260309
abbrev STAGE_HOLD : ObjRef := 0x26030A
abbrev SKIP_WARN : ObjRef := 0x260401
abbrev SKIP_CLEAR : ObjRef := 0x260402
abbrev SKIP_LIMIT : ObjRef := 0x260403
abbrev DEFL_RANGE : ObjRef := 0x260501
abbrev DEFL_GAIN_X : ObjRef := 0x260502
abbrev DEFL_GAIN_Y : ObjRef := 0x260503
abbrev DEFL_OFFSET_X : ObjRef := 0x260504
abbrev DEFL_OFFSET_Y : ObjRef := 0x260505
abbrev DEFL_OUT_DELAY : ObjRef := 0x260506
abbrev DEFL_WORD_X : ObjRef := 0x260507
abbrev DEFL_WORD_Y : ObjRef := 0x260508
abbrev DEFL_CLAMPS : ObjRef := 0x260509
abbrev DEFL_LINK_ENABLE : ObjRef := 0x260601
abbrev DEFL_LINK_STATE : ObjRef := 0x260602
abbrev SYSREF_MODE : ObjRef := 0x260603
abbrev SYSREF_PERIOD : ObjRef := 0x260604
abbrev PREWAKE_LEAD : ObjRef := 0x260701
abbrev PREWAKE_DISTANCE : ObjRef := 0x260702
abbrev WAKE_LATE : ObjRef := 0x260703
abbrev HEAD_ATTACH : ObjRef := 0x270001
abbrev HEAD_STATE : ObjRef := 0x270002
abbrev HEAD_ATTACH_ERROR : ObjRef := 0x270003
abbrev HEAD_I2C_SPEED : ObjRef := 0x270004
abbrev HEAD_AUTO_ATTACH : ObjRef := 0x270005
abbrev HEAD_ATTACH_PERMILLE : ObjRef := 0x270006
abbrev HEAD_MODEL : ObjRef := 0x270101
abbrev HEAD_SERIAL : ObjRef := 0x270102
abbrev HEAD_RANK : ObjRef := 0x270103
abbrev HEAD_PITCH : ObjRef := 0x270104
abbrev HEAD_TSETTLE : ObjRef := 0x270105
abbrev HEAD_TEMP_WARN : ObjRef := 0x270106
abbrev HEAD_TEMP_LIMIT : ObjRef := 0x270107
abbrev HEAD_TEMP_HYST : ObjRef := 0x270108
abbrev HEAD_MIN_SYNC_DELAY : ObjRef := 0x270109
abbrev HEAD_DEAD_COUNT : ObjRef := 0x27010A
abbrev FIRE_WIDTH : ObjRef := 0x270201
abbrev FIRE_STAGGER : ObjRef := 0x270202
abbrev FIRE_ROTATE : ObjRef := 0x270203
abbrev FIRE_TRIM : ObjRef := 0x270301
abbrev THERMAL_CAP : ObjRef := 0x270401
abbrev TEMP_STALE_LIMIT : ObjRef := 0x270402
abbrev HEAD_TEMP : ObjRef := 0x270403
abbrev THERMAL_STATE : ObjRef := 0x270404
abbrev THERMAL_CAP_ENTRIES : ObjRef := 0x270405
abbrev HEAD_LIMIT_ENTRIES : ObjRef := 0x270406
abbrev BLK_LANE_STATE : ObjRef := 0x270501
abbrev HST_LANE_STATE : ObjRef := 0x270601
abbrev ACKS_ACCEPTED : ObjRef := 0x270701
abbrev ACK_CRC_ERRORS : ObjRef := 0x270702
abbrev ACK_TIMEOUTS : ObjRef := 0x270703
abbrev ACK_LATE : ObjRef := 0x270704
abbrev ACK_STRAY : ObjRef := 0x270705
abbrev ACK_COPY_DISAGREE : ObjRef := 0x270706
abbrev HEAD_PROTOCOL_ERRORS : ObjRef := 0x270707
abbrev HEAD_CRC_MISMATCHES : ObjRef := 0x270708
abbrev FRAMES_NOT_FIRED : ObjRef := 0x270709
abbrev LINK_CRC_MISMATCHES : ObjRef := 0x27070A
abbrev LANE_RX_FAILS : ObjRef := 0x270801
abbrev GATE_CHECK_START : ObjRef := 0x270901
abbrev GATE_CHECK_STOP : ObjRef := 0x270902
abbrev GATE_STATE : ObjRef := 0x270903
abbrev GATE_BEAMS : ObjRef := 0x270904
abbrev GATE_CODE : ObjRef := 0x270905
abbrev GATE_SHOTS : ObjRef := 0x270906
abbrev GATE_DELAY : ObjRef := 0x270907
abbrev GATE_SPAN : ObjRef := 0x270908
abbrev GATE_DARK_LIMIT : ObjRef := 0x270909
abbrev GATE_WEAK_LEVEL : ObjRef := 0x27090A
abbrev GATE_EFF_TOLERANCE : ObjRef := 0x27090B
abbrev GATE_FAULT_LIMIT : ObjRef := 0x27090C
abbrev GATE_CURSOR : ObjRef := 0x27090D
abbrev GATE_PERMILLE : ObjRef := 0x27090E
abbrev GATE_BEAMS_DONE : ObjRef := 0x27090F
abbrev GATE_WORD_X : ObjRef := 0x270910
abbrev GATE_WORD_Y : ObjRef := 0x270911
abbrev GATE_RX_STATE : ObjRef := 0x270912
abbrev GATE_LAST_BEAM : ObjRef := 0x270913
abbrev GATE_LAST_ECODE : ObjRef := 0x270914
abbrev TURNAROUND_COUNT : ObjRef := 0x270A00
abbrev IMAGE_START : ObjRef := 0x270B01
abbrev IMAGE_STATE : ObjRef := 0x270B02
abbrev IMAGE_CODE : ObjRef := 0x270B03
abbrev IMAGE_SHOTS : ObjRef := 0x270B04
abbrev IMAGE_STUCK_LEVEL : ObjRef := 0x270B05
abbrev IMAGE_OFF_LEVEL : ObjRef := 0x270B06
abbrev IMAGE_STUCK_FOUND : ObjRef := 0x270B07
abbrev IMAGE_OFF_FOUND : ObjRef := 0x270B08
abbrev IMAGE_PERMILLE : ObjRef := 0x270B09
abbrev CMD_PENDING : ObjRef := 0x270C01
abbrev CMD_RETRIES : ObjRef := 0x270C02
abbrev BEAM_TABLE : ObjRef := 0x280000
abbrev BEAM_EDIT : ObjRef := 0x280100
abbrev BEAMS_IN_STATE : ObjRef := 0x280201
abbrev BEAM_EPOCH : ObjRef := 0x280300
abbrev BEAM_EDITS_PENDING : ObjRef := 0x280400
abbrev BURNISH_MODE : ObjRef := 0x290001
abbrev BURNISH_RETRIES : ObjRef := 0x290002
abbrev BURNISH_REPAIR_WAIT : ObjRef := 0x290003
abbrev LEDGER_EARLY_LEVEL : ObjRef := 0x290004
abbrev LEDGER_BASE : ObjRef := 0x290101
abbrev LEDGER_SIZE : ObjRef := 0x290102
abbrev LEDGER_RESERVE : ObjRef := 0x290103
abbrev LEDGER_USED : ObjRef := 0x290104
abbrev LEDGER_ENTRIES : ObjRef := 0x290105
abbrev LEDGER_OPEN : ObjRef := 0x290106
abbrev TILES_BY_CAUSE : ObjRef := 0x290201
abbrev LEDGER : ObjRef := 0x290300
abbrev LEDGER_TILE : ObjRef := 0x290400
abbrev BURNISH_STATE : ObjRef := 0x290501
abbrev BURNISH_STRIPE : ObjRef := 0x290502
abbrev BURNISH_ATTEMPT : ObjRef := 0x290503
abbrev BURNISH_PERMILLE : ObjRef := 0x290504
abbrev BURNISH_FLASH_INDEX : ObjRef := 0x290505
abbrev BURNISH_PLAN : ObjRef := 0x290506
abbrev TILES_REPAIRED : ObjRef := 0x290601
abbrev TILES_REPORTED : ObjRef := 0x290602
abbrev BURNISH_SWEEPS : ObjRef := 0x290603
abbrev PARKS : ObjRef := 0x290604
abbrev PARK_INDEX : ObjRef := 0x290605
abbrev EARLY_BURNISHES : ObjRef := 0x290606
abbrev DEFECT_LIST : ObjRef := 0x290701
abbrev DEFECT_RECORDS : ObjRef := 0x290702
abbrev DEFECT_ACK : ObjRef := 0x290703
abbrev DEFECT_RECORDS_TOTAL : ObjRef := 0x290704
abbrev DRAM_POPULATION : ObjRef := 0x300001
abbrev DRAM_CAPACITY : ObjRef := 0x300002
abbrev DRAM_RESERVED_BASE : ObjRef := 0x300003
abbrev SCRUB_PERIOD : ObjRef := 0x300004
abbrev DISTURB_THRESHOLD : ObjRef := 0x300005
abbrev DISTURB_RADIUS : ObjRef := 0x300006
abbrev WINDOW_FAULT_LIMIT : ObjRef := 0x300007
abbrev FILL_STATE : ObjRef := 0x300101
abbrev FILL_PERMILLE : ObjRef := 0x300102
abbrev FILL_POSITION : ObjRef := 0x300103
abbrev FILL_TIME : ObjRef := 0x300104
abbrev MC_STATE : ObjRef := 0x300201
abbrev MC_SPEED : ObjRef := 0x300301
abbrev MC_CORRECTED : ObjRef := 0x300401
abbrev MC_UNCORRECTABLE : ObjRef := 0x300501
abbrev MC_MISDIRECTED : ObjRef := 0x300601
abbrev MC_POISON_READS : ObjRef := 0x300701
abbrev MC_NARROW_WRITES : ObjRef := 0x300801
abbrev MC_FORWARDS : ObjRef := 0x300901
abbrev MC_REFRESH_RATE : ObjRef := 0x300A01
abbrev MC_NEIGHBOUR_REFRESHES : ObjRef := 0x300B01
abbrev REMAP_USED : ObjRef := 0x300C01
abbrev REMAP_TABLE : ObjRef := 0x300D01
abbrev REMAP_ADD : ObjRef := 0x300E00
abbrev REMAP_OVERFLOWS : ObjRef := 0x300F01
abbrev SCRUB_PERMILLE : ObjRef := 0x301001
abbrev SCRUB_POSITION : ObjRef := 0x301002
abbrev SCRUB_PASSES : ObjRef := 0x301003
abbrev SCRUB_CORRECTED : ObjRef := 0x301004
abbrev SCRUB_POISONED : ObjRef := 0x301005
abbrev LAST_UE_ADDRESS : ObjRef := 0x301101
abbrev LAST_UE_KIND : ObjRef := 0x301102
abbrev LAST_UE_REGION : ObjRef := 0x301103
abbrev LAST_UE_FINDER : ObjRef := 0x301104
abbrev SRAM_CORRECTED : ObjRef := 0x301201
abbrev SRAM_UNCORRECTABLE : ObjRef := 0x301301
abbrev WINDOW_WORDS_POISONED : ObjRef := 0x301401
abbrev CH_START : ObjRef := 0x310001
abbrev CH_REQUEST : ObjRef := 0x310101
abbrev CH_BURST : ObjRef := 0x310201
abbrev CH_EVENT_LINE : ObjRef := 0x310301
abbrev CH_STATE : ObjRef := 0x310401
abbrev CH_HALT_CAUSE : ObjRef := 0x310501
abbrev CH_DESC_ADDR : ObjRef := 0x310601
abbrev CH_REMAINING : ObjRef := 0x310701
abbrev CH_BYTES : ObjRef := 0x310801
abbrev CH_TAG : ObjRef := 0x310901
abbrev CH_HALT_ADDR : ObjRef := 0x310921
abbrev CH_OVERRUNS : ObjRef := 0x310A01
abbrev CH_WITHDRAWN : ObjRef := 0x310B01
abbrev EVENT_CONSUMER : ObjRef := 0x310C01
abbrev EVENT_MERGES : ObjRef := 0x310D00
abbrev EVENT_TIME : ObjRef := 0x310E01
abbrev SPOOL_BASE : ObjRef := 0x320001
abbrev SPOOL_SIZE : ObjRef := 0x320002
abbrev RUN_AHEAD_DEPTH : ObjRef := 0x320003
abbrev SPOOL_TABLES : ObjRef := 0x320004
abbrev SPOOL_NEED : ObjRef := 0x320005
abbrev SPOOL_USED : ObjRef := 0x320101
abbrev SPOOL_RETAINED : ObjRef := 0x320201
abbrev SPOOL_RATIO : ObjRef := 0x320301
abbrev SPOOL_RAW_TILES : ObjRef := 0x320401
abbrev HJ_RING_BASE : ObjRef := 0x320501
abbrev HJ_RING_ENTRIES : ObjRef := 0x320502
abbrev HJ_PRODUCER : ObjRef := 0x320503
abbrev HJ_CONSUMER : ObjRef := 0x320504
abbrev HJ_RESUME : ObjRef := 0x320505
abbrev HJ_LANE_MASK : ObjRef := 0x320506
abbrev LANE_STATE : ObjRef := 0x320601
abbrev LANE_HOST_STATE : ObjRef := 0x320701
abbrev LANE_FAILS : ObjRef := 0x320801
abbrev LANE_MISMATCHES : ObjRef := 0x320901
abbrev SPOOL_CRC_FAILS : ObjRef := 0x320902
abbrev LOADER_MISMATCHES : ObjRef := 0x320903
abbrev HJ_COMPLETED : ObjRef := 0x320904
abbrev HJ_ERRORS : ObjRef := 0x320905
abbrev CU_POLY : ObjRef := 0x330001
abbrev CU_INIT : ObjRef := 0x330005
abbrev CU_VALUE : ObjRef := 0x330101
abbrev CU_RESULT : ObjRef := 0x330201
abbrev CU_LATCH_COUNT : ObjRef := 0x330301
abbrev CU_FEED_LEVEL : ObjRef := 0x330401
abbrev CU_BYTES : ObjRef := 0x330501
abbrev CU_LATCH : ObjRef := 0x330601
abbrev CU_FEED8 : ObjRef := 0x330701
abbrev CU_FEED16 : ObjRef := 0x330801
abbrev CU_FEED32 : ObjRef := 0x330901
abbrev CU_LATCH_BYTES : ObjRef := 0x330A01
abbrev CAM_ENABLE : ObjRef := 0x340001
abbrev CAM_LANES : ObjRef := 0x340101
abbrev CAM_VC : ObjRef := 0x340201
abbrev CAM_DATA_TYPE : ObjRef := 0x340301
abbrev CAM_WIDTH : ObjRef := 0x340401
abbrev CAM_HEIGHT : ObjRef := 0x340501
abbrev CAM_CFA : ObjRef := 0x340601
abbrev CAM_PRIORITY : ObjRef := 0x340700
abbrev CAM_STATE : ObjRef := 0x340801
abbrev CAM_RESTART : ObjRef := 0x340901
abbrev CAM_STROBE_ENABLE : ObjRef := 0x340A01
abbrev CAM_TRIGGER : ObjRef := 0x340B01
abbrev CAM_COMPARATOR : ObjRef := 0x340C01
abbrev CAM_STROBE_WIDTH : ObjRef := 0x340D01
abbrev BLACK_LEVEL : ObjRef := 0x341001
abbrev BLACK_GAIN : ObjRef := 0x341101
abbrev CAM_DEFECT_LIST : ObjRef := 0x341201
abbrev DEFECT_THRESHOLD : ObjRef := 0x341301
abbrev SHADING_ENABLE : ObjRef := 0x341401
abbrev SHADING_GRID : ObjRef := 0x341501
abbrev WB_GAIN : ObjRef := 0x341601
abbrev COLOUR_MATRIX : ObjRef := 0x341701
abbrev TONE_CURVES : ObjRef := 0x341801
abbrev VISION_WEIGHT : ObjRef := 0x341901
abbrev OUT_BASE : ObjRef := 0x342001
abbrev OUT_SLOTS : ObjRef := 0x342101
abbrev OUT_ENABLE : ObjRef := 0x342201
abbrev OUT_SLOT_SIZE : ObjRef := 0x342301
abbrev OUT_LAST_SLOT : ObjRef := 0x342401
abbrev DISP_WIDTH : ObjRef := 0x342501
abbrev DISP_HEIGHT : ObjRef := 0x342601
abbrev FRAMES_RECEIVED : ObjRef := 0x343001
abbrev FRAMES_PUBLISHED : ObjRef := 0x343101
abbrev FRAMES_DROPPED : ObjRef := 0x343201
abbrev SHORT_FRAMES : ObjRef := 0x343301
abbrev LONG_FRAMES : ObjRef := 0x343401
abbrev SHORT_LINES : ObjRef := 0x343501
abbrev LONG_LINES : ObjRef := 0x343601
abbrev ECC_CORRECTED : ObjRef := 0x343701
abbrev ECC_UNCORRECTABLE : ObjRef := 0x343801
abbrev CRC_ERRORS : ObjRef := 0x343901
abbrev PACKETS_DISCARDED : ObjRef := 0x343A01
abbrev LINE_PERIOD : ObjRef := 0x343B01
abbrev MF_REQUEST : ObjRef := 0x344001
abbrev MF_STATE : ObjRef := 0x344002
abbrev MF_TIMEOUT : ObjRef := 0x344003
abbrev MF_MIN_CONTRAST : ObjRef := 0x344004
abbrev CAM_GEOMETRY : ObjRef := 0x344101
abbrev MF_RESULTS : ObjRef := 0x344200
abbrev SPOT_PORT : ObjRef := 0x345001
abbrev SPOT_BOX : ObjRef := 0x345002
abbrev SPOT_TIMEOUT : ObjRef := 0x345003
abbrev SPOT_LEAD : ObjRef := 0x345004
abbrev SPOT_STATE : ObjRef := 0x345005
abbrev SPOT_GEOMETRY : ObjRef := 0x345100
abbrev SPOT_RESULTS : ObjRef := 0x345200
abbrev SPOT_MEDIAN : ObjRef := 0x345300
abbrev SPOT_FAILURE : ObjRef := 0x345400
abbrev TIME_NOW : ObjRef := 0x350001
abbrev TIME_STATE : ObjRef := 0x350002
abbrev TIME_INCREMENT : ObjRef := 0x350003
abbrev TIME_SET : ObjRef := 0x350004
abbrev TIME_STEP : ObjRef := 0x350005
abbrev JUMP_THRESHOLD : ObjRef := 0x350006
abbrev JUMPS_REFUSED : ObjRef := 0x350007
abbrev LAST_REFUSED_JUMP : ObjRef := 0x350008
abbrev STEPS_APPLIED : ObjRef := 0x350009
abbrev TIMESTAMP_RESOLUTION : ObjRef := 0x35000A
abbrev PTP_ENABLE : ObjRef := 0x350101
abbrev PTP_TRANSPORT : ObjRef := 0x350103
abbrev PTP_DOMAIN : ObjRef := 0x350104
abbrev PTP_DELAY_MECHANISM : ObjRef := 0x350105
abbrev PTP_LOG_PDELAY_INTERVAL : ObjRef := 0x350106
abbrev PTP_ANNOUNCE_TIMEOUT : ObjRef := 0x350107
abbrev PTP_RX_LATENCY : ObjRef := 0x350108
abbrev PTP_TX_LATENCY : ObjRef := 0x350109
abbrev PTP_PORT_STATE : ObjRef := 0x350201
abbrev PTP_MASTER_ID : ObjRef := 0x350202
abbrev PTP_MASTER_PORT : ObjRef := 0x350203
abbrev PTP_OFFSET : ObjRef := 0x350204
abbrev PTP_MEAN_DELAY : ObjRef := 0x350205
abbrev PTP_T1 : ObjRef := 0x350206
abbrev PTP_EXCHANGES : ObjRef := 0x35020A
abbrev PTP_UTC_OFFSET : ObjRef := 0x35020B
abbrev PTP_TIME_FLAGS : ObjRef := 0x35020C
abbrev PTP_RX_EVENTS : ObjRef := 0x350301
abbrev PTP_TX_EVENTS : ObjRef := 0x350302
abbrev PTP_DISCARDED : ObjRef := 0x350303
abbrev PTP_EXCHANGES_DISCARDED : ObjRef := 0x350304
abbrev CMP_MODE : ObjRef := 0x351001
abbrev CMP_TARGET : ObjRef := 0x351101
abbrev CMP_PERIOD : ObjRef := 0x351201
abbrev CMP_MATCHES : ObjRef := 0x351301
abbrev CMP_OWNER : ObjRef := 0x351401
abbrev CMP_LATE_ARMS : ObjRef := 0x351501
abbrev TTO_ENABLE : ObjRef := 0x352001
abbrev TTO_COMPARATOR : ObjRef := 0x352101
abbrev TTO_WIDTH : ObjRef := 0x352201
abbrev TTO_INVERT : ObjRef := 0x352301
abbrev TCI_EDGE : ObjRef := 0x353001
abbrev TCI_LAST : ObjRef := 0x353101
abbrev TCI_COUNT : ObjRef := 0x353201
abbrev TCI_QUEUE : ObjRef := 0x353301
abbrev TCI_QUEUED : ObjRef := 0x353401
abbrev TCI_ACK : ObjRef := 0x353501
abbrev TCI_OVERRUNS : ObjRef := 0x353601
abbrev PAIR_STATE : ObjRef := 0x360001
abbrev PEER_STATE : ObjRef := 0x360002
abbrev MIRROR_LINK_STATE : ObjRef := 0x360003
abbrev PLK_LANES_UP : ObjRef := 0x360004
abbrev HEAD_SWITCH_TIME : ObjRef := 0x360005
abbrev AUTO_SYNC : ObjRef := 0x360006
abbrev PACE_RELEASE : ObjRef := 0x360007
abbrev SYNC_START : ObjRef := 0x360008
abbrev HANDOVER_REQUEST : ObjRef := 0x360009
abbrev SYNC_PERMILLE : ObjRef := 0x360101
abbrev SYNC_ITEM : ObjRef := 0x360102
abbrev SYNC_BYTES : ObjRef := 0x360103
abbrev HANDOVERS_TAKEN : ObjRef := 0x360201
abbrev RELEASES : ObjRef := 0x360202
abbrev LAST_TRIGGER : ObjRef := 0x360203
abbrev LAST_KR : ObjRef := 0x360204
abbrev LAST_K1 : ObjRef := 0x360205
abbrev LAST_INTERRUPTION : ObjRef := 0x360206
abbrev TRIGGERS_HELD : ObjRef := 0x360207
abbrev ABRUPT_RELEASES : ObjRef := 0x360208
abbrev RECORDS_RECEIVED : ObjRef := 0x360301
abbrev RECORD_GAPS : ObjRef := 0x360302
abbrev FRAME_DIVERGENCES : ObjRef := 0x360303
abbrev RXCRC_DIVERGENCES : ObjRef := 0x360304
abbrev DECISION_DISAGREEMENTS : ObjRef := 0x360305
abbrev DESYNCS : ObjRef := 0x360306
abbrev LAST_DESYNC_CAUSE : ObjRef := 0x360307
abbrev MEMTEST_BYTES : ObjRef := 0x360308
abbrev MEMTEST_FAILS : ObjRef := 0x360309
abbrev RAIL_WINDOW : ObjRef := 0x360400
abbrev PEER_HEALTH : ObjRef := 0x360500
abbrev LATE_RUN_MERGES : ObjRef := 0x360601
abbrev RAIL_RUN_MERGES : ObjRef := 0x360602
abbrev CAL_START : ObjRef := 0x370001
abbrev CAL_STATE : ObjRef := 0x370002
abbrev CAL_ITEM : ObjRef := 0x370003
abbrev CAL_PERMILLE : ObjRef := 0x370004
abbrev CAL_QUEUE : ObjRef := 0x370005
abbrev CAL_SCHED_ENABLE : ObjRef := 0x370006
abbrev CAL_SCHED_COMPARATOR : ObjRef := 0x370007
abbrev CAL_SCHED_ITEMS : ObjRef := 0x370008
abbrev CAL_STATUS : ObjRef := 0x370101
abbrev CAL_TIME : ObjRef := 0x370201
abbrev CAL_REF_SECONDS : ObjRef := 0x370301
abbrev REFCLK_ERROR : ObjRef := 0x370302
abbrev SUGGESTED_INCREMENT : ObjRef := 0x370303
abbrev REFCAL_PRESENT : ObjRef := 0x370304
abbrev FIRE_SKEW_TARGET : ObjRef := 0x370401
abbrev FIRE_SKEW_MEASURED : ObjRef := 0x370409
abbrev GATE_OFFSET : ObjRef := 0x370501
abbrev GATE_GAIN : ObjRef := 0x370502
abbrev GATE_REF_BEAM : ObjRef := 0x370503
abbrev GATE_REF_DOSE : ObjRef := 0x370504
abbrev GATE_OFFSET_LIMIT : ObjRef := 0x370505
abbrev GATE_GAIN_CHANGE : ObjRef := 0x370506
abbrev BEAM_OFF_LIMIT : ObjRef := 0x370601
abbrev BEAM_RESULTS_OFF : ObjRef := 0x370602
abbrev BEAM_RESULTS_CHANGED : ObjRef := 0x370603
abbrev DEFL_REF_BEAM : ObjRef := 0x370701
abbrev DEFL_SCAN_AXIS : ObjRef := 0x370702
abbrev DEFL_SCAN_STEPS : ObjRef := 0x370703
abbrev DEFL_STILL_LIMIT : ObjRef := 0x370704
abbrev DEFL_EDGE_X : ObjRef := 0x370705
abbrev DEFL_EDGE_Y : ObjRef := 0x370706
abbrev DEFL_POINTS : ObjRef := 0x370707
abbrev DEFL_POINTS_CLEAR : ObjRef := 0x370708
abbrev DEFL_FIT_LIMIT : ObjRef := 0x370709
abbrev DEFL_FIT_RMS : ObjRef := 0x37070A
abbrev CAM_CAL_PORT : ObjRef := 0x370801
abbrev CAM_CAL_FRAMES : ObjRef := 0x370802
abbrev CAM_BLACK_LIMIT : ObjRef := 0x370803
abbrev POWER_STATE : ObjRef := 0x380001
abbrev POWER_REQUEST : ObjRef := 0x380002
abbrev WAKE_TARGET : ObjRef := 0x380003
abbrev WAKE_SOURCES : ObjRef := 0x380004
abbrev LAST_WAKE_SOURCE : ObjRef := 0x380005
abbrev DEEP_ENTRIES : ObjRef := 0x380006
abbrev RAIL_SOURCE : ObjRef := 0x380101
abbrev RAIL_VOLTAGE : ObjRef := 0x380201
abbrev SWITCHOVERS : ObjRef := 0x380301
abbrev SUPPLY_RETURN : ObjRef := 0x380400
abbrev SUPPLY_RETURN_NOW : ObjRef := 0x380500
abbrev TJ : ObjRef := 0x380601
abbrev TJ_PEAK : ObjRef := 0x380602
abbrev TJ_WARN : ObjRef := 0x380603
abbrev THERMAL_TRIPS : ObjRef := 0x380604
abbrev SUPPLY_FAULTS : ObjRef := 0x380605
abbrev CORE_PLL_LOSSES : ObjRef := 0x380700

end Obj

end Sys2Proof.Machine
end

