-- ==== Sys2Proof/Machine/Layout.lean ====
section
/-! DEFINITION. Plain data of the accepted layout (R62 to R73): records, cells, blocks, stripes and marks. Coordinates are
in 1/256 pixel. -/
namespace Sys2Proof.Machine

/-- A point. -/
abbrev Pt := Int × Int

/-- A segment of a PATH: a line to a point, or a quadratic through a control point (R69). -/
inductive Seg where
  | line (p : Pt)
  | quad (c p : Pt)
  deriving DecidableEq, Repr

/-- A record (Tables 03-6, 03-7). A PLACE is an array of one instance. -/
inductive Rec where
  | rect (cls : Nat) (x0 y0 x1 y1 : Int)
  | trap (cls : Nat) (axisY : Bool) (a0 a1 l0 h0 l1 h1 : Int)
  | poly (cls : Nat) (pts : List Pt)
  | path (cls : Nat) (start : Pt) (segs : List Seg)
  | place (cls : Nat) (orient : Nat) (override_ : Bool) (cell : Nat) (x y : Int) (nx ny : Nat) (px py : Int)
  deriving DecidableEq, Repr

/-- A defined cell; `pending` marks a cell whose CELLDEF was rejected and waits for a repair (R84). -/
structure Cell where
  id      : Nat
  recs    : List Rec
  bbox    : Box
  pending : Bool
  seq     : Nat
  bytes   : Nat
  deriving DecidableEq, Repr

/-- An accepted BAND or HALO block. `held` is true while the block is still in the block buffer. -/
structure LBlock where
  halo   : Bool
  stripe : Nat
  band   : Nat
  seq    : Nat
  recs   : List Rec
  bbox   : Box
  bytes  : Nat
  held   : Bool
  released : Bool
  late   : Bool                              -- a repair accepted after giving up (R222)
  deriving DecidableEq, Repr

/-- A placement field as a stripe keeps it (R116, R120). -/
structure Field where
  index : Nat
  xLo : Int
  xHi : Int
  yLo : Int
  yHi : Int
  xc : Int
  yc : Int
  shift : Nat
  a : List Int
  b : List Int
  deriving DecidableEq, Repr

/-- A stripe of the job (R63) with the field table it was accepted under (R120). -/
structure Stripe where
  number   : Nat
  dirMinus : Bool
  yOrigin  : Int
  xStart   : Int
  xEnd     : Int
  complete : Bool
  fields   : List Field
  deriving DecidableEq, Repr

/-- An entry of the nominal mark table (R64). -/
structure Mark where
  id    : Nat
  shape : Nat
  size  : Nat
  x     : Int
  y     : Int
  deriving DecidableEq, Repr

/-- Both densities of a coarse cell as checkpoint item 6 brought them (Table 10-7): PEC set, PEC clear. -/
structure CopiedDensity where
  stripe : Nat
  i      : Int
  j      : Int
  pec    : Nat
  fix    : Nat
  deriving DecidableEq, Repr

/-- The layout of the job (R62 to R76); `copied`, on a device synchronised by a checkpoint, the densities of blocks it does not
hold. -/
structure Layout where
  stripes : List Stripe := []
  cells   : List Cell := []
  blocks  : List LBlock := []
  marks   : List Mark := []
  copied  : List CopiedDensity := []
  deriving DecidableEq, Repr

end Sys2Proof.Machine
end

