-- ==== Sys2Proof/Machine/State.lean ====
section
/-! DEFINITION. The state of the block: plain data. Every object of the dictionary is held in `od` or `dom` (its one home),
over the defaults of Machine/Objects.lean; what the spec gives the machine beside the objects stands in one record per
part. The fields `out`, `free` and the record `Progress`' live values are the model's own and say so. -/
namespace Sys2Proof.Machine

/-- The machine stops with a fault: no meaning of this model raises one, every command of the table has an effect. -/
inductive Fault where
  /-- Raised by nothing: kept so that the type has a value. Safe. -/
  | none
  deriving DecidableEq, Repr

/-- A command without a meaning. -/
inductive Refusal where
  /-- Raised by `exec` for a command whose meaning is not written yet, by its mnemonic. Safe. -/
  | notModelled (mnemonic : String)
  deriving DecidableEq, Repr

/-- What leaves the balls (the model's own field `out` lists every output so far, in order). `frame` and `plk` show a frame and a mirror
message by their contents; `line` and the blocks of `plk` are the 66-bit blocks that the lane sends, scrambled (R188). `sysref`: what
drives the deflector DAC: nothing, or DEF_DEVCLK with one pulse on DEF_SYSREF (0) or a pulse every so many ns (R180). `i2cRead`: a
read on HEAD_SCL and HEAD_SDA: device, clock in Hz, memory address as sent, bytes (R201). `stageSlow`: STAGE_SLOW_N driven
low, or released (R176, R242). -/
inductive Output where
  | message (via : Via) (dst : Source) (sport : Nat) (bytes : Bytes)
  | hostWrite (addr : Nat) (bytes : Bytes)
  | msix (vector : Nat)
  | hostRead (bytes : Bytes)
  | frame (lane : Nat) (period : Nat) (bytes : Bytes) (crc : BitVec 32)
  | frameSync (period : Nat)
  | fire (period : Nat) (group : Nat) (strobes : List (Int × Int))
  | deflector (x y : Int)
  | plk (lane : Nat) (type : Nat) (seq : Nat) (body : Bytes) (blocks : List (BitVec 66))
  | line (lane : Nat) (period : Nat) (blocks : List (BitVec 66))
  | frameCut (lane : Nat) (period : Nat)
  | sysref (period : Option Nat)
  | stageSlow (low : Bool)
  | ptp (port : Nat) (kind : Nat) (seq : Nat) (stamp : Nat)
  | i2cRead (device : Nat) (hz : Nat) (address : Bytes) (count : Nat)
  | reading (obj : ObjRef) (bytes : Bytes)
  | tto (k : Nat) (active : Bool)
  | strobe (p : Nat) (active : Bool)
  | flash (addr : Nat) (bytes : Bytes)
  | rowRefresh (ch bank row : Nat) (spare : Option Nat)
  deriving DecidableEq, Repr

/-- A time correction waiting for its tick (R351): a step in 2^-16 ns, or a set with the cycle of its acceptance. -/
inductive TimeAdj where
  | step (v : Int)
  | setTo (t : Nat) (atCycle : Nat)
  deriving DecidableEq, Repr

/-- Device time (R349 to R351). `T` counts 2^-32 ns at the last REFCLK tick, which fell at core cycle `tickCycle`;
`cycle` is the last core cycle that a command has named; `fine` is the resolution in effect, `coreLocked` the PLL. -/
structure Clock where
  cycle      : Nat := 0
  tickCycle  : Nat := 0
  T          : Nat := 0
  incNext    : Option Nat := none
  adjust     : List TimeAdj := []
  coreLocked : Bool := false
  fine       : Bool := false
  deriving DecidableEq, Repr

/-- Levels of the balls that the always-on island serves (R242, R244, R380 to R382, R387). -/
structure Pins where
  porstN    : Bool := false
  ownAct    : Bool := false
  peerAct   : Bool := false
  pswM      : BitVec 5 := 0
  pswB      : BitVec 5 := 0
  pwrEn     : Bool := false
  pwrEnDdq  : Bool := false
  posFault  : Bool := false
  sysref    : Option Nat := none             -- DEF_DEVCLK and DEF_SYSREF, as in `Output.sysref`
  stageSlow : Bool := false                  -- STAGE_SLOW_N is driven low
  wakeSeen  : Nat := 0
  ttoEnd    : List (Nat × Nat) := []
  strobeEnd : List (Nat × Nat) := []
  deriving DecidableEq, Repr

/-- One-time-programmable memory (R395, Table 18-8): it survives every reset. `keys`: the factory hash of each key slot. -/
structure Otp where
  securityMin : Nat
  revoked     : BitVec 4
  keys        : List Bytes
  deriving DecidableEq, Repr

/-- Supplies and power transitions (R381 to R390). A rail's number is its sub-index less 1. -/
structure Power where
  mainGood   : BitVec 5 := 0
  backupGood : BitVec 5 := 0
  engage     : List (Nat × Nat) := []        -- rail, source to be engaged (0 MAIN, 1 BACKUP)
  target     : Option Nat := none            -- POWER_STATE that a transition in progress leads to
  locking    : List Pll := []                -- PLLs started and not yet locked
  restored   : Bool := false                 -- the restore of a wake is done (R390)
  coreLossSeen : Bool := false
  attachDue : Nat := 0                       -- the attach that the next entry to READY begins (R202), 0 none
  tjWarned   : Bool := false
  tjHot      : Bool := false
  tjSeen     : Bool := false
  deriving DecidableEq, Repr

/-- Boot flash, image buffer and the running image (R392 to R396). Flash contents survive every reset. -/
structure Boot where
  flashA    : Bytes
  flashB    : Bytes
  netRecord : Bytes
  buffer    : Bytes := []
  slots     : List Nat := []                 -- slots still to be tried; the head is the one being tried
  loaded    : Bool := false
  runKey    : Nat := 0
  runSecurity : Nat := 0
  released  : Bool := false                  -- supervisor cores run the image
  command   : Nat := 0                       -- IMAGE_COMMAND in progress
  fails     : List (Nat × Nat) := []         -- page, failed reloads
  deriving DecidableEq, Repr

/-- A subscription (R42): object, mode, period in ms, value last sent, core cycle of the last notification. -/
structure Subscription where
  obj    : ObjRef
  mode   : Nat
  period : Nat
  last   : Bytes
  sentAt : Option Nat := none
  deriving DecidableEq, Repr

/-- A session (R39 to R42). -/
structure Session where
  id        : Nat
  via       : Via
  src       : Source
  hostNonce : Bytes
  devNonce  : Bytes
  lastSeq   : Nat
  stored    : Bytes
  executed  : Bool
  auth      : Bool
  key       : Bytes
  subs      : List Subscription
  notif     : Nat
  deriving DecidableEq, Repr

/-- A request that has been accepted and waits for the one being executed (R37). -/
structure WaitingMsg where
  via  : Via
  src  : Source
  type : Nat
  dg   : Datagram
  deriving DecidableEq, Repr

/-- The Faceplate protocol (R37 to R43): open sessions, the SPI session, the key, requests that wait for the one being executed, and
what the SPI port returns while the host clocks bytes out: nothing where no response is ready. -/
structure Faceplate where
  sessions : List Session := []
  spiSeq   : Nat := 0
  spiStored : Bytes := []
  authKey  : Option Bytes := none
  waiting  : List WaitingMsg := []
  spiOut   : Bytes := []
  deriving DecidableEq, Repr

/-- A staged value (R44): a scalar, or the image of a DOM object. -/
inductive StagedVal where
  | scalar (v : Int)
  | image (bs : Bytes)
  deriving DecidableEq, Repr

/-- A staged entry, in order of first writing; `stamp` orders the last write of each (R47). -/
structure StagedEntry where
  obj   : ObjRef
  val   : StagedVal
  stamp : Nat
  deriving DecidableEq, Repr

/-- A commit that waits for the standby's confirmation (R250): the mirror message's SEQ, the entries, whether calibration made
it (R368), and for a COMMIT message where the response goes and its SEQ. -/
structure AwaitCommit where
  seq     : Nat
  entries : List StagedEntry
  own     : Bool
  reply   : Option (Caller × Nat)
  deriving DecidableEq, Repr

/-- The staging set and accepted commits whose entries do not yet take effect (R44 to R46). `untold` counts the commits that
took effect at acceptance and that no flash record has announced (Table 10-4). -/
structure Staging where
  owner   : Nat := 0
  entries : List StagedEntry := []
  stamp   : Nat := 0
  atFlash : List (List StagedEntry) := []    -- accepted commits waiting for a flash boundary
  atStripe : List StagedEntry := []          -- entries waiting for a stripe
  await   : List AwaitCommit := []
  untold  : Nat := 0
  deriving DecidableEq, Repr

/-- An entry of the error log (Table 19-4). -/
structure LogEntry where
  seq    : Nat
  cls    : Nat
  subsys : Nat
  rep    : Nat
  region : Nat
  unit   : Nat
  obj    : ObjRef
  time   : Nat
  d0     : Nat
  d1     : Nat
  deriving DecidableEq, Repr

/-- The error log (newest first) and the events of the last 600 s: cycle, subsystem, class (R406 to R409). -/
structure Log where
  entries : List LogEntry := []
  recent  : List (Nat × Nat × Nat) := []
  haltSub : Option Nat := none
  deriving DecidableEq, Repr

/-- The job beside its objects (R48 to R54, R57): pending hold, refused automatic START, live progress values of which
2101 holds the latest snapshot, the cycle of an accepted abort or HALT, the mute of beams. -/
structure Job where
  hold      : Bool := false
  autoTried : Bool := false
  endDone   : Bool := false
  liveStripe : Nat := 0
  liveBand  : Nat := 0
  liveIndex : Int := 0
  livePass  : Nat := 0
  retired   : Nat := 0
  permille  : Nat := 0
  abortAt   : Option Nat := none
  abortTold : Bool := false                  -- a flash record has carried the abort
  deriving DecidableEq, Repr

/-- A pending rejection (R83 to R90). -/
structure Pend where
  seq     : Nat
  jobId   : Nat
  stripe  : Nat
  band    : Nat
  type    : Nat                              -- 0xFF where the header is not known
  status  : Nat
  aux     : Nat
  known   : Bool
  waits   : Bool                             -- the stream waits for its repair
  bbox    : Option Box
  gaveUp  : List Nat                         -- regions that have given up
  tile    : Option (Nat × Nat) := none       -- R282 code 2: the one affected tile (column, row)
  noted   : Bool                             -- its give-up or repair has been logged
  due     : Nat                              -- the BLOCK_SEQ that its slot was expected to hold
  deriving DecidableEq, Repr

/-- A block that was fetched once and waits for its refetch (R82). -/
structure Refetch where
  ring  : Ring
  desc  : Desc
  deriving DecidableEq, Repr

/-- A block that the consumer index has passed and the release index has not (R79). -/
structure Unreleased where
  ring   : Ring
  index  : Nat
  stripe : Nat
  band   : Nat
  tiles  : Bool                              -- BAND and HALO: waits for the tiles of the band
  deriving DecidableEq, Repr

/-- The slot at which an accepted BAND, HALO or CELLDEF block was posted, for a rejection that comes later (R83, R84, R90). -/
structure SlotRef where
  seq   : Nat
  ring  : Ring
  index : Nat
  tag   : Nat
  deriving DecidableEq, Repr

/-- A block whose DEFLATE payload is being decompressed (R300): its type, its fetch and whether that is the second, the lanes given its
segments in order, the segments done. -/
structure Inflating where
  type   : BlockType
  fetch  : Fetch
  second : Bool
  lanes  : List Nat
  done   : Nat := 0
  deriving DecidableEq, Repr

/-- The stream front end (R75 to R91). -/
structure Stream where
  waitHead  : Option Fetch := none           -- a STRIPE block that waits for a head identity
  heldJob   : Option Fetch := none           -- a JOB block held by R87
  refetch   : List Refetch := []
  pending   : List Pend := []
  fetched   : List Desc := []                -- descriptors read ahead, newest first
  unreleased : List Unreleased := []
  dirty     : Bool := false                  -- progress record to be written
  statusWrites : List (Nat × Bytes) := []    -- descriptor status writes waiting for the link
  jobId     : Nat := 0
  reading   : Bool := false                  -- from the JOB block's acceptance to END
  nextStripe : Nat := 0
  lastBand  : Option Nat := none             -- the last band number on the stream ring in its turn, in sweep order (R75)
  doneBand  : Option Nat := none             -- the last band of the stripe with an accepted block, in sweep order (R76)
  reload    : List SlotRef := []             -- stored blocks that are fetched again before their release (R90)
  repairRelease : Nat := 0
  repairConsumer : Nat := 0
  keptProducers : List (Nat × Nat) := []     -- BAR0 writes kept in CONTROL (Table 18-4)
  stalled   : Bool := false
  slots     : List SlotRef := []             -- of accepted blocks, this job
  lastFetches : Nat := 0
  inflating : Option Inflating := none       -- the block whose payload the lanes decompress (R300)
  deriving DecidableEq, Repr

/-- The host port (R80, R81): command register's Bus Master Enable, MSI-X table and pending bits, received doorbells. -/
structure HostPort where
  busMaster : Bool := false
  msixTable : Bytes := List.replicate 64 0
  msixPba   : Nat := 0
  up        : Bool := false
  bar0      : Nat := 0
  maxPayload : Nat := 128
  maxRead   : Nat := 512
  deriving DecidableEq, Repr

/-- A command's slot in a channel's remap table (R279, R280): row, bank index, cause, spare row. -/
structure RemapEntry where
  row   : Nat
  bank  : Nat
  cause : Nat
  spare : Nat
  deriving DecidableEq, Repr

/-- A row copy in progress (R279). -/
structure RemapCopy where
  row   : Nat
  bank  : Nat
  cause : Nat
  spare : Nat
  deriving DecidableEq, Repr

/-- One DRAM channel beside its objects (R277 to R281). -/
structure Channel where
  remap     : List RemapEntry := []
  copy      : Option RemapCopy := none
  queued    : List RemapCopy := []           -- failing rows that wait for the copy in progress
  activates : List (Nat × List (Nat × Nat)) := []   -- bank index; row and count, at most 32
  due       : List Nat := [0, 0, 0, 0]       -- REFsb owed per bank number, in tREFI (postponed at most 3)
  parityAt  : Option Nat := none             -- cycle of the last parity error
  pllLosses : Nat := 0                       -- PLL lock losses in this job
  ueSeen    : List (Nat × Nat) := []         -- cycle and word address of the last second's uncorrectable words
  queue     : List (Nat × Nat) := []         -- the write queue of R273, oldest first: burst A / 128, its words held as a mask
  deriving DecidableEq, Repr

/-- DRAM (R265 to R283): the bytes that differ from 0 by device address, in canonical form; poisoned words and words
written whole after reading as uncorrectable, by word address A / 8; words the last scrub pass and this one corrected; whether
the device has stored anything of a job in the regions that it owns since the fill. -/
structure Dram where
  mem       : List Host.Cell := []
  poisoned  : List Nat := []
  watch     : List (Nat × Bool) := []        -- uncorrectable words; whether written whole since
  lastPass  : List Nat := []
  thisPass  : List Nat := []
  used      : Bool := false
  logBad    : List (Nat × Nat) := []         -- poisoned words of the error log: offset in its area, SEQ of the next entry then
  channels  : List Channel := [{}, {}, {}, {}]
  deriving DecidableEq, Repr

/-- Faults seen in the on-chip stores (R284 to R286): distinct uncorrectable window word addresses per region in this
job, slices to retire at the next boundary, per-beam table words that read as uncorrectable until the next epoch. -/
structure Sram where
  windowUe  : List (List Nat) := [[], [], [], []]
  tableUe   : List Nat := []
  deriving DecidableEq, Repr

/-- A PTP master known from Announce messages (R354). -/
structure PtpMaster where
  clockId    : Nat
  port       : Nat
  announce   : PtpAnnounce
  receivedAt : Nat
  prevAt     : Option Nat
  deriving DecidableEq, Repr

/-- The Sync of an exchange in progress: sequenceId, t2, the origin time once known, the sum of the correctionFields in
2^-16 ns, the number of steps and sets applied when t2 was taken. -/
structure PtpSyncPart where
  seqId  : Nat
  t2     : Nat
  t1     : Option Nat
  corr   : Int
  steps  : Nat
  deriving DecidableEq, Repr

/-- A two-step Pdelay_Resp that waits for its Follow_Up: sequenceId, requestReceiptTimestamp, its own stamp, correction. -/
structure PtpPeerPart where
  seqId  : Nat
  t2     : Nat
  t4     : Nat
  corr   : Int
  deriving DecidableEq, Repr

/-- PTP (R352 to R354): masters heard, and the stamps of the exchange in progress. -/
structure Ptp where
  masters   : List PtpMaster := []
  sync      : Option PtpSyncPart := none
  delayReq  : Option (Nat × Nat × Nat) := none    -- seqId, t3, corrections applied at t3
  pdelayReq : Option (Nat × Nat × Nat) := none    -- seqId, t1 of the Pdelay exchange, corrections applied at t1
  pdelayResp : Option PtpPeerPart := none
  linkDelay : Option Int := none             -- twice the mean link delay, in 2^-32 ns
  nextSeq   : Nat := 0
  nextPSeq  : Nat := 0
  deriving DecidableEq, Repr

/-- Capture queues and comparators armed in the past (R355, R360): entries time and edge, oldest first. -/
structure Triggers where
  tci      : List (List (Nat × Bool)) := [[], [], [], []]
  lateArm  : List Nat := []                  -- comparators that match at the next cycle
  deriving DecidableEq, Repr

/-- A message in the replay buffer of a lane (R246). -/
structure Sent where
  seq  : Nat
  type : Nat
  body : Bytes
  frame : Nat := 0
  deriving DecidableEq, Repr

/-- The pair (R241 to R263). `replay`: the messages sent on each lane, newest first, as far as 4 MiB hold them. -/
structure Pair where
  armedSinceSync : Bool := false             -- a sweep was armed since the device entered SYNCED
  foreign   : Bool := false                  -- the active's sweep was armed before the transfer: it is not followed here
  peerHealth : Bytes := []
  peerAt    : Option Nat := none             -- cycle of the last HEALTH message
  txSeq     : List Nat := [0, 0, 0, 0, 0, 0, 0, 0]
  rxSeq     : List Nat := [0, 0, 0, 0, 0, 0, 0, 0]
  railPeriods : List Nat := []               -- periods of the mismatches of the last 16, newest first
  anyRecord : Bool := false                  -- a record has been sent or applied
  lastRecord : Nat := 0
  replay    : List (List Sent) := List.replicate 8 []
  peerStays : Bool := false                  -- taken over after COMMAND: the device released goes on as SYNCED
  release   : Option (Nat × Nat) := none     -- trigger, k_r of a RELEASE message received or sent
  releasing : Bool := false                  -- steps 1 and 2 of R256 done, OWN_ACT still asserted
  peerFellAt : Option Nat := none
  claim     : Bool := false                  -- takeover decided, waiting for the decision point
  claimWait : Bool := false                  -- ROLE B waits 10 us after PORST_N
  k1        : Nat := 0
  lastFired : Nat := 0                       -- core cycle of the FRAME_SYNC of the last period reported fired
  await     : List Nat := []
  pendCommits : List (List (Nat × Int)) := []   -- standby: commits received, in order
  pendBeams : List (List BeamChange × Nat × Option HeadIdentity) := []
  ownFaults : Option FlashFaults := none     -- standby: faults of its own computation of the next record's flash
  frameSyncs : List (Nat × Nat) := []        -- period and core cycle of the FRAME_SYNCs seen or raised, newest first
  deriving DecidableEq, Repr

/-- What a prediction is formed from: the last bit's arrival of a good sample, P, Yc, and V after it (R171). -/
structure Pred where
  t : Nat
  p : Int
  y : Int
  v : Int
  deriving DecidableEq, Repr

/-- How a period's frames were decided (R199): by an accepted copy (FIRED, RX_OK), or by timeout. -/
inductive Verdict where
  | accepted (fired rxOk : Nat)
  | timeout
  deriving DecidableEq, Repr

/-- A flash period from its decision on (R165, R173, R189, R199). `d` is the core cycle of D(k), `fire` that of tF(k); `dec`
DECISION of Table 10-4; `n` the index issued or blanked, otherwise n_prev; `kind` the KIND of its frames; `beam` the one
beam of a gate check's frame, none for all; `lit` whether a frame carries a code other than 0; `check` the firing check;
`sync` whether FRAME_SYNC has risen; `sent`, `crcs` and `flip` the lanes that sent a frame, their CRCs as sent, and the
lanes sent with an inverted CRC; `told` whether a flash record has carried its decisions. -/
structure Period where
  k     : Nat
  d     : Nat
  fire  : Nat
  dec   : Nat
  n     : Int
  kind  : Option Nat
  due   : Nat                                -- D(k + 8) - 8 cycles
  again : Bool := false                      -- a blanked repeat
  code  : Nat := 0
  beam  : Option Nat := none
  shot  : Option Nat := none                 -- KIND 3: the number of the shot in its measurement
  cap   : Nat := 15
  thermal : Nat := 0
  events : Nat := 0
  computed : Bool := false
  lit   : Bool := false
  check : Option Bool := none
  sync  : Bool := false
  sent  : Nat := 0
  crcs  : List (BitVec 32) := []
  flip  : Nat := 0
  verdict : Option Verdict := none
  decided : Option (BitVec 24) := none       -- lanes decided fired (Table 08-6)
  told  : Bool := false
  own   : Option (BitVec 24) := none         -- a standby's own decision (R251)
  ownCrcs : List (BitVec 32) := []           -- and its own frame CRCs
  deriving DecidableEq, Repr

/-- What a decision point saw: sample, position VALID without hold and with the deflector link running, writing sides awake. A standby
keeps the last ones for its takeover (R258). -/
structure Look where
  k     : Nat
  d     : Nat
  q     : Option Pred
  ok    : Bool
  awake : Bool
  deriving DecidableEq, Repr

/-- The receiver of the position port (R167, R169): idle bit times seen in a row, whether it waits for 4 of them, the data bit times of the
sample under way. -/
structure PosPort where
  idle : Nat := 0
  wait : Bool := true
  busy : Bool := false
  data : List (BitVec 4) := []
  deriving DecidableEq, Repr

/-- The Headstock (R165 to R187): grid, position (R169 to R172), periods newest first, deflector targets with the time from
which each holds, newest first, overspeed skips of the last 1,000 periods. -/
structure Headstock where
  k     : Nat := 0                           -- number of the next decision point D(k)
  nextD : Nat := 0                           -- its core cycle
  preds : List Pred := []                    -- newest first
  past  : List (Nat × Int) := []             -- (t, P) of the last 16 good samples since entering SEARCHING, newest first
  p     : Int := 0
  xLast : Nat := 0
  seqLast : Option Nat := none
  base  : Bool := true                       -- the next good sample sets the base
  waive : Bool := false                      -- the next good sample skips the jump check
  count : Nat := 0                           -- good samples in SEARCHING
  jumps : Nat := 0                           -- consecutive discards by the jump check
  lostAt : Option Nat := none                -- cycle at which the position left VALID during a sweep
  periods : List Period := []
  targets : List (Nat × Option Int) := []
  port  : PosPort := {}
  skips : List (Nat × Nat) := []             -- (k, overspeed skips decided)
  issued : Bool := false                     -- the previous period issued an index
  wakeLate : Bool := false                   -- WAKE_LATE has been counted for the sweep
  looks  : List Look := []                   -- newest first
  worded : Option Nat := none                -- arrival of the sample that the last deflector word used (R183)
  deriving DecidableEq, Repr

/-- A head command (R208): its beam, the periods in which it has been outstanding, whether it has been logged. -/
structure HeadCmd where
  beam    : Nat
  periods : Nat := 0
  logged  : Bool := false
  deriving DecidableEq, Repr

/-- A gate check under way (R210 to R212), or a full-array image: `sent` the periods sent of the measurement now going out,
`beam` its beam (none: dark), `picked` the beams begun, `waiting` the measurements sent whole whose result is outstanding, oldest
first, `redo` beams to be measured again, `failed` beams that are being measured again, `done` the beams measured. An image uses
`sent` and `repeated` only. -/
structure Gate where
  sent   : Nat := 0
  beam   : Option Nat := none
  picked : Nat := 0
  cursor : Nat := 0                          -- where the search for the next beam begins
  waiting : List Nat := []
  redo   : List Nat := []
  failed : List Nat := []
  done   : Nat := 0
  repeated : Bool := false
  deriving DecidableEq, Repr

/-- A change to the per-beam table that waits for its epoch (R204): beam and entry; `await` the SEQ of the mirror message that
the standby has yet to confirm (R250). -/
structure BeamResult where
  beam  : Nat
  entry : Nat
  await : Option Nat := none
  deriving DecidableEq, Repr

/-- The head interface (R188 to R217). `table` holds, per row, the entries that differ from 0 by column; `attachTable` the table of an
attach that waits for its epoch; `results`, `edits` and `confirmedAt` the changes that wait. `thermal` a thermal change that
waits for the next decision point. -/
structure Head where
  identity : Option HeadIdentity := none
  table : List (List (Nat × Nat)) := List.replicate 480 []
  dead  : List (Nat × Nat) := []             -- beam, 0 OFF or 1 KILLED
  attaching : Nat := 0                       -- value of the attach that is reading, 0 none
  attachFrom : Nat := 0                      -- core cycle at which it began
  attachHz : Nat := 100000                   -- and the bus clock it uses
  prevSerial : Option Nat := none            -- SERIAL of the head attached before
  attachTable : Option (List (List (Nat × Nat))) := none
  attachAwait : Option Nat := none
  epochDone : Option Nat := none             -- the period whose epoch boundary is done
  results : List BeamResult := []
  edits : List BeamResult := []
  cmds  : List HeadCmd := []
  stale : Nat := 0                           -- consecutive periods with frames without an accepted acknowledgement
  thermal : Option Nat := none
  gate  : Option Gate := none
  image : Option Gate := none
  deriving DecidableEq, Repr

/-- A tile by stripe, tile column and tile row (R93). -/
structure TileKey where
  stripe : Nat
  u      : Nat
  t      : Nat
  deriving DecidableEq, Repr

/-- One completed computation of a tile or sub-tile (R103 to R105): its cell, whether it passed the winding and the
coverage-sum check, the deviation of the check that failed, and its output. -/
structure RunOut where
  cell    : Nat
  windOk  : Bool
  sumOk   : Bool
  dev     : Int
  simple  : Bool
  w       : Int
  pixels  : List (Nat × Nat × Nat)
  deriving DecidableEq, Repr

/-- A tile or sub-tile under computation (R97): its square, the computations made, the cell that computes it now, and its
output once it stands. -/
structure Part where
  x0     : Nat
  y0     : Nat
  side   : Nat
  runs   : List RunOut := []
  cell   : Option Nat := none
  result : Option (List (Nat × Nat × Nat)) := none
  unresolved : Bool := false
  deriving DecidableEq, Repr

/-- A polynomial of degree 2 at most, constant term first. -/
structure Quad where
  c0 : Rat
  c1 : Rat
  c2 : Rat
  deriving DecidableEq, Repr

/-- A piece of boundary, monotone in x and y, over parameters from `ta` to `tb` of its segment (R95). -/
structure Edge where
  inst : Nat
  cls  : Nat
  curved : Bool
  x : Quad
  y : Quad
  ta : Rat
  tb : Rat
  deriving DecidableEq, Repr

/-- A tile that has been dispatched and is not yet handed to the spool. `valueRails`: rail mismatches of its value step;
`again`: an UNKNOWN tile rasterized again for a Burnish sweep (R232). -/
structure TileJob where
  key    : TileKey
  region : Nat
  parts  : List Part
  empty  : Bool
  prims  : List (List Edge) := []            -- the instances that its dispatcher was given, by their edges
  valueRails : Nat := 0
  again  : Bool := false
  deriving DecidableEq, Repr

/-- The factors of a coarse column of a region, row by row; none where not yet computed (R131). -/
structure FactorCol where
  region : Nat
  stripe : Nat
  col    : Nat
  rows   : List (Option Nat)
  deriving DecidableEq, Repr

/-- The raster and correction side (R93 to R136). Per region: dispatch cursor (stripe, column in sweep order, row), spool
front (stripe, complete columns). Per cell: computations made, and the count at which each failure was charged. -/
structure Raster where
  cursor : List (Nat × Nat × Nat) := List.replicate 4 (0, 0, 0)
  front  : List (Nat × Nat) := List.replicate 4 (0, 0)
  done   : List TileKey := []                -- tiles spooled beyond the fronts
  tiles  : List TileJob := []
  runs   : List Nat := List.replicate 48 0
  fails  : List (List Nat) := List.replicate 48 []
  refNext : List Nat := List.replicate 48 0
  refRun : List (Option Nat) := List.replicate 48 none
  paceLow : List Bool := [false, false, false, false]
  starved : List Bool := [false, false, false, false]
  corrLow : List Bool := [false, false, false, false]
  factors : List FactorCol := []
  corrCols : List Nat := [0, 0, 0, 0]
  corrFails : List (List Nat) := [[], [], [], []]
  again  : List TileKey := []                -- UNKNOWN tiles to be rasterized again (R232)
  failed : List TileKey := []                -- UNKNOWN tiles that were unresolved again (R233)
  given  : List (Nat × Nat) := []            -- areas given up: BLOCK_SEQ of the block, region
  deriving DecidableEq, Repr

/-- A spool tile (Table 12-4): `vals` empty stands for 4,096 zeros; `loaded` counts its pixels loaded into the window;
`bad` a tile whose stored word or CRC has failed. -/
structure SpoolTile where
  key    : TileKey
  region : Nat
  vals   : Bytes
  flags  : Nat := 1
  lane   : Nat := 255
  crc    : BitVec 32 := 0
  length : Nat := 0
  loaded : Nat := 0
  bad    : Bool := false
  again  : Bool := false
  addr   : Nat := 0                          -- DATA_ADDR
  entry  : Nat := 0                          -- address of its index entry
  deriving DecidableEq, Repr

/-- A unit of work on a compression lane (Table 12-1). -/
inductive LaneUnit where
  | spool (t : SpoolTile)
  | residual (entry : Nat)
  | fiufen (segment : Nat)
  | host (index : Nat)
  deriving DecidableEq, Repr

/-- A buffer of a chain (Table 12-6). -/
structure HjBuf where
  desc  : Nat
  addr  : Nat
  len   : Nat
  flush : Bool
  deriving DecidableEq, Repr

/-- A host job on a lane (R301, R302) with its context: the descriptor's index, OP and FLAGS, the buffers of both chains read so far and
the address of the next, the input taken (of which the last 32 KiB are the history of a compression; with the output made it fixes the
coder state), the output bytes made and written. -/
structure HostJob where
  index   : Nat
  op      : Nat
  flags   : Nat
  paused  : Bool := false
  ins     : List HjBuf := []
  inNext  : Option Nat
  outs    : List HjBuf := []
  outNext : Option Nat
  data    : Bytes := []
  made    : Nat := 0
  written : Nat := 0
  deriving DecidableEq, Repr

/-- The context of a Fiufen block that a lane has saved (R289, R290): the segment that follows, the last 32 KiB of output. -/
structure FiufenContext where
  segment : Nat
  history : Bytes
  deriving DecidableEq, Repr

/-- A compression lane (R289 to R291). -/
structure Lane where
  unit  : Option LaneUnit := none
  units : Nat := 0
  fails : List Nat := []
  host  : Option HostJob := none
  saved : Option FiufenContext := none
  deriving DecidableEq, Repr

/-- The compression engine and the spool (R289 to R305). `raw` and `packed`: bytes before and after of compressed tiles. -/
structure Spool where
  tiles   : List SpoolTile := []
  waiting : List SpoolTile := []
  resWait : List (Nat × Nat) := []           -- region, ledger entry: residual tiles that wait for a lane
  redo    : List (Nat × LaneUnit) := []      -- units to be computed again, with the lane that failed
  lanes   : List Lane := List.replicate 16 {}
  raw     : List Nat := [0, 0, 0, 0]
  packed  : List Nat := [0, 0, 0, 0]
  deriving DecidableEq, Repr

/-- A window word under way: the word of the line that holds pixels 4q to 4q + 3 (R146, R218). -/
structure WinWord where
  q     : Nat
  valid : Bool
  rem   : List Int
  flags : Nat
  poison : Bool := false
  deriving DecidableEq, Repr

/-- A flash in the code history (R200): the codes computed and not 0, with their divisors, and the beams whose visits were
computed, until the period's decision is in effect. `fired`: lanes decided fired. -/
structure HistFlash where
  period : Nat
  n      : Int
  codes  : List (Nat × Nat × Nat)            -- beam, code, den
  visits : List Nat
  fired  : Option (BitVec 24) := none
  deriving DecidableEq, Repr

/-- Residual pixels of a tile under way in the sweep: (pixel number, value). -/
structure TileAcc where
  u     : Nat
  t     : Nat
  vals  : List (Nat × Nat)
  flags : Nat
  deriving DecidableEq, Repr

/-- The window rings of one beam column: per stagger group the words under way, under the group's number. -/
abbrev WinCol := List (Nat × List WinWord)

/-- The sweep (R158 to R162, R226, R231). `ranges` in sweep coordinates; `reached` the highest index computed, blanked or
passed; `examined` the highest index whose last visits have been examined for retirement, `held` the (group, s) that wait
for a decision; `cols` the tile columns not yet complete, in sweep order. -/
structure Sweep where
  stripe  : Nat := 0
  ranges  : List (Int × Int) := []
  resume  : Bool := false
  nPrev   : Int := -1
  reached : Int := -1
  blankRest : Bool := false
  examined : Int := -1
  held    : List (Nat × Int) := []
  win     : List WinCol := List.replicate 640 []
  loads   : List (Nat × Nat × List Int) := []   -- line, word, values: loads that wait for the boundary
  accs    : List TileAcc := []
  cols    : List Nat := []
  plan    : List Nat := []                   -- ledger entries planned
  parked  : Bool := false
  attempt : Nat := 0
  pixels  : Nat := 0                         -- pixels of its ranges that have retired
  deriving DecidableEq, Repr

/-- What follows a Burnish pass: the resume sweep, the stripe's end, the next stripe, or the job's end. -/
inductive AfterBurn | resume | stripeEnd | nextStripe | jobEnd
  deriving DecidableEq, Repr

/-- A Burnish pass under way (R230): stripes still to do, the attempt, whether it waits for a repair, and what follows. -/
structure Burn where
  stripes : List Nat
  attempt : Nat := 0
  waiting : Bool := false
  waited  : Bool := false
  after   : AfterBurn
  deriving DecidableEq, Repr

/-- The order of sweeps (R159 to R161, R226 to R230): next stripe of the main pass, a parked sweep that waits for its resume
sweep, the Burnish pass under way, the turnaround hold and a release that waits. -/
structure Flow where
  next    : Nat := 0
  parked  : Option (Nat × Int) := none
  burn    : Option Burn := none
  stripeDone : Bool := false                 -- stripe `next - 1` is written, its Burnish pass included
  release : Bool := false
  accs    : List TileAcc := []               -- tiles that a parked sweep left unfinished
  deriving DecidableEq, Repr

/-- A ledger entry (Table 09-2) with its residual values other than 0 by pixel; `owner` the BLOCK_SEQ of the rejection that
an UNKNOWN entry waits for; `left` the defect records not acknowledged; `stored` whether its tile has been written. -/
structure Entry where
  key    : TileKey
  region : Nat
  cause  : Nat
  flags  : Nat
  state  : Nat := 0
  pixels : Nat
  pass   : Nat := 0
  sum    : Nat
  vals   : List (Nat × Nat)
  length : Nat := 0
  addr   : Nat := 0
  owner  : Option Nat := none
  left   : Nat := 0
  awaits : Bool := false                     -- REPORTED, with records that wait for its spool tile (R223, R237)
  bad    : Bool := false
  crc    : BitVec 32 := 0                    -- CRC-32C of the 8,192 bytes of its residual tile (R297)
  deriving DecidableEq, Repr

/-- A defect record (Table 09-4) and the entry it was made from. -/
structure Defect where
  x : Int
  y : Int
  missing : Nat
  stripe  : Nat
  cause   : Nat
  flags   : Nat
  entry   : Option Nat
  bad     : Bool
  deriving DecidableEq, Repr

/-- The ledger and the defect list (R220 to R238), oldest first. -/
structure Ledger where
  entries : List Entry := []
  defects : List Defect := []
  deriving DecidableEq, Repr

/-- The units of the regions beside the raster side: retired slot lanes and the flashes (by count of flashes issued) in
which a lane's rails disagreed (R13), slot lanes and window slices to be retired at the next boundary, regions whose
beam-link group is retired, CRC rail mismatches (region, period) and lock losses per BLK lane (R193), and the state of each
region's halves: 0 asleep, 1 waking, 2 awake (R26). -/
structure Units where
  lanesOut  : List Nat := []
  laneHits  : List (Nat × Nat) := []
  laneDue   : List Nat := []
  flashes   : Nat := 0
  sliceDue  : List Nat := []
  linkOut   : List Nat := []
  linkHits  : List (Nat × Nat) := []
  lockLosses : List (Nat × Nat) := []
  writing   : List Nat := [0, 0, 0, 0]
  raster    : List Nat := [0, 0, 0, 0]
  deriving DecidableEq, Repr

/-- An output ring of a camera port as a frame runs under it (R337). -/
structure OutCfg where
  base  : Nat
  slots : Nat
  on    : Bool
  deriving DecidableEq, Repr

/-- The configuration that a camera frame runs under, taken at its frame start (R336, R337, R340). -/
structure CamCfg where
  vc     : Nat
  dtype  : Nat
  width  : Nat
  height : Nat
  cfa    : Nat
  black  : List Nat
  gain   : List Nat
  defects : Bytes
  threshold : Nat
  shading : Bool
  grid   : Bytes
  wb     : List Nat
  matrix : Bytes
  tone   : Bytes
  weight : List Nat
  outs   : List OutCfg
  dispW  : Nat
  dispH  : Nat
  deriving DecidableEq, Repr

/-- A camera frame (R331, R332, Table 15-5): `lines` as brought to size, newest first; `startAt` and `lastAt` the core cycles
of its frame start and of its last packet. -/
structure CamFrame where
  seq     : Nat
  number  : Nat
  fsTime  : Nat
  feTime  : Nat := 0
  startAt : Nat
  lastAt  : Nat
  lines   : List (List Nat) := []
  received : Nat := 0
  flags   : Nat := 0
  emb     : Bytes := []
  cfg     : CamCfg
  deriving DecidableEq, Repr

/-- A camera port (R330 to R341): the open frame, closed frames that wait to be published, frame starts since CAM_ENABLE
became 1, frames dropped since the last published one, whole lines in the line buffer (arrival cycle, pixels), the cycle of
the last line, the bases of the rings that its outputs used last. -/
structure Cam where
  frame   : Option CamFrame := none
  closed  : List CamFrame := []
  seq     : Nat := 0
  drops   : Nat := 0
  buffer  : List (Nat × Nat) := []
  lastLine : Option Nat := none
  rings   : List Nat := [0, 0, 0]
  deriving DecidableEq, Repr

/-- A request of the mark finder that waits (R343): index of its mark, port, SEARCH, REF, the cycle of its acceptance, the
frame to be measured once it has arrived. -/
structure MfRequest where
  mark   : Nat
  port   : Nat
  search : Nat
  refX   : Int
  refY   : Int
  since  : Nat
  frame  : Option CamFrame := none
  deriving DecidableEq, Repr

/-- An entry of 3442 MF_RESULTS (Table 15-7). -/
structure MarkResult where
  id     : Nat
  status : Nat := 0
  port   : Nat := 0
  ratio  : Nat := 0
  contrast : Nat := 0
  x      : Int := 0
  y      : Int := 0
  seq    : Nat := 0
  deriving DecidableEq, Repr

/-- The spot finder (R345, R346): the cycle at which the phase's strobe rose, the phase frame, and 3452's intensities, dark and
lit (empty: all 0). -/
structure Spot where
  strobeAt : Option Nat := none
  frame  : Option CamFrame := none
  dark   : List Nat := []
  lit    : List Nat := []
  deriving DecidableEq, Repr

/-- The cameras: two ports, the pipeline's line (port, last cycle), the finders. -/
structure Cameras where
  ports  : List Cam := [{}, {}]
  pipe   : Option (Nat × Nat) := none
  mf     : Option MfRequest := none
  marks  : List MarkResult := []
  spot   : Spot := {}
  deriving DecidableEq, Repr

/-- A point of 3707.07 DEFL_POINTS (R373): axis, u, 16 times the edge word. -/
structure DeflPoint where
  axis : Nat
  u    : Int
  w16  : Int
  deriving DecidableEq, Repr

/-- Calibration (R365 to R377): the item that was abandoned and runs first in the next gap, the period from which the running
item's frames count and the core cycle at which it began, its shots sent so far, those to be repeated, those that have been, whether one
has failed twice (R371), the points of the deflector scan. -/
structure Cal where
  first  : Option Nat := none
  begun  : Nat := 0
  cycle  : Nat := 0
  sent   : Nat := 0
  redo   : List Nat := []
  tried  : List Nat := []
  missed : Bool := false
  points : List DeflPoint := []
  deriving DecidableEq, Repr

/-- A check-value unit beside its objects (R324 to R328): the core cycle at which its port's buffer is empty, and the latches
(CU_RESULT, CU_BYTES) whose pulse has arrived, oldest first. 3301 and 3305 hold the values after every byte accepted. -/
structure CheckUnit where
  drain   : Nat := 0
  latches : List (Nat × Nat) := []
  deriving DecidableEq, Repr

/-- A DMA descriptor as it was read (Table 13-2). -/
structure DmaDesc where
  control : Nat
  length  : Nat
  src     : Nat
  dst     : Nat
  next    : Nat
  deriving DecidableEq, Repr

/-- A DMA channel beside its objects (R309 to R316): the values of 3101 to 3103 that it started with, its descriptor, the bytes
of it that have been read, the pulses that wait, the funnel's bytes that wait for the rest of their destination word, and a
write that waits for space in a feed port. -/
structure DmaChannel where
  request : Nat := 0
  burst   : Nat := 0
  line    : Nat := 0
  desc    : Option DmaDesc := none
  moved   : Nat := 0
  pulses  : Nat := 0
  funnel  : Bytes := []
  port    : Bytes := []
  deriving DecidableEq, Repr

/-- A mark of a fit: its nominal position and its displacement, in 1/256 pixel (R137). -/
structure FitPoint where
  x  : Int
  y  : Int
  dx : Int
  dy : Int
  deriving DecidableEq, Repr

/-- A fit that runs (R137): the field's geometry, FIT_ORDER and the marks as they were when it started. -/
structure FitJob where
  field  : Field
  order  : Nat
  points : List FitPoint
  deriving DecidableEq, Repr


/-- The state of the block. `od` holds every scalar object that differs from its default's table entry or was written;
`dom` the RS DOM objects; `out` (every output so far) and `free` (the number of free
values drawn) are the model's own. `line` holds the scrambler register of each lane, BLK0 to BLK23, then PLK0 to PLK7 (R188). -/
structure State where
  od    : List (Nat × Int)
  dom   : List (Nat × Bytes)
  straps : Straps
  clk   : Clock
  pins  : Pins
  otp   : Otp
  pwr   : Power
  boot  : Boot
  fp    : Faceplate
  stg   : Staging
  log   : Log
  job   : Job
  st    : Stream
  host  : HostPort
  dram  : Dram
  sram  : Sram
  ptp   : Ptp
  trg   : Triggers
  pair  : Pair
  hs    : Headstock
  line  : List (BitVec 58)
  lay   : Layout
  ras   : Raster
  spool : Spool
  sweep : Sweep
  hist  : List HistFlash
  flow  : Flow
  ledger : Ledger
  units : Units
  head  : Head
  cams  : Cameras
  cal   : Cal
  cus : List CheckUnit
  dma   : List DmaChannel
  fit   : Option FitJob
  out   : List Output
  free  : Nat
  pending : List Instr
  deriving DecidableEq, Repr

/-- The straps before any sampling: all 0. -/
def Straps.zero : Straps := ⟨0, false, 0, 0, false, 0⟩

/-- The device held in reset: every object at its default, every part at its state after PORST_N; one-time-programmable
memory and the boot flash keep their contents. -/
def State.blank (otp : Otp) (flashA flashB net : Bytes) : State where
  od := []
  dom := []
  straps := Straps.zero
  clk := {}
  pins := {}
  otp := otp
  pwr := {}
  boot := { flashA := flashA, flashB := flashB, netRecord := net }
  fp := {}
  stg := {}
  log := {}
  job := {}
  st := {}
  host := {}
  dram := {}
  sram := {}
  ptp := {}
  trg := {}
  pair := {}
  hs := {}
  line := List.replicate 32 0
  lay := {}
  ras := {}
  spool := {}
  sweep := {}
  hist := []
  flow := {}
  ledger := {}
  units := {}
  head := {}
  cams := {}
  cal := {}
  cus := List.replicate 4 {}
  dma := List.replicate 32 {}
  fit := none
  out := []
  free := 0
  pending := []

/-- The machine right after reset, PORST_N still low: every object at its Default, no command waiting (R32). -/
def State.reset : State :=
  State.blank ⟨Config.otpSecurityMin, Config.otpRevoked, [0, 1, 2, 3].map Config.keyHash⟩ (Config.bootFlash 0) (Config.bootFlash 1) (Config.bootFlash 2)

end Sys2Proof.Machine
end

