-- ==== Sys2Proof/Machine/Ops.lean ====
section
/-! DEFINITION. The operations that every part shares: reading and writing objects, device time, free values, outputs, the
error log (R406 to R408), job state changes (R48), held triggers and releases (R254 to R256, R401) and HALT (R404). -/
namespace Sys2Proof.Machine

/-- What a command's meaning answers. -/
abbrev Out := Host.Outcome State Fault Refusal

/-- The data capacity C of the DRAM that DPOP declares, in bytes (Table 11-1). -/
def dramCapacity (dpop : Nat) : Nat :=
  match dpop % 4 with
  | 0 => 32 * 2 ^ 30
  | 1 => 64 * 2 ^ 30
  | 2 => 96 * 2 ^ 30
  | _ => 128 * 2 ^ 30

/-- The value that a strap gives an object (Table 18-5). -/
def strapValue (st : Straps) (o : ObjRef) : Int :=
  if o = Obj.NODE_ID then (st.nid % 512 : Nat)
  else if o = Obj.PAIR_ROLE then b2i st.roleB
  else if o = Obj.BOOTSEL then (st.bootsel % 4 : Nat)
  else if o = Obj.CTLMODE then (st.ctlmode % 4 : Nat)
  else if o = Obj.PE_LANE_REVERSAL then b2i st.peLrev
  else if o = Obj.DRAM_POPULATION then (st.dpop % 4 : Nat)
  else if o = Obj.DRAM_CAPACITY then (dramCapacity st.dpop : Nat)
  else 0

/-- Defaults that an owning table states through another object or a rule (R415, kind 4). CLASS_ENTRY c: Table 05-1. -/
def derivedDefault (st : Straps) (o : ObjRef) : Int :=
  if o = Obj.BEHAVIOUR_LEVEL then 1
  else if o = Obj.DRAM_RESERVED_BASE then ((dramCapacity st.dpop - 2 ^ 30 : Nat) : Int)
  else if o / 256 = 0x3103 then ((o % 256 - 1 : Nat) : Int)
  else if o / 256 = 0x2410 then (if o = Obj.CLASS_ENTRY then 0 else 0x0180)
  else 0

/-- The Default of an object (R32). -/
def defaultOf (st : Straps) (o : ObjRef) : Int :=
  match objRow o with
  | none => 0
  | some r =>
    match r.dflt with
    | .val v => v
    | .cyc vs => vs.getD ((o % 256 - r.base % 256) % vs.length) 0
    | .strap => strapValue st o
    | .factory => (Config.factory o : Nat)
    | .derived => derivedDefault st o
    | .otp | .none => 0

/-- The effective value of a scalar object. -/
def State.get (s : State) (o : ObjRef) : Int :=
  match kvGet s.od o with
  | some v => v
  | none => defaultOf s.straps o

/-- The effective value of an object that is never negative. -/
def State.getN (s : State) (o : ObjRef) : Nat := (s.get o).toNat

/-- Whether a BOOL object, or a bit of a mask that reads as one, is 1. -/
def State.on (s : State) (o : ObjRef) : Bool := s.get o = 1

/-- Write the effective value of a scalar object. -/
def State.set (s : State) (o : ObjRef) (v : Int) : State := { s with od := kvSet s.od o v }

/-- Write a natural. -/
def State.setN (s : State) (o : ObjRef) (v : Nat) : State := s.set o (v : Int)

/-- The effective image of a DOM object that is configured (RS), if one has been committed. -/
def State.image (s : State) (o : ObjRef) : Option Bytes := kvGet s.dom o

/-- Counters that wrap to 0 (1100.04, 2016, 3532). -/
def wraps (o : ObjRef) : Bool := o = Obj.COMMITS_ACCEPTED || o / 256 = 0x2016 || o / 256 = 0x3532

/-- Add to a counter. Past the greatest value of its type the spec gives a value only for the counters that wrap. -/
def State.add (s : State) (o : ObjRef) (n : Nat) : State :=
  let v := s.get o + n
  match objRow o with
  | none => s
  | some r =>
    let top : Int := 2 ^ (8 * r.type.bytes)
    if v < top then s.set o v
    else if wraps o then s.set o (v % top)
    else s.set o (Config.counterPastMax o v)

/-- Count one event. -/
def State.inc (s : State) (o : ObjRef) : State := s.add o 1

/-- Append an output. -/
def State.emit (s : State) (x : Output) : State := { s with out := s.out ++ [x] }

/-- STAGE_SLOW_N is driven low or released. -/
def State.driveStageSlow (s : State) (low : Bool) : State :=
  if s.pins.stageSlow = low then s else ({ s with pins := { s.pins with stageSlow := low } }).emit (.stageSlow low)

/-- Draw a free value. -/
def State.freeNat (s : State) : Nat × State := (Config.freeNat s.free, { s with free := s.free + 1 })

/-- Draw free bytes. -/
def State.freeBytes (s : State) (n : Nat) : Bytes × State :=
  ((List.range n).map fun i => Config.freeByte (s.free + i), { s with free := s.free + n })

/-- TIME arithmetic: 2^-32 ns; the seconds part wraps at 2^48 (R349). -/
def timeModulus : Nat := 2 ^ 48 * 1000000000 * 2 ^ 32

/-- Core cycles since the last tick, from 0 to 15 (R350). -/
def Clock.sub (c : Clock) : Nat := if c.fine then min 15 (c.cycle - c.tickCycle) else 0

/-- Device time now (R350). -/
def State.now (s : State) : Nat :=
  (s.clk.T + s.clk.sub * s.getN Obj.TIME_INCREMENT / 16) % timeModulus

/-- A command names the core cycle at which it happens; time never runs backward. -/
def State.at (s : State) (t : Nat) : State := { s with clk := { s.clk with cycle := max s.clk.cycle t } }

/-- Core cycles in a number of nanoseconds, rounded up. -/
def nsCycles (ns : Nat) : Nat := ceilDiv (2 * ns) 5

/-- Core cycles in 1 ms and 1 s. -/
abbrev msCycles : Nat := 400000
abbrev secCycles : Nat := 400000000

/-- The JOB_STATE values of Table 02-8. -/
abbrev jobIdle : Nat := 0
abbrev jobPreparing : Nat := 1
abbrev jobRunning : Nat := 2
abbrev jobHeld : Nat := 3
abbrev jobBurnishing : Nat := 4
abbrev jobDone : Nat := 5
abbrev jobAborting : Nat := 6
abbrev jobAborted : Nat := 7
abbrev jobFailed : Nat := 8

/-- JOB_STATE (Table 02-8). -/
def State.jobState (s : State) : Nat := s.getN Obj.JOB_STATE

/-- A job is in states 1, 2, 3, 4 or 6 (rule 1 of Table 02-7, R388). -/
def State.jobActive (s : State) : Bool := s.jobState ∈ [1, 2, 3, 4, 6]

/-- This device is the active of its pair: PAIR_STATE 1 (Table 10-2). -/
def State.isActive (s : State) : Bool := s.getN Obj.PAIR_STATE = 1
/-- The standby of a pair: PAIR_STATE 0, 2, 3 or 4 (R245). -/
def State.isStandby (s : State) : Bool := s.getN Obj.PAIR_STATE ∈ [0, 2, 3, 4]

/-- An eligible standby serves this active: R254. -/
def State.peerEligible (s : State) : Bool :=
  s.getN Obj.PAIR_STATE = 1 && s.getN Obj.PEER_STATE = 4 && s.getN Obj.MIRROR_LINK_STATE = 1

/-- The pair-gated outputs are enabled (R242). -/
def State.outputsOn (s : State) : Bool := s.pins.ownAct && !s.pins.peerAct

/-- POWER_STATE (Table 18-3). -/
def State.power (s : State) : Nat := s.getN Obj.POWER_STATE

/-- The core domain runs: READY or WRITING with the core PLL locked (R24, R386). -/
def State.coreOn (s : State) : Bool := (s.power = 2 || s.power = 3) && s.clk.coreLocked

/-- An event for the error log (R406): class, subsystem, region and unit (255 where none applies), object, details. -/
structure Ev where
  cls    : Nat
  subsys : Nat
  region : Nat := 255
  unit   : Nat := 255
  obj    : ObjRef
  d0     : Nat := 0
  d1     : Nat := 0
  deriving DecidableEq, Repr

/-- Whether an event merges into the newest entry (R407). -/
def mergesInto (e : Ev) (now : Nat) (x : LogEntry) : Bool :=
  e.cls ≤ 3 && x.cls = e.cls && x.subsys = e.subsys && x.region = e.region && x.unit = e.unit && x.obj = e.obj &&
  now ≤ x.time + 1000000 * 2 ^ 32

/-- Entries the ring of the error log holds (R406). -/
abbrev logRing : Nat := 1048576

/-- Enter an event in the error log or merge it into the newest entry, and count its class (R406 to R408). -/
def State.logEvent (s : State) (e : Ev) : State :=
  let s1 := (s.inc (Obj.CLASS_COUNT + (e.cls - 1))).inc (Obj.CLASS_COUNT_JOB + (e.cls - 1))
  let rec1 := (s.clk.cycle, e.subsys, e.cls) :: s.log.recent
  match s.log.entries with
  | x :: rest =>
    if mergesInto e s.now x then
      { s1.inc Obj.LOG_COALESCED with
        log := { s.log with entries := { x with rep := min 65535 (x.rep + 1) } :: rest, recent := rec1 } }
    else
      let y : LogEntry := ⟨(x.seq + 1) % 2 ^ 32, e.cls, e.subsys, 0, e.region, e.unit, e.obj, s.now, e.d0, e.d1⟩
      { (s1.setN Obj.LOG_NEWEST_SEQ y.seq).setN Obj.LOG_OLDEST_SEQ
          (if (x :: rest).length < logRing then s.getN Obj.LOG_OLDEST_SEQ else (s.getN Obj.LOG_OLDEST_SEQ + 1) % 2 ^ 32) with
        log := { s.log with entries := (y :: x :: rest).take logRing, recent := rec1 } }
  | [] =>
    let y : LogEntry := ⟨0, e.cls, e.subsys, 0, e.region, e.unit, e.obj, s.now, e.d0, e.d1⟩
    { (s1.setN Obj.LOG_NEWEST_SEQ 0).setN Obj.LOG_OLDEST_SEQ 0 with
      log := { s.log with entries := [y], recent := rec1 } }

/-- Take the snapshot of 2101 (R53). -/
def State.snapshot (s : State) : State :=
  (((((s.setN Obj.PROG_STRIPE s.job.liveStripe).setN Obj.PROG_BAND s.job.liveBand).set Obj.PROG_FLASH_INDEX s.job.liveIndex).setN
    Obj.PROG_PERMILLE s.job.permille).setN Obj.PROG_PASS s.job.livePass).setN Obj.PROG_TIME s.now

/-- The per-mille of R54 from the pixels retired so far: never falling, 999 at most before DONE. -/
def State.livePermille (s : State) : Nat :=
  let a := s.getN Obj.JOB_AREA
  max s.job.permille (min 999 (if a = 0 then 0 else 1000 * s.job.retired / a))

/-- A staged entry takes effect. -/
def State.putEntry (s : State) (e : StagedEntry) : State :=
  match e.val with
  | .scalar v => s.set e.obj v
  | .image bs => { s with dom := kvSet s.dom e.obj bs }

/-- Entries of accepted commits that wait for a stripe take effect now; `f` selects objects (R46). -/
def State.takeStripe (s : State) (f : ObjRef → Bool) : State :=
  let s' := (s.stg.atStripe.filter (f ·.obj)).foldl State.putEntry s
  { s' with stg := { s'.stg with atStripe := s.stg.atStripe.filter fun e => !f e.obj } }

/-- Change JOB_STATE, with the snapshot of R53, the power transitions READY to WRITING and back (Table 18-4) and,
in DONE, ABORTED and FAILED, the entries that wait for a stripe (R46). -/
def State.setJobState (s : State) (v : Nat) : State :=
  let s := s.setN Obj.JOB_STATE v
  let s := if v = jobRunning ∧ s.power = 2 then s.setN Obj.POWER_STATE 3
           else if (v = jobDone ∨ v = jobAborted ∨ v = jobFailed) ∧ s.power = 3 then s.setN Obj.POWER_STATE 2 else s
  let s := if v = jobDone then { s.inc Obj.JOBS_COMPLETED with job := { s.job with permille := 1000 } }
           else { s with job := { s.job with permille := s.livePermille } }
  let s := if v = jobDone ∨ v = jobAborted ∨ v = jobFailed then s.takeStripe fun _ => true else s
  s.snapshot

/-- The quiet of an abort or HALT begins at t = 0: no add-back, no ledger entry, no Burnish pass from now on (R57). -/
def State.beginQuiet (s : State) : State :=
  { s with job := { s.job with hold := false, abortAt := some (s.job.abortAt.getD s.clk.cycle) } }

/-- The subsystem that caused a HALT: its health index is 0 from then on (R409). -/
def State.haltedSub (s : State) (subsys : Nat) : State :=
  { (s.setN (Obj.HEALTH_INDEX + subsys) 0).setN Obj.HEALTH_MIN 0 with log := { s.log with haltSub := some subsys } }

/-- HALT (R404): cause, detail and the subsystem that caused it. Of two causes at one point the lower is recorded. -/
def State.halt (s : State) (cause detail subsys : Nat) : State :=
  let old := s.getN Obj.HALT_CAUSE
  if old = 0 then
    let s := (s.beginQuiet).setJobState jobFailed
    (((s.setN Obj.HALT_CAUSE cause).setN Obj.HALT_TIME s.now).setN Obj.HALT_DETAIL detail).haltedSub subsys
  else if cause < old ∧ s.getN Obj.HALT_TIME = s.now then
    ((s.setN Obj.HALT_CAUSE cause).setN Obj.HALT_DETAIL detail).haltedSub subsys
  else s

/-- A release trigger (Table 10-8) with the unit whose fault raised it; `index` is the region, the channel, or the
rail's sub-index of Table 18-11 (0 where no rail is concerned). -/
structure Trig where
  code   : Nat
  subsys : Nat
  region : Nat := 255
  unit   : Nat := 255
  index  : Nat := 0
  deriving DecidableEq, Repr

/-- The OBJECT of a trigger's log entry (Table 19-2). -/
def Trig.object (t : Trig) : ObjRef :=
  match t.code with
  | 1 => Obj.RAIL_WINDOW
  | 2 => Obj.REGION_STATE + t.index
  | 3 => Obj.MC_STATE + t.index
  | 4 => Obj.SUPPLY_FAULTS
  | 5 => Obj.TJ
  | 6 => Obj.WATCHDOG_EXPIRIES
  | 7 => Obj.RASTER_LEAD + t.index
  | _ => Obj.HANDOVER_REQUEST

/-- The log event of a trigger with a class (R439): DETAIL0 holds the code; trigger 1 is entered with SUBSYSTEM 3. -/
def Trig.event (t : Trig) (cls : Nat) : Ev :=
  ⟨cls, if t.code = 1 then 3 else t.subsys, t.region, t.unit, t.object, t.code, 0⟩

/-- The standby leaves the states in which it holds the active's state (R251): cause of Table 10-5. -/
def State.desync (s : State) (cause : Nat) : State :=
  if s.getN Obj.PAIR_STATE ∈ [2, 3, 4] then
    let s := ((s.setN Obj.PAIR_STATE 0).inc Obj.DESYNCS).setN Obj.LAST_DESYNC_CAUSE cause
    s.logEvent ⟨if s.on Obj.AUTO_SYNC then 2 else 4, 12, 255, 255, Obj.PAIR_STATE, cause, 0⟩
  else s

/-- Bytes of a mirror message on its lane: SOF, header, padded payload, EOF (R246, Table 08-1). -/
def Sent.bytes (m : Sent) : Nat := 32 + 8 * ceilDiv m.body.length 8

/-- The newest messages that a replay buffer holds. -/
def keepSent : Nat → List Sent → List Sent
  | _, [] => []
  | n, m :: r => if m.bytes ≤ n then m :: keepSent (n - m.bytes) r else []

/-- Bytes of a lane's replay buffer (R246). -/
abbrev replayBytes : Nat := 4194304

/-- Header and payload of a mirror message (R246), the payload padded to a multiple of 8 bytes. DESIGN CHOICE: LENGTH is that of the payload
before the padding, FRAME_NUMBER that of the record, or for other messages of the period decided last. -/
def Sent.message (m : Sent) : Bytes :=
  [byte m.type, 0, 0, 0] ++ leBytes 4 m.seq ++ leBytes 4 m.body.length ++ leBytes 4 (m.frame % 2 ^ 32) ++ m.body ++
  List.replicate (8 * ceilDiv m.body.length 8 - m.body.length) 0

/-- Blocks leave on a lane of `line`: BLK0 to BLK23, then PLK0 to PLK7; its scrambler goes on. -/
def State.scrambled (s : State) (i : Nat) (bs : List Block) : List (BitVec 66) × State :=
  let x := lineBlocks bs (atD s.line i 0)
  (x.1, { s with line := setAt s.line i x.2 })

/-- A mirror message leaves on a lane. -/
def State.transmit (s : State) (lane : Nat) (m : Sent) : State :=
  let b := m.message
  let (xs, s) := s.scrambled (24 + lane) (messageBlocks (sofPlk lane) b (crc32iso b))
  s.emit (.plk lane m.type m.seq m.body xs)

/-- Send a mirror message of a type on a lane, with the lane's SEQ and a FRAME_NUMBER; it joins the lane's replay buffer (R246). -/
def State.mirrorAt (s : State) (frame lane type : Nat) (body : Bytes) : State :=
  let q := atD s.pair.txSeq lane 0
  let m : Sent := ⟨q, type, body, frame⟩
  { s.transmit lane m with pair := { s.pair with
      txSeq := setAt s.pair.txSeq lane ((q + 1) % 2 ^ 32)
      replay := modifyAt s.pair.replay lane fun l => keepSent replayBytes (m :: l) } }

/-- Send a mirror message that belongs to no record. -/
def State.mirror (s : State) (lane type : Nat) (body : Bytes) : State := s.mirrorAt (s.hs.k - 1) lane type body

/-- SWEEP_STATE (Table 06-4). -/
def State.sweepState (s : State) : Nat := s.getN Obj.SWEEP_STATE

/-- A sweep is armed: SWEEP_STATE from 1 to 3. -/
def State.sweepArmed (s : State) : Bool := s.sweepState ∈ [1, 2, 3]

/-- The conditions of R253 under which a SYNCED standby is ELIGIBLE. -/
def State.eligibleNow (s : State) : Bool :=
  (!(s.sweepArmed || s.pair.foreign) || s.pair.armedSinceSync) && (s.pair.peerHealth[1]?).any (fun v => v.toNat = s.getN Obj.BEHAVIOUR_LEVEL) &&
  s.getN Obj.MIRROR_LINK_STATE = 1 && (s.getN Obj.HST_LANE_STATE = 1 || s.getN (Obj.HST_LANE_STATE + 1) = 1) &&
  [0, 1, 2, 3].all (fun i => s.getN (Obj.REGION_STATE + i) ≠ 4) &&
  (!s.sweepArmed || (s.getN Obj.POS_STATE = 2 && s.getN Obj.DEFL_LINK_STATE = 1))

/-- PAIR_STATE moves between SYNCED and ELIGIBLE as R253 gives (Table 10-2). -/
def State.refreshEligible (s : State) : State :=
  if s.getN Obj.PAIR_STATE ∈ [3, 4] then
    if s.eligibleNow then s.setN Obj.PAIR_STATE 4
    else if s.getN Obj.PAIR_STATE = 4 then { s.setN Obj.PAIR_STATE 3 with pair := { s.pair with armedSinceSync := false } }
    else s
  else s

/-- Records are formed and sent, one for each flash period: on the active, up to a release (R247, R256). -/
def State.recordsOn (s : State) : Bool := s.getN Obj.PAIR_STATE = 1 && !s.pair.releasing

/-- Mirror traffic other than records is sent: by an active whose mirror link is up, to a standby that takes or follows a transfer, before
a release. One released by COMMAND goes on as SYNCED (R249, R256, R261, R262). -/
def State.mirrorsOn (s : State) : Bool :=
  s.recordsOn && s.getN Obj.MIRROR_LINK_STATE = 1 && (s.getN Obj.PEER_STATE ∈ [2, 3, 4] || s.pair.peerStays)

/-- Tell the standby that the job state or the pending hold has changed outside a flash record (R52, R262, item 1 of Table 10-7). -/
def State.tellJob (s : State) : State :=
  if s.mirrorsOn then s.mirror 4 0x20 [1, byte s.jobState, byte (b2n s.job.hold)] else s

/-- Set a pending hold as HOLD of R49 sets it: only in PREPARING and RUNNING. -/
def State.setHold (s : State) : State :=
  if s.jobState = jobPreparing ∨ s.jobState = jobRunning then ({ s with job := { s.job with hold := true } }).tellJob else s

/-- A held trigger acts as Table 19-2 gives (R401); trigger 2 is entered with the region loss, trigger 8 is refused elsewhere. -/
def State.holdTrigger (s : State) (t : Trig) : State :=
  let s := s.inc Obj.TRIGGERS_HELD
  match t.code with
  | 1 => s.logEvent (t.event 2)
  | 2 => (s.logEvent (t.event 4)).setHold
  | 3 => (s.logEvent (t.event 6)).halt 1 (2 ^ t.index) t.subsys
  | 4 => (s.logEvent (t.event 6)).halt 2 t.index t.subsys
  | 5 => s.logEvent (t.event 4)
  | 6 => (s.logEvent (t.event 6)).halt 3 0 t.subsys
  | _ => s.logEvent (t.event 2)

/-- The RELEASE message with a trigger code and k_r, and what the objects show of it (R256, R260). -/
def State.tellRelease (s : State) (code kr : Nat) : State :=
  let s := s.mirror 4 0x33 (leBytes 4 code ++ leBytes 4 kr)
  { (s.setN Obj.LAST_TRIGGER code).setN Obj.LAST_KR kr with pair := { s.pair with releasing := true, release := some (code, kr) } }

/-- Steps 1 and 2 of R256: no record, frame or FRAME_SYNC from now on; RELEASE with the trigger code and k_r. A further trigger while the
release runs causes none of its own (R255). DESIGN CHOICE: triggers up to the fall of OWN_ACT arise together, so that a lower code is sent
anew. -/
def State.startRelease (s : State) (t : Trig) : State :=
  match s.pair.release with
  | some (c, kr) =>
    let s := (s.inc Obj.TRIGGERS_HELD).logEvent (t.event 5)
    if t.code < c then s.tellRelease t.code kr else s
  | none => (s.logEvent (t.event 5)).tellRelease t.code s.pair.lastRecord

/-- A trigger arises (R254, R255, R401, Table 10-5 cause 7, cause 5 of Table 19-3). -/
def State.raise (s : State) (t : Trig) : State :=
  if s.isStandby then
    let s := s.inc Obj.TRIGGERS_HELD
    if 2 ≤ t.code ∧ t.code ≤ 6 then s.desync 7 else s
  else if 0 < s.pair.k1 ∧ s.hs.k ≤ s.pair.k1 then (s.logEvent (t.event 6)).halt 5 0 t.subsys
  else if s.peerEligible then s.startRelease t
  else s.holdTrigger t

/-- Units in service of a region that is not lost; REGION_STATE 4 is LOST (R28). -/
def State.lost (s : State) (i : Nat) : Bool := s.getN (Obj.REGION_STATE + i) = 4

/-- Bytes of a value (Table 02-1). A TIME value counts 2^-32 ns. -/
def encodeValue (t : OType) (v : Int) : Bytes :=
  match t with
  | .time =>
    let n := v.toNat
    let ns := n / 2 ^ 32
    leBytes 6 (ns / 1000000000) ++ zeros 2 ++ leBytes 4 (ns % 1000000000) ++ leBytes 4 (n % 2 ^ 32)
  | _ => leBytesI t.bytes v

/-- The value that bytes encode, none where Table 02-1 refuses them with RANGE; the length has been checked. -/
def decodeValue (t : OType) (bs : Bytes) : Option Int :=
  match t with
  | .bool => if leAt bs 0 1 ≤ 1 then some (leAt bs 0 1) else none
  | .f32 => if bitsOf (ofLe bs) 30 23 = 255 then none else some (ofLe bs)
  | .time =>
    if leAt bs 6 2 ≠ 0 ∨ leAt bs 8 4 > 999999999 then none
    else some (((leAt bs 0 6 * 1000000000 + leAt bs 8 4) * 2 ^ 32 + leAt bs 12 4 : Nat) : Int)
  | .str | .dom => none
  | .i16 | .i32 | .i64 => some (toSigned (8 * t.bytes) (ofLe bs))
  | _ => some (ofLe bs)

/-- Whether a value lies in the Range column of its row (R30). DESIGN CHOICE: a Range that reads "DRAM" bounds nothing at the write of
one address object; rule 9 of Table 02-7 judges the whole region when the set is committed. -/
def Rng.ok (r : Rng) (v : Int) : Bool :=
  match r with
  | .any => true
  | .span lo hi => lo ≤ v && v ≤ hi
  | .spanOr lo hi x => (lo ≤ v && v ≤ hi) || v = x
  | .oneOf vs => v ∈ vs
  | .mult m => v % (m : Int) = 0
  | .pow2 lo hi => (lo : Int) ≤ v && v ≤ (hi : Int) && v = ((2 ^ Nat.log2 v.toNat : Nat) : Int)
  | .even lo hi => lo ≤ v && v ≤ hi && v % 2 = 0
  | .odd lo hi => lo ≤ v && v ≤ hi && v % 2 = 1
  | .nonzero => v ≠ 0
  | .f32NonNeg => v ≤ 0x80000000
  | .f32Pos => 0 < v && v < 0x80000000

/-- The status codes of Table 02-6. -/
abbrev stOk : Nat := 0
abbrev stNoObject : Nat := 1
abbrev stAccess : Nat := 2
abbrev stType : Nat := 3
abbrev stRange : Nat := 4
abbrev stState : Nat := 5
abbrev stStagingOwned : Nat := 6
abbrev stLimit : Nat := 7
abbrev stTooBig : Nat := 8
abbrev stSeq : Nat := 9
abbrev stSession : Nat := 10
abbrev stAuth : Nat := 11
abbrev stConflict : Nat := 12
abbrev stRefused : Nat := 13
abbrev stMalformed : Nat := 14

/-- What a write of a command object answers: the state after it and the status of Table 02-6. -/
abbrev Wr := State × Nat

/-- A refused write has no effect (R30). -/
def State.deny (s : State) (status : Nat) : Wr := (s, status)

/-- An executed write. -/
def State.ok (s : State) : Wr := (s, stOk)

/-- Objects that the SPI port reaches for a write (R43). -/
def spiWritable (s : State) (o : ObjRef) : Bool :=
  let i := o / 256
  (0x1000 ≤ i && i ≤ 0x20FF) || (s.jobState = jobFailed && o = Obj.DEFECT_ACK)

/-- Objects that the SPI port reaches for a read (R43). -/
def spiReadable (s : State) (o : ObjRef) : Bool :=
  let i := o / 256
  (0x1000 ≤ i && i ≤ 0x20FF) || (s.jobState = jobFailed && 0x2900 ≤ i && i ≤ 0x29FF)

/-- A port answers (R34, R387, R393, R404, R405): the SPI port from the lock of the control PLL, the control ports from
phase 6 while the firmware runs; none in DEEP and TRIPPED. -/
def State.answers (s : State) (v : Via) : Bool :=
  let awake := s.pins.porstN && s.power ≠ 0 && s.power ≠ 5
  match v with
  | .spi => awake && !(s.pwr.locking.contains .control)
  | _ => awake && s.getN Obj.STARTUP_PHASE = 6 && s.boot.released && s.getN Obj.CTLMODE ≠ 3

/-- The gate before a write of an object by a session: the port answers and reaches the object. A write by a port that
does not answer does not arise; the state stays as it is. -/
def State.gate (s : State) (by_ : Caller) (o : ObjRef) (f : State → Wr) : Wr :=
  if !s.answers by_.via then s.deny stAccess
  else if by_.via = .spi && !spiWritable s o then s.deny stAccess
  else f s

/-- A list from 0 to 3: the four regions. -/
abbrev regions : List Nat := [0, 1, 2, 3]

end Sys2Proof.Machine
end

