-- ==== Sys2Proof/Machine/Dram.lean ====
section
/-! DEFINITION. DRAM as bytes over device addresses (R265 to R276): the address map, reads under the code, writes, the
poison, channel loss (R281) and the finding of an uncorrectable word (R282). The memory lists only bytes that differ
from 0, the value the fill leaves (R276). -/
namespace Sys2Proof.Machine

/-- What an unlisted DRAM byte reads as: the fill of R275 writes 0 everywhere (R276). -/
def unlistedByte : Byte := 0

/-- Read one byte. -/
def memRead (m : List Host.Cell) (a : Nat) : Byte :=
  match m with
  | [] => unlistedByte
  | (a', b) :: r => if a' = a then b else if a < a' then unlistedByte else memRead r a

/-- Write one byte, keeping addresses strictly rising and listing no byte that equals an unlisted one. -/
def memWrite (m : List Host.Cell) (a : Nat) (b : Byte) : List Host.Cell :=
  match m with
  | [] => if b = unlistedByte then [] else [(a, b)]
  | (a', b') :: r =>
    if a < a' then (if b = unlistedByte then (a', b') :: r else (a, b) :: (a', b') :: r)
    else if a = a' then (if b = unlistedByte then r else (a, b) :: r)
    else (a', b') :: memWrite r a b

/-- The canonical form: strictly rising addresses, no entry equal to an unlisted byte. -/
def memWf : List Host.Cell → Bool
  | [] => true
  | [(_, b)] => b != unlistedByte
  | (a, b) :: (a', b') :: r => b != unlistedByte && decide (a < a') && memWf ((a', b') :: r)

/-- Write bytes at consecutive addresses. -/
def memWriteList (m : List Host.Cell) (a : Nat) : Bytes → List Host.Cell
  | [] => m
  | b :: bs => memWriteList (memWrite m a b) (a + 1) bs

/-- Read `n` bytes. -/
def memReadList (m : List Host.Cell) (a n : Nat) : Bytes := (List.range n).map fun i => memRead m (a + i)

/-- The channel of a device address (R267): A[8:7]. -/
def channelOf (a : Nat) : Nat := a / 128 % 4

/-- Bank groups of the population: 4 with x16 components, 8 with x8 (Table 11-1). -/
def bankGroups (dpop : Nat) : Nat := if dpop % 4 = 0 then 4 else 8

/-- Banks per channel. -/
def bankCount (dpop : Nat) : Nat := 4 * bankGroups dpop

/-- Rows per bank (Table 11-1). -/
def rowCount (dpop : Nat) : Nat :=
  match dpop % 4 with
  | 0 | 1 => 65536
  | 2 => 98304
  | _ => 131072

/-- Bank index 4·bank group + bank, and row, of a device address (R267). -/
def bankRow (dpop a : Nat) : Nat × Nat :=
  let l := a / 512
  let g := bankGroups dpop
  let bg := l / 64 % g
  let bank := l / (64 * g) % 4
  (4 * bg + bank, l / (256 * g))

/-- The device address of byte 0 of burst `col` of a row: the inverse of R267. -/
def rowAddress (dpop ch bankIdx row col : Nat) : Nat :=
  let g := bankGroups dpop
  (((row * 4 + bankIdx % 4) * g + bankIdx / 4) * 64 + col) * 512 + ch * 128

/-- A channel is lost (R281). -/
def State.channelLost (s : State) (ch : Nat) : Bool := s.getN (Obj.MC_STATE + ch) = 3

/-- The channel record. -/
def State.chan (s : State) (ch : Nat) : Channel := atD s.dram.channels ch {}

/-- Change a channel record. -/
def State.modChan (s : State) (ch : Nat) (f : Channel → Channel) : State :=
  { s with dram := { s.dram with channels := modifyAt s.dram.channels ch f } }

/-- The data of a word by word address A / 8. -/
def State.wordData (s : State) (wa : Nat) : Nat := ofLe (memReadList s.dram.mem (8 * wa) 8)

/-- The stored bits of a word, disturbed as the fault says. -/
def State.storedWord (s : State) (wa : Nat) (fs : List WordFault) : Nat :=
  match fs.find? (·.word = wa) with
  | none => if wa ∈ s.dram.poisoned then poisonWord wa else goodWord (s.wordData wa) wa
  | some f =>
    (if wa ∈ s.dram.poisoned then poisonWord (wa ^^^ f.addrXor) else goodWord (s.wordData wa) (wa ^^^ f.addrXor))
      ^^^ f.flips.toNat

/-- The outcome of reading a word (R271); a lost channel reads as uncorrectable (R281). -/
def State.readOutcome (s : State) (wa : Nat) (fs : List WordFault) : ReadOutcome × Nat :=
  if s.channelLost (channelOf (8 * wa)) then (.uncorrectable, 0) else readWord (s.storedWord wa fs) wa

/-- Write bytes of one word: a whole word directly, which clears poison; a part by read-modify-write, not made on a word that reads as
uncorrectable (R273). Answers the words not merged. -/
def State.dramWriteWord (s : State) (wa off : Nat) (bs : Bytes) : State × List Nat :=
  let ch := channelOf (8 * wa)
  if s.channelLost ch then (s, [])
  else if off = 0 ∧ bs.length = 8 then
    ({ s with dram := { s.dram with
        mem := memWriteList s.dram.mem (8 * wa) bs
        poisoned := s.dram.poisoned.filter (· ≠ wa)
        watch := s.dram.watch.map fun p => if p.1 = wa then (wa, true) else p } }, [])
  else if wa ∈ s.dram.poisoned then (s, [wa])
  else ({ s with dram := { s.dram with mem := memWriteList s.dram.mem (8 * wa + off) bs } }, [])

/-- Write bytes at a device address, word by word, `n` words at most. -/
def State.dramWriteAux : Nat → State → Nat → Bytes → List Nat → State × List Nat
  | 0, s, _, _, bad => (s, bad)
  | n + 1, s, a, bs, bad =>
    match bs with
    | [] => (s, bad)
    | _ =>
      let off := a % 8
      let k := min (8 - off) bs.length
      let (s', b) := s.dramWriteWord (a / 8) off (bs.take k)
      State.dramWriteAux n s' (a + k) (bs.drop k) (bad ++ b)

/-- Bursts that a channel's write queue holds (R273). -/
abbrev queueBursts : Nat := 64

/-- A burst enters its channel's write queue with the words that the write covers; the oldest leaves a full queue. A burst that is queued
already takes the new words (DESIGN CHOICE: one place per burst, at the end). -/
def queueBurst (l : List (Nat × Nat)) (burst mask : Nat) : List (Nat × Nat) :=
  let l := l.filter (·.1 ≠ burst) ++ [(burst, mask ||| (kvGet l burst).getD 0)]
  l.drop (l.length - queueBursts)

/-- The words 0 to 15 of its burst that `n` bytes from `a`, all inside one burst, touch, as a mask. -/
def burstMask (a n : Nat) : Nat := 2 ^ ((a % 128 + n + 7) / 8) - 2 ^ (a % 128 / 8)

/-- A write of `n` bytes from `a` inside a burst is accepted (R273): it enters the queue, by read-modify-write with all 16 words and a
count in MC_NARROW_WRITES where it covers a part of a word. -/
def State.acceptWrite (s : State) (a n : Nat) : State :=
  let ch := channelOf a
  if s.channelLost ch ∨ n = 0 then s
  else
    let narrow := a % 8 ≠ 0 ∨ (a + n) % 8 ≠ 0
    let s := if narrow then s.inc (Obj.MC_NARROW_WRITES + ch) else s
    s.modChan ch fun c => { c with queue := queueBurst c.queue (a / 128) (if narrow then 0xFFFF else burstMask a n) }

/-- Write bytes at a device address, burst by burst, `n` bursts at most. -/
def State.dramWriteBursts : Nat → State → Nat → Bytes → List Nat → State × List Nat
  | 0, s, _, _, bad => (s, bad)
  | n + 1, s, a, bs, bad =>
    match bs with
    | [] => (s, bad)
    | _ =>
      let k := min (128 - a % 128) bs.length
      let (s', bad') := State.dramWriteAux 17 (s.acceptWrite a k) a (bs.take k) bad
      State.dramWriteBursts n s' (a + k) (bs.drop k) bad'

/-- Write bytes at a device address (R273); the second part lists the words whose merge was not made. -/
def State.dramWrite (s : State) (a : Nat) (bs : Bytes) : State × List Nat :=
  State.dramWriteBursts (bs.length / 128 + 2) s a bs []

/-- Write bytes that fill whole words, or whose failures concern nobody. -/
def State.dramStore (s : State) (a : Nat) (bs : Bytes) : State := (s.dramWrite a bs).1

/-- The words that `n` bytes from `a` touch. -/
def wordsOf (a n : Nat) : List Nat := if n = 0 then [] else rangeN (a / 8) ((a + n - 1) / 8)

/-- The bursts that `n` bytes from `a` touch. -/
def burstsOf (a n : Nat) : List Nat := if n = 0 then [] else rangeN (a / 128) ((a + n - 1) / 128)

/-- A read of a burst against the write queue (R274): the words that the queue still holds come from it, undisturbed, and the read counts
in MC_FORWARDS. The spec gives the queue no time at which it drains: a free value says whether the burst has left it, and every older
one with it. -/
def State.forward (s : State) (burst : Nat) (fs : List WordFault) : State × List WordFault :=
  let ch := channelOf (128 * burst)
  match (s.chan ch).queue.findIdx? (·.1 = burst) with
  | none => (s, fs)
  | some i =>
    let (x, s) := s.freeNat
    if x % 2 = 0 then (s.modChan ch fun c => { c with queue := c.queue.drop (i + 1) }, fs)
    else
      let mask := (kvGet (s.chan ch).queue burst).getD 0
      (s.inc (Obj.MC_FORWARDS + ch), fs.filter fun f => !(f.word / 16 = burst && bitOf mask (f.word % 16)))

/-- The faults that a read of `n` bytes from `a` meets in DRAM, with what the write queue holds left out (R274). -/
def State.forwards (s : State) (a n : Nat) (fs : List WordFault) : State × List WordFault :=
  (burstsOf a n).foldl (fun (p : State × List WordFault) b => p.1.forward b p.2) (s, fs)

/-- Poison a word in place (R272): data 0 from then on. -/
def State.poisonWordAt (s : State) (wa : Nat) : State :=
  if wa ∈ s.dram.poisoned then s
  else { s with dram := { s.dram with
    mem := memWriteList s.dram.mem (8 * wa) (zeros 8)
    poisoned := wa :: s.dram.poisoned } }

/-- A channel is lost (R281): MC_STATE 3, speed 0, release trigger 3 with the unit that is the channel. -/
def State.loseChannel (s : State) (ch : Nat) : State :=
  if s.channelLost ch then s
  else (((s.setN (Obj.MC_STATE + ch) 3).setN (Obj.MC_SPEED + ch) 0).modChan ch fun c => { c with queue := [] }).raise ⟨3, 10, 255, ch, ch⟩

/-- Uncorrectable words, poisoned ones excluded, at 64 distinct addresses within 1 s lose the channel (R281). -/
def State.noteUe (s : State) (wa : Nat) : State :=
  let ch := channelOf (8 * wa)
  let seen := (s.clk.cycle, wa) :: ((s.chan ch).ueSeen.filter fun p => p.2 ≠ wa && s.clk.cycle < p.1 + secCycles)
  let s := s.modChan ch fun c => { c with ueSeen := seen }
  if seen.length ≥ 64 then s.loseChannel ch else s

/-- A row becomes failing (R279): its copy starts, waits for the copy in progress, or is counted as an overflow. -/
def State.failRow (s : State) (ch bank row cause : Nat) : State :=
  let c := s.chan ch
  let known := c.remap.any (fun e => e.row = row && e.bank = bank) ||
    c.copy.any (fun e => e.row = row && e.bank = bank) || c.queued.any (fun e => e.row = row && e.bank = bank)
  if known ∨ s.channelLost ch then s
  else
    let used := c.remap.length + (if c.copy.isSome then 1 else 0) + c.queued.length
    if used ≥ 16 then
      (s.inc (Obj.REMAP_OVERFLOWS + ch)).logEvent ⟨2, 10, 255, ch, Obj.REMAP_OVERFLOWS + ch, row, bank⟩
    else
      let x : RemapCopy := ⟨row, bank, cause, used⟩
      s.modChan ch fun c => if c.copy.isNone then { c with copy := some x } else { c with queued := c.queued ++ [x] }

/-- The row of a word, as (channel, bank index, row). -/
def State.rowOf (s : State) (wa : Nat) : Nat × Nat × Nat :=
  let br := bankRow s.straps.dpop (8 * wa)
  (channelOf (8 * wa), br.1, br.2)

/-- Code of Table 11-5 of the region that holds a device address, from the objects that place the regions. Codes 2 to
4 share the spool region and 8 the rest of the reserved one: the caller tells them apart. -/
def State.regionCode (s : State) (a : Nat) : Nat :=
  let inR (b n : ObjRef) : Bool := s.getN b ≤ a && a < s.getN b + s.getN n
  let base := s.getN Obj.DRAM_RESERVED_BASE
  if a ≥ base then
    let o := a - base
    if o < 64 * 2 ^ 20 then 6 else if o < 512 * 2 ^ 20 then 7 else if o < 2 ^ 30 - 512 * 1024 then 8 else 9
  else if inR Obj.BLOCK_BUFFER_BASE Obj.BLOCK_BUFFER_SIZE || inR Obj.CELL_STORE_BASE Obj.CELL_STORE_SIZE then 1
  else if inR Obj.SPOOL_BASE Obj.SPOOL_SIZE then 2
  else if inR Obj.LEDGER_BASE Obj.LEDGER_SIZE then 5
  else 9

/-- An uncorrectable word is found (R282): counted, poisoned in place and entered once; `finder` 0 scrubber, 1 access. A word of a lost
channel is entered once too; no write reaches it, so that it goes on reading as uncorrectable (R281). -/
def State.countUe (s : State) (wa : Nat) (r : ReadOutcome) (code finder : Nat) : State :=
  let ch := channelOf (8 * wa)
  match r with
  | .good | .corrected => s
  | .poisoned => s.inc (Obj.MC_POISON_READS + ch)
  | _ =>
    let mis := r = .misdirected
    let s := s.inc (Obj.MC_UNCORRECTABLE + ch)
    let s := if mis then s.inc (Obj.MC_MISDIRECTED + ch) else s
    if s.channelLost ch ∧ wa ∈ s.dram.poisoned then s
    else
      let again := s.dram.watch.any fun p => p.1 = wa && p.2
      let s := s.poisonWordAt wa
      let s := { s with dram := { s.dram with watch := (wa, false) :: s.dram.watch.filter fun p => p.1 ≠ wa } }
      let s := ((((s.setN Obj.LAST_UE_ADDRESS (8 * wa)).setN Obj.LAST_UE_KIND (if mis then 2 else 1)).setN
        Obj.LAST_UE_REGION code).setN Obj.LAST_UE_FINDER finder)
      let s := s.logEvent ⟨2, 10, 255, ch, Obj.MC_UNCORRECTABLE + ch, 8 * wa, 0⟩
      let (c, b, row) := s.rowOf wa
      let s := if again then s.failRow c b row 2 else s
      s.noteUe wa

end Sys2Proof.Machine
end

