-- ==== Sys2Proof/Machine/Fiufen.lean ====
section
/-! DEFINITION. The bytes of Fiufen blocks (R59 to R74): header image, records, mark entries, orientations and the content
checks of step 8 of R82. -/
namespace Sys2Proof.Machine

/-- TYPE codes (Table 03-2). -/
def blockCode : BlockType → Nat
  | .job => 1
  | .stripe => 2
  | .celldef => 3
  | .band => 4
  | .halo => 5
  | .marks => 6
  | .endBlock => 7

/-- The TYPE byte of a fetched block. -/
def typeByte (t : BlockType) (b : BlockImage) : Nat :=
  match b.unknownType with
  | some x => x.toNat
  | none => blockCode t

/-- Header bytes 0 to 59 of a fetched block (Table 03-1). -/
def headerBytes (t : BlockType) (b : BlockImage) : Bytes :=
  leBytes 4 b.magic ++ leBytes 1 b.version ++ leBytes 1 (typeByte t b) ++ [b.flags] ++ [b.resv1] ++
  leBytes 4 b.jobId ++ leBytes 4 b.stripe ++ leBytes 2 b.band ++ leBytes 2 b.resv2 ++ leBytes 4 b.seq ++
  leBytes 4 b.payloadLength ++ leBytes 4 b.rawLength ++ leBytes 4 b.itemCount ++ leBytes 4 b.aux ++
  leBytesI 4 b.bbox.xMin ++ leBytesI 4 b.bbox.yMin ++ leBytesI 4 b.bbox.xMax ++ leBytesI 4 b.bbox.yMax ++
  leBytes 4 b.payloadCrc.toNat

/-- Step 3 of R82. -/
def headerCrcOk (t : BlockType) (b : BlockImage) : Bool := crc32c (headerBytes t b) = b.headerCrc

/-- The box that is all 0. -/
def boxZero : Box := ⟨0, 0, 0, 0⟩

/-- X_MIN ≤ X_MAX and Y_MIN ≤ Y_MAX (R60). -/
def boxValid (b : Box) : Bool := b.xMin ≤ b.xMax && b.yMin ≤ b.yMax

/-- Whether a box contains a point. -/
def boxHas (b : Box) (p : Pt) : Bool := b.xMin ≤ p.1 && p.1 ≤ b.xMax && b.yMin ≤ p.2 && p.2 ≤ b.yMax

/-- Step 4 of R82 but for the descriptor's LENGTH: MAGIC, VERSION, TYPE, reserved fields, field use of Table 03-2, lengths,
ITEM_COUNT in its range. An ITEM_COUNT in its range that does not match the entries of a MARKS payload is a fault of step 8
(Table 03-12). -/
def headerFieldsOk (t : BlockType) (b : BlockImage) : Bool :=
  let common := b.unknownType.isNone && b.magic = 0x46554946 && b.version = 1 && b.flags.toNat ≤ 1 && b.resv1 = 0 && b.resv2 = 0 &&
    b.payloadLength ≤ 16777216 && b.rawLength ≤ 16777216 && b.rawLength % 4 = 0 &&
    (b.flags.toNat = 1 || b.rawLength = b.payloadLength)
  let plain := b.flags.toNat = 0 && b.aux = 0 && b.bbox = boxZero
  let records := boxValid b.bbox && 1 ≤ b.itemCount && b.itemCount ≤ 1048576
  common && match t with
    | .job => plain && b.stripe = 0 && b.band = 0 && b.itemCount = 0 && b.payloadLength = 32
    | .stripe => plain && b.band = 0 && b.itemCount = 0 && b.payloadLength = 32
    | .celldef => records && b.stripe = 0 && b.band = 0 && 1 ≤ b.aux && b.aux ≤ 65535
    | .band | .halo => records && b.aux = 0
    | .marks => plain && b.stripe = 0 && b.band = 0 && b.itemCount ≤ 4096
    | .endBlock => plain && b.stripe = 0 && b.band = 0 && b.itemCount = 0 && b.payloadLength = 0 && b.payloadCrc = 0

/-- The image of a point under ORIENT (Table 03-8). -/
def orientPt (o : Nat) (p : Pt) : Pt :=
  match o with
  | 0 => p
  | 1 => (-p.2, p.1)
  | 2 => (-p.1, -p.2)
  | 3 => (p.2, -p.1)
  | 4 => (p.1, -p.2)
  | 5 => (p.2, p.1)
  | 6 => (-p.1, p.2)
  | _ => (-p.2, -p.1)

/-- An instance maps a cell point p to O(p) + (X, Y) (R70). -/
def placePt (o : Nat) (x y : Int) (p : Pt) : Pt := ((orientPt o p).1 + x, (orientPt o p).2 + y)

/-- The box of the image of a box. -/
def placeBox (o : Nat) (x y : Int) (b : Box) : Box :=
  let p := placePt o x y (b.xMin, b.yMin)
  let q := placePt o x y (b.xMax, b.yMax)
  ⟨min p.1 q.1, min p.2 q.2, max p.1 q.1, max p.2 q.2⟩

/-- A coordinate of 4 bytes at an offset. -/
def i32At (b : Bytes) (off : Nat) : Int := leAtI b off 4

/-- Whether a value is in the I32 range. -/
def isI32 (x : Int) : Bool := -2 ^ 31 ≤ x && x < 2 ^ 31

/-- The segments of a PATH: `n` of them from offset `off`, segment `j` a quadratic where its type bit is 1. -/
def pathSegs (b : Bytes) (types : Nat) : Nat → Nat → Nat → List Seg
  | 0, _, _ => []
  | n + 1, j, off =>
    if bitOf (leAt b (types + 4 * (j / 32)) 4) (j % 32) then
      .quad (i32At b off, i32At b (off + 4)) (i32At b (off + 8), i32At b (off + 12)) :: pathSegs b types n (j + 1) (off + 16)
    else .line (i32At b off, i32At b (off + 4)) :: pathSegs b types n (j + 1) (off + 8)

/-- Length of the record at offset `off` by its header and type words; none for an unknown KIND or count, or where the
bytes that tell the length are missing. -/
def recordLength (b : Bytes) (off : Nat) : Option Nat :=
  if off + 4 > b.length then none
  else
    let h := leAt b off 4
    let param := h / 65536
    match h % 256 with
    | 1 => some 20
    | 2 => some 28
    | 3 => some (4 + 8 * param)
    | 4 =>
      let w := ceilDiv param 32
      if off + 12 + 4 * w > b.length then none
      else
        let quads := popcount (32 * w) (leAt b (off + 12) (4 * w))
        some (12 + 4 * w + 8 * (param - quads) + 16 * quads)
    | 5 => some 16
    | 6 => some 28
    | _ => none

/-- The record at offset `off`, of known length; none for a record fault that does not depend on cells (R67 to R71, R74). -/
def parseRecord (b : Bytes) (off : Nat) : Option Rec :=
  let h := leAt b off 4
  let kind := h % 256
  let cls := bitsOf h 13 8
  let param := h / 65536
  let v (i : Nat) : Int := i32At b (off + 4 + 4 * i)
  if bitsOf h 15 14 ≠ 0 then none
  else match kind with
    | 1 => if param = 0 ∧ v 0 < v 2 ∧ v 1 < v 3 then some (.rect cls (v 0) (v 1) (v 2) (v 3)) else none
    | 2 =>
      if param ≤ 1 ∧ v 0 < v 1 ∧ v 2 ≤ v 3 ∧ v 4 ≤ v 5 ∧ (v 2 < v 3 ∨ v 4 < v 5) then
        some (.trap cls (param = 1) (v 0) (v 1) (v 2) (v 3) (v 4) (v 5))
      else none
    | 3 => if 3 ≤ param ∧ param ≤ 4096 then some (.poly cls ((List.range param).map fun i => (v (2 * i), v (2 * i + 1)))) else none
    | 4 =>
      let w := ceilDiv param 32
      let spare := (leAt b (off + 12) (4 * w)) / 2 ^ param
      if 1 ≤ param ∧ param ≤ 4096 ∧ spare = 0 then
        some (.path cls (v 0, v 1) (pathSegs b (off + 12) param 0 (off + 12 + 4 * w)))
      else none
    | 5 =>
      let ovr := bitOf param 3
      let cell := leAt b (off + 4) 4
      if param < 16 ∧ (ovr ∨ cls = 0) ∧ 1 ≤ cell ∧ cell ≤ 65535 then some (.place cls (param % 8) ovr cell (v 1) (v 2) 1 1 0 0) else none
    | 6 =>
      let ovr := bitOf param 3
      let cell := leAt b (off + 4) 4
      let nx := leAt b (off + 16) 2
      let ny := leAt b (off + 18) 2
      if param < 16 ∧ (ovr ∨ cls = 0) ∧ 1 ≤ cell ∧ cell ≤ 65535 ∧ 1 ≤ nx ∧ 1 ≤ ny ∧ (nx = 1 ∨ v 4 ≠ 0) ∧ (ny = 1 ∨ v 5 ≠ 0) then
        some (.place cls (param % 8) ovr cell (v 1) (v 2) nx ny (v 4) (v 5))
      else none
    | _ => none

/-- Vertices and control points of a record that places no cell (R73). -/
def Rec.points : Rec → List Pt
  | .rect _ x0 y0 x1 y1 => [(x0, y0), (x1, y1)]
  | .trap _ false y0 y1 l0 h0 l1 h1 => [(l0, y0), (h0, y0), (l1, y1), (h1, y1)]
  | .trap _ true x0 x1 l0 h0 l1 h1 => [(x0, l0), (x0, h0), (x1, l1), (x1, h1)]
  | .poly _ pts => pts
  | .path _ s segs => s :: segs.flatMap fun g => match g with
    | .line p => [p]
    | .quad c p => [c, p]
  | .place .. => []

/-- The corner positions of an ARRAY's lattice (R70). -/
def latticeCorners (x y : Int) (nx ny : Nat) (px py : Int) : List Pt :=
  [(0 : Int), (nx - 1 : Int)].flatMap fun i => [(0 : Int), (ny - 1 : Int)].map fun j => (x + i * px, y + j * py)

/-- The cell of an ID, if defined or pending. -/
def findCell (cs : List Cell) (id : Nat) : Option Cell := cs.find? (·.id = id)

/-- The cells defined in this job: accepted, and not pending (2203.06). -/
def cellsDefined (cs : List Cell) : Nat := (cs.filter (!·.pending)).length

/-- Bytes of the cell store in use: what the defined cells hold (2203.05). -/
def cellStoreUsed (cs : List Cell) : Nat := sumMap Cell.bytes (cs.filter (!·.pending))

/-- Whether a cell is pending, directly or through the cells it places (`n` levels). -/
def cellPending (cs : List Cell) : Nat → Nat → Bool
  | 0, _ => false
  | n + 1, id =>
    match findCell cs id with
    | none => true
    | some c => c.pending || c.recs.any fun r => match r with
      | .place _ _ _ k .. => cellPending cs n k
      | _ => false

/-- Depth of a cell (R71), `n` levels at most; pending cells count 1. -/
def cellDepth (cs : List Cell) : Nat → Nat → Nat
  | 0, _ => 0
  | n + 1, id =>
    match findCell cs id with
    | none => 1
    | some c => 1 + (c.recs.foldl (fun m r => match r with
      | .place _ _ _ k .. => max m (cellDepth cs n k)
      | _ => m) 0)

/-- Whether a placed cell's own checks pass (R71, R73): depth at most 8 with the placing level (`level` 1 for a block that
is itself a cell, 0 for a BAND or HALO), extents inside the box, positions in range. DESIGN CHOICE: a defined cell that places a pending
one, directly or through another, is checked like the pending cell itself (R84): its depth is not known, and its extent waits with it. -/
def placeOk (cs : List Cell) (level : Nat) (box : Box) (r : Rec) : Bool :=
  match r with
  | .place _ o _ k x y nx ny px py =>
    let corners := latticeCorners x y nx ny px py
    corners.all (fun p => isI32 p.1 && isI32 p.2) &&
    match findCell cs k with
    | none => false
    | some c =>
      if cellPending cs 9 k then corners.all (boxHas box)
      else cellDepth cs 9 k + level ≤ 8 && corners.all fun p =>
        let q := placeBox o p.1 p.2 c.bbox
        boxHas box (q.xMin, q.yMin) && boxHas box (q.xMax, q.yMax)
  | _ => r.points.all (boxHas box)

/-- Records of a payload: `n` of them, or the offset of the first fault (R67). -/
def parseRecords (cs : List Cell) (level : Nat) (box : Box) (b : Bytes) : Nat → Nat → Except Nat (List Rec)
  | 0, off => if off = b.length then .ok [] else .error off
  | n + 1, off =>
    match recordLength b off with
    | none => .error off
    | some len =>
      if off + len > b.length then .error off
      else match parseRecord b off with
        | none => .error off
        | some r =>
          if !placeOk cs level box r then .error off
          else match parseRecords cs level box b n (off + len) with
            | .error e => .error e
            | .ok rs => .ok (r :: rs)

/-- The cells a list of records places directly. -/
def placedCells (rs : List Rec) : List Nat := rs.filterMap fun r => match r with
  | .place _ _ _ k .. => some k
  | _ => none

/-- Whether records place a pending cell, directly or through another (R84). -/
def placesPending (cs : List Cell) (rs : List Rec) : Bool := (placedCells rs).any (cellPending cs 9)

/-- Mark entries of a payload (Table 03-5), or the offset of the first fault: a reserved byte set, a MARK_ID not unique.
A SHAPE code that the mark finder does not know is accepted: the request that names it fails (Table 15-6). -/
def parseMarks (b : Bytes) : Nat → Nat → List Mark → Except Nat (List Mark)
  | 0, off, acc => if off = b.length then .ok acc.reverse else .error off
  | n + 1, off, acc =>
    let m : Mark := ⟨leAt b off 2, leAt b (off + 2) 1, leAt b (off + 4) 4, leAtI b (off + 8) 8, leAtI b (off + 16) 8⟩
    if off + 24 > b.length ∨ leAt b (off + 3) 1 ≠ 0 ∨ acc.any (·.id = m.id) then .error off
    else parseMarks b n (off + 24) (m :: acc)

end Sys2Proof.Machine
end

