-- ==== Sys2Proof/Machine/Shape.lean ====
section
/-! DEFINITION. Primitives of a band: expansion of placed cells (R70, R71), placement correction (R116 to R119), edges
(R95) and the exact integrals over a box of the winding number (R103, R122). Lengths are in pixels, as rationals, once
the vertices are corrected. -/
namespace Sys2Proof.Machine

/-- A primitive instance: its effective class, start point and segments, closed by a straight edge. Points are
band-relative in 1/256 pixel before correction and stripe-relative after it. -/
structure Prim where
  cls   : Nat
  start : Pt
  segs  : List Seg
  deriving DecidableEq, Repr

/-- A similarity by one of the eight orientations and a shift. -/
structure Xform where
  o : Nat
  x : Int
  y : Int
  deriving DecidableEq, Repr

/-- The orientation that applies `a` after `b`, found by the images of the two unit vectors. -/
def orientMul (a b : Nat) : Nat :=
  ((List.range 8).find? fun c =>
    orientPt c (1, 0) = orientPt a (orientPt b (1, 0)) && orientPt c (0, 1) = orientPt a (orientPt b (0, 1))).getD 0

/-- The image of a point. -/
def Xform.pt (t : Xform) (p : Pt) : Pt := placePt t.o t.x t.y p

/-- Placing at orientation `o` and position (x, y) inside a frame. -/
def Xform.place (t : Xform) (o : Nat) (x y : Int) : Xform :=
  let p := t.pt (x, y)
  ⟨orientMul t.o o, p.1, p.2⟩

/-- The image of a segment. -/
def Seg.map (f : Pt → Pt) : Seg → Seg
  | .line p => .line (f p)
  | .quad c p => .quad (f c) (f p)

/-- The primitive of a record that places no cell (R68, R69), under a transform and an override class. -/
def recPrim (t : Xform) (cls : Option Nat) (r : Rec) : Option Prim :=
  let mk (c : Nat) (s : Pt) (gs : List Seg) : Option Prim := some ⟨cls.getD c, t.pt s, gs.map (Seg.map t.pt)⟩
  match r with
  | .rect c x0 y0 x1 y1 => mk c (x0, y0) [.line (x1, y0), .line (x1, y1), .line (x0, y1)]
  | .trap c false y0 y1 l0 h0 l1 h1 => mk c (l0, y0) [.line (h0, y0), .line (h1, y1), .line (l1, y1)]
  | .trap c true x0 x1 l0 h0 l1 h1 => mk c (x0, l0) [.line (x1, l1), .line (x1, h1), .line (x0, h0)]
  | .poly c pts => mk c (pts.headD (0, 0)) (pts.tail.map .line)
  | .path c s gs => mk c s gs
  | .place .. => none

/-- Whether two boxes meet. -/
def boxMeets (a b : Box) : Bool := a.xMin ≤ b.xMax && b.xMin ≤ a.xMax && a.yMin ≤ b.yMax && b.yMin ≤ a.yMax

/-- The instances of records that can reach a box (all coordinates band-relative, 1/256 pixel): cells are followed to
depth `n`; instances of a cell whose placed box misses the box are left out (R74); pending cells give none (R84). -/
def expandRecs (cs : List Cell) (clip : Box) : Nat → Xform → Option Nat → List Rec → List Prim
  | 0, _, _, _ => []
  | n + 1, t, cls, rs => rs.flatMap fun r =>
    match r with
    | .place c o ovr k x y nx ny px py =>
      match findCell cs k with
      | none => []
      | some cell =>
        if cell.pending then []
        else
          let cls' := if cls.isSome then cls else if ovr then some c else none
          -- instances (i, j) whose box meets the clip
          let near (i j : Nat) : Bool :=
            let q := t.place o (x + (i : Int) * px) (y + (j : Int) * py)
            boxMeets (placeBox q.o q.x q.y cell.bbox) clip
          let hits (i : Nat) : List (Nat × Nat) := ((List.range ny).filter (near i)).map fun j => (i, j)
          ((List.range nx).flatMap hits).flatMap fun ij =>
            expandRecs cs clip n (t.place o (x + (ij.1 : Int) * px) (y + (ij.2 : Int) * py)) cls' cell.recs
    | _ => (recPrim t cls r).toList

/-- The identity transform. -/
def Xform.id : Xform := ⟨0, 0, 0⟩

/-- rne(a, s) of R117: a / 2^s rounded to the nearest integer, ties to even. -/
def rne (a : Int) (s : Nat) : Int := rneDiv a (2 ^ s)

/-- The field that corrects a vertex at substrate (xs, ys), in 1/256 pixel (R116). -/
def fieldOf (fs : List Field) (xs ys : Int) : Option Field :=
  fs.find? fun f => f.xLo ≤ xs / 256 && xs / 256 ≤ f.xHi && f.yLo ≤ ys / 256 && ys / 256 ≤ f.yHi

/-- The ten monomials of R117. -/
def monomials (u v : Int) : List Int :=
  let m3 := rne (u * u) 30
  let m4 := rne (u * v) 30
  let m5 := rne (v * v) 30
  [2 ^ 30, u, v, m3, m4, m5, rne (m3 * u) 30, rne (m3 * v) 30, rne (u * m5) 30, rne (m5 * v) 30]

/-- Sum of products. -/
def dot (a m : List Int) : Int := (List.zipWith (· * ·) a m).foldl (· + ·) 0

/-- The displacement of a vertex at a substrate point, in 1/256 pixel, and whether it was clamped (R117, R119). -/
def displacement (f : Field) (xs ys : Int) : Int × Int × Bool :=
  let u := clampI (-2 ^ 30) (2 ^ 30) (rne ((xs - 256 * f.xc) * 2 ^ 22) f.shift)
  let v := clampI (-2 ^ 30) (2 ^ 30) (rne ((ys - 256 * f.yc) * 2 ^ 22) f.shift)
  let m := monomials u v
  let ex := rne (dot f.a m) 38
  let ey := rne (dot f.b m) 38
  let dx := clampI (-8192) 8192 ex
  let dy := clampI (-8192) 8192 ey
  (dx, dy, dx ≠ ex || dy ≠ ey)

/-- Correct a band-relative vertex of band `k` (R117); the result is stripe-relative, with the clamp flag. -/
def correctVertex (st : Stripe) (k : Nat) (p : Pt) : Pt × Bool :=
  let xr := 1048576 * (k : Int) + p.1
  let xs := 256 * st.xStart + xr
  let ys := 256 * st.yOrigin + p.2
  match fieldOf st.fields xs ys with
  | none => ((xr, p.2), false)
  | some f =>
    let (dx, dy, c) := displacement f xs ys
    ((xr + dx, p.2 + dy), c)

/-- All points of a primitive. -/
def Prim.points (p : Prim) : List Pt := p.start :: p.segs.flatMap fun g => match g with
  | .line q => [q]
  | .quad c q => [c, q]

/-- Correct every vertex and control point (R118). -/
def Prim.correct (st : Stripe) (k : Nat) (p : Prim) : Prim :=
  let f := fun q => (correctVertex st k q).1
  ⟨p.cls, f p.start, p.segs.map (Seg.map f)⟩

/-- Whether a vertex of the primitive was clamped (R119). -/
def Prim.saturates (st : Stripe) (k : Nat) (p : Prim) : Bool := p.points.any fun q => (correctVertex st k q).2

/-! ### Edges -/

/-- Its value. -/
def Quad.at (q : Quad) (t : Rat) : Rat := q.c0 + t * (q.c1 + t * q.c2)

/-- A coordinate in pixels. -/
def px (n : Int) : Rat := (n : Rat) / 256

def Edge.x0 (e : Edge) : Rat := e.x.at e.ta
def Edge.x1 (e : Edge) : Rat := e.x.at e.tb
def Edge.y0 (e : Edge) : Rat := e.y.at e.ta
def Edge.y1 (e : Edge) : Rat := e.y.at e.tb
def Edge.xMin (e : Edge) : Rat := min e.x0 e.x1
def Edge.xMax (e : Edge) : Rat := max e.x0 e.x1
def Edge.yMin (e : Edge) : Rat := min e.y0 e.y1
def Edge.yMax (e : Edge) : Rat := max e.y0 e.y1
/-- Zero length: the end points coincide (Table 04-1). -/
def Edge.isPoint (e : Edge) : Bool := e.x0 = e.x1 && e.y0 = e.y1
/-- +1 where the edge runs toward lower y, so that anticlockwise boundaries wind +1 about points to their right (R98). -/
def Edge.sign (e : Edge) : Int := if e.y1 < e.y0 then 1 else if e.y0 < e.y1 then -1 else 0

/-- A straight edge. -/
def lineEdge (i c : Nat) (p q : Pt) : Edge :=
  ⟨i, c, false, ⟨px p.1, px q.1 - px p.1, 0⟩, ⟨px p.2, px q.2 - px p.2, 0⟩, 0, 1⟩

/-- The quadratic of a coordinate of a segment from `a` by control `b` to `c`. -/
def bezier (a b c : Int) : Quad := ⟨px a, 2 * (px b - px a), px a - 2 * px b + px c⟩

/-- The parameter in the open range from 0 to 1 where the derivative is 0, if any. -/
def Quad.turn (q : Quad) : List Rat :=
  if q.c2 = 0 then [] else let t := -q.c1 / (2 * q.c2); if 0 < t ∧ t < 1 then [t] else []

/-- The monotone pieces of a quadratic segment (R95). -/
def quadEdges (i c : Nat) (p k q : Pt) : List Edge :=
  let x := bezier p.1 k.1 q.1
  let y := bezier p.2 k.2 q.2
  let cuts := (sortBy (· ≤ ·) ([0, 1] ++ x.turn ++ y.turn)).eraseDups
  (List.zip cuts cuts.tail).map fun t => ⟨i, c, true, x, y, t.1, t.2⟩

/-- The edges of segments from a point, and the point they end at. -/
def segEdges (i c : Nat) : Pt → List Seg → List Edge × Pt
  | p, [] => ([], p)
  | p, .line q :: gs => let (es, z) := segEdges i c q gs; (lineEdge i c p q :: es, z)
  | p, .quad k q :: gs => let (es, z) := segEdges i c q gs; (quadEdges i c p k q ++ es, z)

/-- The edges of a closed primitive (R95), those of zero length left out (Table 04-1). -/
def Prim.edges (i : Nat) (p : Prim) : List Edge :=
  let (es, z) := segEdges i p.cls p.start p.segs
  (es ++ [lineEdge i p.cls z p.start]).filter fun e => !e.isPoint

/-- Shift an edge. -/
def Edge.shift (e : Edge) (dx dy : Rat) : Edge :=
  { e with x := { e.x with c0 := e.x.c0 + dx }, y := { e.y with c0 := e.y.c0 + dy } }

/-! ### Crossings and integrals -/

/-- Nearest integer to a rational, ties to even. -/
def rneRat (r : Rat) : Int := rneDiv r.num r.den

/-- Bisection for the last m in [lo, hi] with `below m`, where `below` holds at lo and changes once. -/
def lastBelow (below : Int → Bool) : Nat → Int → Int → Int
  | 0, lo, _ => lo
  | n + 1, lo, hi =>
    if hi ≤ lo + 1 then lo
    else let m := (lo + hi) / 2; if below m then lastBelow below n m hi else lastBelow below n lo m

/-- The parameter at which a monotone coordinate takes a value inside its range: exact on a straight edge; on a curved one
the exact root rounded to the nearest multiple of 2^-bits, ties to even. -/
def crossGrid (bits : Nat) (curved : Bool) (q : Quad) (ta tb v : Rat) : Rat :=
  if !curved then (if q.c1 = 0 then ta else (v - q.c0) / q.c1)
  else
    let up := q.at ta ≤ q.at tb
    let before (t : Rat) : Bool := if up then q.at t ≤ v else v ≤ q.at t
    let g : Rat := (2 ^ bits : Nat)
    let lo := (ta * g).floor
    let hi := (tb * g).ceil
    let cl (m : Int) : Rat := max ta (min tb ((m : Rat) / g))
    let m := lastBelow (fun m => before (cl m)) (bits + 40) lo (hi + 1)
    let half := ((2 * m + 1 : Int) : Rat) / (2 * g)
    let k := if q.at half = v ∧ ta ≤ half ∧ half ≤ tb then (if m % 2 = 0 then m else m + 1)
             else if q.at (cl m) ≠ v ∧ before (max ta (min tb half)) ∧ half ≤ tb then m + 1 else m
    (k : Rat) / g

/-- A crossing as a cell finds it, on the grid of 2^-24 (R100 step 1). -/
def crossAt (curved : Bool) (q : Quad) (ta tb v : Rat) : Rat := crossGrid 24 curved q ta tb v

/-- ∫ (x - left) dy over parameters from `a` to `b`: the area an edge sweeps to the right of a vertical line (R100 step 3). -/
def Edge.sweep (e : Edge) (left a b : Rat) : Rat :=
  let p := e.x.c0 - left
  let F (t : Rat) : Rat :=
    -- antiderivative of (p + x1 t + x2 t²)(y1 + 2 y2 t)
    t * (p * e.y.c1 + t * ((p * 2 * e.y.c2 + e.x.c1 * e.y.c1) / 2 +
      t * ((2 * e.x.c1 * e.y.c2 + e.x.c2 * e.y.c1) / 3 + t * (e.x.c2 * e.y.c2 / 2))))
  F b - F a

/-- The parameter range of an edge between two values of a coordinate, in the order of the parameter; none if outside. -/
def clipGrid (bits : Nat) (curved : Bool) (q : Quad) (ta tb lo hi : Rat) : Option (Rat × Rat) :=
  let a := q.at ta
  let b := q.at tb
  if max a b ≤ lo ∨ hi ≤ min a b then none
  else
    let at_ (v : Rat) : Rat := crossGrid bits curved q ta tb v
    if a ≤ b then
      some (if a < lo then at_ lo else ta, if hi < b then at_ hi else tb)
    else some (if hi < a then at_ hi else ta, if b < lo then at_ lo else tb)

/-- The range as a cell finds it. -/
def clipRange (curved : Bool) (q : Quad) (ta tb lo hi : Rat) : Option (Rat × Rat) := clipGrid 24 curved q ta tb lo hi

/-- For one edge, the integral over the box of the sign of the points to its right, with crossings on the grid of 2^-bits. -/
def Edge.boxIntegral (bits : Nat) (e : Edge) (x0 y0 x1 y1 : Rat) : Rat :=
  match clipGrid bits e.curved e.y e.ta e.tb y0 y1 with
  | none => 0
  | some (a, b) =>
    let w := x1 - x0
    let dy (s t : Rat) : Rat := e.y.at t - e.y.at s
    -- parts of [a, b] left of the box, in it, right of it
    let xa := e.x.at a
    let xb := e.x.at b
    let cut (v : Rat) : Rat := if (xa < v ∧ v < xb) ∨ (xb < v ∧ v < xa) then max a (min b (crossGrid bits e.curved e.x e.ta e.tb v))
      else if (xa ≤ xb ∧ xb ≤ v) ∨ (xb < xa ∧ v ≤ xb) then b else a
    let inc : Bool := xa ≤ xb
    let t0 := cut (if inc then x0 else x1)
    let t1 := max t0 (cut (if inc then x1 else x0))
    let part (s t : Rat) (zone : Nat) : Rat :=   -- 0 left of the box, 1 inside, 2 right
      if zone = 0 then w * dy s t else if zone = 1 then w * dy s t - e.sweep x0 s t else 0
    let area := if inc then part a t0 0 + part t0 t1 1 + part t1 b 2 else part a t0 2 + part t0 t1 1 + part t1 b 0
    (-1) * area

/-- The integral over a box of the winding number of a closed set of edges, with crossings on the grid of 2^-bits. -/
def windingSum (bits : Nat) (es : List Edge) (x0 y0 x1 y1 : Rat) : Rat :=
  es.foldl (fun a e => a + e.boxIntegral bits x0 y0 x1 y1) 0

/-- That integral with the parameter rounding of R100 step 1 (R103, R122). -/
def windingIntegral (es : List Edge) (x0 y0 x1 y1 : Rat) : Rat := windingSum 24 es x0 y0 x1 y1

end Sys2Proof.Machine
end

