-- ==== Sys2Proof/Machine/Pipeline.lean ====
section
/-! DEFINITION. The image pipeline (R331, R336, R337): from the 16-bit pixels of a frame to the display, coding and vision
images and their bytes in a slot. Images are arrays of lines inside a computation; the state holds lists. -/
namespace Sys2Proof.Machine

/-- An image of one value per pixel. -/
abbrev Plane := Array (Array Nat)
/-- An image of three values per pixel. -/
abbrev Colour := Array (Array (Nat × Nat × Nat))

/-- Clamp to 16 bits. -/
def u16c (x : Int) : Nat := (clampI 0 65535 x).toNat

/-- A pixel of a plane, 0 outside. -/
def Plane.px (p : Plane) (x y : Nat) : Nat := (p.getD y #[]).getD x 0
/-- Width and height. -/
def Plane.w (p : Plane) : Nat := (p.getD 0 #[]).size
def Plane.h (p : Plane) : Nat := p.size

/-- Build a plane. -/
def planeOf (w h : Nat) (f : Nat → Nat → Nat) : Plane := Array.ofFn fun y : Fin h => Array.ofFn fun x : Fin w => f x y
/-- Build a colour image. -/
def colourOf (w h : Nat) (f : Nat → Nat → Nat × Nat × Nat) : Colour := Array.ofFn fun y : Fin h => Array.ofFn fun x : Fin w => f x y

/-- The plane of a frame's lines; missing lines are 0 (Table 15-2). -/
def CamFrame.plane (f : CamFrame) : Plane :=
  let ls := (f.lines.reverse.map List.toArray).toArray
  planeOf f.cfg.width f.cfg.height fun x y => (ls.getD y #[]).getD x 0

/-- The Bayer phase of a pixel. -/
def phaseOf (x y : Nat) : Nat := 2 * (y % 2) + x % 2

/-- Stage 1: black level. -/
def stageBlack (c : CamCfg) (p : Plane) : Plane :=
  planeOf p.w p.h fun x y =>
    let k := phaseOf x y
    u16c (rne (((p.px x y : Int) - ((atD c.black k 0 : Nat) : Int)) * ((atD c.gain k 4096 : Nat) : Int)) 12)

/-- Listed defective pixels (3412). -/
def CamCfg.listed (c : CamCfg) : List (Nat × Nat) :=
  (List.range (c.defects.length / 4)).map fun i => let v := leAt c.defects (4 * i) 4; (bitsOf v 12 0, bitsOf v 28 16)

/-- The 8 neighbours of the same phase that lie in the image. -/
def sameNeighbours (mono : Bool) (p : Plane) (x y : Nat) : List Nat :=
  let d : Int := if mono then 1 else 2
  [(-d, -d), (0, -d), (d, -d), (-d, 0), (d, 0), (-d, d), (0, d), (d, d)].filterMap fun (q : Int × Int) =>
    let a := (x : Int) + q.1
    let b := (y : Int) + q.2
    if 0 ≤ a ∧ 0 ≤ b ∧ a < p.w ∧ b < p.h then some (p.px a.toNat b.toNat) else none

/-- The lower middle value of a list. -/
def lowerMedian (l : List Nat) : Nat := atD (sortBy (· ≤ ·) l) ((l.length - 1) / 2) 0

/-- Stage 2: defective pixels. -/
def stageDefect (c : CamCfg) (p : Plane) : Plane :=
  let list := c.listed
  planeOf p.w p.h fun x y =>
    let v := p.px x y
    let ns := sameNeighbours (c.cfa = 0) p x y
    let hot := 0 < c.threshold && ns.all fun n => c.threshold < (if v < n then n - v else v - n)
    if (list.contains (x, y) || hot) && !ns.isEmpty then lowerMedian ns else v

/-- A value of the shading grid: 4,096 where none has been written. -/
def CamCfg.gridAt (c : CamCfg) (k i j : Nat) : Nat := if c.grid.isEmpty then 4096 else leAt c.grid (2 * (289 * k + 17 * j + i)) 2

/-- Bilinear interpolation of the grid at a pixel, rounded ties to even. -/
def CamCfg.shade (c : CamCfg) (k x y : Nat) : Nat :=
  let w := c.width - 1
  let h := c.height - 1
  let i := min 15 (16 * x / w)
  let j := min 15 (16 * y / h)
  let fx := 16 * x - i * w
  let fy := 16 * y - j * h
  rneDivN ((c.gridAt k i j * (w - fx) + c.gridAt k (i + 1) j * fx) * (h - fy) +
    (c.gridAt k i (j + 1) * (w - fx) + c.gridAt k (i + 1) (j + 1) * fx) * fy) (w * h)

/-- Stage 3: lens shading. -/
def stageShading (c : CamCfg) (p : Plane) : Plane :=
  if !c.shading then p
  else planeOf p.w p.h fun x y => u16c (rne ((p.px x y * c.shade (phaseOf x y) x y : Nat) : Int) 12)

/-- Colour of a phase, 0 R, 1 G, 2 B, by CAM_CFA. -/
def cfaColour (cfa phase : Nat) : Nat :=
  atD (match cfa with
    | 1 => [0, 1, 1, 2]
    | 2 => [1, 0, 2, 1]
    | 3 => [1, 2, 0, 1]
    | _ => [2, 1, 1, 0]) phase 0

/-- A pixel with the image mirrored at its edges. -/
def Plane.mirror (p : Plane) (x y : Int) : Nat :=
  let m (v : Int) (n : Nat) : Nat := (if v < 0 then -v else if (n : Int) ≤ v then 2 * ((n : Int) - 1) - v else v).toNat
  p.px (m x p.w) (m y p.h)

/-- Stage 4: demosaic. -/
def stageDemosaic (c : CamCfg) (p : Plane) : Colour :=
  colourOf p.w p.h fun x y =>
    if c.cfa = 0 then let v := p.px x y; (v, v, v)
    else
      let own := cfaColour c.cfa (phaseOf x y)
      let at_ (d : Int × Int) : Nat × Nat :=
        let a := (x : Int) + d.1
        let b := (y : Int) + d.2
        (cfaColour c.cfa (phaseOf (a + 2).toNat (b + 2).toNat), p.mirror a b)
      let near := [(-1, 0), (1, 0), (0, -1), (0, 1)].map at_
      let diag := [(-1, -1), (1, -1), (-1, 1), (1, 1)].map at_
      let one (k : Nat) : Nat :=
        if k = own then p.px x y
        else
          let l := near.filter (·.1 = k)
          let l := if l.isEmpty then diag.filter (·.1 = k) else l
          rneDivN (sumMap (·.2) l) l.length
      (one 0, one 1, one 2)

/-- Stages 1 to 4. -/
def CamFrame.demosaiced (f : CamFrame) : Colour := stageDemosaic f.cfg (stageShading f.cfg (stageDefect f.cfg (stageBlack f.cfg f.plane)))

/-- Yv of the vision tap. -/
def visionPx (c : CamCfg) (v : Nat × Nat × Nat) : Nat :=
  u16c (rne ((atD c.weight 0 0 * v.1 + atD c.weight 1 0 * v.2.1 + atD c.weight 2 0 * v.2.2 : Nat) : Int) 16)

/-- The vision image. -/
def CamFrame.vision (f : CamFrame) : Plane :=
  let d := f.demosaiced
  d.map fun l => l.map (visionPx f.cfg)

/-- An entry of the colour matrix, in 2^-12 (the identity where none has been written), and an offset. -/
def CamCfg.mat (c : CamCfg) (i j : Nat) : Int := if c.matrix.isEmpty then (if i = j then 4096 else 0) else leAtI c.matrix (2 * (3 * i + j)) 2
def CamCfg.off (c : CamCfg) (i : Nat) : Int := if c.matrix.isEmpty then 0 else leAtI c.matrix (18 + 2 * i) 2

/-- A point of a tone curve; the identity stands at 256 per point, 65,535 at the last. -/
def CamCfg.curve (c : CamCfg) (ch i : Nat) : Nat := if c.tone.isEmpty then min 65535 (256 * i) else leAt c.tone (2 * (257 * ch + i)) 2

/-- A tone curve at a value: 16 bits, then 8 bits. -/
def CamCfg.toneAt (c : CamCfg) (ch v : Nat) : Nat :=
  let i := v / 256
  let f := v % 256
  let t := u16c (rne ((c.curve ch i * (256 - f) + c.curve ch (i + 1) * f : Nat) : Int) 8)
  min 255 (rne (t : Int) 8).toNat

/-- Round half up. -/
def roundHalfUp (r : Rat) : Int := (r + 1 / 2).floor

/-- ITU-R BT.709 in 8 bits, limited range: Y, Cb, Cr. -/
def bt709 (r g b : Nat) : Nat × Nat × Nat :=
  let y : Rat := (2126 * r + 7152 * g + 722 * b : Nat) / 10000
  let c (d k : Rat) : Nat := (clampI 16 240 (roundHalfUp (128 + 224 * d / (k * 255)))).toNat
  ((clampI 16 235 (roundHalfUp (16 + 219 * y / 255))).toNat, c ((b : Rat) - y) (18556 / 10000), c ((r : Rat) - y) (15748 / 10000))

/-- Stages 5 to 7 and the conversion of a pixel. -/
def finishPx (c : CamCfg) (v : Nat × Nat × Nat) : Nat × Nat × Nat :=
  let wb (k x : Nat) : Nat := u16c (rne ((x * atD c.wb k 4096 : Nat) : Int) 12)
  let (r, g, b) := (wb 0 v.1, wb 1 v.2.1, wb 2 v.2.2)
  let m (i : Nat) : Nat := u16c (rne (c.mat i 0 * r + c.mat i 1 * g + c.mat i 2 * b) 12 + c.off i)
  bt709 (c.toneAt 0 (m 0)) (c.toneAt 1 (m 1)) (c.toneAt 2 (m 2))

/-- The image in Y, Cb, Cr. -/
def CamFrame.ycc (f : CamFrame) : Colour := f.demosaiced.map fun l => l.map (finishPx f.cfg)

/-! ### Outputs -/

/-- A pixel of a colour image. -/
def Colour.px (p : Colour) (x y : Nat) : Nat × Nat × Nat := (p.getD y #[]).getD x (0, 0, 0)

/-- Round up to a multiple. -/
def roundUp (n m : Nat) : Nat := ceilDiv n m * m

/-- Pad a line of bytes to the stride. -/
def padTo (bs : Bytes) (stride : Nat) : Bytes := bs ++ zeros (stride - bs.length)

/-- Sampling position ((i + 1/2)·in/out - 1/2) in 2^-16 pixel, ties to even, clipped to the image. -/
def samplePos (i inn out : Nat) : Nat :=
  (clampI 0 (65536 * (inn - 1 : Nat)) (rneDiv (65536 * ((2 * i + 1) * inn - out : Int)) (2 * out))).toNat

/-- Bilinear sampling of a colour image. -/
def scaleColour (p : Colour) (wi hi wo ho : Nat) : Colour :=
  colourOf wo ho fun x y =>
    let sx := samplePos x wi wo
    let sy := samplePos y hi ho
    let (ix, fx, iy, fy) := (sx / 65536, sx % 65536, sy / 65536, sy % 65536)
    let at_ (a b : Nat) := p.px (min a (wi - 1)) (min b (hi - 1))
    let mix (f : Nat × Nat × Nat → Nat) : Nat :=
      rneDivN ((f (at_ ix iy) * (65536 - fx) + f (at_ (ix + 1) iy) * fx) * (65536 - fy) +
        (f (at_ ix (iy + 1)) * (65536 - fx) + f (at_ (ix + 1) (iy + 1)) * fx) * fy) (2 ^ 32)
    (mix (·.1), mix (·.2.1), mix (·.2.2))

/-- Display bytes (Table 15-4): Y0 Cb Y1 Cr. -/
def displayBytes (c : CamCfg) (p : Colour) : Bytes :=
  let d := scaleColour p c.width c.height c.dispW c.dispH
  (List.range c.dispH).flatMap fun y =>
    padTo ((List.range (c.dispW / 2)).flatMap fun i =>
      let a := d.px (2 * i) y
      let b := d.px (2 * i + 1) y
      [byte a.1, byte (rneDivN (a.2.1 + b.2.1) 2), byte b.1, byte (rneDivN (a.2.2 + b.2.2) 2)]) (roundUp (2 * c.dispW) 64)

/-- Coding bytes (Table 15-4): Y, then Cb and Cr interleaved. `have_` lines were received; the others are black. -/
def codingBytes (c : CamCfg) (p : Colour) (have_ : Nat) : Bytes :=
  let stride := roundUp c.width 64
  let q (x y : Nat) : Nat × Nat × Nat := if y < have_ then p.px x y else (16, 128, 128)
  ((List.range c.height).flatMap fun y => padTo ((List.range c.width).map fun x => byte (q x y).1) stride) ++
  (List.range (c.height / 2)).flatMap fun j =>
    padTo ((List.range (c.width / 2)).flatMap fun i =>
      let l := [q (2 * i) (2 * j), q (2 * i + 1) (2 * j), q (2 * i) (2 * j + 1), q (2 * i + 1) (2 * j + 1)]
      [byte (rneDivN (sumMap (·.2.1) l) 4), byte (rneDivN (sumMap (·.2.2) l) 4)]) stride

/-- Vision bytes (Table 15-4), then the embedded data. -/
def visionBytes (c : CamCfg) (p : Plane) (emb : Bytes) : Bytes :=
  ((List.range c.height).flatMap fun y => padTo ((List.range c.width).flatMap fun x => leBytes 2 (p.px x y)) (roundUp (2 * c.width) 64)) ++
  padTo emb 16384

/-- Bytes of an image by output (Table 15-4): width, height, stride, bytes. -/
def CamCfg.geometry (c : CamCfg) (o : Nat) : Nat × Nat × Nat × Nat :=
  match o with
  | 0 => let st := roundUp (2 * c.dispW) 64; (c.dispW, c.dispH, st, st * c.dispH)
  | 1 => let st := roundUp c.width 64; (c.width, c.height, st, st * (c.height + c.height / 2))
  | _ => let st := roundUp (2 * c.width) 64; (c.width, c.height, st, st * c.height + 16384)

/-- OUT_SLOT_SIZE (R337). -/
def CamCfg.slotSize (c : CamCfg) (o : Nat) : Nat := roundUp (256 + (c.geometry o).2.2.2) 4096

end Sys2Proof.Machine
end

