-- ==== Sys2Proof/Machine/Time.lean ====
section
/-! DEFINITION. Time base, PTP and capture inputs (chapter 16): TIME_TICK, TIME_INCREMENT, TIME_STEP, TIME_SET, the PTP
messages, TCI_EDGE, TCI_ACK, and the parts of a comparator match that the time base owns. -/
namespace Sys2Proof.Machine

/-- Picoseconds in 2^-32 ns, rounded down. -/
def psTime (ps : Nat) : Nat := ps * 2 ^ 32 / 1000

/-- A time moved by a signed amount of 2^-32 ns, modulo the range of T. -/
def timeAdd (t : Nat) (d : Int) : Nat := (((t : Int) + d) % (timeModulus : Int)).toNat

/-- One correction at a tick: a step adds 2^-16 ns; a set replaces T by its value plus the time from acceptance (R351). -/
def applyAdj (inc tick : Nat) (t : Nat) (a : TimeAdj) : Nat :=
  match a with
  | .step v => timeAdd t (v * 65536)
  | .setTo v c => (v + (inc - inc * min 15 (c + 16 - tick) / 16)) % timeModulus

/-- The next REFCLK tick (R349): T gains the increment that was in force, the corrections apply in order of acceptance,
then the new increment and the resolution take effect (R350, R351, Table 16-3). -/
def execTimeTick (s : State) : Out :=
  let inc := s.getN Obj.TIME_INCREMENT
  let tick := s.clk.tickCycle + 16
  let t := s.clk.adjust.foldl (applyAdj inc tick) ((s.clk.T + inc) % timeModulus)
  let s1 := (s.add Obj.STEPS_APPLIED s.clk.adjust.length).setN Obj.TIMESTAMP_RESOLUTION (if s.clk.coreLocked then 2500 else 40000)
  let s2 := match s.clk.incNext with
    | some v => s1.setN Obj.TIME_INCREMENT v
    | none => s1
  .next { s2 with clk := { cycle := max s.clk.cycle tick, tickCycle := tick, T := t, incNext := none, adjust := [],
                           coreLocked := s.clk.coreLocked, fine := s.clk.coreLocked } }

/-- A rate write (R351). -/
def writeTimeIncrement (s : State) (by_ : Caller) (v : Nat) : Wr :=
  s.gate by_ Obj.TIME_INCREMENT fun s =>
    if v < 171626893148 ∨ v > 171970490532 then s.deny stRange
    else ({ s with clk := { s.clk with incNext := some v } }).ok

/-- A refused step or set: counted, its signed size held in 2^-16 ns, entered in the error log (R351). -/
def refuseJump (s : State) (size : Int) : Wr :=
  (((s.inc Obj.JUMPS_REFUSED).set Obj.LAST_REFUSED_JUMP size).logEvent ⟨2, 15, 255, 255, Obj.JUMPS_REFUSED, toUnsigned 64 size, 0⟩,
   stRange)

/-- JUMP_THRESHOLD in 2^-32 ns. -/
def State.jumpLimit (s : State) : Nat := s.getN Obj.JUMP_THRESHOLD * 2 ^ 32

/-- A step write, in 2^-16 ns (R351). -/
def writeTimeStep (s : State) (by_ : Caller) (v : Int) : Wr :=
  s.gate by_ Obj.TIME_STEP fun s =>
    if v.natAbs * 65536 > s.jumpLimit then refuseJump s v
    else ({ s with clk := { s.clk with adjust := s.clk.adjust ++ [TimeAdj.step v] } }).ok

/-- A set (R351): the first after PORST_N is exempt from the threshold and moves TIME_STATE to SET. -/
def writeTimeSet (s : State) (by_ : Caller) (bs : Bytes) : Wr :=
  s.gate by_ Obj.TIME_SET fun s =>
    if bs.length ≠ 16 then s.deny stType
    else match decodeValue .time bs with
      | none => s.deny stRange
      | some v =>
        let d := v - (s.now : Int)
        if s.getN Obj.TIME_STATE = 1 ∧ d.natAbs > s.jumpLimit then refuseJump s (rneDiv d 65536)
        else ({ s.setN Obj.TIME_STATE 1 with
                clk := { s.clk with adjust := s.clk.adjust ++ [TimeAdj.setTo v.toNat s.clk.cycle] } }).ok

/-- TIME_INCREMENT (R351). -/
def execTimeIncrement (by_ : Caller) (v : Nat) (s : State) : Out := .next (writeTimeIncrement s by_ v).1
/-- TIME_STEP (R351). -/
def execTimeStep (by_ : Caller) (v : Int) (s : State) : Out := .next (writeTimeStep s by_ v).1
/-- TIME_SET (R351). -/
def execTimeSet (by_ : Caller) (bs : Bytes) (s : State) : Out := .next (writeTimeSet s by_ bs).1

/-! ### PTP -/

/-- PTP runs on port `p`: enabled there, in CONTROL, READY or WRITING, the port up to answer (R352, R354). -/
def State.ptpOn (s : State) (p : Nat) : Bool :=
  p < 2 && s.on (Obj.PTP_ENABLE + p) && (s.power = 1 || s.coreOn) && s.getN Obj.PTP_PORT_STATE ≠ 0

/-- A message of another domain or sdoId is discarded and counted (Table 16-1). -/
def State.ptpWrongDomain (s : State) (m : PtpMessage) : Bool := m.domain ≠ s.getN Obj.PTP_DOMAIN || m.sdoId ≠ 0

/-- A message of the selected master, while one is selected. -/
def State.ptpFromMaster (s : State) (m : PtpMessage) : Bool :=
  (s.getN Obj.PTP_PORT_STATE = 5 || s.getN Obj.PTP_PORT_STATE = 6) &&
  m.clockId = s.getN Obj.PTP_MASTER_ID && m.portNumber = s.getN Obj.PTP_MASTER_PORT

/-- Take a receive stamp: device time less PTP_RX_LATENCY (R353). -/
def State.rxStamp (s : State) : Nat := timeAdd s.now (-(psTime (s.getN Obj.PTP_RX_LATENCY) : Int))
/-- Take a transmit stamp: device time plus PTP_TX_LATENCY (R353). -/
def State.txStamp (s : State) : Nat := timeAdd s.now (psTime (s.getN Obj.PTP_TX_LATENCY) : Int)

/-- An exchange with a step or set between its first and last stamp is discarded and counted (R353). -/
def State.ptpDiscard (s : State) : State :=
  { s.inc Obj.PTP_EXCHANGES_DISCARDED with ptp := { s.ptp with sync := none, delayReq := none } }

/-- Publish an exchange (R353): `delay2` is twice the mean path delay in 2^-32 ns; t3 and t4 are zero in peer mode. -/
def State.ptpPublish (s : State) (t1 t2 t3 t4 : Nat) (delay2 : Int) : State :=
  let off2 := 2 * ((t2 : Int) - (t1 : Int)) - delay2
  let s := ((((((s.set Obj.PTP_OFFSET (rneDiv off2 131072)).set Obj.PTP_MEAN_DELAY (rneDiv delay2 131072)).setN
    Obj.PTP_T1 t1).setN (Obj.PTP_T1 + 1) t2).setN (Obj.PTP_T1 + 2) t3).setN (Obj.PTP_T1 + 3) t4).inc Obj.PTP_EXCHANGES
  let s := if s.getN Obj.PTP_PORT_STATE = 5 then s.setN Obj.PTP_PORT_STATE 6 else s
  { s with ptp := { s.ptp with sync := none, delayReq := none } }

/-- In peer mode an exchange completes when t1 and t2 and a mean link delay are known. -/
def State.ptpPeerDone (s : State) : State :=
  if s.getN Obj.PTP_DELAY_MECHANISM ≠ 2 then s
  else match s.ptp.sync, s.ptp.linkDelay with
    | some ⟨_, t2, some t1, c, _⟩, some d => s.ptpPublish (timeAdd t1 (c * 65536)) t2 0 0 d
    | _, _ => s

/-- A Sync arrives at core cycle `rx` (R353). -/
def execPtpSync (p rx : Nat) (m : PtpMessage) (s : State) : Out :=
  if !s.ptpOn p then .next s
  else
    let s := (s.at rx).inc Obj.PTP_RX_EVENTS
    if s.ptpWrongDomain m then .next (s.inc Obj.PTP_DISCARDED)
    else if !s.ptpFromMaster m then .next s
    else
      let part : PtpSyncPart := ⟨m.seqId, s.rxStamp, if m.twoStep then none else some m.timestamp, m.correction, s.getN Obj.STEPS_APPLIED⟩
      .next ({ s with ptp := { s.ptp with sync := some part, delayReq := none } }).ptpPeerDone

/-- A Follow_Up arrives: t1 is its preciseOriginTimestamp plus the correctionFields (R353). -/
def execPtpFollowUp (p : Nat) (m : PtpMessage) (s : State) : Out :=
  if !s.ptpOn p then .next s
  else if s.ptpWrongDomain m then .next (s.inc Obj.PTP_DISCARDED)
  else if !s.ptpFromMaster m then .next s
  else match s.ptp.sync with
    | some ⟨q, t2, none, c, n⟩ =>
      if q ≠ m.seqId then .next s
      else .next ({ s with ptp := { s.ptp with sync := some ⟨q, t2, some m.timestamp, c + m.correction, n⟩ } }).ptpPeerDone
    | _ => .next s

/-- A Delay_Resp arrives: t4 is its receiveTimestamp (R353). -/
def execPtpDelayResp (p : Nat) (m : PtpMessage) (s : State) : Out :=
  if !s.ptpOn p then .next s
  else if s.ptpWrongDomain m ∨ s.getN Obj.PTP_DELAY_MECHANISM ≠ 1 then .next (s.inc Obj.PTP_DISCARDED)
  else if !s.ptpFromMaster m then .next s
  else match s.ptp.sync, s.ptp.delayReq with
    | some ⟨_, t2, some o, c, n⟩, some (q, t3, n3) =>
      if q ≠ m.seqId then .next s
      else if n ≠ n3 then .next s.ptpDiscard
      else
        let t1 := timeAdd o ((c + m.correction) * 65536)
        .next (s.ptpPublish t1 t2 t3 m.timestamp (((t2 : Int) - t1) + ((m.timestamp : Int) - t3)))
    | _, _ => .next s

/-- The enabled port, if any. -/
def State.ptpPort (s : State) : Option Nat := [0, 1].find? (s.ptpOn ·)

/-- A Delay_Req leaves at core cycle `tx` (R353). -/
def execPtpDelayReqSend (tx : Nat) (s : State) : Out :=
  match s.ptpPort with
  | none => .next s
  | some p =>
    if s.getN Obj.PTP_DELAY_MECHANISM ≠ 1 ∨ ¬(s.getN Obj.PTP_PORT_STATE = 5 ∨ s.getN Obj.PTP_PORT_STATE = 6) then .next s
    else
      let s := (s.at tx).inc Obj.PTP_TX_EVENTS
      let q := s.ptp.nextSeq
      .next { s.emit (.ptp p 1 q s.txStamp) with
        ptp := { s.ptp with delayReq := some (q, s.txStamp, s.getN Obj.STEPS_APPLIED), nextSeq := (q + 1) % 65536 } }

/-- A Pdelay_Req leaves at core cycle `tx` (R353). -/
def execPtpPdelayReqSend (tx : Nat) (s : State) : Out :=
  match s.ptpPort with
  | none => .next s
  | some p =>
    if s.getN Obj.PTP_DELAY_MECHANISM ≠ 2 then .next s
    else
      let s := (s.at tx).inc Obj.PTP_TX_EVENTS
      let q := s.ptp.nextPSeq
      .next { s.emit (.ptp p 2 q s.txStamp) with
        ptp := { s.ptp with pdelayReq := some (q, s.txStamp, s.getN Obj.STEPS_APPLIED), pdelayResp := none, nextPSeq := (q + 1) % 65536 } }

/-- A Pdelay_Req arrives at `rx`; the device answers as peer responder, two-step, at `tx` (Table 16-1). -/
def execPtpPdelayReq (p rx tx : Nat) (m : PtpMessage) (s : State) : Out :=
  if !s.ptpOn p then .next s
  else
    let s := (s.at rx).inc Obj.PTP_RX_EVENTS
    if s.ptpWrongDomain m ∨ s.getN Obj.PTP_DELAY_MECHANISM ≠ 2 then .next (s.inc Obj.PTP_DISCARDED)
    else
      let r := s.rxStamp
      let s := (s.at tx).inc Obj.PTP_TX_EVENTS
      .next ((s.emit (.ptp p 3 m.seqId r)).emit (.ptp p 4 m.seqId s.txStamp))

/-- A Pdelay_Resp, or its Follow_Up, arrives: twice the mean link delay is (t4 - t1) - (t3 - t2) less the corrections. -/
def execPtpPdelayResp (p rx : Nat) (followUp : Bool) (m : PtpMessage) (s : State) : Out :=
  if !s.ptpOn p then .next s
  else
    let s := s.at rx
    let s := if followUp then s else s.inc Obj.PTP_RX_EVENTS
    if s.ptpWrongDomain m ∨ s.getN Obj.PTP_DELAY_MECHANISM ≠ 2 then .next (s.inc Obj.PTP_DISCARDED)
    else match s.ptp.pdelayReq with
      | none => .next s
      | some (q, t1, n) =>
        if q ≠ m.seqId then .next s
        else if followUp then
          match s.ptp.pdelayResp with
          | none => .next s
          | some r =>
            let d : Int := ((r.t4 : Int) - t1) - ((m.timestamp : Int) - r.t2) - (r.corr + m.correction) * 65536
            .next { s with ptp := { s.ptp with linkDelay := some d, pdelayReq := none, pdelayResp := none } }
        else if s.getN Obj.STEPS_APPLIED ≠ n then
          .next { s.inc Obj.PTP_EXCHANGES_DISCARDED with ptp := { s.ptp with pdelayReq := none, pdelayResp := none } }
        else if m.twoStep then
          .next { s with ptp := { s.ptp with pdelayResp := some ⟨q, m.timestamp, s.rxStamp, m.correction⟩ } }
        else
          .next { s with ptp := { s.ptp with linkDelay := some (((s.rxStamp : Int) - t1) - m.correction * 65536), pdelayReq := none } }

/-- Core cycles of 2^log announce intervals of `n`. -/
def logCycles (log : Int) (n : Nat) : Nat := if log ≥ 0 then n * secCycles * 2 ^ log.toNat else n * secCycles / 2 ^ (-log).toNat

/-- A foreign master is qualified when two Announces came within four intervals (IEEE 1588 clause 9.3.2.5). -/
def PtpMaster.qualified (x : PtpMaster) : Bool :=
  match x.prevAt with
  | none => false
  | some t => x.receivedAt ≤ t + logCycles x.announce.logInterval 4 && x.announce.stepsRemoved < 255

/-- The data set comparison of IEEE 1588 clause 9.3.4: whether `a` is better than `b`. -/
def PtpMaster.better (a b : PtpMaster) : Bool :=
  let key (x : PtpMaster) : List Nat :=
    if a.announce.gmId = b.announce.gmId then [x.announce.stepsRemoved, x.clockId, x.port]
    else [x.announce.priority1, x.announce.clockClass, x.announce.accuracy, x.announce.variance, x.announce.priority2, x.announce.gmId]
  decide (key a < key b)

/-- The best qualified master heard. -/
def Ptp.best (p : Ptp) : Option PtpMaster :=
  p.masters.foldl (fun b x => if !x.qualified then b else match b with
    | none => some x
    | some y => if x.better y then some x else b) none

/-- Select the best master: a change of master enters UNCALIBRATED (R354); currentUtcOffset and the flags are reported. -/
def State.ptpSelect (s : State) : State :=
  match s.ptp.best with
  | none => s
  | some b =>
    let same := (s.getN Obj.PTP_PORT_STATE = 5 || s.getN Obj.PTP_PORT_STATE = 6) &&
      s.getN Obj.PTP_MASTER_ID = b.clockId && s.getN Obj.PTP_MASTER_PORT = b.port
    let s := if same then s else
      { ((s.setN Obj.PTP_PORT_STATE 5).setN Obj.PTP_MASTER_ID b.clockId).setN Obj.PTP_MASTER_PORT b.port with
        ptp := { s.ptp with sync := none, delayReq := none } }
    (s.set Obj.PTP_UTC_OFFSET b.announce.utcOffset).setN Obj.PTP_TIME_FLAGS (b.announce.timeFlags.toNat % 64)

/-- An Announce arrives: the best master clock algorithm runs over the Announces received (R352, R354). -/
def execPtpAnnounce (p : Nat) (m : PtpMessage) (a : PtpAnnounce) (s : State) : Out :=
  if !s.ptpOn p then .next s
  else if s.ptpWrongDomain m then .next (s.inc Obj.PTP_DISCARDED)
  else
    let old := s.ptp.masters.find? fun x => x.clockId = m.clockId && x.port = m.portNumber
    let x : PtpMaster := ⟨m.clockId, m.portNumber, a, s.clk.cycle, old.map (·.receivedAt)⟩
    let rest := s.ptp.masters.filter fun x => !(x.clockId = m.clockId && x.port = m.portNumber)
    .next ({ s with ptp := { s.ptp with masters := x :: rest } }).ptpSelect

/-- The Announce receipt timeout: back to LISTENING, then the best master still heard is selected (R354). -/
def execPtpAnnounceTimeout (s : State) : Out :=
  if s.getN Obj.PTP_PORT_STATE = 5 ∨ s.getN Obj.PTP_PORT_STATE = 6 then
    let rest := s.ptp.masters.filter fun x =>
      !(x.clockId = s.getN Obj.PTP_MASTER_ID && x.port = s.getN Obj.PTP_MASTER_PORT)
    let s := s.setN Obj.PTP_PORT_STATE 3
    .next ({ s with ptp := { s.ptp with masters := rest, sync := none, delayReq := none } }).ptpSelect
  else .next s

/-! ### Comparators and trigger outputs -/

/-- The first cycle of the present tick at which T reaches a target, if any. -/
def State.cycleReaching (s : State) (target : Nat) : Option Nat :=
  if s.clk.fine then
    ((List.range 16).find? fun m => s.clk.T + m * s.getN Obj.TIME_INCREMENT / 16 ≥ target).map fun m => s.clk.tickCycle + m
  else if s.clk.T ≥ target then some s.clk.tickCycle else none

/-- The first target at or after `now`, by whole periods (R355). -/
def advanceTarget (target period now : Nat) : Nat :=
  if period = 0 ∨ target ≥ now then target else target + ceilDiv (now - target) period * period

/-- The match of comparator `c` as the time base sees it (R355, R357): counted; once mode turns off; periodic mode adds the
period, and after a step skips the periods that lie in the past without a match. -/
def State.comparatorStep (s : State) (c : Nat) : State :=
  let s := s.inc (Obj.CMP_MATCHES + c)
  let s := { s with trg := { s.trg with lateArm := s.trg.lateArm.filter (· ≠ c) } }
  if s.getN (Obj.CMP_MODE + c) = 1 then s.setN (Obj.CMP_MODE + c) 0
  else
    let t := s.getN (Obj.CMP_TARGET + c) + s.getN (Obj.CMP_PERIOD + c)
    s.setN (Obj.CMP_TARGET + c) (advanceTarget t (s.getN (Obj.CMP_PERIOD + c)) s.now % timeModulus)

/-- Width of a pulse in core cycles, rounded up to the resolution in force (R350, R358). -/
def State.pulseCycles (s : State) (ns : Nat) : Nat := if s.clk.fine then nsCycles ns else 16 * ceilDiv ns 40

/-- Drive TTOk active for TTO_WIDTH; a pulse still active is restarted (R358). -/
def State.ttoPulse (s : State) (k : Nat) : State :=
  let e := s.clk.cycle + s.pulseCycles (s.getN (Obj.TTO_WIDTH + k))
  let active := (kvGet s.pins.ttoEnd k).isSome
  let s := if active then s else s.emit (.tto k true)
  { s with pins := { s.pins with ttoEnd := kvSet s.pins.ttoEnd k e } }

/-- CMP_OWNER of every comparator follows the users of Table 16-2; `cal` is the comparator of the calibration schedule. -/
def State.refreshOwners (s : State) (cam : Nat → Option Nat) (cal : Option Nat) : State :=
  foldN 8 (fun s c =>
    let tto := [0, 1, 2, 3].find? fun k => s.on (Obj.TTO_ENABLE + k) && s.getN (Obj.TTO_COMPARATOR + k) = c
    let v := match tto with
      | some k => k + 1
      | none => if cam 0 = some c then 5 else if cam 1 = some c then 6 else if cal = some c then 7 else 0
    s.setN (Obj.CMP_OWNER + c) v) s

/-- A configuration of comparators takes effect (R355): a once target in the past matches at the next cycle and counts as
a late arm; a periodic one advances without a match. -/
def State.armComparator (s : State) (c : Nat) : State :=
  let t := s.getN (Obj.CMP_TARGET + c)
  if t ≥ s.now then s
  else if s.getN (Obj.CMP_MODE + c) = 1 then
    { s.inc (Obj.CMP_LATE_ARMS + c) with trg := { s.trg with lateArm := c :: s.trg.lateArm.filter (· ≠ c) } }
  else if s.getN (Obj.CMP_MODE + c) = 2 then
    s.setN (Obj.CMP_TARGET + c) (advanceTarget t (s.getN (Obj.CMP_PERIOD + c)) s.now % timeModulus)
  else s

/-- A pulse ends at its time (R358, R339). -/
def execPulseEnd (o : PulseOut) (s : State) : Out :=
  match o with
  | .tto k =>
    match kvGet s.pins.ttoEnd k with
    | none => .next s
    | some e =>
      .next (({ s.at e with pins := { s.pins with ttoEnd := kvDel s.pins.ttoEnd k } }).emit (.tto k false))
  | .strobe p =>
    match kvGet s.pins.strobeEnd p with
    | none => .next s
    | some e =>
      .next (({ s.at e with pins := { s.pins with strobeEnd := kvDel s.pins.strobeEnd p } }).emit (.strobe p false))

/-! ### Capture inputs -/

/-- An edge at TCIk (R360). -/
def execTciEdge (k t : Nat) (rising : Bool) (s : State) : Out :=
  let sel := s.getN (Obj.TCI_EDGE + k)
  if k ≥ 4 ∨ ¬s.pins.porstN ∨ ¬(sel = 3 ∨ (sel = 1 ∧ rising) ∨ (sel = 2 ∧ ¬rising)) then .next (s.at t)
  else
    let s := s.at t
    let q := atD s.trg.tci k []
    let s' := (s.setN (Obj.TCI_LAST + k) s.now).inc (Obj.TCI_COUNT + k)
    if q.length ≥ 16 then .next (s'.inc (Obj.TCI_OVERRUNS + k))
    else .next { s'.setN (Obj.TCI_QUEUED + k) (q.length + 1) with
                 trg := { s'.trg with tci := setAt s'.trg.tci k (q ++ [(s.now, rising)]) } }

/-- A write of `n` to TCI_ACK removes the `n` oldest entries (R360). -/
def writeTciAck (s : State) (by_ : Caller) (k n : Nat) : Wr :=
  s.gate by_ (Obj.TCI_ACK + k) fun s =>
    let q := atD s.trg.tci k []
    if n = 0 ∨ n > q.length then s.deny stRange
    else ({ s.setN (Obj.TCI_QUEUED + k) (q.length - n) with
            trg := { s.trg with tci := setAt s.trg.tci k (q.drop n) } }).ok

/-- TCI_ACK (R360). -/
def execTciAck (by_ : Caller) (k n : Nat) (s : State) : Out := .next (writeTciAck s by_ k n).1

/-- The bytes of 3533 TCI_QUEUE: 20 per entry, the oldest first (R360). -/
def State.tciQueue (s : State) (k : Nat) : Bytes :=
  (atD s.trg.tci k []).flatMap fun e => encodeValue .time e.1 ++ leBytes 4 (b2n e.2)

end Sys2Proof.Machine
end

