-- ==== Sys2Proof/Machine/Camera.lean ====
section
/-! DEFINITION. The camera ports (R330 to R341): packets, lines and their mismatches, the line buffers, publication, strobes,
abort. -/
namespace Sys2Proof.Machine

/-- A port. -/
def State.cam (s : State) (p : Nat) : Cam := atD s.cams.ports p {}
/-- Change a port. -/
def State.modCam (s : State) (p : Nat) (f : Cam → Cam) : State := { s with cams := { s.cams with ports := modifyAt s.cams.ports p f } }
/-- CAM_STATE. -/
def State.camState (s : State) (p : Nat) : Nat := s.getN (Obj.CAM_STATE + p)

/-- The configuration in effect for a port. -/
def State.camCfg (s : State) (p : Nat) : CamCfg where
  vc := s.getN (Obj.CAM_VC + p)
  dtype := s.getN (Obj.CAM_DATA_TYPE + p)
  width := s.getN (Obj.CAM_WIDTH + p)
  height := s.getN (Obj.CAM_HEIGHT + p)
  cfa := s.getN (Obj.CAM_CFA + p)
  black := (List.range 4).map fun k => s.getN (Obj.BLACK_LEVEL + (4 * p + k))
  gain := (List.range 4).map fun k => s.getN (Obj.BLACK_GAIN + (4 * p + k))
  defects := (s.image (Obj.CAM_DEFECT_LIST + p)).getD []
  threshold := s.getN (Obj.DEFECT_THRESHOLD + p)
  shading := s.on (Obj.SHADING_ENABLE + p)
  grid := (s.image (Obj.SHADING_GRID + p)).getD []
  wb := (List.range 3).map fun k => s.getN (Obj.WB_GAIN + (3 * p + k))
  matrix := (s.image (Obj.COLOUR_MATRIX + p)).getD []
  tone := (s.image (Obj.TONE_CURVES + p)).getD []
  weight := (List.range 3).map fun k => s.getN (Obj.VISION_WEIGHT + (3 * p + k))
  outs := (List.range 3).map fun o => ⟨s.getN (Obj.OUT_BASE + (3 * p + o)), s.getN (Obj.OUT_SLOTS + (3 * p + o)), s.on (Obj.OUT_ENABLE + (3 * p + o))⟩
  dispW := s.getN (Obj.DISP_WIDTH + p)
  dispH := s.getN (Obj.DISP_HEIGHT + p)

/-- A port that is off starts when it is enabled in READY or WRITING; an idle or dropping port that is disabled goes off (R330). -/
def State.refreshCams (s : State) : State :=
  foldN 2 (fun s p =>
    let on := s.on (Obj.CAM_ENABLE + p) && (s.power = 2 || s.power = 3)
    let v := s.camState p
    if on ∧ v = 0 then (s.setN (Obj.CAM_STATE + p) 1).modCam p fun c => { c with seq := 0 }
    else if ¬on ∧ (v = 1 ∨ v = 3) then s.setN (Obj.CAM_STATE + p) 0 else s) s

/-- The spot finder fails, and with it the full-array image, which changes nothing (R213, R346). -/
def State.spotFail (s : State) (cause : Nat) : State :=
  let s := (s.setN Obj.SPOT_STATE 4).setN Obj.SPOT_FAILURE cause
  let s := if s.getN Obj.IMAGE_STATE ∈ [1, 2] then s.setN Obj.IMAGE_STATE 4 else s
  { s with cams := { s.cams with spot := { s.cams.spot with strobeAt := none, frame := none } }, head := { s.head with image := none } }

/-- A finder that works on a port's frames fails with the port (R341): the mark finder with RAIL, the spot finder with cause 5. -/
def State.finderStops (s : State) (p : Nat) : State :=
  let s := match s.cams.mf with
    | some r =>
      if r.port = p ∧ s.getN Obj.MF_STATE = 1 then
        { s.setN Obj.MF_STATE 2 with cams := { s.cams with mf := none, marks := modifyAt s.cams.marks r.mark fun m => { m with status := 8, port := p } } }
      else s
    | none => s
  if s.getN Obj.SPOT_PORT = p ∧ s.getN Obj.SPOT_STATE ∈ [1, 2] then s.spotFail 5 else s

/-- Abort a running port (R341): the frame in progress is dropped without a count in FRAMES_DROPPED. -/
def State.abortPort (s : State) (p : Nat) : State :=
  if s.camState p = 0 ∨ s.camState p = 4 then s
  else
    let s := (s.modCam p fun c => { c with frame := none, buffer := [] }).setN (Obj.CAM_STATE + p) 4
    s.finderStops p

/-- ABORT_CAMERA (R341): the ports selected are aborted at once, within the bound. -/
def State.abortCams (s : State) (selector : Nat) : State :=
  let hit := (List.range 2).filter fun p => bitOf selector p && s.camState p ≠ 0 && s.camState p ≠ 4
  if hit.isEmpty then s else (hit.foldl State.abortPort s).setN (Obj.ABORT_STATE + 3) 2

/-- Return a port in state 4 to IDLE. -/
def State.restartPort (s : State) (p : Nat) : State := if s.camState p = 4 then (s.setN (Obj.CAM_STATE + p) 0).refreshCams else s

/-- A write of 1 to CAM_RESTART (R341). -/
def writeCamRestart (s : State) (by_ : Caller) (p : Nat) : Wr := s.gate by_ (Obj.CAM_RESTART + p) fun s => (s.restartPort p).ok
/-- CAM_RESTART. -/
def execCamRestart (by_ : Caller) (p : Nat) (s : State) : Out := .next (writeCamRestart s by_ p).1

/-- A commit changed camera objects (R340). -/
def State.camsCommitted (s : State) (objs : List ObjRef) : State :=
  let s := s.refreshCams
  foldN 2 (fun s p =>
    let hit := objs.any fun o =>
      let i := o / 256
      ((0x3400 ≤ i && i ≤ 0x3406) && o % 256 = p + 1) || ((0x3425 ≤ i && i ≤ 0x3426) && o % 256 = p + 1) ||
      ((0x3420 ≤ i && i ≤ 0x3422) && (o % 256 - 1) / 3 = p)
    if hit then s.restartPort p else s) s

/-! ### The line buffer and the pipeline -/

/-- The port whose line the pipeline takes next, of those with a whole line at cycle `t` (R334). -/
def State.nextLine (s : State) (t : Nat) : Option (Nat × Nat × Nat) :=
  let first := s.getN Obj.CAM_PRIORITY
  let head (p : Nat) : Option (Nat × Nat × Nat) :=
    match (s.cam p).buffer with
    | (a, n) :: _ => if a ≤ t then some (p, a, n) else none
    | [] => none
  (head first).orElse fun _ => head (1 - first)

/-- The pipeline works until cycle `t`: a line of n pixels takes n / 2 cycles (R334). A port's line leaves its buffer when the
pipeline has taken it in. -/
def State.runPipe : Nat → Nat → State → State
  | 0, _, s => s
  | f + 1, t, s =>
    match s.cams.pipe with
    | some (p, e) =>
      if t < e then s
      else
        let s := { s.modCam p (fun c => { c with buffer := c.buffer.drop 1 }) with cams := { (s.modCam p (fun c => { c with buffer := c.buffer.drop 1 })).cams with pipe := none } }
        match s.nextLine e with
        | some (q, _, n) => State.runPipe f t { s with cams := { s.cams with pipe := some (q, e + n / 2) } }
        | none => State.runPipe f t s
    | none =>
      let starts := (List.range 2).filterMap fun p => ((s.cam p).buffer.head?).map (·.1)
      match starts with
      | [] => s
      | a :: r =>
        let b := r.foldl min a
        if t < b then s
        else match s.nextLine b with
          | some (q, _, n) => State.runPipe f t { s with cams := { s.cams with pipe := some (q, b + n / 2) } }
          | none => s

/-- Pixels of a port in its line buffer at cycle `t`. -/
def State.buffered (s : State) (p t : Nat) : Nat :=
  let all := sumMap (·.2) (s.cam p).buffer
  match s.cams.pipe, (s.cam p).buffer with
  | some (q, e), (_, n) :: _ => if q = p then all - n + min n (2 * (e - t)) else all
  | _, _ => all

/-- A frame is dropped whole (R335); the spot finder fails if it is the frame of its phase (R345, R346). -/
def State.dropFrame (s : State) (p : Nat) : State :=
  let start := (s.cam p).frame.map (·.startAt)
  let busy := s.cams.pipe.any (·.1 = p)
  let s := s.modCam p fun c => { c with frame := none, drops := min 65535 (c.drops + 1), buffer := if busy then c.buffer.take 1 else [] }
  let s := (s.setN (Obj.CAM_STATE + p) 3).inc (Obj.FRAMES_DROPPED + p)
  match s.cams.spot.strobeAt with
  | some t => if s.getN Obj.SPOT_PORT = p ∧ start.any (t < ·) ∧ s.cams.spot.frame.isNone then s.spotFail 2 else s
  | none => s

/-! ### Frames -/

/-- A frame flagged SHORT, CRC or NO_FE is incomplete (R333). -/
def CamFrame.complete (f : CamFrame) : Bool := !bitOf f.flags 0 && !bitOf f.flags 4 && !bitOf f.flags 5

/-- A complete frame reaches the mark finder (R343). -/
def State.offerMark (s : State) (p : Nat) (f : CamFrame) : State :=
  match s.cams.mf with
  | some r =>
    if r.port = p ∧ r.frame.isNone ∧ r.since < f.startAt ∧ f.complete then
      { s with cams := { s.cams with mf := some { r with frame := some f } } }
    else s
  | none => s

/-- The first frame that starts after the strobe reaches the spot finder (R345, R346). -/
def State.offerSpot (s : State) (p : Nat) (f : CamFrame) : State :=
  match s.cams.spot.strobeAt with
  | some t =>
    if s.getN Obj.SPOT_PORT ≠ p ∨ f.startAt ≤ t ∨ s.cams.spot.frame.isSome then s
    else if f.complete then { s with cams := { s.cams with spot := { s.cams.spot with frame := some f } } }
    else s.spotFail 2
  | none => s

/-- The open frame of a port closes (Table 15-2). -/
def State.closeFrame (s : State) (p : Nat) (noFe : Bool) : State :=
  match (s.cam p).frame with
  | none => s
  | some f =>
    let short := f.received < f.cfg.height
    let f := { f with feTime := s.now, flags := (if short then setBit f.flags 0 else f.flags) ||| (if noFe then 32 else 0) }
    let s := if short then s.inc (Obj.SHORT_FRAMES + p) else s
    let s := (s.modCam p fun c => { c with frame := none, closed := c.closed ++ [f] }).setN (Obj.CAM_STATE + p) 1
    ((s.offerMark p f).offerSpot p f).refreshCams

/-- CSI_FRAME_START: a frame start packet (R331, R332, Table 15-5). -/
def execCsiFrameStart (p t frameNumber : Nat) (s : State) : Out :=
  if p ≥ 2 then .next s
  else
    let s := s.at t
    if s.camState p = 0 ∨ s.camState p = 4 then .next s
    else
      let s := s.closeFrame p true
      if s.camState p = 0 then .next s
      else
        let f : CamFrame := { seq := (s.cam p).seq + 1, number := frameNumber % 65536, fsTime := s.now, startAt := s.clk.cycle, lastAt := s.clk.cycle, cfg := s.camCfg p }
        let s := s.modCam p fun c => { c with frame := some f, seq := c.seq + 1 }
        .next ((s.setN (Obj.CAM_STATE + p) 2).inc (Obj.FRAMES_RECEIVED + p))

/-- CSI_FRAME_END. -/
def execCsiFrameEnd (p t : Nat) (s : State) : Out :=
  if p < 2 ∧ s.camState p = 2 then .next ((s.at t).closeFrame p false) else .next (s.at t)

/-- A line brought to CAM_WIDTH in 16-bit pixels, with its flags (R331, R332). -/
def CamFrame.line (f : CamFrame) (pixels : List Nat) : List Nat × Nat :=
  let bits := 8 + 2 * (f.cfg.dtype - 0x2A)
  let px := pixels.map fun v => v % 2 ^ bits * 2 ^ (16 - bits)
  if px.length < f.cfg.width then (px ++ List.replicate (f.cfg.width - px.length) (px.getLastD 0), 4)
  else if f.cfg.width < px.length then (px.take f.cfg.width, 8)
  else (px, 0)

/-- The time of a line: LINE_PERIOD is the interval between the last two lines in ns (R331). -/
def State.lineTime (s : State) (p : Nat) : State :=
  let s := match (s.cam p).lastLine with
    | some a => s.setN (Obj.LINE_PERIOD + p) ((s.clk.cycle - a) * 5 / 2)
    | none => s
  s.modCam p fun c => { c with lastLine := some s.clk.cycle }

/-- CSI_LINE: a long packet of the selected data type (R331, R332, R335). A line that fails its CRC is replaced by the line before it,
or by zeros. -/
def execCsiLine (p t : Nat) (eccCorrected crcOk : Bool) (pixels : List Nat) (s : State) : Out :=
  if p ≥ 2 ∨ s.camState p = 0 ∨ s.camState p = 4 then .next (s.at t)
  else
    let s := State.runPipe 100 t (s.at t)
    let s := if eccCorrected then s.inc (Obj.ECC_CORRECTED + p) else s
    match (s.cam p).frame with
    | none => .next s
    | some f =>
      let s := s.lineTime p
      if f.received ≥ f.cfg.height then
        let s := if bitOf f.flags 1 then s else s.inc (Obj.LONG_FRAMES + p)
        .next (s.modCam p fun c => { c with frame := some { f with received := min 65535 (f.received + 1), flags := setBit f.flags 1, lastAt := s.clk.cycle } })
      else if 32768 < s.buffered p s.clk.cycle + f.cfg.width then .next (s.dropFrame p)
      else
        let (line, flag) := if crcOk then f.line pixels else (f.lines.headD (List.replicate f.cfg.width 0), 16)
        let s := if flag = 4 then s.inc (Obj.SHORT_LINES + p) else if flag = 8 then s.inc (Obj.LONG_LINES + p)
          else if flag = 16 then s.inc (Obj.CRC_ERRORS + p) else s
        .next (s.modCam p fun c => { c with
          frame := some { f with lines := line :: f.lines, received := f.received + 1, flags := f.flags ||| flag, lastAt := s.clk.cycle }
          buffer := c.buffer ++ [(s.clk.cycle, f.cfg.width)] })

/-- CSI_EMBEDDED_DATA: kept up to 16,384 bytes per frame (R331). -/
def execCsiEmbeddedData (p : Nat) (data : Bytes) (s : State) : Out :=
  match (s.cam p).frame with
  | none => .next s
  | some f => .next (s.modCam p fun c => { c with frame := some { f with emb := (f.emb ++ data).take 16384 } })

/-- CSI_PACKET_DISCARD (R331). -/
def execCsiPacketDiscard (p : Nat) (why : CsiDiscard) (s : State) : Out :=
  if p ≥ 2 ∨ s.camState p = 0 ∨ s.camState p = 4 then .next s
  else match why with
    | .uncorrectableHeader => .next (s.inc (Obj.ECC_UNCORRECTABLE + p))
    | _ => .next (s.inc (Obj.PACKETS_DISCARDED + p))

/-- CAM_LINE_TIMEOUT (Table 15-2): no line for 10 line periods, or 10 ms before the first is known. -/
def execCamLineTimeout (p t : Nat) (s : State) : Out :=
  match (s.cam p).frame with
  | none => .next s
  | some f =>
    let lim := if s.getN (Obj.LINE_PERIOD + p) = 0 then 10 * msCycles else nsCycles (10 * s.getN (Obj.LINE_PERIOD + p))
    if t < f.lastAt + lim then .next s else .next ((s.at t).closeFrame p true)

/-! ### Publication -/

/-- The frame record (Table 15-5). -/
def CamFrame.record (f : CamFrame) (p o drops : Nat) : Bytes :=
  let (w, h, stride, _) := f.cfg.geometry o
  leBytes 4 f.seq ++ leBytes 2 f.number ++ [byte p, byte f.cfg.vc] ++ leBytes 2 f.flags ++ [byte f.cfg.dtype, 0] ++ leBytes 2 w ++
  leBytes 2 h ++ leBytes 2 f.received ++ leBytes 2 drops ++ leBytes 4 stride ++ encodeValue .time f.fsTime ++ encodeValue .time f.feTime ++
  leBytes 4 (if o = 2 then f.emb.length else 0) ++ zeros 4

/-- Publish an output of a frame: image, then record, then OUT_LAST_SLOT (R338). A moved ring starts at slot 0. -/
def State.publish (s : State) (p o : Nat) (f : CamFrame) (image : Bytes) : State :=
  let g : OutCfg := atD f.cfg.outs o ⟨0, 1, false⟩
  let obj := Obj.OUT_LAST_SLOT + (3 * p + o)
  let last := s.getN obj
  let slot := if last = 0xFF ∨ atD (s.cam p).rings o 0 ≠ g.base then 0 else (last + 1) % g.slots
  let a := g.base + slot * f.cfg.slotSize o
  let s := s.dramStore (a + 256) image
  let s := (s.dramStore a (f.record p o (s.cam p).drops)).setN obj slot
  s.modCam p fun c => { c with rings := setAt c.rings o g.base }

/-- CAM_FRAME_PUBLISH: the oldest closed frame of a port is published (R333, R338). -/
def execCamFramePublish (p : Nat) (s : State) : Out :=
  match (s.cam p).closed with
  | [] => .next s
  | f :: rest =>
    let s := s.modCam p fun c => { c with closed := rest }
    if s.camState p = 4 then .next s
    else
      let on (o : Nat) : Bool := (atD f.cfg.outs o ⟨0, 1, false⟩).on
      let need := on 0 || on 1
      let img : Colour := if need then f.ycc else #[]
      let s := if on 0 && f.complete then s.publish p 0 f (displayBytes f.cfg img) else s
      let s := if on 2 && f.complete then s.publish p 2 f (visionBytes f.cfg f.vision f.emb) else s
      let s := if on 1 then (s.publish p 1 f (codingBytes f.cfg img f.lines.length)).inc (Obj.FRAMES_PUBLISHED + p) else s
      .next (if on 0 || on 1 || on 2 then s.modCam p fun c => { c with drops := 0 } else s)

/-- Drive a camera strobe for its width; a strobe still high is restarted (R339). -/
def State.strobePulse (s : State) (p ns : Nat) : State :=
  if !s.on (Obj.CAM_STROBE_ENABLE + p) then s
  else
    let active := (kvGet s.pins.strobeEnd p).isSome
    let s := if active then s else s.emit (.strobe p true)
    { s with pins := { s.pins with strobeEnd := kvSet s.pins.strobeEnd p (s.clk.cycle + s.pulseCycles ns) } }

end Sys2Proof.Machine
end

