-- ==== Sys2Proof/Machine/Flags.lean ====
section
/-! DEFINITION. Flags: the cause flags of a lost visit (Table 09-1) and the FLAGS of a Faceplate message (Table 02-3). -/
namespace Sys2Proof.Machine

/-- The cause flag of a reason (Table 09-1). -/
def reasonFlag (reason : Nat) : Nat :=
  match reason with
  | 2 => 1
  | 4 | 5 => 2
  | 6 => 4
  | 8 => 8
  | _ => 0x20

/-- FLAGS[0]: the message is a response (Table 02-3). -/
def flagResponse (f : Byte) : Bool := f.getLsbD 0
/-- FLAGS[1]: the message carries a tag. -/
def flagAuth (f : Byte) : Bool := f.getLsbD 1
/-- FLAGS[2]: a READ asks for staged values. -/
def flagStaged (f : Byte) : Bool := f.getLsbD 2

/-- FLAGS of a notification, without the tag's bit (R42). -/
abbrev flagsNotify : Nat := 9

end Sys2Proof.Machine
end

