-- ==== Sys2Proof/Machine/Deflate.lean ====
section
/-! DEFINITION. DEFLATE as the compression lanes run it: the decoder with the refusals of Table 12-2 (R292) and the
encoder whose choices Table 12-3 fixes (R293). Bits are listed in stream order, least significant bit of a byte first. -/
namespace Sys2Proof.Machine

/-- The errors of Table 12-2. -/
inductive InflateError | data | header | check | truncated
  deriving DecidableEq, Repr

/-- The bits of bytes, in stream order. -/
def bitsOfBytes (bs : Bytes) : List Bool := bs.flatMap fun b => (List.range 8).map fun i => b.getLsbD i

/-- The number whose bits are given least significant first. -/
def bitsVal : List Bool → Nat
  | [] => 0
  | b :: bs => b2n b + 2 * bitsVal bs

/-- `n` bits of a number, least significant first. -/
def valBits : Nat → Nat → List Bool
  | 0, _ => []
  | n + 1, x => decide (x % 2 = 1) :: valBits n (x / 2)

/-- Bytes from bits, the last byte padded with 0 bits; `n` bytes at most. -/
def bytesOfBits : Nat → List Bool → Bytes
  | 0, _ => []
  | n + 1, l => if l.isEmpty then [] else byte (bitsVal (l.take 8)) :: bytesOfBits n (l.drop 8)

/-- Pack bits into bytes. -/
def packBits (l : List Bool) : Bytes := bytesOfBits (l.length / 8 + 1) l

/-- A canonical code: (length, code, symbol) for each symbol with a non-zero length, `lens` indexed by symbol (RFC 1951). -/
def canonical (lens : List Nat) : List (Nat × Nat × Nat) :=
  let step (st : Nat × List (Nat × Nat × Nat)) (l : Nat) : Nat × List (Nat × Nat × Nat) :=
    let syms := (List.range lens.length).filter fun i => lens.getD i 0 = l
    let row := (List.range syms.length).map fun i => (l, st.1 + i, syms.getD i 0)
    ((st.1 + syms.length) * 2, st.2 ++ row)
  ((rangeN 1 15).foldl step (0, [])).2

/-- Kraft sum in units of 2^-15: over-subscribed above 2^15, incomplete below. -/
def kraft (lens : List Nat) : Nat := sumMap (fun l => if l = 0 then 0 else 2 ^ (15 - l)) lens

/-- Decode one symbol: code bits come most significant first; at most 15 of them. -/
def decodeSym (code : List (Nat × Nat × Nat)) : Nat → Nat → Nat → List Bool → Except InflateError (Nat × List Bool)
  | 0, _, _, _ => .error .data
  | n + 1, len, acc, bits =>
    match bits with
    | [] => .error .truncated
    | b :: rest =>
      let acc := 2 * acc + b2n b
      let len := len + 1
      match code.find? fun c => c.1 = len && c.2.1 = acc with
      | some c => .ok (c.2.2, rest)
      | none => decodeSym code n len acc rest

/-- Read `n` bits as a number. -/
def readBits (n : Nat) (bits : List Bool) : Except InflateError (Nat × List Bool) :=
  if bits.length < n then .error .truncated else .ok (bitsVal (bits.take n), bits.drop n)

/-- Base length and extra bits of literal/length code 257 + i. -/
def lengthBase : List (Nat × Nat) := [
  (3,0),(4,0),(5,0),(6,0),(7,0),(8,0),(9,0),(10,0),(11,1),(13,1),(15,1),(17,1),(19,2),(23,2),(27,2),(31,2),
  (35,3),(43,3),(51,3),(59,3),(67,4),(83,4),(99,4),(115,4),(131,5),(163,5),(195,5),(227,5),(258,0)]

/-- Base distance and extra bits of distance code i. -/
def distBase : List (Nat × Nat) := [
  (1,0),(2,0),(3,0),(4,0),(5,1),(7,1),(9,2),(13,2),(17,3),(25,3),(33,4),(49,4),(65,5),(97,5),(129,6),(193,6),
  (257,7),(385,7),(513,8),(769,8),(1025,9),(1537,9),(2049,10),(3073,10),(4097,11),(6145,11),(8193,12),(12289,12),
  (16385,13),(24577,13)]

/-- Code lengths of the fixed literal/length code. -/
def fixedLit : List Nat := List.replicate 144 8 ++ List.replicate 112 9 ++ List.replicate 24 7 ++ List.replicate 8 8
/-- Code lengths of the fixed distance code. -/
def fixedDist : List Nat := List.replicate 32 5
/-- Order in which the code-length code's lengths are sent. -/
def clOrder : List Nat := [16, 17, 18, 0, 8, 7, 9, 6, 10, 5, 11, 4, 12, 3, 13, 2, 14, 1, 15]

/-- Copy `n` bytes from distance `d`; the output is kept newest first. -/
def copyMatch : Nat → Nat → Bytes → Bytes
  | 0, _, out => out
  | n + 1, d, out => copyMatch n d (out.getD (d - 1) 0 :: out)

/-- An error with the output made before it. -/
abbrev InflateFail := InflateError × Bytes

/-- Decode the symbols of one block. -/
def inflateSyms (lit dist : List (Nat × Nat × Nat)) : Nat → List Bool → Bytes → Except InflateFail (List Bool × Bytes)
  | 0, _, out => .error (.truncated, out)
  | n + 1, bits, out =>
    match decodeSym lit 15 0 0 bits with
    | .error e => .error (e, out)
    | .ok (s, bits) =>
      if s < 256 then inflateSyms lit dist n bits (byte s :: out)
      else if s = 256 then .ok (bits, out)
      else if s > 285 then .error (.data, out)
      else
        let lb := lengthBase.getD (s - 257) (0, 0)
        match readBits lb.2 bits with
        | .error e => .error (e, out)
        | .ok (x, bits) =>
          match decodeSym dist 15 0 0 bits with
          | .error e => .error (e, out)
          | .ok (t, bits) =>
            if t > 29 then .error (.data, out)
            else
              let db := distBase.getD t (0, 0)
              match readBits db.2 bits with
              | .error e => .error (e, out)
              | .ok (y, bits) =>
                if db.1 + y > out.length ∨ db.1 + y > 32768 then .error (.data, out)
                else inflateSyms lit dist n bits (copyMatch (lb.1 + x) (db.1 + y) out)

/-- Decode the code lengths of both alphabets, `left` still to come; kept newest first. -/
def readLengths (cl : List (Nat × Nat × Nat)) : Nat → Nat → List Bool → List Nat → Except InflateError (List Bool × List Nat)
  | 0, _, _, _ => .error .data
  | n + 1, left, bits, acc =>
    if left = 0 then .ok (bits, acc)
    else match decodeSym cl 7 0 0 bits with
      | .error e => .error e
      | .ok (s, bits) =>
        if s < 16 then readLengths cl n (left - 1) bits (s :: acc)
        else
          let eb := if s = 16 then 2 else if s = 17 then 3 else 7
          match readBits eb bits with
          | .error e => .error e
          | .ok (x, bits) =>
            let rep := x + (if s = 18 then 11 else 3)
            match (if s = 16 then acc.head? else some 0) with
            | none => .error .data
            | some v => if rep > left then .error .data else readLengths cl n (left - rep) bits (List.replicate rep v ++ acc)

/-- An alphabet's code is refused when over-subscribed, and when incomplete except a distance code of one length-1 code. -/
def codeOk (isDist : Bool) (lens : List Nat) : Bool :=
  kraft lens = 2 ^ 15 || (isDist && (lens.filter (· ≠ 0)) = [1])

/-- The codes of a dynamic block. -/
def readDynamic (bits : List Bool) : Except InflateError (List Bool × List Nat × List Nat) :=
  match readBits 14 bits with
  | .error e => .error e
  | .ok (h, bits) =>
    let hlit := h % 32 + 257
    let hdist := h / 32 % 32 + 1
    let hclen := h / 1024 + 4
    if bits.length < 3 * hclen then .error .truncated
    else
      let sent := (List.range hclen).map fun i => (clOrder.getD i 0, bitsVal ((bits.drop (3 * i)).take 3))
      let cl := (List.range 19).map fun s => ((sent.find? (·.1 = s)).map (·.2)).getD 0
      if !codeOk false cl then .error .data
      else match readLengths (canonical cl) (hlit + hdist + 1) (hlit + hdist) (bits.drop (3 * hclen)) [] with
        | .error e => .error e
        | .ok (bits, acc) =>
          let lens := acc.reverse
          let lit := lens.take hlit
          let dist := lens.drop hlit
          if codeOk false lit && codeOk true dist then .ok (bits, lit, dist) else .error .data

/-- Decode blocks until the final one; `total` counts all bits, to find byte boundaries. Answers the bits left. -/
def inflateBlocks (total : Nat) : Nat → List Bool → Bytes → Except InflateFail (List Bool × Bytes)
  | 0, _, out => .error (.truncated, out)
  | n + 1, bits, out =>
    match readBits 3 bits with
    | .error e => .error (e, out)
    | .ok (h, bits) =>
      let next (r : Except InflateFail (List Bool × Bytes)) : Except InflateFail (List Bool × Bytes) :=
        match r with
        | .error e => .error e
        | .ok (bits, out) => if h % 2 = 1 then .ok (bits, out) else inflateBlocks total n bits out
      match h / 2 with
      | 0 =>
        let bits := bits.drop (bits.length % 8)
        match readBits 32 bits with
        | .error e => .error (e, out)
        | .ok (x, bits) =>
          let len := x % 65536
          if x / 65536 ≠ 65535 - len then .error (.data, out)
          else if bits.length < 8 * len then .error (.truncated, out)
          else next (.ok (bits.drop (8 * len), ((packBits (bits.take (8 * len))).reverse ++ out)))
      | 1 => next (inflateSyms (canonical fixedLit) (canonical fixedDist) (bits.length + 1) bits out)
      | 2 =>
        match readDynamic bits with
        | .error e => .error (e, out)
        | .ok (bits, lit, dist) => next (inflateSyms (canonical lit) (canonical dist) (bits.length + 1) bits out)
      | _ => .error (.data, out)

/-- Decode a raw DEFLATE stream: the output and the number of input bytes that it took. -/
def inflate (bs : Bytes) : Except InflateFail (Bytes × Nat) :=
  let bits := bitsOfBytes bs
  match inflateBlocks bits.length (bits.length + 1) bits [] with
  | .error (e, out) => .error (e, out.reverse)
  | .ok (rest, out) => .ok (out.reverse, bs.length - rest.length / 8)

/-- A Fiufen payload (R61): exactly `raw` bytes, then at most 3 bytes, all 0. -/
def inflateFiufen (bs : Bytes) (raw : Nat) : Option Bytes :=
  match inflate bs with
  | .error _ => none
  | .ok (out, used) =>
    let tail := bs.drop used
    if out.length = raw && tail.length ≤ 3 && tail.all (· = 0) then some out else none

/-- Adler-32 of bytes. -/
def adler32 (bs : Bytes) : Nat :=
  let r := bs.foldl (fun (p : Nat × Nat) b =>
    let a := (p.1 + b.toNat) % 65521
    (a, (p.2 + a) % 65521)) (1, 0)
  r.2 * 65536 + r.1

/-- Decode a stream with RFC 1950 framing: output and bytes taken. -/
def inflateZlib (bs : Bytes) : Except InflateFail (Bytes × Nat) :=
  if bs.length < 2 then .error (.truncated, [])
  else
    let cmf := leAt bs 0 1
    let flg := leAt bs 1 1
    if cmf % 16 ≠ 8 ∨ cmf / 16 > 7 ∨ (cmf * 256 + flg) % 31 ≠ 0 ∨ bitOf flg 5 then .error (.header, [])
    else match inflate (bs.drop 2) with
      | .error e => .error e
      | .ok (out, used) =>
        let t := slice bs (2 + used) 4
        if t.length < 4 then .error (.truncated, out)
        else if ofBe t ≠ adler32 out then .error (.check, out)
        else .ok (out, used + 6)

/-! ### The encoder -/

/-- A symbol of the parse: a literal, or a match with its length and distance. -/
inductive LzSym where
  | lit (b : Byte)
  | copy (len dist : Nat)
  deriving DecidableEq, Repr

/-- Length of the common prefix, at most `n`. -/
def commonPrefix : Nat → Bytes → Bytes → Nat
  | 0, _, _ => 0
  | n + 1, a :: as, b :: bs => if a = b then 1 + commonPrefix n as bs else 0
  | _, _, _ => 0

/-- The longest match at position `p` of `data`, ending before `stop`; ties go to the smallest distance. -/
def longestMatch (data : Bytes) (p stop : Nat) : Nat × Nat :=
  let here := data.drop p
  (List.range (min 32768 p)).foldl (fun (best : Nat × Nat) i =>
    let d := i + 1
    let l := commonPrefix (min 258 (stop - p)) (data.drop (p - d)) here
    if l > best.1 then (l, d) else best) (0, 0)

/-- Greedy parse from `p` to `stop`; a match may overlap the current position and uses all data before it. -/
def lzParse (data : Bytes) (stop : Nat) : Nat → Nat → List LzSym
  | 0, _ => []
  | n + 1, p =>
    if p ≥ stop then []
    else
      let m := longestMatch data p stop
      if m.1 ≥ 3 then .copy m.1 m.2 :: lzParse data stop n (p + m.1)
      else .lit (data.getD p 0) :: lzParse data stop n (p + 1)

/-- Code, extra bits and their value for a length or a distance. -/
def codeFor (base : List (Nat × Nat)) (v : Nat) : Nat × Nat × Nat :=
  let c := ((List.range base.length).filter fun i => (base.getD i (0, 0)).1 ≤ v).length - 1
  let e := base.getD c (0, 0)
  (c, e.2, v - e.1)

/-- A package-merge item: its weight and the symbols it holds. -/
abbrev PmItem := Nat × List Nat

/-- Merge symbols and packages by weight; of equal weight a symbol comes first. -/
def pmMerge : Nat → List PmItem → List PmItem → List PmItem
  | 0, _, _ => []
  | _ + 1, [], ps => ps
  | _ + 1, ss, [] => ss
  | n + 1, s :: ss, p :: ps => if s.1 ≤ p.1 then s :: pmMerge n ss (p :: ps) else p :: pmMerge n (s :: ss) ps

/-- Pair up consecutive items. -/
def pmPackage : List PmItem → List PmItem
  | a :: b :: r => (a.1 + b.1, a.2 ++ b.2) :: pmPackage r
  | _ => []

/-- Insert by weight, after items of equal weight. -/
def pmInsert (x : PmItem) : List PmItem → List PmItem
  | [] => [x]
  | y :: r => if x.1 < y.1 then x :: y :: r else y :: pmInsert x r

/-- Code lengths by package-merge, limited to `limit` bits; symbols of frequency 0 get none (Table 12-3). -/
def packageMerge (limit : Nat) (freq : List Nat) : List Nat :=
  let syms : List PmItem := ((List.range freq.length).filter fun i => freq.getD i 0 ≠ 0).map fun i => (freq.getD i 0, [i])
  let sorted := syms.foldl (fun l x => pmInsert x l) []
  if sorted.length ≤ 1 then (List.range freq.length).map fun i => if freq.getD i 0 ≠ 0 then 1 else 0
  else
    let final := foldN (limit - 1) (fun l _ => pmMerge (l.length + sorted.length + 1) sorted (pmPackage l)) sorted
    let taken := (final.take (2 * sorted.length - 2)).flatMap (·.2)
    (List.range freq.length).map fun i => (taken.filter (· = i)).length

/-- The bits of a symbol under a canonical code, most significant first. -/
def symBits (code : List (Nat × Nat × Nat)) (s : Nat) : List Bool :=
  match code.find? (·.2.2 = s) with
  | none => []
  | some c => (valBits c.1 c.2.1).reverse

/-- The bits of parsed symbols and the end of block. -/
def lzBits (lit dist : List (Nat × Nat × Nat)) (syms : List LzSym) : List Bool :=
  (syms.flatMap fun x => match x with
    | .lit b => symBits lit b.toNat
    | .copy l d =>
      let a := codeFor lengthBase l
      let b := codeFor distBase d
      symBits lit (257 + a.1) ++ valBits a.2.1 a.2.2 ++ symBits dist b.1 ++ valBits b.2.1 b.2.2) ++ symBits lit 256

/-- Pieces of a run of `n` equal values: the largest first, remainders under 3 as plain values. -/
def runPieces (v : Nat) : Nat → Nat → List (Nat × Nat × Nat)
  | 0, _ => []
  | fuel + 1, n =>
    if n = 0 then []
    else if v = 0 ∧ n ≥ 11 then (18, 7, min 138 n - 11) :: runPieces v fuel (n - min 138 n)
    else if v = 0 ∧ n ≥ 3 then (17, 3, min 10 n - 3) :: runPieces v fuel (n - min 10 n)
    else if v ≠ 0 ∧ n ≥ 3 then (16, 2, min 6 n - 3) :: runPieces v fuel (n - min 6 n)
    else (v, 0, 0) :: runPieces v fuel (n - 1)

/-- Code-length symbols: (symbol, extra bits, value), read left to right over both alphabets. -/
def lengthRuns : Nat → List Nat → List (Nat × Nat × Nat)
  | 0, _ => []
  | _ + 1, [] => []
  | fuel + 1, v :: r =>
    let n := (r.takeWhile (· = v)).length + 1
    (if v = 0 then runPieces 0 (n + 1) n else (v, 0, 0) :: runPieces v (n + 1) (n - 1)) ++ lengthRuns fuel (r.drop (n - 1))

/-- Count of each value below `n`. -/
def histogram (n : Nat) (l : List Nat) : List Nat := (List.range n).map fun i => (l.filter (· = i)).length

/-- Drop trailing zeros, keeping at least `k` elements. -/
def dropZeros (k : Nat) (l : List Nat) : List Nat :=
  let m := ((List.range l.length).filter fun i => l.getD i 0 ≠ 0).foldl (fun _ i => i + 1) 0
  l.take (max k m)

/-- A fixed-code block. -/
def fixedBlock (final : Bool) (syms : List LzSym) : List Bool :=
  final :: true :: false :: lzBits (canonical fixedLit) (canonical fixedDist) syms

/-- A dynamic-code block. -/
def dynamicBlock (final : Bool) (syms : List LzSym) : List Bool :=
  let litF := histogram 286 (256 :: syms.map fun x => match x with
    | .lit b => b.toNat
    | .copy l _ => 257 + (codeFor lengthBase l).1)
  let distF := histogram 30 (syms.filterMap fun x => match x with
    | .lit _ => none
    | .copy _ d => some (codeFor distBase d).1)
  let lit := packageMerge 15 litF
  let dist := if distF.all (· = 0) then 1 :: List.replicate 29 0 else packageMerge 15 distF
  let lit' := dropZeros 257 lit
  let dist' := dropZeros 1 dist
  let runs := lengthRuns 400 (lit' ++ dist')
  let cl := packageMerge 7 (histogram 19 (runs.map (·.1)))
  let clSent := dropZeros 4 (clOrder.map fun s => cl.getD s 0)
  [final, false, true] ++ valBits 5 (lit'.length - 257) ++ valBits 5 (dist'.length - 1) ++ valBits 4 (clSent.length - 4) ++
    clSent.flatMap (valBits 3) ++ runs.flatMap (fun r => symBits (canonical cl) r.1 ++ valBits r.2.1 r.2.2) ++
    lzBits (canonical lit) (canonical dist) syms

/-- One block in a mode: fixed, or the shorter of fixed and dynamic with ties going to fixed (Table 12-3). -/
def encodeBlock (dynamic final : Bool) (syms : List LzSym) : List Bool :=
  let f := fixedBlock final syms
  if !dynamic then f
  else
    let d := dynamicBlock final syms
    if d.length < f.length then d else f

/-- A tile's compressed form: one final block (Table 12-3). -/
def deflateTile (dynamic : Bool) (data : Bytes) : Bytes :=
  packBits (encodeBlock dynamic true (lzParse data data.length (data.length + 1) 0))

/-- Blocks of at most 16,384 symbols; the last one of the input is final. -/
def encodeSegment (dynamic lastSegment : Bool) : Nat → List LzSym → List Bool
  | 0, _ => []
  | n + 1, syms =>
    let rest := syms.drop 16384
    encodeBlock dynamic (lastSegment && rest.isEmpty) (syms.take 16384) ++
      (if rest.isEmpty then [] else encodeSegment dynamic lastSegment n rest)

/-- What a host job's stream holds up to the last of the flushes given (R302): the input offset there and the bits, `bits` coming before. -/
def flushedBits (dynamic : Bool) (data : Bytes) : Nat → List Nat → List Bool → Nat × List Bool
  | p, [], bits => (p, bits)
  | p, f :: fs, bits =>
    let seg := bits ++ encodeSegment dynamic false (data.length + 1) (lzParse data f (data.length + 1) p)
    let seg := seg ++ [false, false, false]
    let pad := List.replicate ((8 - seg.length % 8) % 8) false
    flushedBits dynamic data f fs (seg ++ pad ++ valBits 16 0 ++ valBits 16 65535)

/-- A host job's stream: `flushes` are the input offsets after which it flushes (R302). -/
def encodeFlushes (dynamic : Bool) (data : Bytes) (flushes : List Nat) : List Bool :=
  let (p, bits) := flushedBits dynamic data 0 flushes []
  bits ++ encodeSegment dynamic true (data.length + 1) (lzParse data data.length (data.length + 1) p)

/-- The two bytes of RFC 1950 framing before the stream, where it is asked for (Table 12-3). -/
def zlibHeader (zlib : Bool) : Bytes := if zlib then [0x78, 0x9C] else []

/-- A host job's whole output (R293, R302), with RFC 1950 framing if asked. -/
def deflateJob (dynamic zlib : Bool) (data : Bytes) (flushes : List Nat) : Bytes :=
  zlibHeader zlib ++ packBits (encodeFlushes dynamic data flushes) ++ (if zlib then beBytes 4 (adler32 data) else [])

/-- The symbols, from input offset `p`, that no input beyond the `n` bytes taken can change: a match is at most 258 bytes long. -/
def settledSyms (n : Nat) : Nat → List LzSym → List LzSym
  | _, [] => []
  | p, x :: r =>
    if n < p + 258 then []
    else x :: settledSyms n (match x with
      | .lit _ => p + 1
      | .copy l _ => p + l) r

/-- Whole blocks of 16,384 symbols that further symbols follow. -/
def settledBlocks (dynamic : Bool) : Nat → List LzSym → List Bool
  | 0, _ => []
  | n + 1, syms => if syms.length ≤ 16384 then [] else encodeBlock dynamic false (syms.take 16384) ++ settledBlocks dynamic n (syms.drop 16384)

/-- The bytes of a host job's output that the input taken so far settles, while more is to come: the bits of an unfinished byte and of an
unfinished block are held in the lane (R303). -/
def deflateBegun (dynamic zlib : Bool) (data : Bytes) (flushes : List Nat) : Bytes :=
  let (p, bits) := flushedBits dynamic data 0 flushes []
  let syms := settledSyms data.length p (lzParse data data.length (data.length + 1) p)
  let bits := bits ++ settledBlocks dynamic (data.length + 1) syms
  zlibHeader zlib ++ bytesOfBits (bits.length / 8) bits

end Sys2Proof.Machine
end

