-- ==== Sys2Proof/Machine/Coverage.lean ====
section
/-! DEFINITION. The edge list of a tile (Table 04-1), coverage and class of every pixel (R98 to R101), the SIMPLE flag and
the winding integral of the checks (R103). Coordinates are tile-relative, in pixels. -/
namespace Sys2Proof.Machine

/-- What becomes of an edge of a tile of side `n` in its list (Table 04-1): dropped, collapsed, or kept. -/
inductive EdgeUse | dropped | collapsed | kept
  deriving DecidableEq, Repr

/-- Table 04-1. "Inside the tile" takes in its border. -/
def edgeUse (n : Rat) (e : Edge) : EdgeUse :=
  let offY := e.y0 = e.y1 || e.yMax ≤ 0 || n ≤ e.yMin
  if offY then
    (if 0 ≤ e.xMin ∧ e.xMax ≤ n ∧ 0 ≤ e.yMin ∧ e.yMax ≤ n then .kept else .dropped)
  else if n ≤ e.xMin then .dropped
  else if e.xMax ≤ 0 then .collapsed
  else .kept

/-- A primitive reaches a tile when the box of its edges meets the tile's interior. DESIGN CHOICE: an instance that does not reach the
tile gives its list no edge, also where Table 04-1 would collapse edges of it that lie at x ≤ 0; those wind to 0 in every row. -/
def reachesTile (n : Rat) (es : List Edge) : Bool :=
  match es with
  | [] => false
  | e :: r =>
    let f (g : Edge → Rat) (h : Rat → Rat → Rat) : Rat := r.foldl (fun a x => h a (g x)) (g e)
    f Edge.xMin min < n && 0 < f Edge.xMax max && f Edge.yMin min < n && 0 < f Edge.yMax max

/-- The edge list of a tile or sub-tile: edges listed, number of primitive instances. -/
structure EdgeList where
  kept      : List Edge
  collapsed : List Edge
  insts     : Nat
  deriving DecidableEq, Repr

/-- Build it from primitives given by their edges, for the square at (x, y) of side n (R95). -/
def edgeList (ps : List (List Edge)) (x y n : Rat) : EdgeList :=
  let near := (ps.map fun es => es.map (·.shift (-x) (-y))).filter (reachesTile n)
  let es := near.flatten
  ⟨es.filter fun e => edgeUse n e = .kept, es.filter fun e => edgeUse n e = .collapsed, near.length⟩

/-- Edges counted against the limit of R97. -/
def EdgeList.count (l : EdgeList) : Nat := l.kept.length + l.collapsed.length

/-- An empty tile has no edge at all (R96). -/
def EdgeList.empty (l : EdgeList) : Bool := l.count = 0

/-- Straight edges that are not collapsed: Lt of R103. -/
def EdgeList.lt (l : EdgeList) : Nat := (l.kept.filter fun e => !e.curved).length
/-- Monotone pieces that are not collapsed: Q of R103. -/
def EdgeList.q (l : EdgeList) : Nat := (l.kept.filter (·.curved)).length

/-! ### Roots of polynomials, for the points at which a curved piece meets another edge -/

/-- A polynomial, constant term first. -/
abbrev Poly := List Rat

def polyTrim (p : Poly) : Poly := (p.reverse.dropWhile (· = 0)).reverse
def polyEval (p : Poly) (t : Rat) : Rat := p.foldr (fun c a => c + t * a) 0
def polyAdd : Poly → Poly → Poly
  | [], q => q
  | p, [] => p
  | a :: p, b :: q => (a + b) :: polyAdd p q
def polyScale (k : Rat) (p : Poly) : Poly := p.map (k * ·)
def polyMulR : Poly → Poly → Poly
  | [], _ => []
  | a :: p, q => polyAdd (polyScale a q) (0 :: polyMulR p q)
def polyDeriv (p : Poly) : Poly := (p.zipIdx.map fun c => c.1 * (c.2 : Rat)).tail
/-- Remainder of a division. -/
def polyRem : Nat → Poly → Poly → Poly
  | 0, p, _ => p
  | n + 1, p, d =>
    let p := polyTrim p
    if p.length < d.length ∨ d = [] then p
    else
      let k := p.getLastD 0 / d.getLastD 1
      polyRem n (polyTrim ((polyAdd p (List.replicate (p.length - d.length) 0 ++ polyScale (-k) d)).dropLast)) d
/-- Sturm's chain. -/
def sturm : Nat → Poly → Poly → List Poly
  | 0, _, _ => []
  | n + 1, p, q => if polyTrim q = [] then [p] else p :: sturm n (polyTrim q) (polyScale (-1) (polyRem 8 p (polyTrim q)))
/-- Sign changes of a chain at a point. -/
def signChanges (ch : List Poly) (t : Rat) : Nat :=
  let vs := (ch.map (polyEval · t)).filter (· ≠ 0)
  ((List.zip vs vs.tail).filter fun p => (p.1 < 0) ≠ (p.2 < 0)).length
/-- Intervals (lo, hi] that hold one root each. -/
def isolate (ch : List Poly) : Nat → Rat → Rat → List (Rat × Rat)
  | 0, lo, hi => [(lo, hi)]
  | n + 1, lo, hi =>
    let k := signChanges ch lo - signChanges ch hi
    if k = 0 then [] else if k = 1 then [(lo, hi)]
    else let m := (lo + hi) / 2; isolate ch n lo m ++ isolate ch n m hi
/-- 2^-16 multiples nearest to y at the root held in an interval, by bisection until both ends agree. -/
def rootY (ch : List Poly) (y : Quad) : Nat → Rat → Rat → Int
  | 0, lo, hi =>
    let a := rneRat (65536 * y.at lo)
    let b := rneRat (65536 * y.at hi)
    if a % 2 = 0 then a else b
  | n + 1, lo, hi =>
    let a := rneRat (65536 * y.at lo)
    if a = rneRat (65536 * y.at hi) then a
    else
      let m := (lo + hi) / 2
      if signChanges ch lo - signChanges ch m = 0 then rootY ch y n m hi else rootY ch y n lo m

/-- A polynomial in t that vanishes where edge `e` at parameter t lies on the (extended) curve of edge `f`. -/
def meetPoly (e f : Edge) : Poly :=
  let ex : Poly := [e.x.c0, e.x.c1, e.x.c2]
  let ey : Poly := [e.y.c0, e.y.c1, e.y.c2]
  let k1 := f.y.c2 * f.x.c1 - f.x.c2 * f.y.c1
  if !f.curved ∨ k1 = 0 then
    let (dx, dy) := if f.curved ∧ (f.x.c2 ≠ 0 ∨ f.y.c2 ≠ 0) then (f.x.c2, f.y.c2) else (f.x.c1, f.y.c1)
    polyAdd (polyScale dy (polyAdd ex [-f.x.c0])) (polyScale (-dx) (polyAdd ey [-f.y.c0]))
  else
    -- D = b2 x - a2 y is linear in f's parameter: t = (D - k0) / k1
    let d := polyAdd (polyAdd (polyScale f.y.c2 ex) (polyScale (-f.x.c2) ey)) [-(f.y.c2 * f.x.c0 - f.x.c2 * f.y.c0)]
    let (g, h) := if f.y.c2 ≠ 0 then (ey, f.y) else (ex, f.x)
    polyAdd (polyScale (k1 * k1) (polyAdd g [-h.c0]))
      (polyAdd (polyScale (-(h.c1 * k1)) d) (polyScale (-h.c2) (polyMulR d d)))

/-- The heights at which two edges meet inside both ranges: exact for straight edges, on the grid of 2^-16 pixel where one
is curved (R100 step 2). -/
def meetYs (e f : Edge) : List Rat :=
  let lo := max e.yMin f.yMin
  let hi := min e.yMax f.yMax
  if hi ≤ lo ∨ e.xMax < f.xMin ∨ f.xMax < e.xMin then []
  else
    let (e, f) := if e.curved then (e, f) else (f, e)
    let p := polyTrim (meetPoly e f)
    if p.length ≤ 1 then []
    else if !e.curved then
      let t := -(p.headD 0) / (p.getD 1 1)
      let y := e.y.at t
      if lo < y ∧ y < hi then [y] else []
    else
      let ch := sturm 6 p (polyDeriv p)
      let rs := isolate ch 64 (e.ta - 1 / 1048576) e.tb
      ((rs.map fun r => ((rootY ch e.y 700 r.1 r.2 : Int) : Rat) / 65536).filter fun y => lo < y && y < hi)

/-! ### Areas of pixels -/

/-- An edge with the points of it whose height and parameter are both known. -/
structure RowEdge where
  e : Edge
  known : List (Rat × Rat)                   -- height, parameter
  deriving DecidableEq, Repr

/-- Bounds on the parameter at which a curved edge has a height: bisection to 2^-200. -/
def bisectT (y : Quad) (up : Bool) (v : Rat) : Nat → Rat → Rat → Rat × Rat
  | 0, lo, hi => (lo, hi)
  | n + 1, lo, hi =>
    let m := (lo + hi) / 2
    let ym := y.at m
    if ym = v then (m, m)
    else if (decide (ym < v)) = up then bisectT y up v n m hi else bisectT y up v n lo m

/-- Bounds on the parameter of a row edge at a height in its range. -/
def RowEdge.param (r : RowEdge) (v : Rat) : Rat × Rat :=
  let e := r.e
  match r.known.find? (·.1 = v) with
  | some p => (p.2, p.2)
  | none =>
    if !e.curved then let t := crossAt false e.y e.ta e.tb v; (t, t)
    else if e.y0 = v then (e.ta, e.ta) else if e.y1 = v then (e.tb, e.tb)
    else bisectT e.y (e.y0 < e.y1) v 200 e.ta e.tb

/-- x of a row edge at a height (middle of its bounds). -/
def RowEdge.xAt (r : RowEdge) (v : Rat) : Rat := let p := r.param v; r.e.x.at ((p.1 + p.2) / 2)

/-- The integers strictly between two rationals. -/
def intsBetween (a b : Rat) : List Int := rangeI (a.floor + 1) (b.ceil - 1)

/-- The part of an edge in the pixel row [v, v + 1], with the known points of R100 step 1: its crossings with the row's
lines and with the lines x = integer from 0 to `n`; none where it does not pass through the row. -/
def rowEdge (n : Nat) (v : Int) (e : Edge) : Option RowEdge :=
  match clipRange e.curved e.y e.ta e.tb v (v + 1) with
  | none => none
  | some (a, b) =>
    let ends := [(a, e.y.at a), (b, e.y.at b)].map fun p =>
      (if p.1 = e.ta ∨ p.1 = e.tb then p.2 else ((rneRat p.2 : Int) : Rat), p.1)
    let xa := e.x.at a
    let xb := e.x.at b
    let xs := (intsBetween (min xa xb) (max xa xb)).filter fun k => 0 ≤ k && k ≤ (n : Int)
    let cross := (xs.map fun (k : Int) => crossAt e.curved e.x e.ta e.tb (k : Rat)).filter fun t => a < t && t < b
    some ⟨e, ends ++ cross.map fun t => (e.y.at t, t)⟩

/-- What accumulates for one pixel: bounds on the area, and the highest class with area. -/
structure PixArea where
  lo  : Rat
  hi  : Rat
  cls : Nat
  deriving DecidableEq, Repr

/-- What accumulates for a tile: areas by pixel number in the row, SIMPLE so far, the sign of the winding seen. -/
structure RowAcc where
  pix    : List (Nat × PixArea)
  simple : Bool
  sign   : Int
  deriving DecidableEq, Repr

/-- Add area to a pixel. -/
def RowAcc.add (acc : RowAcc) (c : Nat) (lo hi : Rat) (cls : Nat) : RowAcc :=
  let old := (kvGet acc.pix c).getD ⟨0, 0, 0⟩
  { acc with pix := kvSet acc.pix c ⟨old.lo + lo, old.hi + hi, max old.cls cls⟩ }

/-- Winding per instance and class, non-zero ones only. -/
def bump (w : List (Nat × Int × Nat)) (e : Edge) : List (Nat × Int × Nat) :=
  let v := ((kvGet w e.inst).getD (0, e.cls)).1 + e.sign
  if v = 0 then kvDel w e.inst else kvSet w e.inst (v, e.cls)

/-- Bounds on the area between the line x = left and an edge over a slab. -/
def RowEdge.area (r : RowEdge) (left ya yb : Rat) : Rat × Rat :=
  let p := r.param ya
  let q := r.param yb
  let vs := [r.e.sweep left p.1 q.1, r.e.sweep left p.1 q.2, r.e.sweep left p.2 q.1, r.e.sweep left p.2 q.2]
  (vs.foldl min (vs.headD 0), vs.foldl max (vs.headD 0))

/-- One covered interval of a slab, from a left edge to a right one or to the tile's right side. -/
def coverSpan (n : Nat) (ya yb : Rat) (cls : Nat) (l : Option RowEdge) (r : Option RowEdge) (acc : RowAcc) : RowAcc :=
  let ym := (ya + yb) / 2
  let h := yb - ya
  let xl := match l with | some e => e.xAt ym | none => 0
  let xr := match r with | some e => e.xAt ym | none => (n : Rat)
  if xr ≤ xl ∨ xr ≤ 0 ∨ (n : Rat) ≤ xl then acc
  else
    let cl : Int := max 0 xl.floor
    let cr : Int := min (n : Int) xr.ceil - 1
    (rangeI cl cr).foldl (fun acc c =>
      let left : Rat × Rat := match l with
        | some e => if xl.floor = c ∧ 0 ≤ xl then e.area c ya yb else (0, 0)
        | none => (0, 0)
      let right : Rat × Rat := match r with
        | some e => if xr.ceil - 1 = c ∧ xr < (n : Rat) then e.area c ya yb else (h, h)
        | none => (h, h)
      acc.add c.toNat (right.1 - left.2) (right.2 - left.1) cls) acc

/-- One slab between two heights of a pixel row: edges in order of x, windings from the left. -/
def slab (n : Nat) (rs : List RowEdge) (ya yb : Rat) (acc : RowAcc) : RowAcc :=
  let ym := (ya + yb) / 2
  let act := (rs.filter fun r => (r.known.any (·.1 ≤ ya) || r.e.yMin ≤ ya) && (r.known.any (yb ≤ ·.1) || yb ≤ r.e.yMax) && r.e.yMin < yb && ya < r.e.yMax)
  let srt := sortBy (fun a b => a.1 ≤ b.1) (act.map fun r => (r.xAt ym, r))
  let rec go : List (Rat × RowEdge) → List (Nat × Int × Nat) → RowAcc → RowAcc
    | [], _, acc => acc
    | (x, r) :: rest, w, acc =>
      let w := bump w r.e
      let nxt := rest.head?
      let acc :=
        if w.isEmpty then acc
        else
          let cls := w.foldl (fun m p => max m p.2.2) 0
          let wide := match nxt with
            | some p => x < p.1 && (0 : Rat) < p.1 && x < (n : Rat)
            | none => x < (n : Rat)
          let acc := coverSpan n ya yb cls (some r) (nxt.map (·.2)) acc
          if !wide then acc
          else match w with
            | [(_, v, _)] =>
              if v.natAbs ≠ 1 ∨ (acc.sign ≠ 0 ∧ acc.sign ≠ v) then { acc with simple := false } else { acc with sign := v }
            | _ => { acc with simple := false }
      go rest w acc
  go srt [] acc

/-- A row of pixels of a square of side `n`. -/
def coverRow (n : Nat) (es : List Edge) (v : Nat) (acc : RowAcc) : RowAcc :=
  let rs := es.filterMap (rowEdge n v)
  let vq : Rat := v
  let ends := rs.flatMap fun r => r.known.map (·.1)
  let meets := (List.range rs.length).flatMap fun i => (List.range i).flatMap fun j =>
    match rs[i]?, rs[j]? with
    | some a, some b => meetYs a.e b.e
    | _, _ => []
  let ys := (sortBy (· ≤ ·) (([vq, vq + 1] ++ ends ++ meets).filter fun y => vq ≤ y && y ≤ vq + 1)).eraseDups
  (List.zip ys ys.tail).foldl (fun acc s => slab n rs s.1 s.2 acc) acc

/-- The coverage code of an area known within bounds (R98): where the bounds round apart, the area is a tie, taken even. -/
def coverCode (lo hi : Rat) : Nat :=
  let a := (rneRat (255 * lo)).toNat
  let b := (rneRat (255 * hi)).toNat
  min 255 (if a = b ∨ a % 2 = 0 then a else b)

/-- Output of a computation of a square of side n: pixels with a > 0 or a class (number in R101's order, code, class), the
SIMPLE flag, and the winding integral in 2^-16 px². -/
structure CellOut where
  pixels : List (Nat × Nat × Nat)
  simple : Bool
  w      : Int
  deriving DecidableEq, Repr

/-- Pixels of one row. -/
def rowPixels (n v : Nat) (acc : RowAcc) : List (Nat × Nat × Nat) :=
  acc.pix.filterMap fun p =>
    let a := coverCode p.2.lo p.2.hi
    let k := if 0 < p.2.hi then p.2.cls else 0
    if a = 0 ∧ k = 0 then none else some (n * v + p.1, a, k)

/-- Compute a square of side `n` from the edges of the primitives that reach it, tile-relative (R98 to R103). -/
def coverSquare (n : Nat) (es : List Edge) : CellOut :=
  let r := (List.range n).foldl (fun (st : List (Nat × Nat × Nat) × RowAcc) v =>
    let acc := coverRow n es v { st.2 with pix := [] }
    (st.1 ++ rowPixels n v acc, acc)) ([], ⟨[], true, 0⟩)
  ⟨r.1, r.2.simple, rneRat (65536 * windingIntegral es 0 0 n n)⟩

end Sys2Proof.Machine
end

