-- ==== Sys2Proof/Machine/F64.lean ====
section
/-! DEFINITION. IEEE 754 binary64 arithmetic on rationals (R127, R137, R212): every result is the exact one rounded to
nearest, ties to even. No value here leaves the normal range but exact zero. -/
namespace Sys2Proof.Machine

/-- The rational 2^e. -/
def twoPow (e : Int) : Rat := if e ≥ 0 then ((2 ^ e.toNat : Nat) : Rat) else 1 / ((2 ^ (-e).toNat : Nat) : Rat)

/-- floor(log2 |r|) of a rational that is not 0. -/
def ilog2 (r : Rat) : Int :=
  let n := r.num.natAbs
  let g : Int := (Nat.log2 n : Int) - (Nat.log2 r.den : Int)
  let a : Rat := if r < 0 then -r else r
  if a < twoPow g then g - 1 else if twoPow (g + 1) ≤ a then g + 1 else g

/-- Round to nearest, ties to even, to 53 significant bits. -/
def f64 (r : Rat) : Rat :=
  if r = 0 then 0
  else
    let u := ilog2 r - 52
    let q := r / twoPow u
    ((rneDiv q.num q.den : Int) : Rat) * twoPow u

def f64Add (a b : Rat) : Rat := f64 (a + b)
def f64Sub (a b : Rat) : Rat := f64 (a - b)
def f64Mul (a b : Rat) : Rat := f64 (a * b)
def f64Div (a b : Rat) : Rat := f64 (a / b)

/-- Correctly rounded square root of a rational that is not negative: 400 bits below the integer part, then rounded; a
square root is never a tie at 53 bits unless it is exact. -/
def f64Sqrt (r : Rat) : Rat :=
  if r ≤ 0 then 0
  else
    let e := (ilog2 r) / 2
    let k : Int := 200 - e
    let s := r * twoPow (2 * k)
    let n := isqrt s.floor.toNat
    let x : Rat := (n : Rat) * twoPow (-k)
    if x * x = r then f64 x else f64 (x + twoPow (-k) / 2)

/-- exp of a rational from 0 to 1/2 as an integer in units of 2^-p: Taylor's series, `n` terms. -/
def expSeries (p : Nat) (x : Nat) : Nat → Nat → Nat → Nat
  | 0, _, _ => 0
  | n + 1, k, term => if term = 0 then 0 else term + expSeries p x n (k + 1) (term * x / 2 ^ p / (k + 1))

/-- Square `n` times in units of 2^-p. -/
def squareTimes (p : Nat) : Nat → Nat → Nat
  | 0, y => y
  | n + 1, y => squareTimes p n (y * y / 2 ^ p)

/-- The correctly rounded exponential of a rational that is not positive and at least -1024: 600 fraction bits, many more
than any binary64 argument needs. -/
def f64ExpNeg (a : Rat) : Rat :=
  if a = 0 then 1
  else
    let p := 600
    let b := (-a) / 2048
    let x := (b * ((2 ^ p : Nat) : Rat)).floor.toNat
    let y := squareTimes p 11 (expSeries p x 200 0 (2 ^ p))
    f64 (((2 ^ p : Nat) : Rat) / (y : Rat))

/-- Correctly rounded to the nearest integer, ties to even. -/
def rneQ (r : Rat) : Int := rneDiv r.num r.den

/-- The value of a binary32 bit pattern that is neither NaN nor infinity; subnormal values as written (Table 02-1). -/
def f32Val (x : Nat) : Rat :=
  let e : Nat := x / 2 ^ 23 % 256
  let m : Nat := x % 2 ^ 23
  let v : Rat := if e = 0 then (m : Rat) * twoPow (-149) else ((2 ^ 23 + m : Nat) : Rat) * twoPow ((e : Int) - 150)
  if bitOf x 31 then -v else v

/-- The binary32 bit pattern nearest a rational, ties to even, subnormal values included; none where it is past the greatest. -/
def f32Bits (r : Rat) : Option Nat :=
  let sign : Nat := if r < 0 then 2 ^ 31 else 0
  let a : Rat := if r < 0 then -r else r
  if a = 0 then some 0
  else
    let u : Int := max (ilog2 a - 23) (-149)
    let n := (rneQ (a / twoPow u)).toNat
    let (n, u) := if n = 2 ^ 24 then (2 ^ 23, u + 1) else (n, u)
    if n < 2 ^ 23 then some (sign + n)
    else
      let e := (u + 150).toNat
      if 255 ≤ e then none else some (sign + e * 2 ^ 23 + (n - 2 ^ 23))

end Sys2Proof.Machine
end

