-- ==== Sys2Proof/Machine/Density.lean ====
section
/-! DEFINITION. Coarse density (R122 to R125), the correction kernel (R126, R127), the correction factor (R128) and the
spool value (R129, R130). -/
namespace Sys2Proof.Machine

/-- Reach in coarse cells of a term: ceil(3σ / 32), σ in 1/256 pixel (R126). -/
def termReach (sigma : Nat) : Nat := ceilDiv (3 * sigma) (32 * 256)

/-- The kernel terms in effect: σ, η, reach, for those with η > 0 (R126). -/
def State.terms (s : State) : List (Nat × Nat × Nat) :=
  ([0, 1, 2].map fun t => (s.getN (Obj.TERM_SIGMA + t), s.getN (Obj.TERM_ETA + t), termReach (s.getN (Obj.TERM_SIGMA + t)))).filter
    fun t => t.2.1 > 0

/-- R of R126, from the effective configuration. -/
def State.kernelR (s : State) : Nat :=
  if s.on Obj.PEC_ENABLE then s.terms.foldl (fun m t => max m t.2.2) 0 else 0

/-- Taps gt(0) to gt(Rt) of a term (R127). -/
def termTaps (sigma : Nat) : List Nat :=
  let r := termReach sigma
  let sg : Rat := (sigma : Rat) / 256
  let e (k : Nat) : Rat := f64ExpNeg (f64 (-(((32 * k) ^ 2 : Nat) : Rat) / (2 * sg * sg)))
  let vs := (List.range (r + 1)).map e
  let sum := f64 (vs.headD 1 + 2 * vs.tail.foldl (· + ·) 0)
  let gs := vs.tail.map fun v => (rneQ (f64 (65536 * v / sum))).toNat
  (65536 - 2 * gs.sum) :: gs

/-- Spool value of full coverage and PEC bit of a class (Table 05-1). -/
def State.classBase (s : State) (c : Nat) : Nat := s.getN (Obj.CLASS_ENTRY + c) % 256
def State.classPec (s : State) (c : Nat) : Bool := bitOf (s.getN (Obj.CLASS_ENTRY + c)) 8

/-- Primitives of a block that reach a box of the stripe in pixels, corrected, with the 32 pixels that correction can add. -/
def blockPrims (lay : Layout) (st : Stripe) (b : LBlock) (x0 y0 x1 y1 : Int) : List Prim :=
  let m : Int := 8192 + 256
  let off : Int := 1048576 * (b.band : Int)
  let clip : Box := ⟨256 * x0 - off - m, 256 * y0 - m, 256 * x1 - off + m, 256 * y1 + m⟩
  (expandRecs lay.cells clip 9 Xform.id none b.recs).map (·.correct st b.band)

/-- S of R122 for one coarse cell from the blocks given, summed by PEC: (PEC set, PEC clear), in BASE·2^-8 px². The cell is
clipped to the band, to the part of R65 for the block's type, and to the stripe. -/
def State.densitySum (s : State) (st : Stripe) (bs : List LBlock) (width i j : Int) : Nat × Nat :=
  let len := st.xEnd - st.xStart
  bs.foldl (fun acc b =>
    let x0 := max (32 * i) (4096 * (b.band : Int))
    let x1 := min (32 * i + 32) (min (4096 * (b.band : Int) + 4096) len)
    let inside := 0 ≤ j && 32 * j < width
    if x1 ≤ x0 ∨ b.halo = inside then acc
    else
      (blockPrims s.lay st b x0 (32 * j) x1 (32 * j + 32)).foldl (fun acc p =>
        let v := (rneQ (256 * windingIntegral (p.edges 0) x0 (32 * j : Int) x1 (32 * j + 32 : Int))).natAbs
        let w := s.classBase p.cls * v
        if s.classPec p.cls then (acc.1 + w, acc.2) else (acc.1, acc.2 + w)) acc) (0, 0)

/-- D of R122 from S. -/
def State.density (s : State) (sum : Nat) : Nat := min 65535 (rneDivN sum (16 * s.getN Obj.DOSE_NOMINAL))

/-- The lines from `lo` to `hi`, widened by the kernel radius, touch a block's bounding box (R19, R125). -/
def State.boxTouches (s : State) (b : LBlock) (lo hi : Int) : Bool :=
  let r : Int := 32 * (s.kernelR : Int)
  lo - r ≤ b.bbox.yMax / 256 && b.bbox.yMin / 256 < hi + r

/-- Lines of a region: 160·B, from 160·B·i (R17). -/
def State.regionLines (s : State) : Int := 160 * (s.getN Obj.BEAM_PITCH : Int)

/-- The front end hands a block to a region (R19). -/
def State.receives (s : State) (r : Nat) (b : LBlock) : Bool := s.boxTouches b (s.regionLines * r) (s.regionLines * (r + 1))

/-- The region that owns a row of coarse cells (R18, R123). -/
def State.rowOwner (s : State) (width j : Int) : Nat := if j < 0 then 0 else if width ≤ 32 * j then 3 else (32 * j / s.regionLines).toNat

/-- The nearest region that is not lost, the lower-numbered one on a tie (R125). -/
def State.heir (s : State) (r : Nat) : Option Nat :=
  ([r - 1, r + 1, r - 2, r + 2, r - 3, r + 3].filter fun x => x ≤ 3 && x ≠ r && !s.lost x).head?

/-- The blocks among those given that the owner of a row of coarse cells counts: those it receives (R19, R123). Where a region is lost
and its correction block is retired, its heir owns the row; it is handed as well every block whose box, widened by the kernel radius,
touches the row (R125). -/
def State.countedBlocks (s : State) (bs : List LBlock) (width j : Int) : List LBlock :=
  let o := s.rowOwner width j
  if s.lost o && s.getN (Obj.CORR_BLOCK_STATE + o) = 1 then
    match s.heir o with
    | some h => bs.filter fun b => s.receives h b || s.boxTouches b (32 * j) (32 * j + 32)
    | none => bs.filter (s.receives o)
  else bs.filter (s.receives o)

/-- Both densities of a coarse cell: 0 outside the stripe's x range (R123). -/
def State.cellDensity (s : State) (st : Stripe) (width i j : Int) : Nat × Nat :=
  if i < 0 ∨ st.xEnd - st.xStart ≤ 32 * i then (0, 0)
  else match s.lay.copied.find? fun c => c.stripe = st.number && c.i = i && c.j = j with
  | some c => (c.pec, c.fix)
  | none =>
    let band := i / 128
    let bs := s.lay.blocks.filter fun b => b.stripe = st.number && (b.band : Int) = band
    let q := s.densitySum st (s.countedBlocks bs width j) width i j
    (s.density q.1, s.density q.2)

/-- One pass of a convolution: a sum of products computed exactly, then rounded once. -/
def convolve (taps : List Nat) (reach shift : Nat) (f : Int → Nat) : Nat :=
  (rne (sumMapI (fun k : Int => ((atD taps k.natAbs 0 * f k : Nat) : Int)) (rangeI (-(reach : Int)) reach)) shift).toNat

/-- One fixed-point iteration of R128: the new factor and whether it was clamped. -/
def factorStep (n ppec pfix f : Nat) : Nat × Bool :=
  let p := (rne ((f * ppec : Nat) : Int) 14).toNat + pfix
  let q := rneDivN (n * 2 ^ 22) (2 ^ 22 + 2 * p)
  let c := max 8192 (min 32768 q)
  (c, c ≠ q)

/-- The factor of a coarse cell, in 2^-14, and whether the second iteration clamped, from the terms (σ, η, reach) and the
densities (PEC set, PEC clear) around it (R128). -/
def factorFrom (ts : List (Nat × Nat × Nat)) (dens : Int → Int → Nat × Nat) (i j : Int) : Nat × Bool :=
  let parts := ts.map fun t =>
    let taps := termTaps t.1
    let h (pec : Bool) (y : Int) : Nat := convolve taps t.2.2 8 fun k =>
      let d := dens (i + k) y
      if pec then d.1 else d.2
    let c (pec : Bool) : Nat := convolve taps t.2.2 16 fun k => h pec (j + k)
    (t.2.1 * c true, t.2.1 * c false)
  let ppec := (rne ((parts.map (·.1)).sum : Nat) 14).toNat
  let pfix := (rne ((parts.map (·.2)).sum : Nat) 14).toNat
  let n := 16384 + (ts.map (·.2.1)).sum
  factorStep n ppec pfix (factorStep n ppec pfix 16384).1

/-- The factor of a coarse cell of the state's stripe; 16384 with R = 0 (R128). -/
def State.factor (s : State) (st : Stripe) (width i j : Int) : Nat × Bool :=
  if s.kernelR = 0 then (16384, false) else factorFrom s.terms (s.cellDensity st width) i j

/-- The spool value of a pixel, and whether it saturates (R130). -/
def State.spoolValue (s : State) (a k f : Nat) : Nat × Bool :=
  let F := if s.classPec k then f else 16384
  let q := rneDivN (a * s.classBase k * F) (255 * 16384)
  if q > 255 then (255, true) else (q, false)

end Sys2Proof.Machine
end

