-- ==== Sys2Proof/Machine/Tiles.lean ====
section
/-! DEFINITION. Tiles in sweep order (R93, R94), completeness of bands (R76), the areas of pending rejections (R88), the
writing position and run-ahead (R298), the spool and correction fronts (R102, R131). -/
namespace Sys2Proof.Machine

/-- B in force and S = 480 / B (R145). -/
def State.B (s : State) : Nat := s.getN Obj.BEAM_PITCH
def State.S (s : State) : Nat := s.getN Obj.ROWS_PER_GROUP
/-- Ucap (R145). -/
def State.ucap (s : State) : Nat := s.getN Obj.DELIVERABLE_CEILING
/-- Lines of the stripe: 640·B. -/
def State.lines (s : State) : Nat := 640 * s.B
/-- Tile rows of a region: 160·B / 64 (R17). -/
def State.tileRows (s : State) : Nat := 160 * s.B / 64
/-- Region of a tile row (R18). -/
def State.regionOf (s : State) (t : Nat) : Nat := 64 * t / (160 * s.B)
/-- Region of a line. -/
def State.regionOfLine (s : State) (y : Nat) : Nat := y / (160 * s.B)

/-- A stripe of the job. -/
def State.stripeOf (s : State) (n : Nat) : Option Stripe := s.lay.stripes.find? (·.number = n)
/-- L of a stripe. -/
def Stripe.len (st : Stripe) : Int := st.xEnd - st.xStart
/-- NB (R63). -/
def Stripe.bands (st : Stripe) : Nat := ceilDiv st.len.toNat 4096
/-- Tile columns. -/
def Stripe.cols (st : Stripe) : Nat := ceilDiv st.len.toNat 64
/-- Coarse columns. -/
def Stripe.coarseCols (st : Stripe) : Nat := ceilDiv st.len.toNat 32
/-- The tile column of the j-th column in sweep order, and back. -/
def Stripe.colAt (st : Stripe) (j : Nat) : Nat := if st.dirMinus then st.cols - 1 - j else j
def Stripe.idxOf (st : Stripe) (u : Nat) : Nat := if st.dirMinus then st.cols - 1 - u else u
/-- The sweep coordinate of a stripe-relative x and back (R142). -/
def Stripe.sOf (st : Stripe) (x : Int) : Int := if st.dirMinus then st.len - 1 - x else x
/-- First and last sweep coordinate of x from `lo` to `hi`, clipped to the stripe. -/
def Stripe.span (st : Stripe) (lo hi : Int) : Int × Int :=
  let a := st.sOf lo
  let b := st.sOf hi
  (max 0 (min a b), min (st.len - 1) (max a b))
/-- Sweep coordinates of a tile column (R231). -/
def Stripe.colSpan (st : Stripe) (u : Nat) : Int × Int := st.span (64 * (u : Int)) (64 * (u : Int) + 63)

/-- A band is complete (R76). -/
def State.bandComplete (s : State) (st : Stripe) (k : Nat) : Bool :=
  st.complete || (match s.st.doneBand with
    | some m => st.number + 1 = s.st.nextStripe && (if st.dirMinus then m < k else k < m)
    | none => false)

/-! ### Areas of pending rejections (R84, R88) -/

/-- The area of a pending rejection: of a rejected BAND or HALO block, of a block that places a pending cell, or of one
tile (R282). `owner` the rejection's BLOCK_SEQ, `block` that of the block whose box it is. -/
structure Area where
  owner  : Nat
  block  : Nat
  stripe : Nat
  band   : Nat
  halo   : Bool
  bbox   : Box
  tile   : Option (Nat × Nat)
  deriving DecidableEq, Repr

/-- The pending cells that records place, directly or through other cells, `n` levels down: sequence numbers of their blocks. -/
def pendingCellSeqs (cs : List Cell) : Nat → List Rec → List Nat
  | 0, _ => []
  | n + 1, rs => (placedCells rs).flatMap fun k =>
    match findCell cs k with
    | none => []
    | some c => if c.pending then [c.seq] else pendingCellSeqs cs n c.recs

/-- The areas in effect. -/
def State.areas (s : State) : List Area :=
  (s.st.pending.filterMap fun p =>
    match p.bbox with
    | some b => some ⟨p.seq, p.seq, p.stripe, p.band, p.type = blockCode .halo, b, p.tile⟩
    | none => none) ++
  s.lay.blocks.flatMap fun b =>
    (pendingCellSeqs s.lay.cells 9 b.recs).eraseDups.map fun q => ⟨q, b.seq, b.stripe, b.band, b.halo, b.bbox, none⟩

/-- An inclusive box of pixels. -/
structure PixBox where
  x0 : Int
  x1 : Int
  y0 : Int
  y1 : Int
  deriving DecidableEq, Repr

/-- Steps 1 and 2 of R88: the widened parts of an area, in pixels of the stripe. -/
def State.areaParts (s : State) (a : Area) : List PixBox :=
  match a.tile with
  | some (u, t) => [⟨64 * u, 64 * u + 63, 64 * t, 64 * t + 63⟩]
  | none =>
    let off : Int := 4096 * (a.band : Int)
    let w : Int := s.lines
    let x0 := max off (off + a.bbox.xMin / 256 - 32)
    let x1 := min (off + 4095) (off + a.bbox.xMax / 256 + 32)
    let y0 := a.bbox.yMin / 256 - 32
    let y1 := a.bbox.yMax / 256 + 32
    let ys := if a.halo then [(y0, min y1 (-1)), (max y0 w, y1)] else [(max y0 0, min y1 (w - 1))]
    let r : Int := 32 * (s.kernelR : Int)
    (ys.filter fun p => p.1 ≤ p.2 && x0 ≤ x1).map fun p => ⟨x0 - r, x1 + r, p.1 - r, p.2 + r⟩

/-- Tiles of a stripe that an area affects, in a region (R88 step 3). -/
def State.affectedTiles (s : State) (a : Area) (region : Nat) : List TileKey :=
  match s.stripeOf a.stripe with
  | none => []
  | some st =>
    let rows := s.tileRows
    ((s.areaParts a).flatMap fun b =>
      (rangeI (max 0 (b.x0 / 64)) (min (st.cols - 1 : Int) (b.x1 / 64))).flatMap fun u =>
        (rangeI (max (rows * region : Nat) (b.y0 / 64)) (min (rows * region + rows - 1 : Int) (b.y1 / 64))).map fun t =>
          ⟨a.stripe, u.toNat, t.toNat⟩).eraseDups

/-- Whether an area affects a coarse cell's density: the cell meets the widened box of step 1 (R124). -/
def State.areaTouchesCell (s : State) (a : Area) (stripe : Nat) (i j : Int) : Bool :=
  a.stripe = stripe && a.tile.isNone &&
  let off : Int := 4096 * (a.band : Int)
  let x0 := max off (off + a.bbox.xMin / 256 - 32)
  let x1 := min (off + 4095) (off + a.bbox.xMax / 256 + 32)
  let y0 := a.bbox.yMin / 256 - 32
  let y1 := a.bbox.yMax / 256 + 32
  let w : Int := s.lines
  let ys := if a.halo then [(y0, min y1 (-1)), (max y0 w, y1)] else [(max y0 0, min y1 (w - 1))]
  ys.any fun p => p.1 ≤ p.2 && x0 ≤ 32 * i + 31 && 32 * i ≤ x1 && p.1 ≤ 32 * j + 31 && 32 * j ≤ p.2

/-- Whether a region has given an area up. -/
def State.gaveUp (s : State) (a : Area) (region : Nat) : Bool := s.ras.given.any fun p => p.1 = a.block && p.2 = region

/-- Sweep order of tiles (R94): stripe, column in sweep order, row. -/
def State.orderOf (s : State) (k : TileKey) : Nat × Nat × Nat :=
  match s.stripeOf k.stripe with
  | some st => (k.stripe, st.idxOf k.u, k.t)
  | none => (k.stripe, k.u, k.t)

/-- Strictly earlier in sweep order. -/
def before (a b : Nat × Nat × Nat) : Bool :=
  a.1 < b.1 || (a.1 = b.1 && (a.2.1 < b.2.1 || (a.2.1 = b.2.1 && a.2.2 < b.2.2)))

/-- The first affected tile of a region, in sweep order, of areas it has not given up (R88). -/
def State.holdLine (s : State) (region : Nat) : Option (Nat × Nat × Nat) :=
  let ks := (s.areas.filter fun a => !s.gaveUp a region).flatMap fun a => (s.affectedTiles a region).map s.orderOf
  match ks with
  | [] => none
  | k :: r => some (r.foldl (fun m x => if before x m then x else m) k)

/-- A tile lies before every affected tile of its region. -/
def State.freeOfHold (s : State) (k : TileKey) : Bool :=
  match s.holdLine (s.regionOf k.t) with
  | none => true
  | some h => before (s.orderOf k) h

/-! ### Positions -/

/-- The first stripe that has not ended: the one whose sweep, or whose Burnish pass, is still to come or under way (R160). With the
last stripe every stripe has ended, the Burnish pass after the job included. -/
def State.firstOpenStripe (s : State) : Nat :=
  if s.flow.stripeDone ∨ s.jobState = jobBurnishing then s.flow.next else s.flow.next - 1

/-- The writing position (R298): stripe and flash index of the armed sweep. With no sweep armed it is s = 0 of the first stripe that has
not ended. -/
def State.writingPos (s : State) : Nat × Int := if s.sweepArmed then (s.sweep.stripe, s.sweep.nPrev) else (s.firstOpenStripe, 0)

/-- Pixels in sweep order from the writing position to a sweep coordinate of a stripe (R298). -/
def State.distance (s : State) (stripe : Nat) (c : Int) : Int :=
  let (w, n) := s.writingPos
  if stripe < w then -1
  else if stripe = w then c - n
  else sumMapI (fun k => match s.stripeOf k with | some st => st.len | none => 0) (rangeN w (stripe - 1)) - n + c

/-- Run-ahead of a tile (R298). -/
def State.runAhead (s : State) (k : TileKey) : Int :=
  match s.stripeOf k.stripe with
  | some st => s.distance k.stripe (st.colSpan k.u).1
  | none => 0

/-- Bytes in use of a region's quarter (R296). -/
def tileBytes (t : SpoolTile) : Nat := 16 + 128 * ceilDiv t.length 128
def State.spoolUsed (s : State) (region : Nat) : Nat := sumMap tileBytes (s.spool.tiles.filter (·.region = region))

/-- Free space for a whole column stored RAW: 2.5·B tiles of 4,112 bytes (R298). -/
def State.columnFits (s : State) (region : Nat) : Bool :=
  s.spoolUsed region + s.tileRows * 4112 ≤ s.getN Obj.SPOOL_SIZE / 4

/-- The sweep coordinate of a front: stripe and complete columns (R102). -/
def State.frontPos (s : State) (region : Nat) : Nat × Int :=
  let (n, m) := atD s.ras.front region (0, 0)
  match s.stripeOf n with
  | some st => if m = 0 then (n, 0) else (n, (st.colSpan (st.colAt (m - 1))).2 + 1)
  | none => (n, 0)

/-- I32 saturation of a lead. -/
def leadI32 (x : Int) : Int := clampI (-2 ^ 31) (2 ^ 31 - 1) x

/-- A spool tile stands behind its region's spool front (R102, R147). -/
def State.behindFront (s : State) (k : TileKey) : Bool :=
  match s.stripeOf k.stripe with
  | none => false
  | some st => let (n, m) := atD s.ras.front (s.regionOf k.t) (0, 0); k.stripe < n || (k.stripe = n && st.idxOf k.u < m)

/-- A tile has been spooled: by its region's front, or beyond it. -/
def State.spooled (s : State) (k : TileKey) : Bool := s.behindFront k || s.ras.done.contains k

/-- RASTER_LEAD (R102). DESIGN CHOICE: of a front that stands in an earlier stripe than the flash index, a distance in sweep direction is
not given; the front's own sweep coordinate less the index is taken. -/
def State.rasterLead (s : State) (region : Nat) : Int :=
  let p := s.frontPos region
  leadI32 (if p.1 < s.writingPos.1 then p.2 - s.writingPos.2 else s.distance p.1 p.2)

/-- The factors of a coarse column of a region, if begun. -/
def State.factorCol (s : State) (region stripe col : Nat) : Option FactorCol :=
  s.ras.factors.find? fun f => f.region = region && f.stripe = stripe && f.col = col

/-- Rows of coarse cells of a region: 160·B / 32, from row 5·B·i. -/
def State.coarseRows (s : State) : Nat := 5 * s.B

/-- The density of a coarse cell is final (R124). Cells beyond the kernel radius of the stripe's lines count as 0 (R123). -/
def State.cellFinal (s : State) (st : Stripe) (i j : Int) : Bool :=
  let r : Int := s.kernelR
  if i < 0 ∨ st.len ≤ 32 * i then true
  else if j < -r ∨ (s.lines : Int) / 32 + r ≤ j then true
  else s.bandComplete st (i / 128).toNat && !s.areas.any fun a => s.areaTouchesCell a st.number i j

/-- The factor of a cell, if computed; 16384 with R = 0 (R128). -/
def State.cellFactor (s : State) (stripe i j : Nat) : Option Nat :=
  if s.kernelR = 0 then some 16384
  else
    let region := 32 * j / (160 * s.B)
    match s.factorCol region stripe i with
    | some f => (f.rows.getD (j - s.coarseRows * region) none)
    | none => none

/-- A coarse column of a region holds a cell whose factor is not yet computed, in a tile that is not spooled: a tile given up by R88 has
been spooled without factors and needs none, so that the region goes on. With R = 0 a factor is computed once the cell's own density is
final (R131). -/
def State.factorMissing (s : State) (region : Nat) (st : Stripe) (col : Nat) : Bool :=
  let f := s.factorCol region st.number col
  (List.range s.coarseRows).any fun y =>
    let j := s.coarseRows * region + y
    (if s.kernelR = 0 then !s.cellFinal st col j
      else match f with
        | some c => (c.rows.getD y none).isNone
        | none => true) && !s.spooled ⟨st.number, col / 2, j / 2⟩

/-- The first coarse column in sweep order, from a stripe on, with a factor missing; stripes that are not accepted yet end the search
(R131). -/
def State.corrFrontFrom (s : State) (region : Nat) : Nat → Nat → Nat × Int
  | 0, n => (n, 0)
  | f + 1, n =>
    match s.stripeOf n with
    | none => (n, 0)
    | some st =>
      let col (j : Nat) : Nat := if st.dirMinus then st.coarseCols - 1 - j else j
      match (List.range st.coarseCols).find? fun j => s.factorMissing region st (col j) with
      | some j => (n, (st.span (32 * (col j : Int)) (32 * (col j : Int) + 31)).1)
      | none => s.corrFrontFrom region f (n + 1)

/-- The correction front (R131): columns of stripes before the writing position need no factor any more. -/
def State.corrFront (s : State) (region : Nat) : Nat × Int := s.corrFrontFrom region (s.lay.stripes.length + 1) s.writingPos.1

/-- CORR_LEAD (R131): as RASTER_LEAD with PEC_ENABLE = 0. -/
def State.corrLead (s : State) (region : Nat) : Int :=
  if !s.on Obj.PEC_ENABLE then s.rasterLead region
  else let p := s.corrFront region; leadI32 (s.distance p.1 p.2)

/-- The region still has tiles of a stripe not spooled. -/
def State.unspooled (s : State) (region stripe : Nat) : Bool :=
  match s.stripeOf stripe with
  | some st => let (n, m) := atD s.ras.front region (0, 0); n < stripe || (n = stripe && m < st.cols)
  | none => false

/-- Every tile of the job is spooled by every region that is not lost. -/
def State.allSpooled (s : State) : Bool :=
  s.job.endDone && regions.all fun r => s.lost r || s.lay.stripes.all fun st => !s.unspooled r st.number

end Sys2Proof.Machine
end

