-- ==== Sys2Proof/Machine/Regions.lean ====
section
/-! DEFINITION. Retirement and loss (R10 to R15, R28, R109, R110), shared by the units that retire: what a retired cell,
block or lane leaves, when a region is lost, and the region state. -/
namespace Sys2Proof.Machine

/-- A unit of a host job. -/
def LaneUnit.isHost : LaneUnit → Bool
  | .host _ => true
  | _ => false

/-- A unit that compresses a spool tile of a region. -/
def LaneUnit.tileOf (u : LaneUnit) (r : Nat) : Bool :=
  match u with
  | .spool t => t.region = r
  | _ => false

/-- A Gouge cell is retired: CELL_STATE 3, 4 or 5. -/
def State.cellRetired (s : State) (j : Nat) : Bool := s.getN (Obj.CELL_STATE + j) ≥ 3
/-- A raster block is retired. -/
def State.blockRetired (s : State) (k : Nat) : Bool := s.getN (Obj.BLOCK_STATE + k) = 1
/-- A compression lane is retired: LANE_STATE 3 (R291). -/
def State.laneRetired (s : State) (l : Nat) : Bool := s.getN (Obj.LANE_STATE + l) = 3
/-- No compression lane is in service: nothing can decompress (R300). -/
def State.noLanes (s : State) : Bool := (rangeN 0 15).all s.laneRetired
/-- A slot lane is retired (R13). -/
def State.slotRetired (s : State) (l : Nat) : Bool := s.units.lanesOut.contains l
/-- Slot lanes of a region in service. -/
def State.slotsIn (s : State) (r : Nat) : Nat := 80 - (s.units.lanesOut.filter (· / 80 = r)).length

/-- Any cell, lane or block of the region is retired (R28). -/
def State.degraded (s : State) (r : Nat) : Bool :=
  (rangeN (12 * r) (12 * r + 11)).any s.cellRetired || (rangeN (3 * r) (3 * r + 2)).any s.blockRetired ||
  (rangeN (4 * r) (4 * r + 3)).any s.laneRetired || s.slotsIn r < 80 || s.getN (Obj.CORR_BLOCK_STATE + r) = 1

/-- The counts of 2011 to 2013 and REGION_STATE follow the units (R27, R28). -/
def State.recountRegion (s : State) (r : Nat) : State :=
  let s := s.setN (Obj.RASTER_BLOCKS_IN_SERVICE + r) ((rangeN (3 * r) (3 * r + 2)).filter (!s.blockRetired ·)).length
  let s := s.setN (Obj.GOUGE_CELLS_IN_SERVICE + r) ((rangeN (12 * r) (12 * r + 11)).filter (!s.cellRetired ·)).length
  let s := s.setN (Obj.SLOT_LANES_IN_SERVICE + r) (s.slotsIn r)
  if s.lost r then s
  else s.setN (Obj.REGION_STATE + r) (if s.degraded r then 3 else atD s.units.writing r 0)

/-- Set the state of a region's writing side: 0 asleep, 1 waking, 2 awake. -/
def State.setWriting (s : State) (r v : Nat) : State :=
  ({ s with units := { s.units with writing := setAt s.units.writing r v } }).recountRegion r

/-- Set the state of a region's raster side. -/
def State.setRaster (s : State) (r v : Nat) : State := { s with units := { s.units with raster := setAt s.units.raster r v } }

/-- A region is lost (R15): its raster side stops, its units leave the work they hold, and trigger 2 arises. The entry takes
the subsystem and unit that were retired (R400, R439). -/
def State.loseRegion (s : State) (r subsys unit : Nat) : State :=
  if s.lost r then s
  else
    let s := s.setN (Obj.REGION_STATE + r) 4
    let s := { s with
      ras := { s.ras with tiles := s.ras.tiles.filter (·.region ≠ r) }
      spool := { s.spool with waiting := s.spool.waiting.filter (·.region ≠ r), redo := s.spool.redo.filter (!·.2.tileOf r) } }
    let t : Trig := ⟨2, subsys, r, unit, r⟩
    if s.isStandby then (s.logEvent (t.event 4)).raise t else s.raise t

/-- A unit of a region is retired: entered as one DEGRADED event, by the loss of the region where it has no spare. -/
def State.retireEvent (s : State) (subsys r unit : Nat) (o : ObjRef) : State := s.logEvent ⟨4, subsys, r, unit, o, 0, 0⟩

/-- The parts that cells hold are dispatched again from their start; that computation does not count (Table 04-3). -/
def State.dropCells (s : State) (p : Nat → Bool) : State :=
  { s with ras := { s.ras with
      refRun := s.ras.refRun.mapIdx fun j x => if p j then none else x
      tiles := s.ras.tiles.map fun t => { t with parts := t.parts.map fun q => if q.cell.any p then { q with cell := none } else q } } }

/-- Retire a raster block with its cells, which take CELL_STATE 5; the last one makes the region lost (R110, R136). -/
def State.retireBlock (s : State) (k : Nat) : State :=
  if s.blockRetired k then s
  else
    let r := k / 3
    let s := s.setN (Obj.BLOCK_STATE + k) 1
    let s := (rangeN (4 * k) (4 * k + 3)).foldl (fun s j => if s.cellRetired j then s else s.setN (Obj.CELL_STATE + j) 5) s
    let s := (s.dropCells (· / 4 = k)).recountRegion r
    if (rangeN (3 * r) (3 * r + 2)).all s.blockRetired then s.loseRegion r 1 k
    else s.retireEvent 1 r k (Obj.BLOCK_STATE + k)

/-- A block with two retired cells is retired (R110). -/
def State.checkBlockCells (s : State) (k : Nat) : State :=
  if 2 ≤ ((rangeN (4 * k) (4 * k + 3)).filter s.cellRetired).length then s.retireBlock k else s

/-- Retire a cell with the given CELL_STATE (R107, R109, R110). -/
def State.retireCell (s : State) (j code : Nat) : State :=
  if s.cellRetired j then s
  else
    let s := ((s.setN (Obj.CELL_STATE + j) code).dropCells (· = j)).retireEvent 1 (j / 12) j (Obj.CELL_STATE + j)
    (s.recountRegion (j / 12)).checkBlockCells (j / 4)

/-- Failures among the last 1,000 units of work, given the counts at which they were charged. -/
def recentFails (fails : List Nat) (count : Nat) : Nat := (fails.filter fun n => count < n + 1000).length

/-- CELL_FAILS of a cell (R109). -/
def State.cellFails (s : State) (j : Nat) : Nat := recentFails (atD s.ras.fails j []) (atD s.ras.runs j 0)

/-- Charge a failure to a cell and retire it at the third within its last 1,000 computations (R109). DESIGN CHOICE: a failure charged to a
cell already retired is the last failure charged as well, and stands in 230C; it has no further effect (Table 04-3). -/
def State.chargeCell (s : State) (j : Nat) (key : TileKey) (check : Nat) (dev : Int) : State :=
  let fs := (atD s.ras.runs j 0 :: atD s.ras.fails j []).take 1000
  let s := { s with ras := { s.ras with fails := setAt s.ras.fails j fs } }
  let s := (((s.setN Obj.LAST_FAIL_REGION (j / 12)).setN Obj.LAST_FAIL_CELL j).setN Obj.LAST_FAIL_STRIPE key.stripe).setN
    Obj.LAST_FAIL_TILE_COLUMN key.u
  let s := ((s.setN Obj.LAST_FAIL_TILE_ROW key.t).setN Obj.LAST_FAIL_CHECK check).set Obj.LAST_FAIL_DEVIATION (clampI (-2 ^ 31) (2 ^ 31 - 1) dev)
  if 3 ≤ s.cellFails j then s.retireCell j 3 else s

/-- Slot lanes that a group needs in service (R14): ceil(76,800 / (Tf / 2.5 ns)). -/
def State.slotsNeeded (s : State) : Nat := ceilDiv 76800 (s.getN Obj.FLASH_PERIOD)

/-- All lanes of a slot-lane group are retired, and with it its region is lost (R14, R15). `unit`: the lane whose fault did it, 255 for
none. -/
def State.retireGroup (s : State) (r unit : Nat) : State :=
  let ls := rangeN (80 * r) (80 * r + 79)
  (({ s with units := { s.units with lanesOut := ls ++ s.units.lanesOut.filter (· / 80 ≠ r) } }).recountRegion r).loseRegion r 3 unit

/-- The groups whose lanes in service no longer meet the bound of R14, which follows FLASH_PERIOD, are retired. -/
def State.checkGroups (s : State) : State :=
  regions.foldl (fun s r => if !s.lost r && s.slotsIn r < s.slotsNeeded then s.retireGroup r 255 else s) s

/-- Retire a slot lane; where that would bring its group below the bound of R14 all lanes of the group instead, and with it the
region. -/
def State.retireSlot (s : State) (l : Nat) : State :=
  if s.slotRetired l ∨ s.lost (l / 80) then s
  else
    let r := l / 80
    if s.slotsIn r - 1 < s.slotsNeeded then s.retireGroup r (l % 80)
    else
      let s := ({ s with units := { s.units with lanesOut := l :: s.units.lanesOut } }).recountRegion r
      s.retireEvent 3 r (l % 80) (Obj.SLOT_LANES_IN_SERVICE + r)

end Sys2Proof.Machine
end

