-- ==== Sys2Proof/Machine/Ledger.lean ====
section
/-! DEFINITION. The shortfall ledger and the defect list (R218 to R225, R235, R237, R238): entries, residual tiles, space,
reporting, acknowledgement, and the tiles that the spool retains (R223). -/
namespace Sys2Proof.Machine

/-- Entry states (Table 09-3) and flags (Table 09-2). -/
abbrev entryOpen : Nat := 0
abbrev entryRepaired : Nat := 1
abbrev entrySuperseded : Nat := 2
abbrev entryReported : Nat := 3
def Entry.unknown (e : Entry) : Bool := bitOf e.flags 0
def Entry.spoolRef (e : Entry) : Bool := bitOf e.flags 2
def Entry.isOpen (e : Entry) : Bool := e.state = entryOpen

/-- Bytes that an entry and its data take (R225): 32, and the data. -/
def Entry.space (e : Entry) : Nat := 32 + e.length

/-- Whether an entry's space is in use: OPEN, or REPORTED with records not acknowledged (R225). -/
def Entry.uses (e : Entry) : Bool := e.isOpen || (e.state = entryReported && (e.left > 0 || e.awaits))

/-- LEDGER_USED: entries, their data, and defect records of 16 bytes (R225). -/
def State.ledgerUsed (s : State) : Nat := sumMap Entry.space (s.ledger.entries.filter Entry.uses) + 16 * s.ledger.defects.length

/-- LEDGER_RESERVE (R225). -/
def State.ledgerReserve (s : State) : Nat := (ceilDiv (479 * s.B + 72) 64 + 1) * 10 * s.B * 8224

/-- Free space of the ledger region. -/
def State.ledgerFree (s : State) : Nat := s.getN Obj.LEDGER_SIZE - s.ledgerUsed

/-- LEDGER_OPEN. -/
def State.ledgerOpen (s : State) : Nat := (s.ledger.entries.filter Entry.isOpen).length

/-- Index of the OPEN entry of a tile; there is at most one (R220). -/
def State.openEntry (s : State) (k : TileKey) : Option Nat := s.ledger.entries.findIdx? fun e => e.isOpen && e.key = k

/-- Change entry `i`. -/
def State.modEntry (s : State) (i : Nat) (f : Entry → Entry) : State :=
  { s with ledger := { s.ledger with entries := modifyAt s.ledger.entries i f } }

/-- The rejection that an UNKNOWN entry waits for is still pending (R230). -/
def State.ownerPending (s : State) (e : Entry) : Bool := e.unknown && e.owner.any fun q => s.st.pending.any (·.seq = q)

/-- A tile's spool tile, if it is spooled and can be read. -/
def State.spoolTile (s : State) (k : TileKey) : Option SpoolTile := s.spool.tiles.find? fun t => t.key = k && !t.bad

/-- The value of a pixel of a spool tile (R294). -/
def SpoolTile.value (t : SpoolTile) (p : Nat) : Nat := (t.vals.getD p 0).toNat

/-- rem0 of a spool value, and the full target of a pixel (R147, R223): rnediv(v·Ucap·64, 255). -/
def State.rem0 (s : State) (v : Nat) : Nat := rneDivN (v * s.ucap * 64) 255

/-- A spool tile is retained: an OPEN entry holds never-loaded pixels of it, or it lies beyond a park (R223, R226). -/
def State.retained (s : State) (t : SpoolTile) : Bool :=
  s.ledger.entries.any (fun e => (e.isOpen || e.awaits) && e.spoolRef && e.key = t.key) ||
  match s.flow.parked, s.stripeOf t.key.stripe with
  | some (n, i), some st => t.key.stripe = n && i < (st.colSpan t.key.u).2
  | _, _ => false

/-- The 4,096 values of a residual tile (R221); an UNKNOWN entry reads as zeros. -/
def Entry.tileBytes (e : Entry) : Bytes :=
  (List.range 4096).flatMap fun p => leBytes 2 ((e.vals.find? (·.1 = p)).elim 0 (·.2))

/-- A residual tile is queued for compression, with its CRC-32C kept beside it (R297); a region without a lane in service stores it raw (R221,
R291). -/
def State.storeResidual (s : State) (i : Nat) : State :=
  match s.ledger.entries[i]? with
  | none => s
  | some e =>
    if e.unknown then s
    else
    let s := s.modEntry i fun e => { e with crc := crc32c e.tileBytes }
    if (rangeN (4 * e.region) (4 * e.region + 3)).all s.laneRetired then
      let (a, s) := s.freeNat
      s.modEntry i fun e => { e with length := 8192, addr := a, flags := setBit e.flags 1 }
    else { s with spool := { s.spool with resWait := s.spool.resWait ++ [(e.region, i)] } }

/-- Append an entry: counted by its causes and entered as one DEFERRED event (R220, R400). Nothing is appended after the
t = 0 of an abort or HALT (R57). -/
def State.appendEntry (s : State) (e : Entry) : State :=
  if s.job.abortAt.isSome then s
  else
    let i := s.ledger.entries.length
    let s := ({ s with ledger := { s.ledger with entries := s.ledger.entries ++ [e] } }).inc Obj.LEDGER_ENTRIES
    let s := foldN 6 (fun s j => if bitOf e.cause j then s.inc (Obj.TILES_BY_CAUSE + j) else s) s
    (s.logEvent ⟨3, 4, e.region, 255, Obj.LEDGER_ENTRIES, i, 0⟩).storeResidual i

/-- An UNKNOWN entry of a given-up or unresolved tile, cause REJECTED (R222). -/
def State.appendUnknown (s : State) (k : TileKey) (region : Nat) (owner : Option Nat) : State :=
  match s.openEntry k with
  | some _ => s
  | none => s.appendEntry { key := k, region := region, cause := 0x10, flags := 1, pixels := 4096, sum := 0, vals := [], owner := owner }

/-- Sum of the residual values other than 0xFFFF. -/
def residualSum (vals : List (Nat × Nat)) : Nat := sumMap (fun p => if p.2 = 0xFFFF then 0 else p.2) vals

/-- The tile of a main or resume sweep retires with residual pixels: one entry, or the residual joins its OPEN entry. -/
def State.addResidual (s : State) (k : TileKey) (region cause pass : Nat) (vals : List (Nat × Nat)) : State :=
  let ref := if vals.any (·.2 = 0xFFFF) then 4 else 0
  match s.openEntry k with
  | some i =>
    if s.job.abortAt.isSome then s
    else
      let s := s.modEntry i fun e =>
        let vs := vals.foldl (fun l p => kvSet l p.1 p.2) e.vals
        if e.unknown then e
        else { e with vals := vs, pixels := vs.length, sum := residualSum vs, cause := e.cause ||| cause, flags := e.flags ||| ref }
      s.storeResidual i
  | none => s.appendEntry { key := k, region := region, cause := cause, flags := ref, pixels := vals.length, pass := pass,
                            sum := residualSum vals, vals := vals }

/-- Defect records of an entry at its reporting (R235, R237). -/
def State.defectsOf (s : State) (i : Nat) (e : Entry) (noRef : Bool) : List Defect :=
  match s.stripeOf e.key.stripe with
  | none => []
  | some st =>
    let x : Int := st.xStart + 64 * e.key.u
    let y : Int := st.yOrigin + 64 * e.key.t
    if e.unknown || e.bad then [⟨x, y, 0xFFFFFFFF, e.key.stripe, e.cause, 3, some i, false⟩]
    else
      let tile := if noRef then none else s.spoolTile e.key
      e.vals.map fun (p, v) =>
        let d (m f : Nat) : Defect := ⟨x + (p % 64 : Nat), y + (p / 64 : Nat), m, e.key.stripe, e.cause, f, some i, false⟩
        if v = 0xFFFF then
          match tile with
          | some t => d (s.rem0 (t.value p)) 0
          | none => d 0xFFFFFFFF 1
        else d v 0

/-- Append the records of entry `i`. -/
def State.makeRecords (s : State) (i : Nat) (noRef : Bool) : State :=
  match s.ledger.entries[i]? with
  | none => s
  | some e =>
    let ds := s.defectsOf i e noRef
    let s := (s.modEntry i fun e => { e with left := ds.length, awaits := false }).add Obj.DEFECT_RECORDS_TOTAL ds.length
    { s with ledger := { s.ledger with defects := s.ledger.defects ++ ds } }

/-- An entry becomes REPORTED (R229, R237). Records of pixels never loaded wait for their spool tile while the region that
spools it is not lost. `noRef`: the targets of such pixels are not known (Table 11-5 code 3). -/
def State.reportEntry (s : State) (i : Nat) (noRef : Bool := false) : State :=
  match s.ledger.entries[i]? with
  | none => s
  | some e =>
    if !e.isOpen then s
    else
      let s := (s.modEntry i fun e => { e with state := entryReported }).inc Obj.TILES_REPORTED
      let waits := !e.unknown && !e.bad && !noRef && e.spoolRef && (s.spoolTile e.key).isNone && !s.lost e.region
      if waits then s.modEntry i fun e => { e with awaits := true } else s.makeRecords i noRef

/-- Report every OPEN entry of the stripes that `p` selects. -/
def State.reportOpen (s : State) (p : Entry → Bool) : State :=
  (List.range s.ledger.entries.length).foldl (fun s i =>
    match s.ledger.entries[i]? with
    | some e => if e.isOpen && p e then s.reportEntry i else s
    | none => s) s

/-- Records that waited for a spool tile are made when it is spooled, or when its region is lost. -/
def State.awaitedRecords (s : State) : State :=
  (List.range s.ledger.entries.length).foldl (fun s i =>
    match s.ledger.entries[i]? with
    | some e => if e.awaits && ((s.spoolTile e.key).isSome || s.lost e.region) then s.makeRecords i false else s
    | none => s) s

/-- Acknowledge the `n` oldest defect records (R238). -/
def State.ackDefects (s : State) (n : Nat) : State :=
  (s.ledger.defects.take n).foldl (fun s d =>
    match d.entry with
    | some i => s.modEntry i fun e => { e with left := e.left - 1 }
    | none => s) { s with ledger := { s.ledger with defects := s.ledger.defects.drop n } }

/-- DEFECT_ACK: a value above DEFECT_RECORDS, or 0, is refused with RANGE (R238). -/
def writeDefectAck (s : State) (by_ : Caller) (n : Nat) : Wr :=
  s.gate by_ Obj.DEFECT_ACK fun s =>
    if n = 0 ∨ s.ledger.defects.length < n then s.deny stRange else (s.ackDefects n).ok

/-- DEFECT_ACK. -/
def execDefectAck (by_ : Caller) (n : Nat) (s : State) : Out := .next (writeDefectAck s by_ n).1

/-- Bytes of an entry (Table 09-2). -/
def Entry.toBytes (e : Entry) : Bytes :=
  leBytes 4 e.key.stripe ++ leBytes 2 (e.key.u / 64) ++ [byte (e.key.u % 64), byte e.cause] ++ leBytes 2 e.key.t ++
  [byte e.flags, byte e.state] ++ leBytes 2 e.pixels ++ [byte e.pass, 0] ++ leBytes 4 e.sum ++ leBytes 4 e.length ++ leBytes 8 e.addr

/-- 2903.00 LEDGER. -/
def State.ledgerBytes (s : State) : Bytes := s.ledger.entries.flatMap Entry.toBytes

/-- Bytes of a defect record (Table 09-4). -/
def Defect.toBytes (d : Defect) : Bytes :=
  leBytesI 4 d.x ++ leBytesI 4 d.y ++ leBytes 4 d.missing ++ leBytes 2 d.stripe ++ [byte d.cause, byte d.flags]

/-- 2907.01 DEFECT_LIST. -/
def State.defectBytes (s : State) : Bytes := s.ledger.defects.flatMap Defect.toBytes

end Sys2Proof.Machine
end

