-- ==== Sys2Proof/Machine/Spool.lean ====
section
/-! DEFINITION. The dose spool (R102, R294 to R299): storing a tile, the spool front, the release of bands (R79), the freeing
of tiles (R296), and the work that the compression lanes take (R290, R291). -/
namespace Sys2Proof.Machine

/-- A lane is in service and holds no unit. -/
def State.laneFree (s : State) (l : Nat) : Bool := !s.laneRetired l && (atD s.spool.lanes l {}).unit.isNone

/-- Change lane `l`. -/
def State.modLane (s : State) (l : Nat) (f : Lane → Lane) : State :=
  { s with spool := { s.spool with lanes := modifyAt s.spool.lanes l f } }

/-- Whether lane `l` may compute again a unit that failed on lane `f`: another lane of the same region where one is in
service, otherwise any other lane in service, otherwise `f` itself (R291). -/
def State.mayRedo (s : State) (l f : Nat) : Bool :=
  let near := (rangeN (4 * (f / 4)) (4 * (f / 4) + 3)).filter fun x => x ≠ f && !s.laneRetired x
  let far := (List.range 16).filter fun x => x ≠ f && !s.laneRetired x
  if !near.isEmpty then near.contains l else if !far.isEmpty then far.contains l else l = f

/-- Priority of a unit's work (Table 12-1). -/
def LaneUnit.rank : LaneUnit → Nat
  | .spool _ => 1
  | .residual _ => 2
  | .fiufen _ => 3
  | .host _ => 4

/-- The lane that holds a host job, by the index of its descriptor. -/
def State.laneOfJob (s : State) (index : Nat) : Option Nat :=
  (List.range 16).find? fun l => (atD s.spool.lanes l {}).host.any (·.index = index)

/-- A segment of a host job is on a lane or waits to be computed again. -/
def State.jobBusy (s : State) (index : Nat) : Bool :=
  s.spool.lanes.any (fun x => x.unit = some (.host index)) || s.spool.redo.any fun p => p.2 = .host index

/-- The host job whose next segment lane `l` takes (R290): its own, or the first of a lane that is busy or retired. -/
def State.hostWork (s : State) (l : Nat) : Option Nat :=
  let ready (m : Nat) : Option Nat := match (atD s.spool.lanes m {}).host with
    | some j => if j.paused || s.jobBusy j.index then none else some j.index
    | none => none
  match ready l with
  | some i => some i
  | none => ((List.range 16).filter fun m => !s.laneFree m).findSome? ready

/-- The segment of the block under decompression that comes next and is given to lane `l` (R300). -/
def State.fiufenWork (s : State) (l : Nat) : Option Nat :=
  match s.st.inflating with
  | some x =>
    if x.lanes[x.done]? = some l ∧ !s.spool.lanes.any (fun y => y.unit = some (.fiufen x.done)) ∧ !s.spool.redo.any (fun p => p.2 = .fiufen x.done)
    then some x.done else none
  | none => none

/-- Work of one priority for lane `l`, with the state from which it is taken: a unit to be computed again goes first. -/
def State.takeRank (s : State) (l rank : Nat) : Option (LaneUnit × State) :=
  match s.spool.redo.findIdx? fun p => p.2.rank = rank && s.mayRedo l p.1 with
  | some i => (s.spool.redo[i]?).map fun p => (p.2, { s with spool := { s.spool with redo := s.spool.redo.eraseIdx i } })
  | none =>
    match rank with
    | 1 => (s.spool.waiting.findIdx? fun t => t.region = l / 4).bind fun i => (s.spool.waiting[i]?).map fun t =>
        (.spool t, { s with spool := { s.spool with waiting := s.spool.waiting.eraseIdx i } })
    | 2 => (s.spool.resWait.findIdx? fun p => p.1 = l / 4).bind fun i => (s.spool.resWait[i]?).map fun p =>
        (.residual p.2, { s with spool := { s.spool with resWait := s.spool.resWait.eraseIdx i } })
    | 3 => (s.fiufenWork l).map fun k => (.fiufen k, s)
    | _ => (s.hostWork l).map fun i => (.host i, s)

/-- A free lane takes work in the order of Table 12-1. -/
def State.feedLane (s : State) (l : Nat) : State :=
  if !s.laneFree l then s
  else match [1, 2, 3, 4].findSome? (s.takeRank l) with
    | some (u, s) => s.modLane l fun x => { x with unit := some u }
    | none => s

/-- Every free lane takes work. -/
def State.feedLanes (s : State) : State := foldN 16 State.feedLane s

/-- The lanes that take the segments of a block, in order (R300): each goes to the lane in service with the least Fiufen work queued, the
lower-numbered one first; `given` are the lanes of those queued before. -/
def giveSegments (service : List Nat) : Nat → List Nat → List Nat
  | 0, given => given
  | n + 1, given =>
    let load (l : Nat) : Nat := (given.filter (· = l)).length
    match service with
    | [] => given
    | x :: r => giveSegments service n (given ++ [r.foldl (fun m l => if load l < load m then l else m) x])

/-- The compression lanes in service. -/
def State.lanesIn (s : State) : List Nat := (List.range 16).filter (!s.laneRetired ·)

/-- The segments of a block that a retired lane was given and has not begun go to the lanes left (R291, R304). -/
def State.regive (s : State) (l : Nat) : State :=
  match s.st.inflating with
  | some x =>
    let kept := x.lanes.take x.done
    let left := (x.lanes.drop x.done).foldl (fun acc m => if m = l then giveSegments s.lanesIn 1 acc else acc ++ [m]) []
    { s with st := { s.st with inflating := some { x with lanes := kept ++ left } } }
  | none => s

/-- Whether every tile of the column that a front stands at is spooled. -/
def State.columnDone (s : State) (r : Nat) (st : Stripe) (m : Nat) : Bool :=
  (rangeN (s.tileRows * r) (s.tileRows * r + s.tileRows - 1)).all fun t => s.ras.done.contains ⟨st.number, st.colAt m, t⟩

/-- The spool front advances across complete columns, in sweep order (R102). -/
def State.advanceFront (r : Nat) : Nat → State → State
  | 0, s => s
  | f + 1, s =>
    let (n, m) := atD s.ras.front r (0, 0)
    match s.stripeOf n with
    | none => s
    | some st =>
      if m < st.cols then
        if s.columnDone r st m then
          State.advanceFront r f { s with ras := { s.ras with
            front := setAt s.ras.front r (n, m + 1)
            done := s.ras.done.filter fun k => !(k.stripe = n && k.u = st.colAt m && s.regionOf k.t = r) } }
        else s
      else if (s.stripeOf (n + 1)).isSome then
        State.advanceFront r f { s with ras := { s.ras with front := setAt s.ras.front r (n + 1, 0) } }
      else s

/-- A region has spooled every tile of a band, or is lost (R79, R125). -/
def State.bandSpooled (s : State) (r stripe band : Nat) : Bool :=
  s.lost r ||
  match s.stripeOf stripe with
  | none => true
  | some st =>
    let (n, m) := atD s.ras.front r (0, 0)
    let last := max (st.idxOf (64 * band)) (st.idxOf (min (64 * band + 63) (st.cols - 1)))
    stripe < n || (stripe = n && last < m)

/-- Release indexes (R79): they pass blocks in ring order as far as no unreleased block stands before. -/
def State.advanceRelease (s : State) : State :=
  let lim (r : Ring) (cons : Nat) : Nat := ((s.st.unreleased.find? (·.ring = r)).map (·.index)).getD cons
  let a := lim .stream (s.getN Obj.STREAM_CONSUMER)
  let b := lim .repair s.st.repairConsumer
  if a = s.getN Obj.STREAM_RELEASE ∧ b = s.st.repairRelease then s
  else
    let s := s.setN Obj.STREAM_RELEASE a
    { s with st := { s.st with repairRelease := b, dirty := true } }

/-- Blocks whose bands every region has spooled are released (R79). -/
def State.releaseBands (s : State) : State :=
  let gone (stripe band : Nat) : Bool := regions.all fun r => s.bandSpooled r stripe band
  if s.st.unreleased.any fun u => u.tiles && gone u.stripe u.band then
    let s' := { s with
      st := { s.st with
        unreleased := s.st.unreleased.filter fun u => !(u.tiles && gone u.stripe u.band)
        reload := s.st.reload.filter fun x => !s.lay.blocks.any fun b => b.seq = x.seq && gone b.stripe b.band }
      lay := { s.lay with blocks := s.lay.blocks.map fun (b : LBlock) => if gone b.stripe b.band then { b with released := true } else b } }
    s'.advanceRelease
  else s

/-- The widened box of a block meets a tile (R88 steps 1 to 3). -/
def State.reaches (s : State) (b : LBlock) (k : TileKey) : Bool :=
  b.stripe = k.stripe &&
  (s.areaParts ⟨b.seq, b.seq, b.stripe, b.band, b.halo, b.bbox, none⟩).any fun p =>
    p.x0 ≤ 64 * k.u + 63 && (64 * k.u : Int) ≤ p.x1 && p.y0 ≤ 64 * k.t + 63 && (64 * k.t : Int) ≤ p.y1

/-- Two boxes of pixels meet. -/
def PixBox.meets (p q : PixBox) : Bool := p.x0 ≤ q.x1 && q.x0 ≤ p.x1 && p.y0 ≤ q.y1 && q.y0 ≤ p.y1

/-- The widened boxes of R88 around an UNKNOWN entry's tile: those of the block that its rejection concerns, pending or repaired, that
reach the tile. DESIGN CHOICE: a tile left unresolved by R106, and one whose rejection has no box any more, has the tile's own square,
widened in the same way. -/
def State.entryBoxes (s : State) (e : Entry) : List PixBox :=
  let tile : PixBox := ⟨64 * e.key.u, 64 * e.key.u + 63, 64 * e.key.t, 64 * e.key.t + 63⟩
  let r : Int := 32 + 32 * (s.kernelR : Int)
  let blocks : List Area := s.lay.blocks.map fun b => ⟨b.seq, b.seq, b.stripe, b.band, b.halo, b.bbox, none⟩
  let own := (s.areas ++ blocks).filter fun a => e.owner = some a.owner && a.stripe = e.key.stripe
  match (own.flatMap s.areaParts).filter tile.meets with
  | [] => [⟨tile.x0 - r, tile.x1 + r, tile.y0 - r, tile.y1 + r⟩]
  | ps => ps

/-- A block is kept for an OPEN UNKNOWN entry: its BBOX meets the widened box (R222). -/
def State.keptFor (s : State) (b : LBlock) (e : Entry) : Bool :=
  let off : Int := 4096 * (b.band : Int)
  e.isOpen && e.unknown && b.stripe = e.key.stripe &&
  (s.entryBoxes e).any (PixBox.meets ⟨off + b.bbox.xMin / 256, off + b.bbox.xMax / 256, b.bbox.yMin / 256, b.bbox.yMax / 256⟩)

/-- A block is in the block buffer: not yet released, or kept for an OPEN UNKNOWN entry (R222). -/
def State.blockHeld (s : State) (b : LBlock) : Bool := b.held && (!b.released || s.ledger.entries.any (s.keptFor b))

/-- Bytes of the block buffer in use. -/
def State.bufferUsed (s : State) : Nat := sumMap (·.bytes) (s.lay.blocks.filter s.blockHeld)

/-- Pixels of a tile inside the stripe. -/
def State.tilePixels (s : State) (k : TileKey) : Nat :=
  match s.stripeOf k.stripe with
  | some st => 64 * (min 64 (st.len - 64 * (k.u : Int))).toNat
  | none => 4096

/-- Tiles of which every pixel is loaded and that are not retained leave the spool (R296). -/
def State.freeTiles (s : State) : State :=
  { s with spool := { s.spool with tiles := s.spool.tiles.filter fun t => t.loaded < s.tilePixels t.key || s.retained t } }

/-- The main sweep of a tile's stripe, its resume sweeps included, has passed its column (R220, R226). -/
def State.columnClosed (s : State) (k : TileKey) : Bool :=
  let beyondPark := match s.flow.parked, s.stripeOf k.stripe with
    | some (n, i), some st => k.stripe = n && i < (st.colSpan k.u).2
    | _, _ => false
  k.stripe < s.flow.next && !beyondPark && !(s.sweep.stripe = k.stripe && s.getN Obj.SWEEP_KIND = 0 && s.sweep.cols.contains k.u)

/-- Residual values of a tile once its targets are known (R148): a pixel never loaded whose full target does not exceed
RESIDUAL_TOLERANCE has retired complete. -/
def State.judged (s : State) (t : SpoolTile) (vals : List (Nat × Nat)) : List (Nat × Nat) :=
  vals.filter fun p => p.2 ≠ 0xFFFF || s.getN Obj.RESIDUAL_TOLERANCE < s.rem0 (t.value p.1)

/-- Pixels of a tile that retired never loaded before it was spooled are judged when it is stored: those that remain residual count in
PIXELS_RESIDUAL, the others leave the residual (R148). DESIGN CHOICE: an entry that loses its last pixel so stays as it is, with none,
for the Burnish pass to end. -/
def State.judgeRefs (s : State) (t : SpoolTile) : State :=
  let refs (vals : List (Nat × Nat)) : Nat := (vals.filter (·.2 = 0xFFFF)).length
  let mine (e : Entry) : Bool := e.key = t.key && (e.isOpen || e.awaits) && !e.unknown && e.spoolRef
  let accs (l : List TileAcc) : List TileAcc := (l.map fun a =>
    if a.u = t.key.u ∧ a.t = t.key.t then ({ a with vals := s.judged t a.vals } : TileAcc) else a).filter fun a => !a.vals.isEmpty
  let sweep := if s.sweep.stripe = t.key.stripe then accs s.sweep.accs else s.sweep.accs
  let flow := if s.flow.parked.any (·.1 = t.key.stripe) then accs s.flow.accs else s.flow.accs
  let of_ (l : List TileAcc) : Nat := sumMap (fun a => if a.u = t.key.u ∧ a.t = t.key.t then refs a.vals else 0) l
  let n := (if s.sweep.stripe = t.key.stripe then of_ sweep else 0) + (if s.flow.parked.any (·.1 = t.key.stripe) then of_ flow else 0) +
    sumMap (fun e => if mine e then refs (s.judged t e.vals) else 0) s.ledger.entries
  let fix (e : Entry) : Entry :=
    let vs := s.judged t e.vals
    if mine e then { e with vals := vs, pixels := vs.length, flags := if refs vs = 0 then clearBit e.flags 2 else e.flags } else e
  let changed := (List.range s.ledger.entries.length).filter fun i =>
    (s.ledger.entries[i]?).any fun e => mine e && e.isOpen && s.judged t e.vals ≠ e.vals
  let s' : State := { s with
    sweep := { s.sweep with accs := sweep }
    flow := { s.flow with accs := flow }
    ledger := { s.ledger with entries := s.ledger.entries.map fix } }
  let s' := changed.foldl State.storeResidual s'
  if n = 0 then s' else s'.add (Obj.PIXELS_RESIDUAL + t.region) n

/-- The first byte of a region's quarter of the spool, and its bytes (R296). -/
def State.quarter (s : State) (r : Nat) : Nat × Nat :=
  let n := s.getN Obj.SPOOL_SIZE / 4
  (s.getN Obj.SPOOL_BASE + n * r, n)

/-- Bytes that a tile's data takes (R295). -/
def SpoolTile.dataBytes (t : SpoolTile) : Nat := 128 * ceilDiv t.length 128

/-- The ranges of a quarter that tiles occupy: index entries and data. -/
def State.spoolTaken (s : State) (r : Nat) : List (Nat × Nat) :=
  (s.spool.tiles.filter (·.region = r)).flatMap fun t => (t.entry, 16) :: (if t.dataBytes = 0 then [] else [(t.addr, t.dataBytes)])

/-- An address for `n` bytes in a quarter, a multiple of `align`, clear of what is taken: the spec leaves to the device where a tile's data
and its index entry stand, so that a free value says from where on the first free place is taken. -/
def State.spoolPlace (s : State) (r n align : Nat) (taken : List (Nat × Nat)) : Nat × State :=
  let (x, s) := s.freeNat
  let (base, size) := s.quarter r
  let up (a : Nat) : Nat := align * ceilDiv a align
  let spots := ((base + x % (size + 1)) :: base :: taken.map (fun p => p.1 + p.2)).map up
  let fits (a : Nat) : Bool := base ≤ a && a + n ≤ base + size && taken.all fun p => a + n ≤ p.1 || p.1 + p.2 ≤ a
  ((spots.find? fits).getD (up base), s)

/-- A tile takes its places in the spool (R295): DATA_ADDR a multiple of 128, 0 when EMPTY, and its index entry. -/
def State.placeTile (s : State) (t : SpoolTile) : SpoolTile × State :=
  let taken := s.spoolTaken t.region
  let (e, s) := s.spoolPlace t.region 16 16 taken
  if t.dataBytes = 0 then ({ t with addr := 0, entry := e }, s)
  else
    let (a, s) := s.spoolPlace t.region t.dataBytes 128 ((e, 16) :: taken)
    ({ t with addr := a, entry := e }, s)

/-- The 16 bytes of a tile's index entry (Table 12-4); FLAGS[3] while the tile is retained. -/
def State.indexEntry (s : State) (t : SpoolTile) : Bytes :=
  leBytes 8 t.addr ++ leBytes 2 t.length ++ [byte (t.flags % 8 + 8 * b2n (s.retained t)), byte t.lane] ++ leBytes 4 t.crc.toNat

/-- The stored form of a tile's values (R294). -/
def SpoolTile.stored (t : SpoolTile) : Bytes :=
  if bitOf t.flags 0 then [] else if bitOf t.flags 1 then t.vals else deflateTile (bitOf t.flags 2) t.vals

/-- The bytes of a word of the spool that a tile's index entry or data gives. -/
def State.spoolWord (s : State) (a : Nat) : Option Nat :=
  s.spool.tiles.findSome? fun t =>
    if t.entry ≤ a && a < t.entry + 16 then some (leAt (s.indexEntry t) (a - t.entry) 8)
    else if t.addr ≤ a && a < t.addr + t.length && !bitOf t.flags 0 then some (leAt (t.stored ++ zeros 8) (a - t.addr) 8)
    else none

/-- A spool tile is stored: the pixels that waited for it are judged, the front, the bands and the records that waited for it follow.
One whose column the main sweep has already passed has nothing left to load there (R223, R296). -/
def State.storeTile (s : State) (t : SpoolTile) : State :=
  let t := if !t.again && s.columnClosed t.key then { t with loaded := 4096 } else t
  let s := { s with spool := { s.spool with tiles := s.spool.tiles.filter (·.key ≠ t.key) } }
  let (t, s) := s.placeTile t
  let s := { s with spool := { s.spool with tiles := s.spool.tiles ++ [t] } }
  let s := if bitOf t.flags 1 then s.inc (Obj.SPOOL_RAW_TILES + t.region) else s
  let s := if t.again then s
    else
      let s := { s.judgeRefs t with ras := { s.ras with done := t.key :: s.ras.done } }
      (State.advanceFront t.region (s.ras.done.length + s.lay.stripes.length + 1) s).releaseBands
  (s.awaitedRecords).freeTiles

/-- An EMPTY tile (Table 12-4). -/
def emptyTile (k : TileKey) (region : Nat) (again : Bool) : SpoolTile := { key := k, region := region, vals := [], again := again }

/-- A RAW tile. -/
def SpoolTile.raw (t : SpoolTile) : SpoolTile := { t with flags := 2, lane := 255, length := 4096 }

/-- The raster block hands a checked tile to the spool with its 4,096 values (R294). -/
def State.handTile (s : State) (k : TileKey) (region : Nat) (vals : Bytes) (again : Bool) : State :=
  if vals.all (· = 0) then s.storeTile (emptyTile k region again)
  else
    let t : SpoolTile := { key := k, region := region, vals := vals, flags := 0, crc := crc32c vals, again := again }
    if (rangeN (4 * region) (4 * region + 3)).all s.laneRetired then s.storeTile t.raw
    else ({ s with spool := { s.spool with waiting := s.spool.waiting ++ [t] } }).feedLanes

/-- A lane has compressed a spool tile: stored as compressed if shorter than 4,096 bytes, RAW otherwise (R294). -/
def State.packTile (s : State) (l : Nat) (t : SpoolTile) : State :=
  let dyn := s.getN Obj.SPOOL_TABLES = 1
  let z := deflateTile dyn t.vals
  if z.length < 4096 then
    let s := { s with spool := { s.spool with
      raw := modifyAt s.spool.raw t.region (· + 4096), packed := modifyAt s.spool.packed t.region (· + z.length) } }
    s.storeTile { t with flags := if dyn then 4 else 0, lane := l, length := z.length }
  else s.storeTile t.raw

/-- A lane has compressed a residual tile: raw where that is not shorter than 8,192 bytes (R221). -/
def State.packResidual (s : State) (i : Nat) : State :=
  match s.ledger.entries[i]? with
  | none => s
  | some e =>
    let z := deflateTile (s.getN Obj.SPOOL_TABLES = 1) e.tileBytes
    let (a, s) := s.freeNat
    let n := min 8192 z.length
    s.modEntry i fun e => { e with length := n, addr := a, flags := if z.length < 8192 then clearBit e.flags 1 else setBit e.flags 1 }

/-- SPOOL_RATIO (Table 12-9). -/
def State.spoolRatio (s : State) (r : Nat) : Nat :=
  let p := atD s.spool.packed r 0
  if p = 0 then 0 else min 65535 (100 * atD s.spool.raw r 0 / p)

/-- SPOOL_RETAINED of a quarter (R296). -/
def State.spoolRetained (s : State) (r : Nat) : Nat := sumMap tileBytes (s.spool.tiles.filter fun t => t.region = r && s.retained t)

/-- SPOOL_NEED for a depth (R299); B is 32 while no head identity has been read. -/
def spoolNeed (depth b : Nat) : Nat := (ceilDiv (depth + 480 * b) 64 + 2) * 10 * b * 4112

end Sys2Proof.Machine
end

