-- ==== Sys2Proof/Machine/Raster.lean ====
section
/-! DEFINITION. The raster blocks (R93 to R110, R136): which tile is dispatched next, the checks of a completed computation,
recompute, charging and unresolved tiles, the value step, reference tiles. -/
namespace Sys2Proof.Machine

/-- Cycles of a part on a cell: a cell holds a part while a part names it. -/
def State.cellBusy (s : State) (j : Nat) : Bool := s.ras.tiles.any fun t => t.parts.any fun p => p.cell = some j

/-- CELL_STATE as it reads: retired codes, else BUSY, REFERENCE or IDLE. -/
def State.cellState (s : State) (j : Nat) : Nat :=
  if s.cellRetired j then s.getN (Obj.CELL_STATE + j)
  else if s.cellBusy j then 1
  else if (atD s.ras.refRun j none).isSome then 2 else 0

/-- Corrected primitives of the blocks of the band of tile column `u` that the tile's region receives, near the tile, each as the edges of
one instance (R19, R93, R95). -/
def State.tilePrims (s : State) (st : Stripe) (u t : Nat) : List (List Edge) :=
  let bs := s.lay.blocks.filter fun b => b.stripe = st.number && b.band = u / 64 && !b.halo && s.receives (s.regionOf t) b
  let ps := bs.flatMap fun b => blockPrims s.lay st b (64 * u) (64 * t) (64 * u + 64) (64 * t + 64)
  ps.mapIdx fun i p => p.edges i

/-- The edge list of a square of a tile. -/
def partList (prims : List (List Edge)) (u t x0 y0 side : Nat) : EdgeList :=
  edgeList prims ((64 * u + x0 : Nat) : Rat) ((64 * t + y0 : Nat) : Rat) (side : Rat)

/-- A list exceeds a limit of R97. -/
def EdgeList.over (l : EdgeList) : Bool := 16384 < l.count || 1024 < l.insts

/-- The squares of a tile (R97): divided while over a limit, down to 16 × 16. -/
def splitParts (prims : List (List Edge)) (u t : Nat) : Nat → Nat → Nat → Nat → List Part
  | 0, x0, y0, side => [{ x0 := x0, y0 := y0, side := side, unresolved := true }]
  | f + 1, x0, y0, side =>
    if !(partList prims u t x0 y0 side).over then [{ x0 := x0, y0 := y0, side := side }]
    else if side ≤ 16 then [{ x0 := x0, y0 := y0, side := side, unresolved := true }]
    else
      let h := side / 2
      [(x0, y0), (x0 + h, y0), (x0, y0 + h), (x0 + h, y0 + h)].flatMap fun q => splitParts prims u t f q.1 q.2 h

/-- The tile that a cursor stands at: stripe, column in sweep order, row within the region. -/
def State.tileAt (s : State) (r : Nat) (c : Nat × Nat × Nat) : Option (Stripe × TileKey) :=
  match s.stripeOf c.1 with
  | none => none
  | some st => if st.cols ≤ c.2.1 then none else some (st, ⟨c.1, st.colAt c.2.1, s.tileRows * r + c.2.2⟩)

/-- The cursor after a tile; past the last column it stands at the next stripe. -/
def State.nextCursor (s : State) (c : Nat × Nat × Nat) : Nat × Nat × Nat :=
  if c.2.2 + 1 < s.tileRows then (c.1, c.2.1, c.2.2 + 1)
  else match s.stripeOf c.1 with
    | some st => if c.2.1 + 1 < st.cols then (c.1, c.2.1 + 1, 0) else (c.1 + 1, 0, 0)
    | none => c

/-- A stored block that reaches a tile is being fetched again (R90). -/
def State.reloading (s : State) (k : TileKey) : Bool := s.lay.blocks.any fun b => s.st.reload.any (·.seq = b.seq) && s.reaches b k

/-- The layout and the space let a tile be dispatched (R76, R90, R94, R298). -/
def State.tileDue (s : State) (r : Nat) (st : Stripe) (k : TileKey) : Bool :=
  !s.reloading k && s.bandComplete st (k.u / 64) && s.runAhead k ≤ (s.getN Obj.RUN_AHEAD_DEPTH : Int) && s.columnFits r

/-- A region's raster side may work: R94's job states, before the t = 0 of an abort, region not lost, core running. -/
def State.rasterOn (s : State) (r : Nat) : Bool :=
  s.coreOn && !s.lost r && s.jobState ∈ [1, 2, 3, 4] && s.job.abortAt.isNone

/-- Start a tile: its squares are made, or it is recorded empty. -/
def State.openTile (s : State) (r : Nat) (st : Stripe) (k : TileKey) (again : Bool) : State × TileJob :=
  let prims := s.tilePrims st k.u k.t
  let parts := splitParts prims k.u k.t 3 0 0 64
  let s := if 1 < parts.length ∧ !again then s.inc (Obj.TILES_SPLIT + r) else s
  let gate := s.on Obj.TILE_CLOCK_GATING
  let parts := parts.map fun p =>
    if gate && !p.unresolved && (partList prims k.u k.t p.x0 p.y0 p.side).empty then { p with result := some [] } else p
  (s, { key := k, region := r, parts := parts, prims := prims, empty := (partList prims k.u k.t 0 0 64).empty, again := again })

/-- The coarse columns of a tile inside its stripe. -/
def Stripe.tileCols (st : Stripe) (u : Nat) : List Nat := [2 * u, 2 * u + 1].filter (· < st.coarseCols)

/-- Every factor of a tile is computed. -/
def State.tileFactors (s : State) (st : Stripe) (k : TileKey) : Bool :=
  (st.tileCols k.u).all fun i => [2 * k.t, 2 * k.t + 1].all fun j => (s.cellFactor st.number i j).isSome

/-- The correction front has passed a tile (R131). A tile rasterized again for a Burnish sweep (R232) lies behind the front already: its
own factors are what it waits for. -/
def State.behindCorr (s : State) (t : TileJob) : Bool :=
  !s.on Obj.PEC_ENABLE ||
  match s.stripeOf t.key.stripe with
  | none => false
  | some st =>
    if t.again then s.tileFactors st t.key
    else let p := s.corrFront t.region; t.key.stripe < p.1 || (t.key.stripe = p.1 && (st.colSpan t.key.u).2 < p.2)

/-- A part is finished: its output stands, or it is unresolved. -/
def Part.finished (p : Part) : Bool := p.result.isSome || p.unresolved
def TileJob.finished (t : TileJob) : Bool := t.parts.all Part.finished

/-- Pixels of a tile from its parts (R101): number in the tile, code, class; outside the stripe they are dropped. -/
def TileJob.pixels (t : TileJob) (len : Int) : List (Nat × Nat × Nat) :=
  t.parts.flatMap fun p => (p.result.getD []).filterMap fun (n, a, k) =>
    let x := p.x0 + n % p.side
    let y := p.y0 + n / p.side
    if len ≤ 64 * (t.key.u : Int) + x then none else some (64 * y + x, a, k)

/-- Spool values of a tile (R130) and the number that saturate. -/
def State.tileValues (s : State) (st : Stripe) (t : TileJob) : Bytes × Nat :=
  let vs := (t.pixels st.len).map fun (n, a, k) =>
    let i := 2 * t.key.u + n % 64 / 32
    let j := 2 * t.key.t + n / 64 / 32
    (n, s.spoolValue a k ((s.cellFactor t.key.stripe i j).getD 16384))
  let out := vs.foldl (fun (l : List Nat) v => l.set v.1 v.2.1) (List.replicate 4096 0)
  (out.map byte, (vs.filter (·.2.2)).length)

/-- A finished tile is handed to the spool when the correction front has passed it and R88 allows it. An unresolved one, or one with an
unresolved sub-tile, is spooled as 0, so that its pixels receive nothing, and entered in the ledger as one area of unknown dose (R106,
R222); each time counts, and one unresolved again for a Burnish sweep keeps its entry (R233). -/
def State.finishTile (s : State) (t : TileJob) : State :=
  let s := { s with ras := { s.ras with tiles := s.ras.tiles.filter (·.key ≠ t.key) } }
  match s.stripeOf t.key.stripe with
  | none => s
  | some st =>
    if t.parts.any (·.unresolved) then
      if t.again then
        let s := (s.inc (Obj.TILES_UNRESOLVED + t.region)).logEvent ⟨3, 1, t.region, 255, Obj.TILES_UNRESOLVED + t.region, 0, 0⟩
        let s : State := { s with ras := { s.ras with failed := t.key :: s.ras.failed } }
        s.storeTile (emptyTile t.key t.region true)
      else ((s.inc (Obj.TILES_UNRESOLVED + t.region)).appendUnknown t.key t.region none).storeTile (emptyTile t.key t.region false)
    else
      let s := if t.again then s
        else
          let s := if t.empty then s.inc (Obj.TILES_EMPTY + t.region) else s
          if t.parts.any fun p => !p.runs.isEmpty then s.inc (Obj.TILES_RASTERIZED + t.region) else s
      let (vs, n) := s.tileValues st t
      (s.add (Obj.SPOOL_SATURATIONS + t.region) n).handTile t.key t.region vs t.again

/-- Finished tiles that may be spooled now. -/
def State.spoolReady (s : State) : State :=
  (s.ras.tiles.filter TileJob.finished).foldl (fun s t =>
    if s.rasterOn t.region && s.behindCorr t && (t.again || s.freeOfHold t.key) then s.finishTile t else s) s

/-- Dispatch the tile at a region's cursor, if it is due: its job is opened and the cursor moves on. A tile that has been given up
is passed over (R88). -/
def State.takeNext (s : State) (r : Nat) : Option State :=
  match s.ras.again.find? fun k => s.regionOf k.t = r && (match s.stripeOf k.stripe with | some st => s.tileDue r st k | none => false) with
  | some k =>
    match s.stripeOf k.stripe with
    | none => none
    | some st =>
      let (s, j) := s.openTile r st k true
      some { s with ras := { s.ras with again := s.ras.again.erase k, tiles := s.ras.tiles ++ [j] } }
  | none =>
    let c := atD s.ras.cursor r (0, 0, 0)
    match s.tileAt r c with
    | none => none
    | some (st, k) =>
      if s.ras.done.contains k then some { s with ras := { s.ras with cursor := setAt s.ras.cursor r (s.nextCursor c) } }
      else if s.tileDue r st k && s.freeOfHold k then
        let (s, j) := s.openTile r st k false
        some { s with ras := { s.ras with cursor := setAt s.ras.cursor r (s.nextCursor c), tiles := s.ras.tiles ++ [j] } }
      else none

/-- The tile that a region would take next has no edge, and the dispatcher writes it to the spool itself (R25, R96). -/
def State.nextEmpty (s : State) (r : Nat) : Bool :=
  s.ras.again.all (s.regionOf ·.t ≠ r) &&
  match s.tileAt r (atD s.ras.cursor r (0, 0, 0)) with
  | some (st, k) => s.ras.done.contains k || s.on Obj.TILE_CLOCK_GATING && (partList (s.tilePrims st k.u k.t) k.u k.t 0 0 64).empty
  | none => false

/-- Empty tiles at the cursor of a region are spooled. -/
def State.skipEmpties (r : Nat) : Nat → State → State
  | 0, s => s
  | f + 1, s =>
    if s.rasterOn r && atD s.units.raster r 0 = 2 && s.nextEmpty r then
      match s.takeNext r with
      | some s' => State.skipEmpties r f s'.spoolReady
      | none => s
    else s

/-- A region's raster side has a tile in hand, or one to take. -/
def State.rasterWork (s : State) (r : Nat) : Bool :=
  s.rasterOn r && (s.ras.tiles.any (·.region = r) || (s.takeNext r).isSome)

/-- A tile waits only for a pending rejection: the raster side stays awake. -/
def State.rasterHeld (s : State) (r : Nat) : Bool :=
  match s.tileAt r (atD s.ras.cursor r (0, 0, 0)) with
  | some (st, k) => s.tileDue r st k && !s.freeOfHold k
  | none => false

/-- The raster side of a region wakes when work arrives and sleeps when none is left (R26). -/
def State.rasterSide (s : State) (r : Nat) : State :=
  let v := atD s.units.raster r 0
  if !s.coreOn || s.lost r then s
  else if v = 0 && (s.rasterWork r || !s.on Obj.REGION_IDLE_SLEEP) then s.setRaster r 1
  else if v = 2 && s.on Obj.REGION_IDLE_SLEEP && !s.rasterWork r && !s.rasterHeld r then s.setRaster r 0
  else s

/-- What the raster side does by itself after a change: finished tiles are spooled, empty tiles skipped, halves wake or sleep. -/
def State.advanceRaster (s : State) : State :=
  regions.foldl (fun s r =>
    let n := match s.stripeOf (atD s.ras.cursor r (0, 0, 0)).1 with
      | some st => st.cols * s.tileRows + 1
      | none => 1
    (State.skipEmpties r n s).rasterSide r) s.spoolReady

/-- A region gives tiles up (R88, R125): those in hand are left, each is spooled as 0 and entered in the ledger. -/
def State.giveUpTiles (s : State) (r : Nat) (keys : List TileKey) (owner : Option Nat) : State :=
  let s : State := { s with ras := { s.ras with
    tiles := s.ras.tiles.filter fun (t : TileJob) => !keys.contains t.key
    again := s.ras.again.filter fun k => !keys.contains k } }
  keys.foldl (fun s k => (s.appendUnknown k r owner).storeTile (emptyTile k r (s.spooled k))) s

/-- Cells of a region in service. -/
def State.cellsIn (s : State) (r : Nat) : List Nat := (rangeN (12 * r) (12 * r + 11)).filter (!s.cellRetired ·)

/-- A part wants a computation on cell `j` (R104, R105): the first on any cell; a later one in another block than the last
computation where one is in service, otherwise on another cell, otherwise on the same. -/
def State.partWants (s : State) (j : Nat) (p : Part) : Bool :=
  !p.finished && p.cell.isNone &&
  match p.runs.getLast? with
  | none => true
  | some l =>
    let cs := s.cellsIn (j / 12)
    if cs.any fun c => c / 4 ≠ l.cell / 4 then j / 4 ≠ l.cell / 4
    else if cs.any (· ≠ l.cell) then j ≠ l.cell
    else true

/-- Give cell `j` the first part, in the order of dispatch, that wants it. -/
def State.assignPart (s : State) (j : Nat) : Option State :=
  match s.ras.tiles.findIdx? fun t => t.region = j / 12 && t.parts.any (s.partWants j) with
  | none => none
  | some i =>
    let f (t : TileJob) : TileJob :=
      match t.parts.findIdx? (s.partWants j) with
      | some m => { t with parts := modifyAt t.parts m fun p => { p with cell := some j } }
      | none => t
    some { s with ras := { s.ras with tiles := modifyAt s.ras.tiles i f, refRun := setAt s.ras.refRun j none } }

/-- TILE_DISPATCH (R94): a free cell takes a part that waits for a computation, or the next tile of its region. -/
def execTileDispatch (cell : Nat) (s : State) : Out :=
  let r := cell / 12
  if 48 ≤ cell ∨ !s.rasterOn r ∨ atD s.units.raster r 0 ≠ 2 ∨ s.cellRetired cell ∨ s.cellBusy cell then .next s
  else match s.assignPart cell with
    | some s' => .next s'.advanceRaster
    | none =>
      match s.takeNext r with
      | none => .next s
      | some s' => .next ((s'.assignPart cell).getD s').advanceRaster

/-! ### Checks -/

/-- What an area unit finds for a square of a tile (R103): it clips each primitive instance of the band to the square and sums the signed
areas, here as the integral that the shoelace formula with its 2/3 of a triangle gives exactly; crossings of a curve with the border
stand to 2^-96. Not from the dispatcher's list, and without the parameter rounding of a cell. -/
def areaUnit (prims : List (List Edge)) (u t : Nat) (p : Part) : Int :=
  let x : Rat := ((64 * u + p.x0 : Nat) : Rat)
  let y : Rat := ((64 * t + p.y0 : Nat) : Rat)
  rneRat (65536 * prims.foldl (fun a es => a + windingSum 96 es x y (x + p.side) (y + p.side)) 0)

/-- What a cell and the area unit of its block deliver for a part (R98 to R103): the right output of the tile as it was dispatched,
unless a fault says otherwise. DESIGN CHOICE: the deviation of a coverage sum, a fraction of codes, goes into LAST_FAIL_DEVIATION as the
nearest integer, ties to even. -/
def State.compute (s : State) (t : TileJob) (p : Part) (j : Nat) (fault : CellFault) : RunOut × Int :=
  match s.stripeOf t.key.stripe with
  | none => (⟨j, true, true, 0, true, 0, []⟩, 0)
  | some _ =>
    let l := partList t.prims t.key.u t.key.t p.x0 p.y0 p.side
    let o := coverSquare p.side (l.kept ++ l.collapsed)
    let pix := fault.pixels.foldl (fun (l : List (Nat × Nat × Nat)) q =>
      if q.2.1 = 0 ∧ q.2.2 = 0 then kvDel l q.1 else kvSet l q.1 q.2) o.pixels
    let wc := fault.wCell.getD o.w
    let wu := fault.wUnit.getD (areaUnit t.prims t.key.u t.key.t p)
    let simple := fault.simple.getD o.simple
    let first := match p.runs.head? with
      | some x => x.simple
      | none => simple
    let sum := sumMap (·.2.1) pix
    let ref : Nat := 255 * wu.natAbs
    let windOk := (wc - wu).natAbs ≤ 2 + 64 * l.q
    let sumOk := !first || ((65536 * sum : Int) - ref).natAbs ≤ 65536 * (2 + 64 * l.lt + 65 * l.q)
    let dev : Int := if windOk then rneDiv (65536 * sum - ref) 65536 else wc - wu
    (⟨j, windOk, sumOk, if windOk && sumOk then 0 else dev, simple, wc, pix⟩, wu)

/-- Two computations of a dual tile agree (R103, R104). -/
def RunOut.agrees (a b : RunOut) (one : Bool) : Bool :=
  a.windOk && b.windOk && !a.simple && !b.simple && a.w = b.w && a.pixels = b.pixels && (a.cell ≠ b.cell || one)

/-- CHECK and deviation of a charged computation. -/
def RunOut.check (a : RunOut) : Nat × Int := if !a.windOk then (1, a.dev) else if !a.sumOk then (2, a.dev) else (3, 0)

/-- Charge the computations of a part that do not stand, each where another cell has produced one that stands; the event is entered as
CORRECTED (R105, Table 19-1). -/
def State.chargeRuns (s : State) (t : TileJob) (bad stand : List RunOut) : State :=
  (bad.filter fun a => stand.any fun b => b.cell ≠ a.cell).foldl (fun s a =>
    let c := a.check
    let o := if c.1 = 3 then Obj.DUAL_MISMATCHES + t.region else Obj.AREA_CHECK_FAILS + t.region
    (s.logEvent ⟨1, 1, t.region, a.cell, o, 0, 0⟩).chargeCell a.cell t.key c.1 c.2) s

/-- Replace a part of a tile in hand. -/
def State.setPart (s : State) (k : TileKey) (x0 y0 : Nat) (f : Part → Part) : State :=
  { s with ras := { s.ras with tiles := s.ras.tiles.map fun t =>
      if t.key = k then { t with parts := t.parts.map fun p => if p.x0 = x0 ∧ p.y0 = y0 then f p else p } else t } }

/-- Resolve a part after a computation (R105). The first cell's SIMPLE decides; where a later computation of a simple tile reports it
clear, that is a dual mismatch (R104), and its output does not stand. -/
def State.resolvePart (s : State) (t : TileJob) (p : Part) (runs : List RunOut) : State :=
  let dual := match runs.head? with
    | some x => !x.simple
    | none => false
  let one := (s.cellsIn t.region).length ≤ 1
  let put (s : State) (f : Part → Part) := s.setPart t.key p.x0 p.y0 f
  let s := put s fun q => { q with runs := runs, cell := none }
  match runs.getLast? with
  | none => s
  | some a =>
    if !dual then
      let s := if a.simple then s else s.inc (Obj.DUAL_MISMATCHES + t.region)
      if a.windOk && a.sumOk && a.simple then (put s fun q => { q with result := some a.pixels }).chargeRuns t runs.dropLast [a]
      else if 3 ≤ runs.length then put s fun q => { q with unresolved := true } else s
    else
      match runs.dropLast.find? fun b => a.agrees b one with
      | some b => (put s fun q => { q with result := some a.pixels }).chargeRuns t (runs.filter fun x => !(x = a || x.agrees b one || x = b)) [a, b]
      | none =>
        let s := if a.windOk && runs.dropLast.any (·.windOk) then s.inc (Obj.DUAL_MISMATCHES + t.region) else s
        if 4 ≤ runs.length then put s fun q => { q with unresolved := true } else s

/-- The value step of a tile whose parts are resolved (R136): on a second mismatch the block is retired and the tile starts
again. -/
def State.valueStep (s : State) (k : TileKey) (cell : Nat) : State :=
  match s.ras.tiles.find? (·.key = k) with
  | none => s
  | some t =>
    if t.finished && 2 ≤ t.valueRails && !t.parts.any (·.unresolved) then
      let restart (x : TileJob) : TileJob :=
        if x.key = k then { x with valueRails := 0, parts := x.parts.map fun p => { p with runs := [], cell := none, result := none } } else x
      ({ s with ras := { s.ras with tiles := s.ras.tiles.map restart } }).retireBlock (cell / 4)
    else s

/-- TILE_COMPLETE (R103 to R106): the cell's part is checked against its block's area unit. -/
def execTileComplete (cell : Nat) (fault : CellFault) (s : State) : Out :=
  match s.ras.tiles.find? fun t => t.parts.any (·.cell = some cell) with
  | none => .next s
  | some t =>
    match t.parts.find? (·.cell = some cell) with
    | none => .next s
    | some p =>
      if !s.rasterOn t.region then .next s
      else
        let (a, _) := s.compute t p cell fault
        let s := { s with ras := { s.ras with
          runs := modifyAt s.ras.runs cell (· + 1)
          tiles := s.ras.tiles.map fun (x : TileJob) =>
            if x.key = t.key then { x with valueRails := max x.valueRails fault.valueRails } else x } }
        let s := if a.windOk then s else s.inc (Obj.AREA_CHECK_FAILS + t.region)
        let s := if a.sumOk then s else s.inc (Obj.AREA_CHECK_FAILS + t.region)
        .next (((s.resolvePart t p (p.runs ++ [a])).valueStep t.key cell).advanceRaster)

/-! ### Reference tiles -/

/-- SHADOW_TEST (R108): an idle cell in service starts the next reference tile of the set. -/
def execShadowTest (cell : Nat) (s : State) : Out :=
  if 48 ≤ cell ∨ !s.on Obj.SHADOW_TEST_ENABLE ∨ !s.coreOn ∨ s.cellRetired cell ∨ s.lost (cell / 12) ∨ s.cellBusy cell ∨
     (atD s.ras.refRun cell none).isSome then .next s
  else
    let i := atD s.ras.refNext cell 0
    .next { s with ras := { s.ras with refRun := setAt s.ras.refRun cell (some i), refNext := setAt s.ras.refNext cell ((i + 1) % 16) } }

/-- SHADOW_TEST_RESULT (R108): a wrong output is charged to the cell and counted. -/
def execShadowTestResult (cell : Nat) (crc : BitVec 32) (s : State) : Out :=
  match atD s.ras.refRun cell none with
  | none => .next s
  | some i =>
    let s := { s with ras := { s.ras with refRun := setAt s.ras.refRun cell none, runs := modifyAt s.ras.runs cell (· + 1) } }
    if crc = Config.refTileCrc i then .next s
    else .next (((s.inc Obj.SHADOW_TEST_FAILS).chargeCell cell ⟨0, i, 0⟩ 4 0).advanceRaster)

/-- The reference test of a JOB block (R107): cells and blocks of regions that are not lost return to service, each cell
computes the 16 reference tiles, a cell with a wrong output is retired with CELL_STATE 4, then R110 applies. -/
def State.referenceTest (s : State) (fails : List Nat) : State :=
  let live (j : Nat) : Bool := !s.lost (j / 12)
  let s := (rangeN 0 11).foldl (fun s k => if live (4 * k) then s.setN (Obj.BLOCK_STATE + k) 0 else s) s
  let s := (rangeN 0 47).foldl (fun s j =>
    if live j then s.setN (Obj.CELL_STATE + j) (if fails.contains j then 4 else 0) else s) s
  let s := { s with ras := { s.ras with
    refRun := List.replicate 48 none
    runs := s.ras.runs.mapIdx fun j n => if live j then n + 16 else n
    fails := s.ras.fails.mapIdx fun j l => if live j then [] else l } }
  let s := (fails.filter live).foldl (fun s j => s.retireEvent 1 (j / 12) j (Obj.CELL_STATE + j)) s
  (rangeN 0 11).foldl (fun s k => if live (4 * k) then (s.checkBlockCells k).recountRegion (k / 3) else s) s

end Sys2Proof.Machine
end

