-- ==== Sys2Proof/Machine/Correction.lean ====
section
/-! DEFINITION. The correction blocks (R122 to R135): finality of density, the factors of a coarse column, rail checks of the
factor arithmetic and of the placement units. -/
namespace Sys2Proof.Machine

/-- Every density within R of a cell is final. -/
def State.factorReady (s : State) (st : Stripe) (i j : Int) : Bool :=
  let r : Int := s.kernelR
  (rangeI (i - r) (i + r)).all fun x => (rangeI (j - r) (j + r)).all fun y => s.cellFinal st x y

/-- The rows of a column as they stand, none where nothing is computed yet. -/
def State.factorRows (s : State) (r stripe col : Nat) : List (Option Nat) :=
  match s.factorCol r stripe col with
  | some f => f.rows
  | none => List.replicate s.coarseRows none

/-- The rows of a column that can be computed now, with the number of factors that the second iteration clamped. -/
def State.newRows (s : State) (r : Nat) (st : Stripe) (col : Nat) : List (Option Nat) × Nat :=
  let old := s.factorRows r st.number col
  let res := old.mapIdx fun y f =>
    match f with
    | some v => (some v, false)
    | none =>
      let j : Int := s.coarseRows * r + y
      if s.factorReady st col j then let q := s.factor st s.lines col j; (some q.1, q.2) else (none, false)
  (res.map (·.1), (res.filter (·.2)).length)

/-- A column of a stripe may be worked on now: in the stripes from the front on as far as the run-ahead depth, or under a tile that is
rasterized again (R131, R232, R298). -/
def State.columnOpen (s : State) (r : Nat) (st : Stripe) (col : Nat) : Bool :=
  col < st.coarseCols &&
  (((s.corrFront r).1 ≤ st.number &&
      s.distance st.number (st.span (32 * (col : Int)) (32 * (col : Int) + 31)).1 ≤ (s.getN Obj.RUN_AHEAD_DEPTH : Int)) ||
    (s.ras.again ++ (s.ras.tiles.filter (·.again)).map (·.key)).any fun k =>
      k.stripe = st.number && k.u = col / 2 && s.regionOf k.t = r)

/-- The first stripe in which a coarse column of a region has a factor that can be computed: factors that do not depend on affected cells
are computed also beyond the front (R131). -/
def State.factorStripe (s : State) (r col : Nat) : Option Stripe :=
  s.lay.stripes.find? fun st => s.columnOpen r st col && (s.newRows r st col).1 ≠ s.factorRows r st.number col

/-- Put the rows of a column. -/
def State.putRows (s : State) (r stripe col : Nat) (rows : List (Option Nat)) : State :=
  let rest := s.ras.factors.filter fun f => !(f.region = r && f.stripe = stripe && f.col = col)
  { s with ras := { s.ras with factors := rest ++ [⟨r, stripe, col, rows⟩] } }

/-- What the rail compares of one piece of work say (R135): how many computations disagreed before the first that agrees;
none where three disagreed. A computation not named agrees. -/
def railTries : List Bool → Option Nat
  | [false, false, false] => none
  | false :: false :: false :: _ => none
  | [] => some 0
  | true :: _ => some 0
  | false :: rest => (railTries rest).map (· + 1)

/-- Coarse cells of a lost region that no correction block can compute any more (R125): a block of the cell's band that may reach it is no
longer held, and a region that is not lost still needs the density for a factor within R of it. -/
def State.orphanCells (s : State) (r : Nat) : List (Stripe × Int × Int) :=
  let k : Int := s.kernelR
  let n : Int := s.coarseRows
  let lo : Int := if r = 0 then -k else n * r
  let hi : Int := if r = 3 then 4 * n + k - 1 else n * r + n - 1
  if k = 0 then []
  else s.lay.stripes.flatMap fun st => (rangeI 0 (st.coarseCols - 1 : Int)).flatMap fun i =>
    let off := 4096 * (i / 128)
    let gone (j : Int) : Bool := s.lay.blocks.any fun b => b.stripe = st.number && (b.band : Int) = i / 128 && !s.blockHeld b &&
      s.boxTouches b (32 * j) (32 * j + 32) && off + b.bbox.xMin / 256 - 32 ≤ 32 * i + 31 && 32 * i ≤ off + b.bbox.xMax / 256 + 32
    let needed (j : Int) : Bool := regions.any fun x => !s.lost x && (rangeI (max (n * x) (j - k)) (min (n * x + n - 1) (j + k))).any fun y =>
      (rangeI (max 0 (i - k)) (min (st.coarseCols - 1 : Int) (i + k))).any fun c =>
        (s.cellFactor st.number c.toNat y.toNat).isNone && !s.spooled ⟨st.number, (c / 2).toNat, (y / 2).toNat⟩
    ((rangeI lo hi).filter fun j => needed j && gone j).map fun j => (st, i, j)

/-- The tiles of a region within R coarse cells of a cell. -/
def State.tilesAround (s : State) (x : Nat) (st : Stripe) (i j : Int) : List TileKey :=
  let k : Int := s.kernelR
  (rangeI (max 0 ((i - k) / 2)) (min (st.cols - 1 : Int) ((i + k) / 2))).flatMap fun u =>
    (rangeI (max (s.tileRows * x : Nat) ((j - k) / 2)) (min (s.tileRows * x + s.tileRows - 1 : Int) ((j + k) / 2))).map fun t =>
      ⟨st.number, u.toNat, t.toNat⟩

/-- Retire the correction block of a region (R125, R135): the region is lost, and tiles whose densities can no longer be computed are
given up by the regions that need them. -/
def State.retireCorrection (s : State) (r : Nat) : State :=
  if s.getN (Obj.CORR_BLOCK_STATE + r) = 1 then s
  else
    let s := s.setN (Obj.CORR_BLOCK_STATE + r) 1
    let s := if s.lost r then s.retireEvent 2 r r (Obj.CORR_BLOCK_STATE + r) else s.loseRegion r 2 r
    let cells := s.orphanCells r
    regions.foldl (fun s x =>
      if s.lost x then s
      else s.giveUpTiles x (((cells.flatMap fun c => s.tilesAround x c.1 c.2.1 c.2.2).eraseDups).filter (!s.spooled ·)) none) s

/-- Charge a failure to a correction block, and retire it at the third within its last 1,000 coarse columns, or at once (R135). -/
def State.chargeCorrection (s : State) (r : Nat) (atOnce : Bool) : State :=
  let n := atD s.ras.corrCols r 0
  let fs := (n :: atD s.ras.corrFails r []).take 1000
  let s := (s.inc (Obj.CORR_MISMATCHES + r)).logEvent ⟨1, 2, r, 255, Obj.CORR_MISMATCHES + r, 0, 0⟩
  let s := { s with ras := { s.ras with corrFails := setAt s.ras.corrFails r fs } }
  if atOnce ∨ 3 ≤ recentFails fs n then s.retireCorrection r else s

/-- A coarse column has passed a correction block (R135): counted, and a failure charged where its rails disagreed. -/
def State.countColumn (s : State) (r : Nat) : State := { s with ras := { s.ras with corrCols := modifyAt s.ras.corrCols r (· + 1) } }

/-- A column of a lost region whose correction block goes on computing densities for its neighbours (R125): no factor, but the rails
compare as before. -/
def State.densityColumn (s : State) (r : Nat) (railsAgree : List Bool) : State :=
  if !s.coreOn ∨ s.kernelR = 0 ∨ s.getN (Obj.CORR_BLOCK_STATE + r) = 1 ∨ !(s.jobState ∈ [1, 2, 3, 4]) ∨ s.job.abortAt.isSome then s
  else match railTries railsAgree with
    | none => ((s.countColumn r).chargeCorrection r true).advanceRaster
    | some 0 => s.countColumn r
    | some _ => ((s.countColumn r).chargeCorrection r false).advanceRaster

/-- FACTOR_COMPUTE (R128, R135): the factors of a coarse column of a region whose surrounding density is final. -/
def execFactorCompute (region : Nat) (column : Int) (railsAgree : List Bool) (s : State) : Out :=
  let col := column.toNat
  if 4 ≤ region ∨ column < 0 ∨ !s.on Obj.PEC_ENABLE ∨ s.kernelR = 0 then .next s
  else if s.lost region then .next (s.densityColumn region railsAgree)
  else if !s.rasterOn region ∨ s.getN (Obj.CORR_BLOCK_STATE + region) = 1 then .next s
  else match s.factorStripe region col with
    | none => .next s
    | some st =>
      let (rows, clamps) := s.newRows region st col
      let s := s.countColumn region
      match railTries railsAgree with
      | none => .next ((s.chargeCorrection region true).advanceRaster)
      | some n =>
        let s := (s.putRows region st.number col rows).add (Obj.FACTOR_CLAMPS + region) clamps
        let s := if 0 < n then s.chargeCorrection region false else s
        .next s.advanceRaster

/-- The rail compares of the placement and density units at the receipt of a block (R135), those of a lost region whose correction
block is in service included (R125). -/
def State.placementRails (s : State) (rails : List (Nat × List Bool)) : State :=
  rails.foldl (fun s p =>
    if s.getN (Obj.CORR_BLOCK_STATE + p.1) = 1 then s
    else match railTries p.2 with
      | some 0 => s
      | some _ => s.chargeCorrection p.1 false
      | none => s.chargeCorrection p.1 true) s

end Sys2Proof.Machine
end

