-- ==== Sys2Proof/Machine/Ue.lean ====
section
/-! DEFINITION. Uncorrectable DRAM words: the actions of Table 11-5 (R90, R282), reads by requesters, and the scrubber
(R279, R283). -/
namespace Sys2Proof.Machine

/-- Tell the standby of an event of the stream (R249, Table 10-3); the body's coding is the model's own. -/
def State.tell (s : State) (ev : StreamEvent) : State :=
  if !s.mirrorsOn then s
  else s.mirror 4 0x11 (match ev with
    | .producers a b => [0] ++ leBytes 4 a ++ leBytes 4 b
    | .consumers a b c d => [1] ++ leBytes 4 a ++ leBytes 4 b ++ leBytes 4 c ++ leBytes 4 d
    | .rejection known waits type job stripe band seq due aux status box tile =>
      let boxBytes : Bytes := match box with
        | some b => leBytesI 4 b.xMin ++ leBytesI 4 b.yMin ++ leBytesI 4 b.xMax ++ leBytesI 4 b.yMax
        | none => []
      let tileBytes : Bytes := match tile with
        | some p => leBytes 4 p.1 ++ leBytes 4 p.2
        | none => []
      [2, byte (b2n known + 2 * b2n waits), byte type] ++ boxBytes ++ tileBytes ++ leBytes 4 job ++ leBytes 4 stripe ++ leBytes 2 band ++
        leBytes 4 seq ++ leBytes 4 due ++ leBytes 4 aux ++ [byte status]
    | .repaired seq => [3] ++ leBytes 4 seq
    | .giveUp seq region => [4] ++ leBytes 4 seq ++ leBytes 4 region)

/-- The event that tells of a pending rejection. -/
def Pend.event (p : Pend) : StreamEvent :=
  .rejection p.known p.waits p.type p.jobId p.stripe p.band p.seq p.due p.aux p.status p.bbox p.tile

/-- The slot of an accepted block goes into the last-rejection fields (R83). -/
def State.recordSlot (s : State) (r : SlotRef) : State :=
  ((s.setN Obj.LAST_REJ_RING (if r.ring = .stream then 0 else 1)).setN Obj.LAST_REJ_INDEX r.index).setN Obj.LAST_REJ_TAG r.tag

/-- The slot at which an accepted block was posted. -/
def State.slotOfSeq (s : State) (seq : Nat) : SlotRef := (s.st.slots.find? (·.seq = seq)).getD ⟨seq, .stream, seq, 0⟩

/-- A rejection of a block accepted before, with status 12 LOST (R90, R282) or 4 after the repair of a cell (R84): recorded
under the slot of its acceptance, counted, entered as ABSORBED, or a stall where 256 rejections are pending. -/
def State.rejectLate (s : State) (status seq stripe band type aux : Nat) (bbox : Option Box) (tile : Option (Nat × Nat)) : State :=
  let slot := s.slotOfSeq seq
  let s := s.recordSlot slot
  let s := (((s.setN Obj.LAST_REJ_STATUS status).setN Obj.LAST_REJ_TYPE type).setN Obj.LAST_REJ_JOB s.st.jobId).setN Obj.LAST_REJ_STRIPE stripe
  let s := (((s.setN Obj.LAST_REJ_BAND band).setN Obj.LAST_REJ_SEQ seq).setN Obj.LAST_REJ_DETAIL 0xFFFFFFFF).inc Obj.REJECTIONS
  let full := 256 ≤ s.st.pending.length
  let s := s.logEvent ⟨if full then 4 else 2, 0, 255, 255, Obj.REJECTIONS, slot.index, slot.tag⟩
  if full then { s.setN Obj.STREAM_STATE 5 with st := { s.st with stalled := true } }
  else
    let p : Pend := { seq := seq, jobId := s.st.jobId, stripe := stripe, band := band, type := type, status := status, aux := aux, known := true,
                      waits := false, bbox := bbox, gaveUp := [], tile := tile, noted := false, due := seq }
    let s := s.tell p.event
    { s.setN Obj.PENDING_REJECTIONS (s.st.pending.length + 1) with st := { s.st with pending := s.st.pending ++ [p] } }

/-- A stored layout block is lost: it becomes a pending rejection with status LOST (R90). -/
def State.dropBlock (s : State) (b : LBlock) : State :=
  let s := { s with lay := { s.lay with blocks := s.lay.blocks.filter (·.seq ≠ b.seq) } }
  s.rejectLate 12 b.seq b.stripe b.band (if b.halo then 5 else 4) 0 (some b.bbox) none

/-- A stored layout block cannot be read: before its release the active fetches it again from host memory, which counts in
REFETCHES (2201.03), and until the copy has come no tile that the block reaches is taken up; after it the block is lost (R90). -/
def State.loseBlock (s : State) (b : LBlock) : State :=
  if b.released then s.dropBlock b
  else if s.st.reload.any (·.seq = b.seq) then s
  else { s.inc Obj.REFETCHES with st := { s.st with reload := s.st.reload ++ [s.slotOfSeq b.seq] } }

/-- A stored cell is lost: it becomes pending, and the blocks that place it follow the area rule (R84, R90). -/
def State.loseCell (s : State) (c : Cell) : State :=
  if c.pending then s
  else
    let s := { s with lay := { s.lay with cells := s.lay.cells.map fun (x : Cell) => if x.id = c.id then { x with recs := [], pending := true } else x } }
    s.rejectLate 12 c.seq 0 0 3 c.id none none

/-- Blocks of the tile's band and the neighbourhood whose content reaches the tile are all still held (Table 11-5 code 2). -/
def State.reachHeld (s : State) (k : TileKey) : Bool := (s.lay.blocks.filter fun b => s.reaches b k).all s.blockHeld

/-- Each BAND block of a tile's band becomes a pending rejection with status 12 LOST, with that tile alone as the affected tile (Table 11-5). -/
def State.rejectTile (s : State) (k : TileKey) : State :=
  (s.lay.blocks.filter fun b => b.stripe = k.stripe && b.band = k.u / 64 && !b.halo).foldl (fun s b =>
    s.rejectLate 12 b.seq b.stripe b.band 4 0 (some b.bbox) (some (k.u, k.t))) s

/-- A spool tile that is not yet loaded cannot be read (Table 11-5 code 2, R297): it is rasterized again with its kept
factors, or the BAND blocks of its band become pending rejections with that tile alone as the affected tile. -/
def State.loseTile (s : State) (k : TileKey) : State :=
  let s := { s with spool := { s.spool with tiles := s.spool.tiles.map fun (t : SpoolTile) => if t.key = k then { t with bad := true } else t } }
  if s.reachHeld k then { s with ras := { s.ras with again := s.ras.again ++ [k] } }
  else s.rejectTile k

/-- OPEN entries that refer to a retained tile become REPORTED with unknown targets (Table 11-5 code 3). -/
def State.loseRetained (s : State) (k : TileKey) : State :=
  let s := { s with spool := { s.spool with tiles := s.spool.tiles.map fun (t : SpoolTile) => if t.key = k then { t with bad := true } else t } }
  (List.range s.ledger.entries.length).foldl (fun s i =>
    match s.ledger.entries[i]? with
    | some e => if e.isOpen && e.spoolRef && e.key = k then s.reportEntry i true else s
    | none => s) s

/-- The offset of the log area in the reserved region (Table 11-3). -/
abbrev logArea : Nat := 448 * 2 ^ 20

/-- SEQ of the next entry of the error log. -/
def State.nextLogSeq (s : State) : Nat := ((s.log.entries.head?).map (·.seq + 1)).getD 0

/-- A word of the error log is poisoned until an entry is written over it (Table 11-5 code 7); supervisor memory concerns no object. -/
def State.loseLogWord (s : State) (a : Nat) : State :=
  let base := s.getN Obj.DRAM_RESERVED_BASE + logArea
  if base ≤ a ∧ a < base + 64 * logRing then
    { s with dram := { s.dram with logBad := (a - base, s.nextLogSeq) :: s.dram.logBad } }
  else s

/-- A poisoned word of the error log at an offset has not been rewritten since. -/
def State.logWordBad (s : State) (p : Nat × Nat) : Bool := s.nextLogSeq ≤ p.2 + (p.1 / 64 + logRing - p.2 % logRing) % logRing

/-- A factor of the working store cannot be read (Table 11-5 code 8, R269): it is computed again from its blocks before its next use.
DEDUCED: where a block that it needs is no longer held and the tile still has to be rasterized, the cell's tile follows code 2; a tile that
stands in the spool needs the factor no more. -/
def State.loseFactor (s : State) (f : FactorCol) (row : Nat) : State :=
  let k : TileKey := ⟨f.stripe, f.col / 2, (s.coarseRows * f.region + row) / 2⟩
  let s := { s with ras := { s.ras with factors := s.ras.factors.map fun (x : FactorCol) =>
    if x.region = f.region ∧ x.stripe = f.stripe ∧ x.col = f.col then { x with rows := setAt x.rows row none } else x } }
  if s.spooled k ∨ s.reachHeld k then s else s.rejectTile k

/-- The element of a list that a word of a store of the device's own layout belongs to. -/
def blockAt (l : List α) (wa : Nat) : Option α := if l.isEmpty then none else l[Config.blockOfWord wa % l.length]?

/-- The action of Table 11-5 for an uncorrectable word. -/
def State.ueAction (s : State) (wa code : Nat) : State :=
  match code with
  | 1 =>
    let inCells := s.getN Obj.CELL_STORE_BASE ≤ 8 * wa && 8 * wa < s.getN Obj.CELL_STORE_BASE + s.getN Obj.CELL_STORE_SIZE
    if inCells then
      match blockAt s.lay.cells wa with
      | some c => s.loseCell c
      | none => s
    else
      match blockAt (s.lay.blocks.filter s.blockHeld) wa with
      | some b => s.loseBlock b
      | none => s
  | 2 =>
    let q := (8 * wa - s.getN Obj.SPOOL_BASE) / (s.getN Obj.SPOOL_SIZE / 4)
    match blockAt (s.spool.tiles.filter fun t => t.region = q && !t.bad) wa with
    | some t =>
      if s.retained t then s.loseRetained t.key
      else if t.loaded < s.tilePixels t.key then s.loseTile t.key else s
    | none => s
  | 5 =>
    let es := ((List.range s.ledger.entries.length).filter fun i => (s.ledger.entries[i]?).any Entry.isOpen).map Sum.inl
    let ws : List (Nat ⊕ Nat) := es ++ (List.range s.ledger.defects.length).map Sum.inr
    match blockAt ws wa with
    | some (.inl i) => (s.modEntry i fun e => { e with bad := true }).reportEntry i
    | some (.inr i) => { s with ledger := { s.ledger with defects := modifyAt s.ledger.defects i fun d => { d with bad := true } } }
    | none => s
  | 7 => s.loseLogWord (8 * wa)
  | 8 =>
    match blockAt s.ras.factors wa with
    | some f => s.loseFactor f (Config.blockOfWord wa % f.rows.length)
    | none => s
  | _ => s

/-- One word read by a requester or the scrubber: the data, none where it reads as uncorrectable. -/
def State.readWordAt (s : State) (wa : Nat) (fs : List WordFault) (finder : Nat) : State × Option Nat :=
  let (r, v) := s.readOutcome wa fs
  let ch := channelOf (8 * wa)
  match r with
  | .good => (s, some v)
  | .corrected =>
    ((s.inc (Obj.MC_CORRECTED + ch)).logEvent ⟨1, 10, 255, ch, Obj.MC_CORRECTED + ch, 8 * wa, 0⟩, some v)
  | .poisoned => (s.countUe wa r (s.regionCode (8 * wa)) finder, none)
  | _ =>
    let code := s.regionCode (8 * wa)
    let again := s.channelLost ch && s.dram.poisoned.contains wa
    let s := s.countUe wa r code finder
    (if again then s else s.ueAction wa code, none)

/-- The entries of the error log as 64 bytes each (Table 19-4). -/
def LogEntry.toBytes (e : LogEntry) : Bytes :=
  leBytes 4 e.seq ++ [byte e.cls, byte e.subsys] ++ leBytes 2 e.rep ++ [byte e.region, byte e.unit, 0, 0] ++ leBytes 4 e.obj ++
  encodeValue .time e.time ++ leBytes 8 e.d0 ++ leBytes 8 e.d1 ++ zeros 16

/-- The entry of the error log that stands at a slot of the ring; 64 zeros where none has been written (R276, R406). -/
def State.logSlot (s : State) (i : Nat) : Bytes :=
  match s.log.entries.head? with
  | none => zeros 64
  | some e =>
    let back := (e.seq + logRing - i) % logRing
    match s.log.entries[back]? with
    | some x => x.toBytes
    | none => zeros 64

/-- A word of a store whose layout is the device's own: in the reserved region, or in a region that the device fills with a
job's layout, spool tiles and ledger once a job has begun (R92, R225, R268, R305). -/
def State.deviceStore (s : State) (a : Nat) : Bool :=
  s.getN Obj.DRAM_RESERVED_BASE ≤ a || (s.dram.used && s.regionCode a ≠ 9)

/-- What a requester finds in a good word that memory holds as `v`: an entry of the error log where the log stands (Table 11-3,
R406), an index entry or the data of a spool tile where one stands (R295), a free value in any other store of the device's own layout. -/
def State.requesterWord (s : State) (wa v : Nat) : State × Nat :=
  let a := 8 * wa
  let log := s.getN Obj.DRAM_RESERVED_BASE + logArea
  if log ≤ a && a < log + 64 * logRing then (s, leAt (s.logSlot ((a - log) / 64)) ((a - log) % 64) 8)
  else if s.deviceStore a then
    match s.spoolWord a with
    | some y => (s, y)
    | none =>
    let (x, s) := s.freeNat
    (s, x % 2 ^ 64)
  else (s, v)

/-- Read `n` bytes for a requester past the write queue: the bytes, none where a word reads as uncorrectable (R282). -/
def State.readWords (s : State) (a n : Nat) (fs : List WordFault) : State × Option Bytes :=
  let r := (wordsOf a n).foldl (fun (p : State × Option Bytes) wa =>
    let (s, v) := p.1.readWordAt wa fs 1
    match p.2, v with
    | some bs, some x =>
      let (s, y) := s.requesterWord wa x
      (s, some (bs ++ leBytes 8 y))
    | _, _ => (s, none)) (s, some [])
  (r.1, r.2.map fun bs => slice bs (a % 8) n)

/-- Read `n` bytes of DRAM for a requester, through the write queue (R274): the bytes, none where a word reads as uncorrectable (R282). -/
def State.readMem (s : State) (a n : Nat) (fs : List WordFault) : State × Option Bytes :=
  let (s, fs) := s.forwards a n fs
  s.readWords a n fs

/-- The address of the first word of a range that reads as uncorrectable. -/
def State.firstBad (s : State) (a n : Nat) (fs : List WordFault) : Option Nat :=
  ((wordsOf a n).find? fun wa => (s.readOutcome wa fs).1.bad).map (8 * ·)

/-- SCRUB_READ (R283): the next burst is read, what the write queue holds of it from there (R274, Table 11-7); corrected words are written
back, uncorrectable ones poisoned. A word with a correctable error on two successive passes makes its row failing (R279). The scrubber passes
over a lost channel, which holds nothing to correct. -/
def execScrubRead (faults : List WordFault) (s : State) : Out :=
  let pos := s.getN Obj.SCRUB_POSITION
  if !s.coreOn ∨ s.getN Obj.FILL_STATE = 0 then .next s
  else
    let cap := dramCapacity s.straps.dpop
    let (s, faults) := if s.channelLost (channelOf pos) then (s, faults) else s.forward (pos / 128) faults
    let ws := wordsOf pos 128
    let fixed := ws.filter fun wa => (s.readOutcome wa faults).1 = .corrected
    let fresh := ws.filter fun wa => !s.channelLost (channelOf pos) && (s.readOutcome wa faults).1.bad && !(s.dram.poisoned.contains wa)
    let s := if s.channelLost (channelOf pos) then s else ws.foldl (fun s wa => (s.readWordAt wa faults 0).1) s
    let s := fixed.foldl (fun s wa =>
      let t := { s with dram := { s.dram with thisPass := wa :: s.dram.thisPass } }
      if s.dram.lastPass.contains wa then let (c, b, row) := t.rowOf wa; t.failRow c b row 1 else t) s
    let s := if fixed.isEmpty then s else s.inc Obj.SCRUB_CORRECTED
    let s := s.add Obj.SCRUB_POISONED (fresh.filter fun wa => s.dram.poisoned.contains wa).length
    let next := pos + 128
    if cap ≤ next then
      .next { ((s.setN Obj.SCRUB_POSITION 0).setN Obj.SCRUB_PERMILLE 1000).inc Obj.SCRUB_PASSES with
        dram := { s.dram with lastPass := s.dram.thisPass, thisPass := [] } }
    else .next ((s.setN Obj.SCRUB_POSITION next).setN Obj.SCRUB_PERMILLE (1000 * next / cap))

/-- The copy reads the 64 bursts of a failing row (R279): it corrects what it can, and a word that reads as uncorrectable is written as
poisoned. DEDUCED: such a word is met by a requester, so that it counts and acts by R282 as any other. -/
def State.copyRow (s : State) (ch bank row : Nat) (faults : List WordFault) : State :=
  ((faults.filter fun f => s.rowOf f.word = (ch, bank, row)).map (·.word)).eraseDups.foldl (fun s wa => (s.readWordAt wa faults 1).1) s

/-- REMAP_COPY_DONE: the copy of a failing row ends, the row enters the remap table, and the next failing row is copied (R279). -/
def execRemapCopyDone (copy : Nat × List WordFault) (s : State) : Out :=
  let ch := copy.1
  match (s.chan ch).copy with
  | none => .next s
  | some x =>
    let s := if s.channelLost ch then s else s.copyRow ch x.bank x.row copy.2
    let s := s.modChan ch fun c =>
      { c with remap := if s.channelLost ch then c.remap else c.remap ++ [⟨x.row, x.bank, x.cause, x.spare⟩],
               copy := c.queued.head?, queued := c.queued.tail }
    if s.channelLost ch then .next s
    else .next ((s.setN (Obj.REMAP_USED + ch) (s.chan ch).remap.length).logEvent
      ⟨2, 10, 255, ch, Obj.REMAP_USED + ch, x.row, x.bank⟩)

end Sys2Proof.Machine
end

