-- ==== Sys2Proof/Machine/Lanes.lean ====
section
/-! DEFINITION. The compression lanes (R289 to R303): completed units, rail mismatches and retirement, tiles that wait too
long, host jobs with their descriptors and buffer chains. -/
namespace Sys2Proof.Machine

/-- Whether a lane may take a host job (R301). -/
def State.hostLane (s : State) (l : Nat) : Bool :=
  !s.laneRetired l && bitOf (s.getN Obj.HJ_LANE_MASK) l && (atD s.spool.lanes l {}).host.isNone

/-- Host jobs that run on a retired lane continue on the lowest eligible lane (R304). -/
def State.moveHosts (s : State) : State :=
  foldN 16 (fun s l =>
    match (atD s.spool.lanes l {}).host with
    | some j =>
      if !s.laneRetired l ∨ j.paused then s
      else match (List.range 16).find? s.hostLane with
        | some m => (s.modLane l fun x => { x with host := none }).modLane m fun x => { x with host := some j }
        | none => s
    | none => s) s

/-- A region without a lane in service stores raw what waits for one, or to be computed again (R291, R294). -/
def State.rawWaiting (s : State) (r : Nat) : State :=
  if (rangeN (4 * r) (4 * r + 3)).all s.laneRetired then
    let redone := (s.spool.redo.map (·.2)).filterMap fun u => match u with
      | .spool t => if t.region = r then some t else none
      | _ => none
    let residual := (s.spool.redo.filter fun p => p.1 / 4 = r).filterMap fun p => match p.2 with
      | .residual i => some i
      | _ => none
    let gone (p : Nat × LaneUnit) : Bool := match p.2 with
      | .spool t => t.region = r
      | .residual _ => p.1 / 4 = r
      | _ => false
    let ts := redone ++ s.spool.waiting.filter (·.region = r)
    let es := residual ++ (s.spool.resWait.filter (·.1 = r)).map (·.2)
    let s := { s with spool := { s.spool with
      redo := s.spool.redo.filter (!gone ·)
      waiting := s.spool.waiting.filter (·.region ≠ r)
      resWait := s.spool.resWait.filter (·.1 ≠ r) } }
    es.foldl State.storeResidual (ts.foldl (fun s t => s.storeTile t.raw) s)
  else s

/-- Every lane takes work, with host jobs moved off retired lanes first. -/
def State.runLanes (s : State) : State := (s.moveHosts).feedLanes

/-- A lane is retired until reset (R291); with no lane in service the front end stops reading the rings (R300). -/
def State.retireLane (s : State) (l : Nat) : State :=
  if s.laneRetired l then s
  else
    let r := l / 4
    let s := ((s.setN (Obj.LANE_STATE + l) 3).retireEvent 5 r l (Obj.LANE_STATE + l)).recountRegion r
    let s := (s.rawWaiting r).regive l
    if s.noLanes then
      let s := s.logEvent ⟨4, 5, 255, 255, Obj.STREAM_STATE, 0, 0⟩
      { s.setN Obj.STREAM_STATE 5 with st := { s.st with stalled := true, inflating := none } }
    else s

/-- The rails of a unit disagreed (R291): counted, charged, and the unit is computed again. -/
def State.laneMismatch (s : State) (l : Nat) (u : LaneUnit) : State :=
  let s := (s.inc Obj.LANE_MISMATCHES).logEvent ⟨1, 5, l / 4, l, Obj.LANE_MISMATCHES, 0, 0⟩
  let s := s.modLane l fun x => { x with unit := none, fails := (x.units :: x.fails).take 1000 }
  let s := { s with spool := { s.spool with redo := s.spool.redo ++ [(l, u)] } }
  let x := atD s.spool.lanes l {}
  if 3 ≤ recentFails x.fails x.units then s.retireLane l else s

/-! ### Host jobs -/

/-- Address of a descriptor of the host job ring (R301). -/
def State.hjAddr (s : State) (i : Nat) : Nat := s.getN Obj.HJ_RING_BASE + 32 * (i % s.getN Obj.HJ_RING_ENTRIES)

/-- Bytes of the buffers of a chain read so far. -/
def chainBytes (bufs : List HjBuf) : Nat := sumMap (·.len) bufs

/-- Read on in a chain until its buffers hold `need` bytes or it ends, at most `n` descriptors: the buffers and the address of the next one.
Statuses 9 MEMORY_ERROR and 10 DESCRIPTOR otherwise (Table 12-7). What no byte is needed of is not read. -/
def State.hjChain : Nat → State → List HjBuf → Option Nat → List WordFault → Nat → State × Except Nat (List HjBuf × Option Nat)
  | 0, s, bufs, next, _, _ => (s, .ok (bufs, next))
  | n + 1, s, bufs, next, fs, need =>
    match next with
    | none => (s, .ok (bufs, none))
    | some a =>
      let cap := dramCapacity s.straps.dpop
      if need ≤ chainBytes bufs then (s, .ok (bufs, next))
      else if a % 32 ≠ 0 ∨ cap < a + 32 then (s, .error 10)
      else match s.readMem a 32 fs with
        | (s, none) => (s, .error 9)
        | (s, some d) =>
          let len := leAt d 16 4
          if len = 0 ∨ 16777216 < len ∨ 1 < leAt d 20 1 ∨ leAt d 21 3 ≠ 0 ∨ cap < leAt d 0 8 + len then (s, .error 10)
          else State.hjChain n s (bufs ++ [⟨a, leAt d 0 8, len, bitOf (leAt d 20 1) 0⟩]) (if leAt d 8 8 = 0 then none else some (leAt d 8 8)) fs need

/-- Read up to `n` bytes of DRAM, as far as the first word that reads as uncorrectable, if any. -/
def State.readPrefix (s : State) (a n : Nat) (fs : List WordFault) : State × Bytes × Option Nat :=
  let (s, fs) := s.forwards a n fs
  match (wordsOf a n).find? fun wa => (s.readOutcome wa fs).1.bad with
  | none => let (s, bs) := s.readWords a n fs; (s, bs.getD [], none)
  | some wa => let (s, bs) := s.readWords a (8 * wa - a) fs; (s, bs.getD [], some wa)

/-- Read the bytes from offset `lo` to `hi` of what the buffers hold, as far as the first bad word. -/
def State.readChain : List HjBuf → Nat → Nat → Nat → List WordFault → State → State × Bytes × Option Nat
  | [], _, _, _, _, s => (s, [], none)
  | b :: bs, at_, lo, hi, fs, s =>
    let x := max lo at_
    let y := min hi (at_ + b.len)
    match (if x < y then s.readPrefix (b.addr + (x - at_)) (y - x) fs else (s, [], none)) with
    | (s, d, some wa) => (s, d, some wa)
    | (s, d, none) =>
      match State.readChain bs (at_ + b.len) lo hi fs s with
      | (s, e, w) => (s, d ++ e, w)

/-- Set USED of the buffers of a chain to the parts of `n` bytes that fall in each; the reserved bytes after it are 0 (Table 12-6). -/
def State.setUsed : List HjBuf → Nat → State → State
  | [], _, s => s
  | b :: bs, n, s => State.setUsed bs (n - min n b.len) (s.dramStore (b.desc + 24) (leBytes 4 (min n b.len) ++ zeros 4))

/-- Write stream bytes from offset `from_` of the output into the buffers that hold offsets `at_` on. -/
def State.putOut : List HjBuf → Nat → Nat → Bytes → State → State
  | [], _, _, _, s => s
  | b :: bs, base, from_, out, s =>
    let lo := max from_ base
    let hi := min (base + b.len) (from_ + out.length)
    let s := if lo < hi then s.dramStore (b.addr + (lo - base)) (slice out (lo - from_) (hi - lo)) else s
    State.putOut bs (base + b.len) from_ out s

/-- A host job ends with a STATUS of 3 or more (R302). -/
def State.endHost (s : State) (j : HostJob) (status check : Nat) : State :=
  let a := s.hjAddr j.index
  let s := (s.dramStore (a + 2) [byte status]).dramStore (a + 24) (leBytes 4 check ++ leBytes 4 j.written)
  let clear (x : Lane) : Lane :=
    { x with host := x.host.filter (·.index ≠ j.index), unit := x.unit.filter fun u => decide (u ≠ LaneUnit.host j.index) }
  let s := { s with spool := { s.spool with lanes := s.spool.lanes.map clear, redo := s.spool.redo.filter fun p => decide (p.2 ≠ LaneUnit.host j.index) } }
  let s := s.inc Obj.HJ_COMPLETED
  if 5 ≤ status then s.inc Obj.HJ_ERRORS else s

/-- Put a host job's context back where it is held. -/
def State.putJob (s : State) (j : HostJob) : State :=
  let upd (x : Lane) : Lane := if x.host.any (·.index = j.index) then { x with host := some j } else x
  { s with spool := { s.spool with lanes := s.spool.lanes.map upd } }

/-- FLAGS of a job: ZLIB framing, dynamic codes (Table 12-5). -/
def HostJob.zlib (j : HostJob) : Bool := bitOf j.flags 0
def HostJob.dynamic (j : HostJob) : Bool := bitOf j.flags 1

/-- The whole input has been taken. -/
def HostJob.ended (j : HostJob) : Bool := j.inNext.isNone && j.data.length = chainBytes j.ins

/-- Offsets after which the input taken so far flushes (R302). -/
def HostJob.flushes (j : HostJob) : List Nat :=
  ((j.ins.foldl (fun (p : Nat × List Nat) b => (p.1 + b.len, if b.flush then p.2 ++ [p.1 + b.len] else p.2)) (0, [])).2).filter (· ≤ j.data.length)

/-- Decompress input: the output, the bytes taken where the stream ends, and its status: 3 at its end, 8 where input is missing, 5 to 7 by
Table 12-2. -/
def expand (zlib : Bool) (data : Bytes) : Bytes × Option Nat × Nat :=
  match (if zlib then inflateZlib data else inflate data) with
  | .ok (o, n) => (o, some n, 3)
  | .error (e, o) => (o, none, match e with
    | .data => 5
    | .check => 6
    | .header => 7
    | .truncated => 8)

/-- Output and status of a job by the input taken so far: of a compression what that input settles, all of it once the input has ended. -/
def HostJob.output (j : HostJob) : Bytes × Nat :=
  if j.op = 1 then
    if j.ended then (deflateJob j.dynamic j.zlib j.data j.flushes, 3) else (deflateBegun j.dynamic j.zlib j.data j.flushes, 8)
  else
    let r := expand j.zlib j.data
    (r.1, r.2.2)

/-- The input that a job has consumed at the output made (Table 12-6): all that was taken of a compression, what a decompression needs for
its output and status. -/
def HostJob.consumed (j : HostJob) : Nat :=
  if j.op = 1 then j.data.length
  else
    let r := expand j.zlib j.data
    match r.2.1 with
    | some n => if j.made = r.1.length then n else ((List.range n).find? fun k => j.made ≤ (expand j.zlib (j.data.take k)).1.length).getD n
    | none =>
      let whole := r.2.2 ≠ 8 && j.made = r.1.length
      ((List.range j.data.length).find? fun k =>
        let q := expand j.zlib (j.data.take k)
        if whole then q.2.2 = r.2.2 else decide (j.made ≤ q.1.length)).getD j.data.length

/-- Input for the next segment of a decompression, buffer by buffer, until its output can be made or the stream or the input ends; a bad word
counts only where it is needed. -/
def State.pullInput (goal : Nat) : Nat → State → HostJob → List WordFault → State × HostJob × Option Nat
  | 0, s, j, _ => (s, j, none)
  | n + 1, s, j, fs =>
    let (o, st) := j.output
    if st ≠ 8 ∨ goal ≤ o.length then (s, j, none)
    else match State.hjChain 1 s j.ins j.inNext fs (j.data.length + 1) with
      | (s, .error e) => (s, j, some e)
      | (s, .ok (ins, next)) =>
        if chainBytes ins ≤ j.data.length then (s, { j with ins := ins, inNext := next }, none)
        else match State.readChain ins 0 j.data.length (chainBytes ins) fs s with
          | (s, bs, bad) =>
            let j := { j with ins := ins, inNext := next, data := j.data ++ bs }
            match bad with
            | none => State.pullInput goal n s j fs
            | some wa =>
              let (o, st) := j.output
              if st ≠ 8 ∨ goal ≤ o.length then (s, j, none) else ((s.readWordAt wa fs 1).1, j, some 9)

/-- Input for the next segment of a compression: 4 KiB, or what is left. -/
def State.takeInput (s : State) (j : HostJob) (fs : List WordFault) : State × HostJob × Option Nat :=
  let to_ := j.data.length + 4096
  match State.hjChain 4097 s j.ins j.inNext fs to_ with
  | (s, .error e) => (s, j, some e)
  | (s, .ok (ins, next)) =>
    match State.readChain ins 0 j.data.length to_ fs s with
    | (s, bs, none) => (s, { j with ins := ins, inNext := next, data := j.data ++ bs }, none)
    | (s, bs, some wa) => ((s.readWordAt wa fs 1).1, { j with ins := ins, inNext := next, data := j.data ++ bs }, some 9)

/-- Write the output made and not yet written into the output chain as far as it goes, with USED of both chains. Answers whether the chain
has room for all of it; an error of the chain is its status. -/
def State.flushJob (s : State) (j : HostJob) (out : Bytes) (fs : List WordFault) : State × HostJob × Except Nat Bool :=
  match State.hjChain (j.made + 1) s j.outs j.outNext fs j.made with
  | (s, .error e) => (s, j, .error e)
  | (s, .ok (outs, next)) =>
    let stop := max j.written (min j.made (chainBytes outs))
    let s := State.putOut outs 0 j.written (slice out j.written (stop - j.written)) s
    let j := { j with outs := outs, outNext := next, written := stop }
    let s := State.setUsed j.ins j.consumed (State.setUsed outs stop s)
    (s, j, .ok (j.made ≤ stop))

/-- One segment of a host job (R290, R302): 4 KiB of input compressed, or 4 KiB of output made, written as it comes. -/
def State.hostSegment (s : State) (j : HostJob) (fs : List WordFault) : State :=
  match (if j.op = 1 then s.takeInput j fs else State.pullInput (j.made + 4096) 4294967296 s j fs) with
  | (s, j, some e) => s.endHost j e 0
  | (s, j, none) =>
    let (out, status) := j.output
    let j := { j with made := if j.op = 1 then out.length else min out.length (j.made + 4096) }
    match s.flushJob j out fs with
    | (s, j, .error e) => s.endHost j e 0
    | (s, j, .ok false) => (s.dramStore (s.hjAddr j.index + 2) [2]).putJob { j with paused := true }
    | (s, j, .ok true) =>
      if (j.op = 1 && !j.ended) || (j.op ≠ 1 && decide (j.made < out.length)) then s.putJob j
      else
        let plain := if j.op = 1 then j.data else out
        s.endHost j status (if j.zlib then adler32 plain else (crc32c plain).toNat)

/-- A job as it is assigned, from its descriptor (Table 12-5). -/
def jobOf (index : Nat) (d : Bytes) : HostJob :=
  { index := index, op := leAt d 0 1, flags := leAt d 1 1, inNext := some (leAt d 8 8), outNext := some (leAt d 16 8) }

/-- HJ_ASSIGN (R301): the next job of the ring goes to the lowest-numbered lane that is in service, in the mask and free of
host jobs. -/
def execHjAssign (s : State) : Out :=
  let c := s.getN Obj.HJ_CONSUMER
  if !s.coreOn ∨ c = s.getN Obj.HJ_PRODUCER then .next s
  else match (List.range 16).find? s.hostLane with
    | none => .next s
    | some l =>
      let s := s.setN Obj.HJ_CONSUMER ((c + 1) % 2 ^ 32)
      match s.readMem (s.hjAddr c) 32 [] with
      | (s, none) => .next (s.endHost (jobOf c []) 9 0)
      | (s, some d) =>
        let s := s.dramStore (s.hjAddr c + 3) [byte l]
        if ¬(leAt d 0 1 = 1 ∨ leAt d 0 1 = 2) ∨ 3 < leAt d 1 1 ∨ leAt d 8 8 % 32 ≠ 0 ∨ leAt d 16 8 % 32 ≠ 0 then
          .next (s.endHost (jobOf c d) 10 0)
        else .next ((s.dramStore (s.hjAddr c + 2) [1]).modLane l fun x => { x with host := some (jobOf c d) }).runLanes

/-- HJ_PRODUCER: the host posts jobs (R301). -/
def execHjProducer (value : Nat) (s : State) : Out := .next (s.setN Obj.HJ_PRODUCER (value % 2 ^ 32))

/-- NEXT of the last output buffer of a paused job is read again, or OUT_LIST where none was read; the job stays paused where it is still
0 (R302). -/
def State.resumeHost (s : State) (l : Nat) : State :=
  match (atD s.spool.lanes l {}).host with
  | some j =>
    if !j.paused then s
    else match j.outs.getLast? with
      | none => s
      | some b => match s.readMem (b.desc + 8) 8 [] with
        | (s, none) => s.endHost j 9 0
        | (s, some d) =>
          if leAt d 0 8 = 0 then s
          else (s.dramStore (s.hjAddr j.index + 2) [1]).putJob { j with paused := false, outNext := some (leAt d 0 8) }
  | none => s

/-- HJ_RESUME: bit i resumes the paused job of lane i; 0 is refused with RANGE (R302, Table 12-9). -/
def writeHjResume (s : State) (by_ : Caller) (lanes : BitVec 16) : Wr :=
  s.gate by_ Obj.HJ_RESUME fun s =>
    if lanes = 0 then s.deny stRange
    else (foldN 16 (fun s l => if lanes.getLsbD l then s.resumeHost l else s) s).runLanes.ok

/-- HJ_RESUME. -/
def execHjResume (by_ : Caller) (lanes : BitVec 16) (s : State) : Out := .next (writeHjResume s by_ lanes).1

/-- SPOOL_LANE_WAIT (R294): the oldest tile of a region that waits for a lane has waited 2,000 cycles and is stored RAW; one that is to be
computed again has waited longest. -/
def execSpoolLaneWait (region : Nat) (s : State) : Out :=
  if !s.coreOn then .next s
  else match s.spool.redo.findIdx? fun p => p.2.tileOf region with
  | some i =>
    match s.spool.redo[i]? with
    | some (_, .spool t) => .next (({ s with spool := { s.spool with redo := s.spool.redo.eraseIdx i } }).storeTile t.raw).advanceRaster
    | _ => .next s
  | none => match s.spool.waiting.findIdx? fun t => t.region = region with
  | none => .next s
  | some i =>
    match s.spool.waiting[i]? with
    | none => .next s
    | some t =>
      .next (({ s with spool := { s.spool with waiting := s.spool.waiting.eraseIdx i } }).storeTile t.raw).advanceRaster

/-- Abort the host jobs of the lanes selected (R303); the abort is complete at once, within its 10 µs. -/
def State.abortHosts (s : State) (selector : Nat) : State :=
  let hit := (List.range 16).filter fun l => bitOf selector l && (atD s.spool.lanes l {}).host.isSome
  if hit.isEmpty then s
  else (hit.foldl (fun s l =>
    match (atD s.spool.lanes l {}).host with
    | some j => s.endHost j 4 0
    | none => s) (s.setN (Obj.ABORT_STATE + 2) 2)).runLanes

/-- LANE_STATE, LANE_HOST_STATE and LANE_FAILS as they read (Table 12-9). -/
def State.laneState (s : State) (l : Nat) : Nat :=
  if s.laneRetired l then 3
  else match (atD s.spool.lanes l {}).unit with
    | none => 0
    | some (.host _) => 2
    | some _ => 1
def State.laneHostState (s : State) (l : Nat) : Nat :=
  match (atD s.spool.lanes l {}).host with
  | none => 0
  | some j => if j.paused then 2 else 1
def State.laneFails (s : State) (l : Nat) : Nat :=
  let x := atD s.spool.lanes l {}
  recentFails x.fails x.units

end Sys2Proof.Machine
end

