-- ==== Sys2Proof/Machine/Slots.lean ====
section
/-! DEFINITION. The slot path (R142 to R157, R218, R284 to R286): which beam stands over which pixel, the window, the dose
split, lost visits, add-back, rail mismatches. -/
namespace Sys2Proof.Machine

/-! ### Geometry -/

/-- DIRECTION of the armed sweep. -/
def State.dir (s : State) : Bool := s.on Obj.SWEEP_DIRECTION
/-- L of the armed sweep. -/
def State.sweepLen (s : State) : Int := s.get Obj.SWEEP_LENGTH
/-- Rank of a beam row (R142). -/
def rankOf (dir : Bool) (r : Nat) : Nat := if dir then 479 - r else r
/-- Sweep coordinate under a row at a flash index (R142). -/
def State.coordOf (s : State) (r : Nat) (n : Int) : Int := n - rankOf s.dir r * s.B
/-- Stripe-relative pixel of a sweep coordinate. -/
def State.pixelOf (s : State) (c : Int) : Int := if s.dir then s.sweepLen - 1 - c else c
/-- ρ0 of a group (R143). -/
def State.rho0 (s : State) (g : Nat) : Nat := if s.dir then (s.B - 1 - g) * s.S else g * s.S
/-- The index at which a group makes its last visit to a sweep coordinate. -/
def State.lastVisit (s : State) (g : Nat) (c : Int) : Int := c + ((s.rho0 g + s.S - 1) * s.B : Nat)
/-- The group of a line. -/
def State.groupOf (s : State) (line : Nat) : Nat := line % s.B
/-- A sweep coordinate lies in the sweep (R144, R231). -/
def Sweep.has (w : Sweep) (c : Int) : Bool := w.ranges.any fun p => p.1 ≤ c && c ≤ p.2
/-- The first sweep coordinate of the armed sweep: 0, or a_1 (R184, R231). -/
def Sweep.first (w : Sweep) : Int := (w.ranges.head?.map (·.1)).getD 0
/-- Rows that stand over the sweep at a flash index. -/
def State.rowsAt (s : State) (n : Int) : List Nat := (List.range 480).filter fun r => s.sweep.has (s.coordOf r n)
/-- Beam-link lane of a beam (R188). -/
def laneOf (beam : Nat) : Nat := 6 * (beam % 640 / 160) + beam / 640 / 80

/-- Entry of a beam in the per-beam table (R203). -/
def State.beamEntry (s : State) (b : Nat) : Nat := (kvGet (atD s.head.table (b / 640) []) (b % 640)).getD 0
/-- STATE and ECODE of an entry (Table 08-9). -/
def beamState (e : Nat) : Nat := e % 4
def beamEcode (e : Nat) : Nat := e / 4 % 1024

/-! ### The window -/

/-- The word of a group at `q` in a column. -/
def colWord (col : WinCol) (g q : Nat) : Option WinWord := ((kvGet col g).getD []).find? (·.q = q)

/-- Put a word. -/
def putWord (col : WinCol) (g : Nat) (w : WinWord) : WinCol :=
  let ws := (kvGet col g).getD []
  kvSet col g (if ws.any (·.q = w.q) then ws.map fun x => if x.q = w.q then w else x else ws ++ [w])

/-- Change a word; one without data is not valid. -/
def updWord (col : WinCol) (g q : Nat) (f : WinWord → WinWord) : WinCol :=
  putWord col g (f ((colWord col g q).getD ⟨q, false, [], 0, false⟩))

/-- Drop a word: its entries are free. -/
def dropWord (col : WinCol) (g q : Nat) : WinCol :=
  let ws := ((kvGet col g).getD []).filter (·.q ≠ q)
  if ws.isEmpty then kvDel col g else kvSet col g ws

/-- Set cause flags (R218). -/
def markWord (col : WinCol) (g q flags : Nat) : WinCol := updWord col g q fun w => { w with flags := w.flags ||| flags }

/-- The word that holds a pixel of a line. -/
def State.wordOf (s : State) (line : Nat) (x : Int) : Option WinWord :=
  colWord (atD s.sweep.win (line / s.B) []) (s.groupOf line) (x / 4).toNat

/-- Change the word that holds a pixel of a line. -/
def State.modWord (s : State) (line : Nat) (x : Int) (f : WinWord → WinWord) : State :=
  { s with sweep := { s.sweep with win := modifyAt s.sweep.win (line / s.B) fun col => updWord col (s.groupOf line) (x / 4).toNat f } }

/-- Fold over the columns of the window, changing each. -/
def foldCols (f : Nat → WinCol → σ → WinCol × σ) : Nat → List WinCol → σ → List WinCol × σ
  | _, [], a => ([], a)
  | c, x :: r, a =>
    let (x', a) := f c x a
    let (r', a) := foldCols f (c + 1) r a
    (x' :: r', a)

/-! ### Visits of a flash -/

/-- Reasons of Table 06-3, as sub-index less 1. -/
abbrev rsnOff : Nat := 0
abbrev rsnLostRegion : Nat := 1
abbrev rsnLate : Nat := 2
abbrev rsnRail : Nat := 3
abbrev rsnSkip : Nat := 4
abbrev rsnBlanked : Nat := 5
abbrev rsnLimit : Nat := 6
abbrev rsnNotFired : Nat := 7
abbrev rsnHandover : Nat := 8

/-- What the computation of a flash gathers: lost visits by reason, visits computed by region, codes with their divisors,
beams whose visits were computed, beams lost to the rails, slot lanes whose rails disagreed, words that the slot lanes read
as uncorrectable (column, group, word), whether a word was late that the record leaves valid, whether a rail of the
device's own disagreed. -/
structure FlashAcc where
  lost    : List Nat := List.replicate 9 0
  done    : List Nat := [0, 0, 0, 0]
  codes   : List (Nat × Nat × Nat) := []
  visits  : List Nat := []
  rails   : List Nat := []
  lanes   : List Nat := []
  badWords : List (Nat × Nat × Nat) := []
  lateOwn : Bool := false
  railOwn : Bool := false
  deriving DecidableEq, Repr

/-- Count a lost visit. -/
def FlashAcc.lose (a : FlashAcc) (reason : Nat) : FlashAcc := { a with lost := modifyAt a.lost reason (· + 1) }

/-- The code and the dose of a visit (R149): rem, den, visits left k, reserve h, cap. -/
def splitDose (rem : Int) (den k h cap : Nat) : Nat × Nat :=
  let hl := min h (k - 1)
  let kp := max 1 (k - hl)
  let c := if rem ≤ 0 then 0 else min cap (rneDivN (16 * rem.toNat) (den * kp))
  (c, rneDivN (c * den) 16)

/-- What binds a flash beside the window: index, cap, faults, and the runs of a flash record (R248), none where the device
decides by its own. -/
structure FlashIn where
  n      : Int
  cap    : Nat
  faults : FlashFaults
  late   : List LateRun := []
  railRuns : List (Nat × Nat) := []
  bound  : Bool := false
  deriving DecidableEq, Repr

/-- A late run treats a word as not valid. -/
def lateBy (runs : List LateRun) (line : Nat) (c : Int) : Bool :=
  runs.any fun r => r.firstLine ≤ line && line < r.firstLine + r.lineCount && r.loadLimit ≤ c

/-- A beam is in a rail run. -/
def railBy (runs : List (Nat × Nat)) (b : Nat) : Bool := runs.any fun r => r.1 ≤ b && b < r.1 + r.2

/-- The slot lanes of a region in service. -/
def State.slotLanes (s : State) (r : Nat) : List Nat := (rangeN (80 * r) (80 * r + 79)).filter (!s.slotRetired ·)

/-- The slot lane that computes a beam. -/
def State.slotOf (s : State) (b : Nat) : Nat :=
  let ls := s.slotLanes (b % 640 / 160)
  atD ls (Config.slotLane b % ls.length) 0

/-- The least sweep coordinate of a word's pixels inside the sweep. -/
def State.firstCoord (s : State) (q : Nat) : Option Int :=
  let cs := [0, 1, 2, 3].map fun (i : Nat) => if s.dir then s.sweepLen - 1 - (4 * q + i : Nat) else ((4 * q + i : Nat) : Int)
  match cs.filter s.sweep.has with
  | [] => none
  | c :: r => some (r.foldl min c)

/-- One visit of a flash (R149 to R155): beam (row `r`, column `c`) over sweep coordinate `x`'s word. -/
def State.visit (s : State) (i : FlashIn) (r : Nat) (coord : Int) (k : Nat) (rowTab : List (Nat × Nat)) (c : Nat) (col : WinCol)
    (a : FlashAcc) : WinCol × FlashAcc :=
  let b := 640 * r + c
  let g := r / s.S
  let x := s.pixelOf coord
  let q := (x / 4).toNat
  let e := (kvGet rowTab c).getD 0
  let lose (reason : Nat) (a : FlashAcc) : WinCol × FlashAcc := (markWord col g q (reasonFlag reason), a.lose reason)
  if 2 ≤ beamState e then lose rsnOff a
  else if s.lost (c / 160) then lose rsnLostRegion a
  else
    let line := c * s.B + g
    let w := (colWord col g q).getD ⟨q, false, [], 0, false⟩
    let runLate := lateBy i.late line ((s.firstCoord q).getD coord)
    if !w.valid || runLate then
      let (col, a) := lose rsnLate (if !w.valid && i.bound && !runLate then { a with lateOwn := true } else a)
      -- a run binds the never-loaded rule of R148 too
      (if w.valid && k = 1 && s.firstCoord q = some coord then updWord col g q fun w => { w with valid := false } else col, a)
    else
      let tableBad := i.faults.table.contains (b / 2) || s.sram.tableUe.contains (b / 2)
      let winBad := i.faults.window.contains (line, q % 128)
      let own := i.faults.rails.contains b
      if own || winBad || w.poison || tableBad || railBy i.railRuns b then
        let mine := own || winBad || w.poison || tableBad
        let a := { a with
          rails := if mine then b :: a.rails else a.rails
          railOwn := a.railOwn || mine
          lanes := if own then s.slotOf b :: a.lanes else a.lanes
          badWords := if winBad && !w.poison then (c, g, q) :: a.badWords else a.badWords }
        let (col, a) := lose rsnRail a
        (if winBad then updWord col g q fun w => { w with poison := true } else col, a)
      else
        let rem := atD w.rem (x % 4).toNat 0
        let den := 512 + beamEcode e
        let (code, d) := splitDose rem den k (s.getN Obj.SLOT_RESERVE) i.cap
        let fl := if code ≠ i.cap then 0 else if i.cap = 15 then 0x20 else 4
        let w' := { w with rem := setAt w.rem (x % 4).toNat (rem - d), flags := w.flags ||| fl }
        (putWord col g w', { a with
          done := modifyAt a.done (c / 160) (· + 1)
          codes := if code = 0 then a.codes else (b, code, den) :: a.codes
          visits := b :: a.visits })

/-- All visits of a flash. -/
def State.visitAll (s : State) (i : FlashIn) : List WinCol × FlashAcc :=
  (s.rowsAt i.n).foldl (fun (p : List WinCol × FlashAcc) r =>
    let coord := s.coordOf r i.n
    let k := s.S - (rankOf s.dir r - s.rho0 (r / s.S))
    foldCols (s.visit i r coord k (atD s.head.table r [])) 0 p.1 p.2) (s.sweep.win, {})

/-- All visits of an index in which no code is computed from the window (R155): each takes BEAM_OFF or REGION_LOST where
one applies, otherwise the reason given. -/
def State.loseAll (s : State) (n : Int) (reason : Nat) : List WinCol × FlashAcc :=
  (s.rowsAt n).foldl (fun (p : List WinCol × FlashAcc) r =>
    let g := r / s.S
    let q := (s.pixelOf (s.coordOf r n) / 4).toNat
    let tab := atD s.head.table r []
    foldCols (fun c col (a : FlashAcc) =>
      let rs := if 2 ≤ beamState ((kvGet tab c).getD 0) then rsnOff else if s.lost (c / 160) then rsnLostRegion else reason
      (markWord col g q (reasonFlag rs), a.lose rs)) 0 p.1 p.2) (s.sweep.win, {})

/-- Enter what a flash gathered into the window and the counts. -/
def State.putVisits (s : State) (p : List WinCol × FlashAcc) : State :=
  let s := { s with sweep := { s.sweep with win := p.1 } }
  let s := foldN 9 (fun s j => if atD p.2.lost j 0 = 0 then s else s.add (Obj.LOST_VISITS + j) (atD p.2.lost j 0)) s
  foldN 4 (fun s r => if atD p.2.done r 0 = 0 then s else s.add (Obj.VISITS_COMPUTED + r) (atD p.2.done r 0)) s

/-- An index is passed as a skip, issued blanked, at the head's limit or in the handover interval. -/
def State.loseIndex (s : State) (n : Int) (reason : Nat) : State := s.putVisits (s.loseAll n reason)

/-! ### Rail mismatches -/

/-- RAIL_WINDOW: mismatches within the last 16 periods before the next decision (R254). -/
def State.railCount (s : State) : Nat := (s.pair.railPeriods.filter fun k => s.hs.k < k + 17).length

/-- RAIL_WINDOW follows the periods. -/
def State.refreshRails (s : State) : State :=
  let s := { s with pair := { s.pair with railPeriods := s.pair.railPeriods.filter fun k => s.hs.k < k + 17 } }
  s.setN Obj.RAIL_WINDOW (min 255 s.railCount)

/-- Dual-rail mismatches of a period: trigger 1 arises at the third within 16 periods (R254, R255). -/
def State.railHits (s : State) (k n region unit subsys : Nat) : State :=
  let old := s.railCount
  let s := ({ s with pair := { s.pair with railPeriods := List.replicate n k ++ s.pair.railPeriods } }).refreshRails
  if old < 3 ∧ 3 ≤ old + n then s.raise ⟨1, subsys, region, unit, region⟩ else s

/-- A slot lane's rails disagreed in a flash (R13): at the second within 1,024 flashes it is retired at the next boundary. -/
def State.laneHit (s : State) (l : Nat) : State :=
  let f := s.units.flashes
  let near := s.units.laneHits.filter fun p => f < p.2 + 1024
  if near.any fun p => p.1 = l && p.2 = f then s
  else
    let due := near.any (·.1 = l)
    { s with units := { s.units with
        laneHits := (l, f) :: near
        laneDue := if due && !s.units.laneDue.contains l && !s.slotRetired l then s.units.laneDue ++ [l] else s.units.laneDue } }

/-- The window word that stands at an index of a slice (R146): column, group and word of the line, where one is under way. -/
def State.windowAt (s : State) (r wi : Nat) : Option (Nat × Nat × Nat) :=
  let c := 160 * r + wi / 128 / s.B
  let g := wi / 128 % s.B
  (((kvGet (atD s.sweep.win c []) g).getD []).find? fun w => w.q % 128 = wi % 128).map fun w => (c, g, w.q)

/-- A word of an on-chip store has read as corrected, by a lane, a decision or the scrubber (R284): stores 0 to 3 the window slices, 4 the
per-beam table, 5 the code history. -/
def State.sramCorrected (s : State) (store word : Nat) : State :=
  (s.inc (Obj.SRAM_CORRECTED + store)).logEvent
    ⟨1, if store < 4 then 4 else 11, if store < 4 then store else 255, 255, Obj.SRAM_CORRECTED + store, word, 0⟩

/-- Majority of three copies, bit by bit (R284). -/
def majority (a b c : BitVec 9) : BitVec 9 := (a &&& b) ||| (a &&& c) ||| (b &&& c)

/-- A window word as its valid bit and cause flags read with the bits `m` turned over. -/
def WinWord.turn (w : WinWord) (m : BitVec 9) : WinWord :=
  { w with valid := w.valid != m.getLsbD 8, flags := w.flags ^^^ (m.toNat % 256) }

/-- The copies of valid bits and cause flags are read by majority (R284): what two copies agree in holds, and each copy that disagrees is
corrected and counted. State holds what the copies agree in after that. -/
def State.readMarks (s : State) (ms : List MarkFault) : State :=
  ms.foldl (fun (s : State) f =>
    match f.flips with
    | [a, b, c] =>
      let m := majority a b c
      let s := foldN ([a, b, c].filter (· ≠ m)).length (fun s _ => s.sramCorrected f.region f.word) s
      match s.windowAt f.region f.word with
      | some (col, g, q) => { s with sweep := { s.sweep with win := modifyAt s.sweep.win col fun x => updWord x g q (·.turn m) } }
      | none => s
    | _ => s) s

/-- What the slot lanes meet in the stores beside uncorrectable words: corrected words and copies that disagree. -/
def State.noteReads (s : State) (f : FlashFaults) : State :=
  (f.corrected.foldl (fun s p => s.sramCorrected p.1 p.2) s).readMarks f.marks

/-- 3011 takes an uncorrectable word of an on-chip store, by the sub-index of 3013 that names the store and the index of the
word in it; `finder` 0 scrubber, 1 access; `mis` where the fold of the address fails. -/
def State.lastSramUe (s : State) (store word finder : Nat) (mis : Bool := false) : State :=
  (((s.setN Obj.LAST_UE_ADDRESS (2 ^ 63 + 2 ^ 28 * store + word)).setN Obj.LAST_UE_KIND (if mis then 2 else 1)).setN
    Obj.LAST_UE_REGION 0).setN Obj.LAST_UE_FINDER finder

/-- A word of a window slice has read as uncorrectable and is poisoned (R285, R286, Table 11-6). -/
def State.windowUe (s : State) (c g q : Nat) (finder : Nat := 1) (mis : Bool := false) : State :=
  let r := c / 160
  let a := (c * s.B + g) * 128 + q % 128
  let s := ((s.inc (Obj.SRAM_UNCORRECTABLE + r)).inc (Obj.WINDOW_WORDS_POISONED + r)).lastSramUe (r + 1)
    ((c % 160 * s.B + g) * 128 + q % 128) finder mis
  let seen := atD s.sram.windowUe r []
  if seen.contains a then s
  else
    let s := { s with sram := { s.sram with windowUe := setAt s.sram.windowUe r (a :: seen) } }
    if s.getN Obj.WINDOW_FAULT_LIMIT ≤ seen.length + 1 ∧ !s.units.sliceDue.contains r then
      { s with units := { s.units with sliceDue := s.units.sliceDue ++ [r] } }
    else s

/-- Uncorrectable words of the per-beam table: their beams' visits are lost until the next epoch (Table 11-6). -/
def State.tableUe (s : State) (ws : List Nat) (finder : Nat := 1) (mis : Bool := false) : State :=
  ws.foldl (fun (s : State) w =>
    let s := (s.inc (Obj.SRAM_UNCORRECTABLE + 4)).lastSramUe 5 w finder mis
    if s.sram.tableUe.contains w then s else { s with sram := { s.sram with tableUe := s.sram.tableUe ++ [w] } }) s

/-- The consequences of the rail compare of R154: counts, lanes, stores and trigger 1. A lost visit is not logged (R400). -/
def State.afterRails (s : State) (k : Nat) (a : FlashAcc) : State :=
  let s := a.badWords.foldl (fun s w => s.windowUe w.1 w.2.1 w.2.2) s
  let s := a.rails.foldl (fun (s : State) b => s.inc (Obj.RAIL_MISMATCHES + b % 640 / 160)) s
  let s := a.lanes.foldl State.laneHit s
  match a.rails.getLast? with
  | some b => s.railHits k a.rails.length (b % 640 / 160) (s.slotOf b % 80) 3
  | none => s

/-! ### Add-back -/

/-- The pixel that a beam stood over at an index: line and pixel. -/
def State.under (s : State) (b : Nat) (n : Int) : Nat × Int :=
  let r := b / 640
  (b % 640 * s.B + r / s.S, s.pixelOf (s.coordOf r n))

/-- Whether a beam's code stands in one of the payload words given (lane, word) (R191). -/
def codeIn (ws : List (Nat × Nat)) (b : Nat) : Bool :=
  ws.any fun p => p.1 = laneOf b && p.2 = (160 * (b / 640 % 80) + b % 640 % 160) / 16

/-- Restore a code (R156); nothing can be added to a poisoned word (Table 11-6). -/
def State.restore (s : State) (n : Int) (b code den : Nat) : State :=
  let (line, x) := s.under b n
  match s.wordOf line x with
  | none => s
  | some w =>
    if w.poison then s else
    let r := b % 640 / 160
    let rem := atD w.rem (x % 4).toNat 0
    let v : Int := rem + rneDivN (code * den) 16
    let s := s.inc (Obj.ADDED_BACK_CODES + r)
    let s := if 32767 ≤ v then s.inc (Obj.REM_SATURATIONS + r) else s
    s.modWord line x fun w => { w with rem := setAt w.rem (x % 4).toNat (min 32767 v) }

/-- The beams of a payload word of a lane (R191). -/
def wordBeams (p : Nat × Nat) : List Nat :=
  (rangeN (16 * p.2) (16 * p.2 + 15)).map fun i => 640 * (80 * (p.1 % 6) + i / 160) + 160 * (p.1 / 6) + i % 160

/-- The window word of the pixel that a beam stood over at an index is poisoned, where the pixel lies in the sweep (Table 11-6). -/
def State.poisonUnder (s : State) (n : Int) (b : Nat) : State :=
  if !s.sweep.has (s.coordOf (b / 640) n) ∨ s.lost (b % 640 / 160) then s
  else
    let (line, x) := s.under b n
    let s := if (s.wordOf line x).any (·.poison) then s else s.inc (Obj.WINDOW_WORDS_POISONED + b % 640 / 160)
    s.modWord line x fun w => { w with poison := true }

/-- The decision of a period takes effect (R156, R157, R199): the visits of frames not fired are lost, and their codes are
restored unless an abort or HALT has begun. `ws`: history words that read as uncorrectable; the add-back of their 16 codes cannot be made
(Table 11-6). -/
def State.effectOf (s : State) (h : HistFlash) (fired : BitVec 24) (ws : List (Nat × Nat)) : State :=
  let s := { s with hist := s.hist.filter (·.period ≠ h.period) }
  let s : State := if ws.isEmpty then s else
    let (w, s) := (s.add (Obj.SRAM_UNCORRECTABLE + 5) ws.length).freeNat
    s.lastSramUe 6 (w % 2 ^ 28) 1
  let dark (b : Nat) : Bool := !fired.getLsbD (laneOf b)
  let lostVisits := h.visits.filter dark
  let s := lostVisits.foldl (fun s b =>
    let (line, x) := s.under b h.n
    let r := b % 640 / 160
    let s := (s.inc (Obj.LOST_VISITS + rsnNotFired)).set (Obj.VISITS_COMPUTED + r) (s.get (Obj.VISITS_COMPUTED + r) - 1)
    s.modWord line x fun w => { w with flags := w.flags ||| 0x20 }) s
  if s.job.abortAt.isSome then s
  else
    let s := (h.codes.filter fun q => dark q.1 && !codeIn ws q.1).foldl (fun s q => s.restore h.n q.1 q.2.1 q.2.2) s
    ((ws.filter fun p => !fired.getLsbD p.1).flatMap wordBeams).foldl (fun s b => s.poisonUnder h.n b) s

/-- Every decision made takes effect, oldest period first (R200). -/
def State.effectDecisions (s : State) (faults : List HistoryFault) : State :=
  s.hist.foldl (fun s h =>
    match h.fired with
    | some f =>
      let mine := faults.filter (·.period = h.period)
      let s := (mine.filter (·.corrected)).foldl (fun (s : State) _ => let (w, s) := s.freeNat; s.sramCorrected 5 (w % 2 ^ 28)) s
      s.effectOf h f ((mine.filter (!·.corrected)).map fun x => (x.lane, x.word))
    | none => s) s

end Sys2Proof.Machine
end

