-- ==== Sys2Proof/Machine/Scan.lean ====
section
/-! DEFINITION. The window loader and the retirement of pixels (R147, R148, R153, R219 to R223, R232, R233, R296, R297). -/
namespace Sys2Proof.Machine

/-- A Burnish sweep is armed. -/
def State.burnishing (s : State) : Bool := s.getN Obj.SWEEP_KIND = 1

/-- The key of the tile that holds a pixel of the armed stripe, and the pixel's number in it (R93, R101). -/
def State.tileOf (s : State) (line : Nat) (x : Int) : TileKey × Nat :=
  (⟨s.sweep.stripe, (x / 64).toNat, line / 64⟩, 64 * (line % 64) + (x % 64).toNat)

/-- The planned entry of a tile in a Burnish sweep. -/
def State.plannedEntry (s : State) (k : TileKey) : Option Entry :=
  (s.sweep.plan.filterMap fun i => s.ledger.entries[i]?).find? fun e => e.key = k

/-- Target of a pixel (rem0 of R147 and R232), where it is known; the flag says that it is the full target from the spool. -/
def State.target (s : State) (k : TileKey) (p : Nat) : Option (Nat × Bool) :=
  let spool : Option (Nat × Bool) := (s.spoolTile k).map fun t => (s.rem0 (t.value p), true)
  if !s.burnishing then spool
  else match s.plannedEntry k with
    | none => some (0, false)
    | some e =>
      if e.unknown then spool
      else match (e.vals.find? (·.1 = p)).map (·.2) with
        | none => some (0, false)
        | some v => if v = 0xFFFF then spool else some (v, false)

/-! ### Loading -/

/-- A pixel has retired: its last visit is past and no decision for it is outstanding (R147). -/
def State.retiredAt (s : State) (g : Nat) (c : Int) : Bool := s.lastVisit g c ≤ s.sweep.examined && !s.sweep.held.contains (g, c)

/-- Sweep coordinates of a word's pixels inside the sweep. -/
def State.wordCoords (s : State) (q : Nat) : List Int :=
  ([0, 1, 2, 3].map fun (i : Nat) => if s.dir then s.sweepLen - 1 - (4 * q + i : Nat) else ((4 * q + i : Nat) : Int)).filter s.sweep.has

/-- A word can still be loaded: the last visit to the first pixel the sweep reaches lies ahead (R148). -/
def State.stillLoadable (s : State) (g q : Nat) : Bool :=
  match s.firstCoord q with
  | none => false
  | some c => s.sweep.reached < s.lastVisit g c

/-- The four remaining doses that the loader writes, once every tile value they need can be taken. -/
def State.loadValues (s : State) (line q : Nat) : Option (List Int) :=
  let one (i : Nat) : Option Int :=
    let x : Int := (4 * q + i : Nat)
    if s.sweepLen ≤ x then some 0
    else
      let (k, p) := s.tileOf line x
      match s.target k p with
      | none => none
      | some (v, full) => if full && !s.burnishing && !s.behindFront k then none else some (v : Int)
  match one 0, one 1, one 2, one 3 with
  | some a, some b, some c, some d => some [a, b, c, d]
  | _, _, _, _ => none

/-- The words of a line in sweep order. -/
def State.sweepWords (s : State) : List Nat :=
  let l := List.range (ceilDiv s.sweepLen.toNat 4)
  if s.dir then l.reverse else l

/-- A pixel's entry is free at the next flash boundary at the latest: it has retired, or its last visit has been reached and no decision
for a code sent to it is still to come (R147). -/
def State.freeSoon (s : State) (g : Nat) (c : Int) : Bool :=
  s.retiredAt g c || (decide (s.lastVisit g c ≤ s.sweep.reached) && !s.hist.any fun h => h.fired.isNone &&
    (let d := h.n - c
     decide (0 ≤ d) && d % s.B = 0 && decide (s.rho0 g ≤ (d / s.B).toNat) && decide ((d / s.B).toNat < s.rho0 g + s.S)))

/-- A word of a line is valid in the window, or its load waits for the boundary. -/
def State.wordThere (s : State) (line q : Nat) : Bool :=
  ((s.wordOf line (4 * q : Nat)).any (·.valid)) || s.sweep.loads.any fun l => l.1 = line && l.2.1 = q

/-- The next invalid word of a line: the first in sweep order that can still be loaded and is neither valid nor being loaded. A word of
a lost tile, or of a residual tile that cannot be read, is passed over (R297). -/
def State.nextWord (s : State) (line : Nat) : Option Nat :=
  s.sweepWords.find? fun q => s.stillLoadable (s.groupOf line) q && !s.wordThere line q &&
    !s.spool.tiles.any (fun t => t.bad && t.key = (s.tileOf line (4 * q : Nat)).1) &&
    !(s.burnishing && (s.plannedEntry (s.tileOf line (4 * q : Nat)).1).any (·.bad))

/-- The group front of a line: the sweep coordinate under the leading row of its group at the last index issued (R147). -/
def State.groupFront (s : State) (line : Nat) : Int := s.sweep.nPrev - (s.rho0 (s.groupOf line) * s.B : Nat)

/-- The next word of a line, where it can be loaded: within the load reach of the group front, or of the sweep's first coordinate before
the front reaches it, its entries free, its spool values there (R147, R159). -/
def State.loadable (s : State) (line : Nat) : Option Nat :=
  match s.nextWord line with
  | none => none
  | some q =>
    let c := (s.firstCoord q).getD 0
    let inReach := decide (c < max s.sweep.first (s.groupFront line + 1) + s.getN Obj.LOAD_REACH)
    let free := (s.sweepWords.takeWhile (· ≠ q)).all fun b => b % 128 ≠ q % 128 || (s.wordCoords b).all (s.freeSoon (s.groupOf line))
    if inReach && free && (s.loadValues line q).isSome then some q else none

/-- How far the next invalid word of a line lies ahead of the line's group front. -/
def State.wordLead (s : State) (line q : Nat) : Int := (s.firstCoord q).getD 0 - s.groupFront line

/-- The word that the loader loads into a ring word of a line: the line's next one, in a region whose other lines have none that their
group front reaches sooner (R147). -/
def State.loadTarget (s : State) (line w : Nat) : Option Nat :=
  match s.loadable line with
  | none => none
  | some q =>
    let n := 160 * s.B
    let r := s.regionOfLine line
    let sooner (l : Nat) : Bool := (s.nextWord l).any fun p => decide (s.wordLead l p < s.wordLead line q) && (s.loadable l).isSome
    if q % 128 = w && !(rangeN (n * r) (n * r + n - 1)).any sooner then some q else none

/-- A region's loader works: a sweep armed, its writing side awake, not lost, before the t = 0 of an abort. -/
def State.loaderOn (s : State) (r : Nat) : Bool :=
  s.coreOn && s.sweepArmed && atD s.units.writing r 0 = 2 && !s.lost r && s.job.abortAt.isNone

/-- Count the pixels of a word as loaded from their spool tile (R296). -/
def State.countLoaded (s : State) (k : TileKey) (n : Nat) : State :=
  ({ s with spool := { s.spool with tiles := s.spool.tiles.map fun (t : SpoolTile) =>
      if t.key = k then { t with loaded := t.loaded + n } else t } }).freeTiles

/-- A tile fails its CRC at load (R297): one from the spool, a retained one in a Burnish sweep included, as Table 11-5 code 2; a residual tile
as an unreadable ledger entry. -/
def State.loadCrcFail (s : State) (k : TileKey) (retained : Bool) : State :=
  let s := s.inc (Obj.SPOOL_CRC_FAILS)
  match (if s.burnishing then s.plannedEntry k else none) with
  | some e =>
    if e.unknown || retained then s.loseTile k
    else match s.openEntry k with
      | some i => (s.modEntry i fun x => { x with bad := true }).reportEntry i
      | none => s
  | none => s.loseTile k

/-- WINDOW_LOAD (R147, R148, R297): a word of a line is loaded; the load takes effect at the next flash boundary. -/
def execWindowLoad (line word : Nat) (fault : LoadFault) (s : State) : Out :=
  if s.lines ≤ line ∨ !s.loaderOn (s.regionOfLine line) then .next s
  else match s.loadTarget line word with
    | none => .next s
    | some q =>
      match s.loadValues line q with
      | none => .next s
      | some vs =>
        let (k, _) := s.tileOf line (4 * q : Nat)
        let s := s.add Obj.LOADER_MISMATCHES (min 2 fault.inflateMismatches)
        if 2 ≤ fault.inflateMismatches then .next s
        else if fault.crcFail then .next (s.loadCrcFail k fault.retained)
        else
          let s := { s with sweep := { s.sweep with loads := s.sweep.loads ++ [(line, q, vs)] } }
          .next (if s.burnishing then s else s.countLoaded k (s.wordCoords q).length)

/-- Loads take effect at a flash boundary; a word that has meanwhile become never-loaded is not written. -/
def State.effectLoads (s : State) : State :=
  let s' := s.sweep.loads.foldl (fun (s : State) l =>
    if s.stillLoadable (s.groupOf l.1) l.2.1 then s.modWord l.1 (4 * l.2.1 : Nat) fun w => { w with valid := true, rem := l.2.2 } else s) s
  { s' with sweep := { s'.sweep with loads := [] } }

/-- LOAD_LEAD (Table 06-6): the least distance by which the loaded words of a line lead its group front. -/
def State.loadLead (s : State) (r : Nat) : Int :=
  if !s.sweepArmed then 0
  else
    let top := s.sweep.ranges.foldl (fun m p => max m p.2) (-1)
    let lead (line : Nat) : Option Int :=
      let g := s.groupOf line
      let f := s.sweep.nPrev - (s.rho0 g * s.B : Nat)
      if top < f then none
      else
        let n := ceilDiv s.sweepLen.toNat 4
        let qs := if s.dir then (List.range n).reverse else List.range n
        let bad := qs.find? fun q =>
          (s.wordCoords q).any (f ≤ ·) && !(match s.wordOf line (4 * q : Nat) with
            | some x => x.valid
            | none => false)
        some ((match bad.bind s.firstCoord with
          | some c => c - 1
          | none => top) - f)
    match (rangeN (160 * s.B * r) (160 * s.B * r + 160 * s.B - 1)).filterMap lead with
    | [] => 0
    | a :: l => leadI32 (l.foldl min a)

/-! ### Retirement -/

/-- What the retirement of one (group, coordinate) gathers: residual pixels (line, value, flags), poisoned lines, counts of
never-loaded and of residual pixels per region. -/
structure RetAcc where
  res   : List (Nat × Nat × Nat) := []
  bad   : List Nat := []
  never : List Nat := [0, 0, 0, 0]
  resid : List Nat := [0, 0, 0, 0]
  deriving DecidableEq, Repr

/-- Retire one pixel (R153, R148, R219, Table 11-6): its column, with the word dropped when `last`. -/
def State.retirePixel (s : State) (g : Nat) (x : Int) (last : Bool) (c : Nat) (col : WinCol) (a : RetAcc) : WinCol × RetAcc :=
  let line := c * s.B + g
  let q := (x / 4).toNat
  let r := c / 160
  let w := (colWord col g q).getD ⟨q, false, [], 0, false⟩
  let tol : Int := s.get Obj.RESIDUAL_TOLERANCE
  let fl (f : Nat) : Nat := if f = 0 then 0x20 else f
  let a :=
    if w.poison then { a with bad := a.bad ++ [line] }
    else if w.valid then
      let rem := atD w.rem (x % 4).toNat 0
      if tol < rem then { a with res := a.res ++ [(line, rem.toNat, fl w.flags)], resid := modifyAt a.resid r (· + 1) } else a
    else
      let a := if s.lost r then a else { a with never := modifyAt a.never r (· + 1) }
      let (k, p) := s.tileOf line x
      match s.target k p with
      | none => { a with res := a.res ++ [(line, 0xFFFF, w.flags ||| 1)] }
      | some (v, full) =>
        if (v : Int) ≤ tol then a
        else { a with res := a.res ++ [(line, if full then 0xFFFF else v, w.flags ||| 1)], resid := modifyAt a.resid r (· + 1) }
  (if last then dropWord col g q else col, a)

/-- Add a residual pixel to its tile. -/
def addPixel (accs : List TileAcc) (u t p v f : Nat) : List TileAcc :=
  if accs.any fun a => a.u = u && a.t = t then
    accs.map fun a => if a.u = u ∧ a.t = t then { a with vals := kvSet a.vals p v, flags := a.flags ||| f } else a
  else accs ++ [⟨u, t, [(p, v)], f⟩]

/-- The defect record of a pixel whose window word was poisoned (Table 11-6). -/
def State.poisonDefect (s : State) (line : Nat) (x : Int) : State :=
  match s.stripeOf s.sweep.stripe with
  | none => s
  | some st =>
    let d : Defect := ⟨st.xStart + x, st.yOrigin + (line : Int), 0xFFFFFFFF, st.number, 0x20, 1, none, false⟩
    ({ s.inc Obj.DEFECT_RECORDS_TOTAL with ledger := { s.ledger with defects := s.ledger.defects ++ [d] } }).logEvent
      ⟨3, 4, s.regionOfLine line, 255, Obj.WINDOW_WORDS_POISONED + s.regionOfLine line, line, (toUnsigned 32 x)⟩

/-- Retire the pixels of a group at a sweep coordinate, in all 640 columns; `rest` are the pairs that retire after it. -/
def State.retireCoord (s : State) (g : Nat) (c : Int) (rest : List (Nat × Int)) : State :=
  let x := s.pixelOf c
  let q := (x / 4).toNat
  let last := (s.wordCoords q).all fun d => d = c || (s.retiredAt g d && !rest.contains (g, d))
  let (win, a) := foldCols (s.retirePixel g x last) 0 s.sweep.win {}
  let u := (x / 64).toNat
  let accs := a.res.foldl (fun l e => addPixel l u (e.1 / 64) (64 * (e.1 % 64) + (x % 64).toNat) e.2.1 e.2.2) s.sweep.accs
  let s := { s with sweep := { s.sweep with win := win, accs := accs, pixels := s.sweep.pixels + 640 } }
  let s := if s.burnishing then s else { s with job := { s.job with retired := s.job.retired + 640 } }
  let s := a.bad.foldl (fun s l => s.poisonDefect l x) s
  let s := foldN 4 (fun s r => if atD a.never r 0 = 0 then s else s.add (Obj.PIXELS_NEVER_LOADED + r) (atD a.never r 0)) s
  foldN 4 (fun s r => if atD a.resid r 0 = 0 then s else s.add (Obj.PIXELS_RESIDUAL + r) (atD a.resid r 0)) s

/-- A code sent to a pixel of the group still waits for its decision (R23). -/
def State.undecided (s : State) (g : Nat) (c : Int) : Bool :=
  s.hist.any fun h =>
    let d := h.n - c
    0 ≤ d && d % s.B = 0 && s.rho0 g ≤ (d / s.B).toNat && (d / s.B).toNat < s.rho0 g + s.S

/-- The (group, coordinate) pairs whose last visit is reached, the held ones first. -/
def State.retirable (s : State) : List (Nat × Int) :=
  s.sweep.held ++ (List.range s.B).flatMap fun g =>
    let off : Int := s.lastVisit g 0
    s.sweep.ranges.flatMap fun p => (rangeI (max p.1 (s.sweep.examined + 1 - off)) (min p.2 (s.sweep.reached - off))).map fun c => (g, c)

/-- Retire pairs in order. -/
def State.retireList : List (Nat × Int) → State → State
  | [], s => s
  | p :: rest, s => State.retireList rest (s.retireCoord p.1 p.2 rest)

/-- Pixels whose visits and decisions are complete retire at a flash boundary (R147, R153); none after the t = 0 of an abort. -/
def State.retirePixels (s : State) : State :=
  if !s.sweepArmed ∨ s.job.abortAt.isSome then s
  else
    let cand := s.retirable
    let (wait, go) := cand.partition fun p => s.undecided p.1 p.2
    let s := { s with sweep := { s.sweep with held := wait, examined := s.sweep.reached } }
    State.retireList go s

/-- The last pixel of a tile column has retired. -/
def State.columnRetired (s : State) (st : Stripe) (u : Nat) : Bool :=
  let (lo, hi) := st.colSpan u
  hi + (479 * s.B : Nat) ≤ s.sweep.examined && !s.sweep.held.any fun p => lo ≤ p.2 && p.2 ≤ hi

/-- A planned tile of a Burnish sweep is complete (R224, R233). -/
def State.closePlanned (s : State) (i : Nat) (acc : Option TileAcc) : State :=
  match s.ledger.entries[i]? with
  | none => s
  | some e =>
    if !e.isOpen then s
    else if e.unknown && s.ras.failed.contains e.key then { s with ras := { s.ras with failed := s.ras.failed.erase e.key } }
    else match acc with
      | none => (s.modEntry i fun x => { x with state := entryRepaired }).inc Obj.TILES_REPAIRED
      | some a =>
        let s := s.modEntry i fun x => { x with state := entrySuperseded }
        if e.unknown && (s.spoolTile e.key).isNone && s.lost e.region then
          s.appendEntry { e with pass := s.sweep.attempt + 1, cause := e.cause ||| a.flags, state := entryOpen }
        else
          s.appendEntry { key := e.key, region := e.region, cause := e.cause ||| a.flags,
                          flags := if a.vals.any (·.2 = 0xFFFF) then 4 else 0, pixels := a.vals.length,
                          pass := s.sweep.attempt + 1, sum := residualSum a.vals, vals := a.vals }

/-- A tile column of the sweep is complete: the ledger writers append their entries, the tiles leave the spool (R220, R233, R296). -/
def State.closeColumn (s : State) (u : Nat) : State :=
  let accOf (s : State) (t : Nat) : Option TileAcc := s.sweep.accs.find? fun a => a.u = u && a.t = t
  let rows := List.range (10 * s.B)
  let s := rows.foldl (fun s t =>
    let key : TileKey := ⟨s.sweep.stripe, u, t⟩
    if s.burnishing then
      match s.sweep.plan.find? fun i => (s.ledger.entries[i]?).any fun e => e.key = key with
      | some i => s.closePlanned i (accOf s t)
      | none => s
    else match accOf s t with
      | some a => s.addResidual key (s.regionOf t) a.flags 0 a.vals
      | none => s) s
  let used (t : SpoolTile) : Bool := t.key.stripe = s.sweep.stripe && t.key.u = u && (!s.burnishing || t.again)
  ({ s with
    sweep := { s.sweep with accs := s.sweep.accs.filter (·.u ≠ u), cols := s.sweep.cols.filter (· ≠ u) }
    spool := { s.spool with tiles := s.spool.tiles.map fun (t : SpoolTile) => if used t then { t with loaded := 4096 } else t } }).freeTiles

/-- Complete tile columns are closed, in sweep order. -/
def State.closeColumns (s : State) : State :=
  if s.job.abortAt.isSome then s
  else match s.stripeOf s.sweep.stripe with
    | none => s
    | some st => s.sweep.cols.foldl (fun s u => if s.columnRetired st u then s.closeColumn u else s) s

/-- BURNISH_PERMILLE (R234). -/
def State.burnishPermille (s : State) : Nat :=
  let pp := sumMap (fun p : Int × Int => (p.2 - p.1 + 1).toNat) s.sweep.ranges * s.lines
  if pp = 0 then 0 else 1000 * s.sweep.pixels / pp

/-- Slot lanes and window slices due for retirement are retired at the flash boundary (R13, R286). -/
def State.retireDue (s : State) : State :=
  let s' := s.units.laneDue.foldl State.retireSlot s
  let s' := s.units.sliceDue.foldl (fun s r => s.loseRegion r 4 r) s'
  { s' with units := { s'.units with laneDue := [], sliceDue := [] } }

end Sys2Proof.Machine
end

