-- ==== Sys2Proof/Machine/Frames.lean ====
section
/-! DEFINITION. Beam-link lanes, Svetfin frames and flash records (R188 to R193, R247, R248), and the computation of a
flash (R149 to R154, R159). -/
namespace Sys2Proof.Machine

/-! ### Lanes -/

/-- BLK_LANE_STATE of every lane, and STAGE_SLOW_N, follow the power state, the lane PLLs and the pair-gated outputs (R176, R189, R193,
R242). -/
def State.refreshBlk (s : State) : State :=
  let s := foldN 24 (fun s l =>
    let o := Obj.BLK_LANE_STATE + l
    if s.getN o = 3 then s
    else if !(s.power = 2 || s.power = 3) || s.pwr.locking.contains (.lane .blk l) then s.setN o 0
    else s.setN o (if s.outputsOn then 1 else 2)) s
  s.driveStageSlow (s.outputsOn && s.on Obj.STAGE_SLOW)

/-- A lane computes frames: RUNNING, or SILENT on a standby. -/
def State.laneUp (s : State) (l : Nat) : Bool := s.getN (Obj.BLK_LANE_STATE + l) ∈ [1, 2]

/-- A beam-link group is retired, and its region lost (R193). -/
def State.retireLinks (s : State) (r : Nat) : State :=
  if s.units.linkOut.contains r then s
  else
    let s := { s with units := { s.units with linkOut := r :: s.units.linkOut } }
    ((rangeN (6 * r) (6 * r + 5)).foldl (fun s l => s.setN (Obj.BLK_LANE_STATE + l) 3) s).loseRegion r 6 r

/-- A frame CRC rail mismatch (R192, R193): counted, entered, and the group retired at the third within 1,024 periods. -/
def State.linkHit (s : State) (k l : Nat) : State :=
  let r := l / 6
  let s := (s.inc Obj.LINK_CRC_MISMATCHES).logEvent ⟨2, 6, r, l, Obj.LINK_CRC_MISMATCHES, k, 0⟩
  let near := (r, k) :: s.units.linkHits.filter fun p => k < p.2 + 1024
  let s := { s with units := { s.units with linkHits := near } }
  let s := s.railHits k 1 r l 6
  if 3 ≤ (near.filter (·.1 = r)).length then s.retireLinks r else s

/-! ### Frames -/

/-- Index of a beam's code in the frame of its lane (R191). -/
def codeIndex (b : Nat) : Nat := 160 * (b / 640 % 80) + b % 640 % 160

/-- `n` codes from index `i` on, from a list of (index, code) in rising order. -/
def layCodes : Nat → Nat → List (Nat × Nat) → List Nat
  | 0, _, _ => []
  | n + 1, i, [] => 0 :: layCodes n (i + 1) []
  | n + 1, i, (j, c) :: r => if i = j then c :: layCodes n (i + 1) r else 0 :: layCodes n (i + 1) ((j, c) :: r)

/-- Codes packed two to a byte, the first in the low nibble. -/
def packNibbles : List Nat → Bytes
  | a :: b :: r => byte (a + 16 * b) :: packNibbles r
  | [a] => [byte a]
  | [] => []

/-- The payload of a lane (R191), from (beam, code). -/
def lanePayload (codes : List (Nat × Nat)) (l : Nat) : Bytes :=
  let cs := sortBy (fun a b => a.1 ≤ b.1) ((codes.filter fun p => laneOf p.1 = l).map fun p => (codeIndex p.1, p.2))
  packNibbles (layCodes 12800 0 cs)

/-- The frame header (Table 08-3). -/
def frameHeader (k l kind : Nat) (index : Int) (command : Nat) : Bytes :=
  leBytes 4 (k % 2 ^ 32) ++ [byte l, byte kind, 1, 0] ++ leBytesI 4 index ++ leBytes 4 command

/-- The COMMAND field of a lane: the outstanding head command where the beam's lane is this one (R208). -/
def State.commandOf (s : State) (l : Nat) : Nat :=
  match s.head.cmds with
  | [] => 0
  | c :: _ => if laneOf c.beam = l then 2 ^ 28 + c.beam else 0

/-- The frame of a lane in a period: header and payload. -/
def State.frameBytes (s : State) (p : Period) (kind : Nat) (codes : List (Nat × Nat)) (l : Nat) : Bytes :=
  frameHeader p.k l kind (if kind = 0 ∨ kind = 3 then 0 else p.n) (s.commandOf l) ++ lanePayload codes l

/-- Lanes that carry a frame in a period (Table 08-2): all, or the command's lane alone when no sweep is armed. -/
def State.frameLanes (s : State) (p : Period) : List Nat :=
  let ls := match p.kind with
    | none => []
    | some 0 =>
      if s.sweepArmed then List.range 24
      else match s.head.cmds with
        | c :: _ => [laneOf c.beam]
        | [] => []
    | some _ => List.range 24
  ls.filter s.laneUp

/-- Beams and codes of a KIND 3 frame (R212, R213); a KILLED beam carries code 0 in every frame (R208). -/
def State.testCodes (s : State) (p : Period) : List (Nat × Nat) :=
  if p.code = 0 then []
  else match p.beam with
    | some b => if beamState (s.beamEntry b) = 3 then [] else [(b, p.code)]
    | none => ((List.range 307200).filter fun b => beamState (s.beamEntry b) ≠ 3).map fun b => (b, p.code)

/-- Replace a period. -/
def State.putPeriod (s : State) (p : Period) : State :=
  { s with hs := { s.hs with periods := s.hs.periods.map fun (q : Period) => if q.k = p.k then p else q } }

/-- The frames of a period on the lanes of R189, each with its CRC as sent: lanes in `flips` go out inverted (R192). -/
def State.makeFrames (s : State) (p : Period) (codes : List (Nat × Nat)) (flips : List Nat) : List (Nat × Bytes × BitVec 32) :=
  match p.kind with
  | none => []
  | some kind => (s.frameLanes p).map fun l =>
    let b := s.frameBytes p kind codes l
    let c := crc32iso b
    (l, b, if flips.contains l then ~~~c else c)

/-- What a period keeps of its frames. -/
def Period.withFrames (p : Period) (fs : List (Nat × Bytes × BitVec 32)) (flips : List Nat) (lit : Bool) : Period :=
  { p with
    computed := true
    lit := lit
    sent := sumMap (fun f => 2 ^ f.1) fs
    crcs := if fs.isEmpty then [] else (List.range 24).map fun l => ((fs.find? (·.1 = l)).map (·.2.2)).getD 0
    flip := sumMap (2 ^ ·) (flips.filter fun l => fs.any (·.1 = l)) }

/-- The frames leave the balls while the pair-gated outputs are enabled (R242). -/
def State.emitFrames (s : State) (k : Nat) (fs : List (Nat × Bytes × BitVec 32)) : State :=
  if s.outputsOn then fs.foldl (fun s f => s.emit (.frame f.1 k f.2.1 f.2.2)) s else s

/-- What a BLK lane sends in a period (R188 to R193): an ALIGN block, the frame where there is one, then IDLE blocks and further ALIGN
blocks; a retired lane IDLE blocks only; a lane that is silent or off nothing. DESIGN CHOICE: the spec leaves the place of the ALIGN
blocks open, and where in its transmit window a frame begins: here at its start, after one block. -/
def State.sendLane (s : State) (p : Period) (fs : List (Nat × Bytes × BitVec 32)) (l : Nat) : State :=
  let v := s.getN (Obj.BLK_LANE_STATE + l)
  if v ≠ 1 ∧ v ≠ 3 then s
  else
    let tf := s.getN Obj.FLASH_PERIOD
    let before := ((s.hs.periods.find? fun q => bitOf q.sent l && q.k < p.k).map (·.k)).getD 0
    let frame := match fs.find? (·.1 = l) with
      | some f => messageBlocks (sofBlk l) f.2.1 f.2.2
      | none => []
    let n := blocksIn (p.d + tf) (p.d + 2 * tf) - 1 - frame.length
    let after := if frame.isEmpty then before else p.k
    let (xs, s) := s.scrambled l (idleRun l before (v = 3) 0 1 ++ frame ++ idleRun l after (v = 3) (1 + frame.length) n)
    s.emit (.line l p.k xs)

/-- The BLK lanes send a period's blocks, while the pair-gated outputs are enabled (R242). -/
def State.sendLanes (s : State) (p : Period) (fs : List (Nat × Bytes × BitVec 32)) : State :=
  if s.outputsOn then foldN 24 (fun s l => s.sendLane p fs l) s else s

/-! ### Flash records -/

/-- Late runs of a flash from the loader's state (R248): per line the least coordinate of a visited word that is not valid. -/
def State.lateRuns (s : State) (n : Int) : List LateRun :=
  let lims := (s.rowsAt n).foldl (fun (l : List (Nat × Int)) r =>
    let g := r / s.S
    let x := s.pixelOf (s.coordOf r n)
    let q := (x / 4).toNat
    let lo := (s.firstCoord q).getD 0
    (List.range 640).foldl (fun l c =>
      if s.lost (c / 160) then l
      else match colWord (atD s.sweep.win c []) g q with
        | some w => if w.valid then l else kvSet l (c * s.B + g) (min lo ((kvGet l (c * s.B + g)).getD lo))
        | none => kvSet l (c * s.B + g) (min lo ((kvGet l (c * s.B + g)).getD lo))) l) []
  (lims.foldl (fun (acc : List LateRun) p =>
    match acc with
    | a :: r => if a.firstLine + a.lineCount = p.1 ∧ a.loadLimit = p.2 then { a with lineCount := a.lineCount + 1 } :: r else ⟨p.1, 1, p.2⟩ :: acc
    | [] => [⟨p.1, 1, p.2⟩]) []).reverse

/-- Merge the first two runs while there are more than `lim` (R248); the number of merges. -/
def mergeLate (lim : Nat) : Nat → List LateRun → List LateRun × Nat
  | 0, l => (l, 0)
  | f + 1, l =>
    match l with
    | a :: b :: r =>
      if l.length ≤ lim then (l, 0)
      else
        let m : LateRun := ⟨a.firstLine, b.firstLine + b.lineCount - a.firstLine, min a.loadLimit b.loadLimit⟩
        let (x, n) := mergeLate lim f (m :: r)
        (x, n + 1)
    | _ => (l, 0)

/-- Runs of beams in rising order. -/
def beamRuns (bs : List Nat) : List (Nat × Nat) :=
  ((sortBy (· ≤ ·) bs).foldl (fun (acc : List (Nat × Nat)) b =>
    match acc with
    | (f, n) :: r => if f + n = b then (f, n + 1) :: r else if f + n > b then acc else (b, 1) :: acc
    | [] => [(b, 1)]) []).reverse

/-- Merge the first two rail runs while there are more than `lim`. -/
def mergeRails (lim : Nat) : Nat → List (Nat × Nat) → List (Nat × Nat) × Nat
  | 0, l => (l, 0)
  | f + 1, l =>
    match l with
    | a :: b :: r =>
      if l.length ≤ lim then (l, 0)
      else let (x, n) := mergeRails lim f ((a.1, b.1 + b.2 - a.1) :: r); (x, n + 1)
    | _ => (l, 0)

/-- Decisions that no record has carried yet, oldest first, at most 8 (Table 10-4). -/
def State.untold (s : State) : List (Nat × BitVec 24) :=
  ((s.hs.periods.reverse.filter fun p => !p.told).filterMap fun p => p.decided.map fun d => (p.k, d)).take 8

/-- Bytes of a flash record (Table 10-4). -/
def recordBytes (r : FlashRecord) : Bytes :=
  leBytes 4 (r.frame % 2 ^ 32) ++ [byte r.decision, byte r.cap, byte r.thermal, r.events] ++ leBytesI 4 r.flashIndex ++
  leBytes 3 r.crcRail.toNat ++ [0] ++ r.laneCrc.flatMap (fun c => leBytes 4 c.toNat) ++ leBytes 2 r.decisions.length ++
  leBytes 2 r.lateRuns.length ++ leBytes 2 r.railRuns.length ++ [0, 0] ++
  r.decisions.flatMap (fun d => leBytes 4 (d.1 % 2 ^ 32) ++ leBytes 4 d.2.toNat) ++
  r.lateRuns.flatMap (fun x => leBytes 2 x.firstLine ++ leBytes 2 x.lineCount ++ leBytesI 4 x.loadLimit) ++
  r.railRuns.flatMap fun x => leBytes 4 x.1 ++ leBytes 4 x.2

/-- Form the record of a period and send it on PLK0 to PLK3 (R246, R247). -/
def State.sendRecord (s : State) (p : Period) (late : List LateRun) (rails : List (Nat × Nat)) : State :=
  let ds := s.untold
  let r : FlashRecord := ⟨p.k, p.dec, p.cap, p.thermal, byte p.events, p.n, BitVec.ofNat 24 p.flip,
    if p.crcs.isEmpty then List.replicate 24 0 else p.crcs, ds, late, rails⟩
  let b := recordBytes r
  let n := b.length / 4
  let s := foldN 4 (fun s j => s.mirrorAt p.k j 0x01 (slice b (n * j) n)) s
  { s with
    pair := { s.pair with lastRecord := p.k, anyRecord := true }
    hs := { s.hs with periods := s.hs.periods.map fun (q : Period) => if ds.any (·.1 = q.k) then { q with told := true } else q } }

/-! ### The computation of a flash -/

/-- The abort of a job withholds a flash that would fire later than Tf after t = 0 (Table 02-11); tests are no flashes. -/
def State.aborted (s : State) (p : Period) : Bool :=
  match s.job.abortAt with
  | some a => p.kind ≠ some 3 && decide (a + s.getN Obj.FLASH_PERIOD < p.fire)
  | none => false

/-- An index of the sweep has been computed, blanked or passed (R158, R159): the last one begins the draining. -/
def State.reach (s : State) (n : Int) : State :=
  let s := { s with sweep := { s.sweep with reached := max s.sweep.reached n } }
  if s.sweepState ∈ [1, 2] ∧ s.get Obj.SWEEP_LAST_INDEX ≤ n then s.setN Obj.SWEEP_STATE 3 else s

/-- The flashes issued so far, blanked ones included: what the 1,024 consecutive flashes of R13 are counted by. -/
def State.countFlash (s : State) (p : Period) : State :=
  if (p.dec = 1 ∨ p.dec = 2) ∧ !s.aborted p then { s with units := { s.units with flashes := s.units.flashes + 1 } } else s

/-- The visits of a period: what the flash gathered, with the window and the counts updated. -/
def State.visitsOf (s : State) (p : Period) (faults : FlashFaults) (late : List LateRun) (rails : List (Nat × Nat)) (bound : Bool) :
    State × FlashAcc :=
  let s := s.countFlash p
  if p.dec = 0 ∨ p.again ∨ s.aborted p ∨ !s.sweepArmed then (s, {})
  else if p.dec = 3 then (s.loseIndex p.n rsnHandover, {})
  else if p.dec = 2 then (s.loseIndex p.n rsnBlanked, {})
  else if p.thermal = 2 then (s.loseIndex p.n rsnLimit, {})
  else
    let r := s.visitAll ⟨p.n, p.cap, faults, late, rails, bound⟩
    ((s.putVisits r).setN Obj.CAP_IN_EFFECT p.cap, r.2)

/-- The code history takes the period's codes (R200): a flash or a blanked index whose frames have a decision to come. -/
def State.pushHist (s : State) (p : Period) (a : FlashAcc) : State :=
  if p.again ∨ !(p.dec = 1 ∨ p.dec = 2) ∨ s.aborted p then s
  else { s with hist := s.hist ++ [{ period := p.k, n := p.n, codes := a.codes.reverse, visits := a.visits.reverse }] }

/-- The index of a period counts as reached, unless the period carries none or repeats one. -/
def State.reachOf (s : State) (p : Period) : State := if p.dec = 0 ∨ p.again ∨ !s.sweepArmed then s else s.reach p.n

/-- The visits of a period on the active, with the rail runs that its record carries and the number of merges: where runs had to be
merged, the beams between them are lost here too (R248). -/
def State.activeVisits (s : State) (p : Period) (faults : FlashFaults) (late : List LateRun) :
    (State × FlashAcc) × List (Nat × Nat) × Nat :=
  let one := s.visitsOf p faults late [] false
  let l := beamRuns one.2.rails
  let (runs, n) := mergeRails 160 l.length l
  (if n = 0 then one else s.visitsOf p faults late runs false, runs, n)

/-- The active computes the flash of a period, sends its record and its frames (R154, R189, R247). -/
def State.computeActive (s : State) (p : Period) (faults : FlashFaults) : State :=
  let s := s.noteReads faults
  let (late, m1) := if s.recordsOn && p.dec = 1 && p.thermal ≠ 2 then
    let l := s.lateRuns p.n
    mergeLate 256 l.length l else ([], 0)
  let ((s, a), runs, m2) := s.activeVisits p faults late
  let s := (s.add Obj.LATE_RUN_MERGES m1).add Obj.RAIL_RUN_MERGES m2
  let s := ((s.tableUe (faults.table.filter fun w => a.rails.any (· / 2 = w))).afterRails p.k a).reachOf p
  if s.pair.releasing then (s.putPeriod { p with computed := true }).sendLanes p []
  else
    let codes := if p.kind = some 3 then s.testCodes p else (a.codes.reverse).map fun q => (q.1, q.2.1)
    let fs := s.makeFrames p codes faults.crcRail
    let p := p.withFrames fs faults.crcRail (!codes.isEmpty)
    let s := ((List.range 24).filter (bitOf p.flip)).foldl (fun s l => s.linkHit p.k l) (s.pushHist p a)
    if s.pair.releasing then (s.putPeriod { p with sent := 0, lit := false }).sendLanes p []
    else
      let s := s.putPeriod p
      ((if s.recordsOn then s.sendRecord p late runs else s).emitFrames p.k fs).sendLanes p fs

/-- The period decided last that has not been computed. -/
def State.openPeriod (s : State) : Option Period := s.hs.periods.find? fun p => !p.computed

/-- FLASH_COMPUTE: the computation of the period decided last ends at D(k + 1). On a standby the faults of its own units wait
for the flash record (R249). -/
def execFlashCompute (faults : FlashFaults) (s : State) : Out :=
  if !s.coreOn then .next s
  else if s.isStandby then .next { s with pair := { s.pair with ownFaults := some faults } }
  else match s.openPeriod with
    | none => .next s
    | some p => .next (s.computeActive p faults)

end Sys2Proof.Machine
end

