-- ==== Sys2Proof/Machine/Finder.lean ====
section
/-! DEFINITION. The mark finder (R342 to R344) and the spot finder (R345, R346). Both rails compute in IEEE 754 binary64. -/
namespace Sys2Proof.Machine

/-! ### Mark finder -/

/-- 3441 CAM_GEOMETRY as I32 values: M11, M12, M21, M22, U0, V0. -/
def State.camGeometry (s : State) (p : Nat) : List Int :=
  let b := (s.image (Obj.CAM_GEOMETRY + p)).getD (zeros 24)
  (List.range 6).map fun i => leAtI b (4 * i) 4

/-- The value of π in binary64. -/
def f64Pi : Rat := 884279719003555 / 281474976710656

/-- Nominal area of a shape in px², SIZE in 1/256 pixel; none for another code (Table 15-6). -/
def shapeArea (shape size : Nat) : Option Rat :=
  let a : Rat := f64 ((size * size : Nat) / 65536)
  match shape % 128 with
  | 1 => some a
  | 2 => some (f64 (f64 (f64Pi * a) / 4))
  | 3 => some (f64 (f64 (36 / 100) * a))
  | _ => none

/-- The 8-connected sets of a list of pixels in line order; each set in line order. -/
def components (px : List (Nat × Nat)) : List (List (Nat × Nat)) :=
  let touches (a b : Nat × Nat) : Bool := a.1 ≤ b.1 + 1 && b.1 ≤ a.1 + 1 && a.2 ≤ b.2 + 1 && b.2 ≤ a.2 + 1
  px.foldl (fun cs q =>
    let (near, far) := cs.partition fun c => c.any (touches q)
    far ++ [(near.flatten ++ [q])]) []

/-- First pixel of a set in line order. -/
def firstPixel (l : List (Nat × Nat)) : Nat × Nat :=
  l.foldl (fun m q => if q.2 < m.2 || (q.2 = m.2 && q.1 < m.1) then q else m) (l.headD (0, 0))

/-- What a measurement finds: status, AREA_RATIO, CONTRAST, and the position if found. -/
structure MfOut where
  status   : Nat
  ratio    : Nat := 0
  contrast : Nat := 0
  pos      : Option (Int × Int) := none
  deriving DecidableEq, Repr

/-- Steps 1 to 5 of R343 on a vision image. -/
def measureMark (g : List Int) (minContrast : Nat) (r : MfRequest) (m : Mark) (img : Plane) : MfOut :=
  let q (i : Nat) : Rat := (atD g i 0 : Int)
  let det : Rat := q 0 * q 3 - q 1 * q 2
  if det = 0 then ⟨2, 0, 0, none⟩
  else
    let dx : Rat := (m.x - r.refX : Int)
    let dy : Rat := (m.y - r.refY : Int)
    let pu := f64 (f64 (65536 * f64 (f64 (q 3 * dx) - f64 (q 1 * dy)) / f64 det) + q 4 / 16)
    let pv := f64 (f64 (65536 * f64 (f64 (q 0 * dy) - f64 (q 2 * dx)) / f64 det) + q 5 / 16)
    let x0 := max 0 (pu - r.search).ceil
    let x1 := min ((img.w : Int) - 1) (pu + r.search).floor
    let y0 := max 0 (pv - r.search).ceil
    let y1 := min ((img.h : Int) - 1) (pv + r.search).floor
    if x1 < x0 ∨ y1 < y0 then ⟨2, 0, 0, none⟩
    else
      let win := (rangeI y0 y1).flatMap fun y => (rangeI x0 x1).map fun x => (x.toNat, y.toNat)
      let vs := sortBy (· ≤ ·) (win.map fun p => img.px p.1 p.2)
      let k := 2 * (vs.length - 1) / 100
      let lo := atD vs k 0
      let hi := atD vs (vs.length - 1 - k) 0
      if hi - lo < minContrast then ⟨3, 0, hi - lo, none⟩
      else
        let t := (lo + hi) / 2
        let w (p : Nat × Nat) : Nat := if 128 ≤ m.shape then img.px p.1 p.2 - t else t - img.px p.1 p.2
        let sets := components (win.filter fun p => 0 < w p)
        match sets with
        | [] => ⟨4, 0, hi - lo, none⟩
        | c0 :: cs =>
          let dist (c : List (Nat × Nat)) : Rat :=
            let p := firstPixel c
            ((p.1 : Rat) - pu) * ((p.1 : Rat) - pu) + ((p.2 : Rat) - pv) * ((p.2 : Rat) - pv)
          let best := cs.foldl (fun b c => if b.length < c.length ∨ (b.length = c.length ∧ dist c < dist b) then c else b) c0
          if best.any fun p => (p.1 : Int) = x0 || (p.1 : Int) = x1 || (p.2 : Int) = y0 || (p.2 : Int) = y1 then ⟨5, 0, hi - lo, none⟩
          else
            match shapeArea m.shape m.size with
            | none => ⟨6, 0, hi - lo, none⟩
            | some nominal =>
              let absDet := if det < 0 then -det else det
              let area := f64 (f64 ((best.length : Rat) * f64 absDet) * twoPow (-32) / 65536)
              let ratio := if nominal = 0 then 0 else f64 (area / nominal)
              let rep := (clampI 0 65535 (rneQ (4096 * ratio))).toNat
              if nominal = 0 ∨ ratio < f64 (3 / 4) ∨ f64 (133 / 100) < ratio then ⟨6, rep, hi - lo, none⟩
              else
                let sw : Rat := (sumMap w best : Nat)
                let cu := f64 ((sumMap (fun p => w p * p.1) best : Nat) / sw)
                let cv := f64 ((sumMap (fun p => w p * p.2) best : Nat) / sw)
                let a := f64 (cu - q 4 / 16)
                let b := f64 (cv - q 5 / 16)
                let ox := f64 (f64 (f64 (q 0 * a) + f64 (q 1 * b)) * twoPow (-16))
                let oy := f64 (f64 (f64 (q 2 * a) + f64 (q 3 * b)) * twoPow (-16))
                ⟨1, rep, hi - lo, some (r.refX + rneQ ox, r.refY + rneQ oy)⟩

/-- MF_REQUEST: a WRITE_BLOCK of 32 bytes at offset 0 (R343). Its reserved bytes are ignored (R9). -/
def writeMfRequest (s : State) (by_ : Caller) (offset : Nat) (data : Bytes) : Wr :=
  s.gate by_ Obj.MF_REQUEST fun s =>
    if offset ≠ 0 ∨ data.length ≠ 32 then s.deny stRange
    else
      let port := leAt data 2 1
      match s.cams.marks.findIdx? fun m => m.id = leAt data 0 2 with
      | none => s.deny stRange
      | some i =>
        if 1 < port ∨ leAt data 4 2 < 8 ∨ 512 < leAt data 4 2 then s.deny stRange
        else if s.getN Obj.MF_STATE = 1 ∨ s.camState port = 0 ∨ s.camState port = 4 then s.deny stState
        else
          let r : MfRequest := { mark := i, port := port, search := leAt data 4 2, refX := leAtI data 8 8, refY := leAtI data 16 8, since := s.clk.cycle }
          ({ s.setN Obj.MF_STATE 1 with cams := { s.cams with mf := some r } }).ok

/-- MF_REQUEST. -/
def execMfRequest (by_ : Caller) (offset : Nat) (data : Bytes) (s : State) : Out := .next (writeMfRequest s by_ offset data).1

/-- A measurement ends: MF_STATE 2 and the mark's entry; X and Y change only when FOUND (R344). -/
def State.markDone (s : State) (i : Nat) (f : MarkResult → MarkResult) : State :=
  { s.setN Obj.MF_STATE 2 with cams := { s.cams with mf := none, marks := modifyAt s.cams.marks i f } }

/-- MF_RESULT: the finder has worked through the frame (R343, R344). -/
def execMfResult (railsAgree : Bool) (s : State) : Out :=
  match s.cams.mf with
  | none => .next s
  | some r =>
    match r.frame, s.lay.marks[r.mark]? with
    | some f, some m =>
      if !railsAgree then .next (s.markDone r.mark fun x => { x with status := 8, port := r.port, seq := f.seq })
      else
        let o := measureMark (s.camGeometry r.port) (s.getN Obj.MF_MIN_CONTRAST) r m f.vision
        .next (s.markDone r.mark fun x => { x with
          status := o.status, port := r.port, ratio := o.ratio, contrast := o.contrast, seq := f.seq
          x := (o.pos.map (·.1)).getD x.x, y := (o.pos.map (·.2)).getD x.y })
    | _, _ => .next s

/-- MF_TIMEOUT: no frame arrives in time (R343). -/
def execMfTimeout (s : State) : Out :=
  match s.cams.mf with
  | none => .next s
  | some r => if r.frame.isSome then .next s else .next (s.markDone r.mark fun x => { x with status := 7, port := r.port })

/-- Bytes of a mark result (Table 15-7). -/
def MarkResult.toBytes (m : MarkResult) : Bytes :=
  leBytes 2 m.id ++ [byte m.status, byte m.port] ++ leBytes 2 m.ratio ++ leBytes 2 m.contrast ++ leBytesI 8 m.x ++ leBytesI 8 m.y ++
  leBytes 4 m.seq ++ zeros 4

/-- 3442 MF_RESULTS. -/
def State.markBytes (s : State) : Bytes := s.cams.marks.flatMap MarkResult.toBytes

/-! ### Spot finder -/

/-- Change the spot finder. -/
def State.modSpot (s : State) (f : Spot → Spot) : State := { s with cams := { s.cams with spot := f s.cams.spot } }

/-- Tsettle in core cycles of the head in force, 0 with no identity (R196). -/
def State.tsettle (s : State) : Nat :=
  match s.head.identity with
  | some i => nsCycles i.tsettle
  | none => 0

/-- SPOT_STROBE: the strobe of SPOT_PORT rises and falls at the end of the phase's last firing window (R345); with the port not
running, or its CAM_TRIGGER other than 2, the finder fails (R346). -/
def execSpotStrobe (s : State) : Out :=
  let p := s.getN Obj.SPOT_PORT
  if ¬(s.getN Obj.IMAGE_STATE ∈ [1, 2]) then .next s
  else if s.camState p = 0 ∨ s.camState p = 4 ∨ s.getN (Obj.CAM_TRIGGER + p) ≠ 2 then .next (s.spotFail 5)
  else
    let s := (s.setN Obj.SPOT_STATE (s.getN Obj.IMAGE_STATE)).modSpot fun x => { x with strobeAt := some s.clk.cycle, frame := none }
    if !s.on (Obj.CAM_STROBE_ENABLE + p) then .next s
    else
      let e := s.clk.cycle + nsCycles (s.getN Obj.SPOT_LEAD) + s.getN Obj.IMAGE_SHOTS * s.getN Obj.FLASH_PERIOD - s.tsettle
      .next { s.emit (.strobe p true) with pins := { s.pins with strobeEnd := kvSet s.pins.strobeEnd p e } }

/-- 3451 SPOT_GEOMETRY as I32 values. -/
def State.spotGeometry (s : State) : List Int :=
  let b := (s.image Obj.SPOT_GEOMETRY).getD (zeros 24)
  (List.range 6).map fun i => leAtI b (4 * i) 4

/-- The intensity of a beam's box (R345). -/
def spotSum (g : List Int) (box : Nat) (img : Plane) (r c : Nat) : Nat :=
  let u := rneDiv (atD g 0 0 + c * atD g 1 0 + r * atD g 2 0) 65536
  let v := rneDiv (atD g 3 0 + c * atD g 4 0 + r * atD g 5 0) 65536
  let h : Int := (box / 2 : Nat)
  if u - h < 0 ∨ v - h < 0 ∨ (img.w : Int) ≤ u + h ∨ (img.h : Int) ≤ v + h then 0xFFFFFFFF
  else min 0xFFFFFFFE (sumMap (fun y => sumMap (fun x => img.px x.toNat y.toNat) (rangeI (u - h) (u + h))) (rangeI (v - h) (v + h)))

/-- The intensities of all beams in a frame. -/
def State.spotSums (s : State) (f : CamFrame) : List Nat :=
  let img := f.vision
  let g := s.spotGeometry
  let box := s.getN Obj.SPOT_BOX
  (List.range 480).flatMap fun r => (List.range 640).map fun c => spotSum g box img r c

/-- SPOT_SUMS_DONE: the sums of the phase frame are stored (R345, R346); M follows the lit sums. -/
def execSpotSumsDone (railsAgree : Bool) (s : State) : Out :=
  match s.cams.spot.frame with
  | none => .next s
  | some f =>
    if ¬(s.getN Obj.SPOT_STATE ∈ [1, 2]) then .next s
    else if !railsAgree then .next (s.spotFail 3)
    else
      let sums := s.spotSums f
      if 2 * (sums.filter (· ≠ 0xFFFFFFFF)).length < 307200 then .next (s.spotFail 4)
      else if s.getN Obj.SPOT_STATE = 1 then .next (s.modSpot fun x => { x with strobeAt := none, frame := none, dark := sums })
      else
        let good := ((List.range 307200).zip sums).filter fun p => p.2 ≠ 0xFFFFFFFF && beamState (s.beamEntry p.1) ≠ 3
        .next (((s.setN Obj.SPOT_STATE 3).setN Obj.SPOT_MEDIAN (lowerMedian (good.map (·.2)))).modSpot fun x =>
          { x with strobeAt := none, frame := none, lit := sums })

/-- SPOT_TIMEOUT: no complete frame in time after the strobe fell (R346). -/
def execSpotTimeout (s : State) : Out :=
  if s.cams.spot.strobeAt.isSome ∧ s.cams.spot.frame.isNone ∧ (kvGet s.pins.strobeEnd (s.getN Obj.SPOT_PORT)).isNone then .next (s.spotFail 1)
  else .next s

/-- 3452 SPOT_RESULTS. -/
def State.spotBytes (s : State) : Bytes :=
  (List.range 307200).flatMap fun b => leBytes 4 (atD s.cams.spot.dark b 0) ++ leBytes 4 (atD s.cams.spot.lit b 0)

end Sys2Proof.Machine
end

