-- ==== Sys2Proof/Machine/Position.lean ====
section
/-! DEFINITION. The position port, the tracking deflector and the wake of the writing sides (R167 to R172, R179 to R185). -/
namespace Sys2Proof.Machine

/-- POS_STATE (Table 07-3). -/
def State.posState (s : State) : Nat := s.getN Obj.POS_STATE

/-- PREDICT(t) from a sample and a velocity (R171). -/
def predictBy (q : Pred) (v : Int) (t : Int) : Int := q.p + rneDiv (v * (t - q.t)) (2 ^ 24)

/-- PREDICT(t) from a sample. -/
def Pred.predict (q : Pred) (t : Int) : Int := predictBy q q.v t

/-- The latest good sample whose last bit arrived by cycle `t`. -/
def State.sampleBy (s : State) (t : Nat) : Option Pred := s.hs.preds.find? fun q => q.t ≤ t

/-! ### Blanking -/

/-- The rest of the stripe is blanked (R177, R179): only while indexes of the sweep are left. -/
def State.blankRest (s : State) : State :=
  if s.sweepState ∈ [1, 2] ∧ !s.sweep.blankRest ∧ s.sweep.nPrev < s.get Obj.SWEEP_LAST_INDEX then
    ({ s.inc Obj.STRIPES_BLANKED with sweep := { s.sweep with blankRest := true } }).logEvent
      ⟨2, 8, 255, 255, Obj.STRIPES_BLANKED, s.sweep.stripe, 0⟩
  else s

/-! ### Position states -/

/-- SEARCHING is entered: the count of good samples and the history of R171 begin anew. -/
def State.enterSearching (s : State) : State :=
  { s.setN Obj.POS_STATE 1 with hs := { s.hs with count := 0, past := [], jumps := 0 } }

/-- The position leaves VALID: during a sweep the loss is timed (R179). -/
def State.leaveValid (s : State) : State :=
  if s.posState = 2 ∧ s.sweepState ∈ [1, 2] ∧ s.hs.lostAt.isNone then { s with hs := { s.hs with lostAt := some s.clk.cycle } } else s

/-- LOST (3) or FAULT (4) is entered (R172). The first good sample after LOST skips the jump check; after FAULT it is the first one once
the ball is high again (R171). -/
def State.losePosition (s : State) (v : Nat) : State :=
  let s := ((s.leaveValid).setN Obj.POS_STATE v).inc Obj.POS_LOSSES
  ({ s with hs := { s.hs with waive := s.hs.waive || v = 3, jumps := 0 } }).logEvent ⟨2, 8, 255, 255, Obj.POS_LOSSES, v, 0⟩

/-- VALID is entered; a loss that lasted longer than POS_RESUME_LIMIT blanks the rest of the stripe (R179). -/
def State.enterValid (s : State) : State :=
  let s := s.setN Obj.POS_STATE 2
  match s.hs.lostAt with
  | none => s
  | some a =>
    let s := { s with hs := { s.hs with lostAt := none } }
    if a + 400 * s.getN Obj.POS_RESUME_LIMIT < s.clk.cycle ∧ !s.isStandby then s.blankRest else s

/-- POS_ENABLE becomes 1: SEARCHING, or FAULT where POS_FAULT_N is low (Table 07-3). -/
def State.enablePosition (s : State) : State :=
  let s := { s with hs := { s.hs with base := true, waive := false, seqLast := none, port := {} } }
  let s := s.enterSearching
  if s.pins.posFault then s.losePosition 4 else s

/-- POS_ENABLE becomes 0. -/
def State.disablePosition (s : State) : State := (s.leaveValid).setN Obj.POS_STATE 0

/-! ### Waking the writing sides -/

/-- Wake the writing side of every region that is not lost (R184). -/
def State.wakeWriting (s : State) : State :=
  regions.foldl (fun s r => if !s.lost r && atD s.units.writing r 0 = 0 then s.setWriting r 1 else s) s

/-- The wake check of R184. -/
def State.wakeCheck (s : State) : State :=
  if !s.sweepArmed then s
  else
    let s0 := s.sweep.first
    let lead := s.getN Obj.PREWAKE_LEAD
    let v := s.get Obj.POS_VELOCITY
    let soon := s.posState = 2 && decide (0 < v) && decide ((1024 * s0 - s.hs.p) * 2 ^ 24 ≤ (lead * 400 : Nat) * v)
    let near := !s.hs.base && s.posState ≠ 0 && decide (1024 * (s0 - s.getN Obj.PREWAKE_DISTANCE) ≤ s.hs.p)
    if lead = 0 || soon || near then s.wakeWriting else s

/-! ### Samples -/

/-- The fields of a sample (Table 07-2). -/
def sampleX (b : BitVec 64) : Nat := (b.setWidth 28).toNat
def sampleY (b : BitVec 64) : Int := ((b >>> 28).setWidth 28).toInt
def sampleSeq (b : BitVec 64) : Nat := ((b >>> 56).setWidth 4).toNat
def sampleCrc (b : BitVec 64) : Nat := ((b >>> 60).setWidth 4).toNat

/-- The CRC of a sample is right (R168). -/
def sampleCrcOk (b : BitVec 64) : Bool := crc4 ((List.range 60).map b.getLsbD) = sampleCrc b

/-- The P of a good sample, none where the jump check discards it (R171). -/
def State.unwrap (s : State) (x : Nat) : Option Int :=
  if s.hs.base then
    let a : Int := if s.sweepArmed && (s.getN Obj.SWEEP_KIND = 1 || s.sweep.resume) then 1024 * s.sweep.first else 0
    some (a + toSigned 28 (toUnsigned 28 (x - a)))
  else
    let d := toSigned 28 (toUnsigned 28 ((x : Int) - s.hs.xLast))
    if !s.hs.waive && decide ((s.getN Obj.POS_JUMP_LIMIT : Int) < d.natAbs) then none else some (s.hs.p + d)

/-- V from the oldest of the samples kept (R171). With one sample, or a quotient outside I32, the spec states no value. -/
def State.velocity (s : State) (t : Nat) (p : Int) (past : List (Nat × Int)) : Int × State :=
  match past.getLast? with
  | some (t0, p0) =>
    let v := rneDiv ((p - p0) * 2 ^ 24) (t - t0)
    if t0 < t ∧ -2 ^ 31 ≤ v ∧ v < 2 ^ 31 then (v, s)
    else let (f, s) := s.freeNat; (toSigned 32 f, s)
  | none => let (f, s) := s.freeNat; (toSigned 32 f, s)

/-- A good sample: position, velocity and the objects of 2602 (R169, R171). -/
def State.goodSample (s : State) (t : Nat) (b : BitVec 64) (p : Int) : State :=
  let q := sampleSeq b
  let s := match s.hs.seqLast with
    | some l => if q = (l + 1) % 16 then s else s.add Obj.POS_SEQ_GAPS ((q + 15 - l) % 16)
    | none => s
  let past := ((t, p) :: (if s.hs.base then [] else s.hs.past)).take 16
  let (v, s) := s.velocity t p past
  let y := sampleY b
  let s := { s with hs := { s.hs with
    preds := ((⟨t, p, y, v⟩ : Pred) :: s.hs.preds).take 16
    past := past, p := p, xLast := sampleX b, seqLast := some q, base := false, waive := false, jumps := 0 } }
  let s := ((s.inc Obj.POS_SAMPLES_GOOD).set Obj.POS_SWEEP_PIXEL (toSigned 32 (toUnsigned 32 (p / 1024)))).set Obj.POS_SWEEP_FRACTION (p % 1024)
  ((s.set Obj.POS_Y y).set Obj.POS_VELOCITY v).setN Obj.POS_TIME s.now

/-- A discard by the jump check: the third in a row leaves VALID (R169, R172). -/
def State.jumpDiscard (s : State) : State :=
  let n := s.hs.jumps + 1
  let s : State := { s.inc Obj.POS_JUMPS with hs := { s.hs with jumps := n } }
  if s.posState = 2 ∧ 3 ≤ n then s.losePosition 3 else s

/-- POS_TIMEOUT in core cycles. -/
def State.posTimeout (s : State) : Nat := nsCycles (s.getN Obj.POS_TIMEOUT)

/-- Whether the last good sample lies more than POS_TIMEOUT before cycle `t`. -/
def State.sampleStale (s : State) (t : Nat) : Bool :=
  match s.hs.preds.head? with
  | some q => q.t + s.posTimeout < t
  | none => true

/-- A good sample moves the position state (Table 07-3). -/
def State.countSample (s : State) (inTime : Bool) : State :=
  let s := if s.posState = 3 then s.enterSearching else s
  if s.posState ≠ 1 then s
  else
    let n := if inTime then s.hs.count + 1 else 1
    let s := { s with hs := { s.hs with count := n } }
    if 4 ≤ n then s.enterValid else s

/-- A sample that the port has received whole, its last bit at core cycle `t`: CRC, jump check, use (R169 to R172). -/
def State.takeSample (s : State) (t : Nat) (bits : BitVec 64) : State :=
  let s := s.at t
  if !sampleCrcOk bits then s.inc Obj.POS_CRC_ERRORS
  else
    let stale := s.sampleStale t
    let s := if stale && s.posState = 2 then s.losePosition 3 else s
    match s.unwrap (sampleX bits) with
    | none => s.jumpDiscard.refreshEligible
    | some p =>
      let s := if s.posState = 3 then s.enterSearching else s
      let fresh := s.hs.count = 0
      (((s.goodSample t bits p).countSample (!stale && !fresh)).wakeCheck).refreshEligible

/-- The bits of a sample from its sixteen data bit times: POS_Dm carries bit 4j + m in bit time j (R167). -/
def sampleOf (data : List (BitVec 4)) : BitVec 64 := BitVec.ofNat 64 (data.foldr (fun d n => d.toNat + 16 * n) 0)

/-- What a bit time brings the receiver of the position port. -/
inductive PortEvent where
  | none
  | framing
  | sample (bits : BitVec 64)
  deriving DecidableEq, Repr

/-- One bit time of the port: the levels of POS_D3 to POS_D0 (R167, R169). A start bit is a 0 on all four pairs in one bit time after at
least 4 idle bit times; anything else than idle in its place is a framing failure, after which 4 idle bit times are waited for. A port
that has just been enabled waits for them without a count. -/
def PosPort.bit (p : PosPort) (d : BitVec 4) : PosPort × PortEvent :=
  if p.busy then
    let data := p.data ++ [d]
    if data.length < 16 then ({ p with data := data }, .none) else ({ wait := false }, .sample (sampleOf data))
  else if d = 0xF#4 then
    let n := min 4 (p.idle + 1)
    ({ idle := n, wait := p.wait && n < 4 }, .none)
  else if p.wait then ({ wait := true }, .none)
  else if d = 0#4 ∧ 4 ≤ p.idle then ({ wait := false, busy := true }, .none)
  else ({ wait := true }, .framing)

/-- The bit times of the port up to core cycle `t`, in order. A bit time is 2 ns, 4/5 of a core cycle. -/
def State.portBits (t : Nat) : List (BitVec 4) → State → State
  | [], s => s
  | d :: ds, s =>
    let (p, e) := s.hs.port.bit d
    let s : State := { s with hs := { s.hs with port := p } }
    State.portBits t ds (match e with
      | .none => s
      | .framing => s.inc Obj.POS_FRAMING_ERRORS
      | .sample b => s.takeSample (t - 4 * ds.length / 5) b)

/-- The bit times of a sample, with the four idle ones before its start bit (R167). -/
def sampleLevels (b : BitVec 64) : List (BitVec 4) :=
  [0xF#4, 0xF#4, 0xF#4, 0xF#4, 0#4] ++ (List.range 16).map fun j => (b >>> (4 * j)).setWidth 4

/-- POSITION_SAMPLE (R167 to R172): the port's bit times since the last ones, up to the one that ends at core cycle `t`: `idle` with all
pairs idle, then those given by their levels. -/
def execPositionSample (t idle : Nat) (levels : List (BitVec 4)) (s : State) : Out :=
  .next (if !s.coreOn ∨ s.posState = 0 then s.at t else (State.portBits t (List.replicate idle 0xF#4 ++ levels) s).at t)

/-- POS_TIMEOUT: no good sample for 2601.02 (R172). -/
def execPosTimeout (t : Nat) (s : State) : Out :=
  let s := s.at t
  if s.coreOn ∧ s.posState = 2 ∧ s.sampleStale t then .next (s.losePosition 3).refreshEligible else .next s

/-- POS_FAULT: POS_FAULT_N has been low for `lowNs` ns (R172): from 20 ns on it is taken, up to 5 ns ignored; between, either. -/
def execPosFault (lowNs : Nat) (s : State) : Out :=
  let (taken, s) : Bool × State :=
    if 20 ≤ lowNs then (true, s) else if lowNs ≤ 5 then (false, s)
    else let (f, s) := s.freeNat; (f % 2 = 1, s)
  if !taken then .next s
  else
    let s := { s with pins := { s.pins with posFault := true } }
    if !s.coreOn ∨ s.posState = 0 ∨ s.posState = 4 then .next s else .next (s.losePosition 4).refreshEligible

/-- POS_FAULT_CLEAR: POS_FAULT_N is high again. -/
def execPosFaultClear (s : State) : Out :=
  let s := { s with pins := { s.pins with posFault := false } }
  if s.posState = 4 then .next ({ s with hs := { s.hs with waive := true } }).enterSearching else .next s

/-! ### The deflector -/

/-- A calibration item that drives the gate or the deflector runs: items 2 to 5 (R366). -/
def State.calGate (s : State) : Bool := s.getN Obj.CAL_STATE = 2 && s.getN Obj.CAL_ITEM ∈ [2, 3, 4, 5]

/-- A gate check runs: GATE_STATE 1 or 2, or a calibration item that counts as one (R366). -/
def State.gateRuns (s : State) : Bool := s.getN Obj.GATE_STATE ∈ [1, 2] || s.calGate

/-- A full-array image runs. -/
def State.imageRuns (s : State) : Bool := s.getN Obj.IMAGE_STATE ∈ [1, 2]

/-- The scanned word of step `j` of item 5 (R373). -/
def scanWord (n j : Nat) : Int := -32768 + ((j * 65535 / (n - 1) : Nat) : Int)

/-- The words at `t` while a gate check or an item of calibration steers them (R210, R366, R373). -/
def State.steered (s : State) (t : Nat) : Int × Int :=
  let gate := (s.get Obj.GATE_WORD_X, s.get Obj.GATE_WORD_Y)
  if !(s.calGate && s.getN Obj.CAL_ITEM = 5) then gate
  else match s.hs.periods.find? fun p => p.kind = some 3 && p.fire - s.tsettle ≤ t with
    | none => gate
    | some p =>
      let i := p.shot.getD 0 / s.getN Obj.GATE_SHOTS
      let n := s.getN Obj.DEFL_SCAN_STEPS
      if p.k < s.cal.begun ∨ i = 0 ∨ n < i then gate
      else
        let w := scanWord n (i - 1)
        if s.getN Obj.DEFL_SCAN_AXIS = 0 then (w, s.get Obj.DEFL_OFFSET_Y) else (s.get Obj.DEFL_OFFSET_X, w)

/-- The tracking words of R181 for a target, a sample and a velocity, before clamping. -/
def State.trackWords (s : State) (nt : Int) (q : Pred) (v : Int) (t : Nat) : Int × Int :=
  let dx := 1024 * nt - predictBy q v t
  let sg : Int := if s.on Obj.SWEEP_DIRECTION then -1 else 1
  (s.get Obj.DEFL_OFFSET_X + rneDiv (sg * s.get Obj.DEFL_GAIN_X * dx) 65536,
   s.get Obj.DEFL_OFFSET_Y + rneDiv (-s.get Obj.DEFL_GAIN_Y * q.y) 65536)

/-- DEFLECTOR_WORD (R181 to R183): the word pair whose DAC sample time is core cycle `tOut`. The first word of a new sample uses the
velocity of the samples before it. -/
def execDeflectorWord (tOut : Nat) (s : State) : Out :=
  if s.getN Obj.DEFL_LINK_STATE ≠ 1 then .next s
  else
    let use := s.hs.preds.findIdx? fun q => q.t + 7 + s.getN Obj.DEFL_OUT_DELAY ≤ tOut
    let q := use.bind fun i => s.hs.preds[i]?
    let target := (s.hs.targets.find? fun x => x.1 ≤ tOut).bind (·.2)
    let (w, s) : (Int × Int) × State :=
      if s.gateRuns then (s.steered tOut, s)
      else match q, target with
        | some q, some nt =>
          if s.posState = 2 && s.sweepArmed then
            let first := s.hs.worded ≠ some q.t
            let v := if first then ((use.bind fun i => s.hs.preds[i + 1]?).map (·.v)).getD q.v else q.v
            (s.trackWords nt q v tOut, { s with hs := { s.hs with worded := some q.t } })
          else ((s.get Obj.DEFL_OFFSET_X, s.get Obj.DEFL_OFFSET_Y), s)
        | _, _ => ((s.get Obj.DEFL_OFFSET_X, s.get Obj.DEFL_OFFSET_Y), s)
    let x := clampI (-32768) 32767 w.1
    let y := clampI (-32768) 32767 w.2
    let s := s.add Obj.DEFL_CLAMPS (b2n (x ≠ w.1) + b2n (y ≠ w.2))
    .next (((s.set Obj.DEFL_WORD_X x).set Obj.DEFL_WORD_Y y).emit (.deflector x y))

/-- DEF_DEVCLK and DEF_SYSREF are driven while the deflector link runs (R180): one SYSREF pulse at its start, or one every SYSREF_PERIOD
extended multiblocks of 1.28 us. DESIGN CHOICE: the mode and period in effect are followed at once. -/
def State.driveSysref (s : State) : State :=
  let v := if s.getN Obj.DEFL_LINK_STATE ≠ 1 then none
    else some (if s.getN Obj.SYSREF_MODE = 1 then 1280 * s.getN Obj.SYSREF_PERIOD else 0)
  if s.pins.sysref = v then s else ({ s with pins := { s.pins with sysref := v } }).emit (.sysref v)

/-- DEFL_LINK_CHANGE: the deflector link starts or drops (R180). It runs only while enabled, in READY or WRITING, with the core PLL
locked. -/
def execDeflLinkChange (running : Bool) (s : State) : Out :=
  if running && !(s.on Obj.DEFL_LINK_ENABLE && s.coreOn) then .next s
  else .next ((s.setN Obj.DEFL_LINK_STATE (b2n running)).driveSysref).refreshEligible

/-- The deflector link stops where it may not run (R180). -/
def State.refreshDefl (s : State) : State :=
  (if s.on Obj.DEFL_LINK_ENABLE && s.coreOn then s else s.setN Obj.DEFL_LINK_STATE 0).driveSysref

end Sys2Proof.Machine
end

