-- ==== Sys2Proof/Machine/Effects.lean ====
section
/-! DEFINITION. What follows when configuration objects take effect (R46, R78, R120, R172, R180, R330, R340, R354, R355), and
what starts with READY. -/
namespace Sys2Proof.Machine

/-- A stream block waits for a repair (R85). -/
def State.waitsRepair (s : State) : Bool := s.st.pending.any (·.waits)

/-- STREAM_STATE follows the front end (Table 03-13); 5 also with no lane to decompress (R300). -/
def State.refreshStream (s : State) : State :=
  let v := if s.st.stalled || s.noLanes then 5
    else if !s.on Obj.STREAM_ENABLE then 0
    else if s.st.waitHead.isSome then 1
    else if s.waitsRepair then 4
    else if s.st.heldJob.isSome then 3
    else if s.getN Obj.STREAM_PRODUCER = s.getN Obj.STREAM_CONSUMER then 2
    else 1
  s.setN Obj.STREAM_STATE v

/-- CMP_OWNER of the comparators follows TTO, camera and calibration users (Table 16-2, R339, R376). -/
def State.refreshAllOwners (s : State) : State :=
  s.refreshOwners
    (fun p => if s.getN (Obj.CAM_TRIGGER + p) = 1 then some (s.getN (Obj.CAM_COMPARATOR + p)) else none)
    (if s.on Obj.CAL_SCHED_ENABLE then some (s.getN Obj.CAL_SCHED_COMPARATOR) else none)

/-- An object of comparator `c` is among those given (R355). -/
def armsComparator (objs : List ObjRef) (c : Nat) : Bool :=
  objs.contains (Obj.CMP_MODE + c) || objs.contains (Obj.CMP_TARGET + c) || objs.contains (Obj.CMP_PERIOD + c)

/-- The position port follows POS_ENABLE (Table 07-3). -/
def State.refreshPosition (s : State) : State :=
  if s.on Obj.POS_ENABLE ∧ s.posState = 0 then s.enablePosition
  else if !s.on Obj.POS_ENABLE ∧ s.posState ≠ 0 then s.disablePosition else s

/-- PTP_PORT_STATE follows PTP_ENABLE: DISABLED with no port enabled, LISTENING from the moment one is (R354). -/
def State.refreshPtp (s : State) : State :=
  let on := s.on Obj.PTP_ENABLE || s.on (Obj.PTP_ENABLE + 1)
  if !on then { s.setN Obj.PTP_PORT_STATE 0 with ptp := {} }
  else if s.getN Obj.PTP_PORT_STATE = 0 then s.setN Obj.PTP_PORT_STATE 3 else s

/-- Ucap follows S and SLOT_RESERVE (R145). -/
def State.refreshCeiling (s : State) : State := s.setN Obj.DELIVERABLE_CEILING (15 * (s.S - s.getN Obj.SLOT_RESERVE))

/-- The figures of Table 06-1 for a beam pitch: B, S, Ucap and the load reach of R147. -/
def State.setPitch (s : State) (b : Nat) : State :=
  let n := 480 / b
  let s := ((s.setN Obj.BEAM_PITCH b).setN Obj.ROWS_PER_GROUP n).setN Obj.LOAD_REACH ((512 - (n - 1) * b - 8) / 4 * 4)
  s.refreshCeiling

/-- The writing sides of the regions that are not lost sleep (R26). -/
def State.sleepWriting (s : State) : State := regions.foldl (fun s r => if s.lost r then s else s.setWriting r 0) s

/-- With REGION_IDLE_SLEEP = 0 no writing side sleeps; with 1 each sleeps while no sweep is armed, the time between jobs and before the
first sweep included (R26). -/
def State.refreshSleep (s : State) : State :=
  if !s.coreOn then s
  else if !s.on Obj.REGION_IDLE_SLEEP then s.wakeWriting
  else if s.sweepArmed then s else s.sleepWriting

/-- What follows when the objects given have taken effect together. -/
def State.afterEntries (s : State) (objs : List ObjRef) : State :=
  let s := (s.refreshPosition).refreshDefl
  let s := foldN 8 (fun s c => if armsComparator objs c && s.getN (Obj.CMP_MODE + c) ≠ 0 then s.armComparator c else s) s
  let s := ((s.refreshAllOwners).refreshPtp).camsCommitted objs
  let s := if objs.contains Obj.SLOT_RESERVE then s.refreshCeiling else s
  let s := if objs.contains Obj.FLASH_PERIOD then s.checkGroups else s
  ((s.refreshSleep).advanceRaster).refreshStream

/-- Entries take effect together. -/
def State.applyEntries (s : State) (es : List StagedEntry) : State :=
  if es.isEmpty then s else (es.foldl State.putEntry s).afterEntries (es.map (·.obj))

/-- Entries of accepted commits that wait for a flash boundary take effect (R46). -/
def State.takeFlash (s : State) : State :=
  let es := s.stg.atFlash.flatten
  ({ s with stg := { s.stg with atFlash := [] } }).applyEntries es

/-- An object whose Meaning says "at stripe boundary". -/
def stripeObj (o : ObjRef) : Bool := (objRow o).any (·.stripe)

/-- An entry waits for a stripe, in the place of an earlier one for its object. -/
def State.awaitStripe (s : State) (e : StagedEntry) : State :=
  { s with stg := { s.stg with atStripe := (s.stg.atStripe.filter (·.obj ≠ e.obj)) ++ [e] } }

/-- The entries of an accepted commit take effect or wait (R46). -/
def State.acceptEntries (s : State) (es : List StagedEntry) : State :=
  let (late, now) := es.partition fun e => stripeObj e.obj && s.jobActive
  let s := late.foldl State.awaitStripe s
  if s.jobState ∈ [2, 3, 4] then { s with stg := { s.stg with atFlash := s.stg.atFlash ++ [now] } }
  else
    let s := s.applyEntries now
    if s.mirrorsOn then { s with stg := { s.stg with untold := s.stg.untold + 1 } } else s

/-- The entry is one of the placement fields, for which a stripe starts at its STRIPE block (R46, R120). -/
def isFieldObj (o : ObjRef) : Bool := 0x2440 ≤ o / 256 && o / 256 ≤ 0x247F

/-- READY is entered: cameras and beam-link lanes start, writing sides stay awake where they may not sleep (R26, R189, R330). -/
def State.enterReady (s : State) : State := (((s.refreshCams).refreshBlk).refreshSleep).advanceRaster

end Sys2Proof.Machine
end

