-- ==== Sys2Proof/Machine/Flow.lean ====
section
/-! DEFINITION. The order of sweeps (R48, R51, R158 to R162, R226 to R235): arming, the end of a sweep, parks, Burnish passes,
the stripe's and the job's end. -/
namespace Sys2Proof.Machine

/-! ### Gaps -/

/-- A calibration item ends with a status (R365); a status of 2 to 6 is entered in the error log. -/
def State.calEnd (s : State) (status : Nat) : State :=
  let i := s.getN Obj.CAL_ITEM
  let s := ((s.setN (Obj.CAL_STATUS + i) status).setN (Obj.CAL_TIME + i) s.now).setN Obj.CAL_STATE (if s.getN Obj.CAL_QUEUE = 0 then 0 else 1)
  let s := s.setN Obj.CAL_PERMILLE (if status = 1 then 1000 else s.getN Obj.CAL_PERMILLE)
  if 2 ≤ status then s.logEvent ⟨2, 15, 255, 255, Obj.CAL_STATUS + i, status, 0⟩ else s

/-- An item that needs a gap runs: items 1 to 5 (Table 17-1). -/
def State.calGap (s : State) : Bool := s.getN Obj.CAL_STATE = 2 && s.getN Obj.CAL_ITEM ∈ [1, 2, 3, 4, 5]

/-- A sweep becomes armed: the item ends with status 5 and goes back to the head of the queue (R367). -/
def State.calAbandon (s : State) : State :=
  if !s.calGap then s
  else
    let i := s.getN Obj.CAL_ITEM
    let s := { s.setN Obj.CAL_QUEUE (setBit (s.getN Obj.CAL_QUEUE) i) with cal := { s.cal with first := some i } }
    s.calEnd 5

/-- The first beam whose measurement is not complete, else the next to be measured: where the cursor stands (R210, R212). -/
def Gate.at (g : Gate) : Nat := ((g.failed ++ g.waiting ++ g.beam.toList).head?).getD g.cursor

/-- A gate check ends with GATE_STATE `v`; the beam whose shots are not complete is discarded, and the cursor stays on it (R210). -/
def State.gateStop (s : State) (v : Nat) : State :=
  if s.getN Obj.GATE_STATE ∈ [1, 2] then
    let s := match s.head.gate with
      | some g => s.setN Obj.GATE_CURSOR g.at
      | none => s
    { s.setN Obj.GATE_STATE v with head := { s.head with gate := none } }
  else s

/-- The turnaround hold ends (R161). -/
def State.endTurnaround (s : State) : State := { s.setN Obj.TURNAROUND_HELD 0 with flow := { s.flow with release := false } }

/-! ### Arming -/

/-- Tile columns in sweep order that `p` selects. -/
def Stripe.order (st : Stripe) (p : Nat → Bool) : List Nat := ((List.range st.cols).map st.colAt).filter p

/-- A sweep is armed at this decision point (R159, R161, R171, R172, R177, R184, R210, R231, R367, R46). -/
def State.arm (s : State) (st : Stripe) (kind : Nat) (w : Sweep) : State :=
  let s := (s.gateStop 4).calAbandon
  let s := s.takeStripe fun o => !isFieldObj o
  let last := (w.ranges.getLast?.map (·.2)).getD 0 + (479 * s.B : Nat)
  let s := ((((s.setN Obj.SWEEP_STATE 1).setN Obj.SWEEP_KIND kind).set Obj.SWEEP_DIRECTION (b2i st.dirMinus)).set Obj.SWEEP_LENGTH st.len).set
    Obj.SWEEP_LAST_INDEX last
  let a : Int := w.first - 1
  let s : State := { s.setN Obj.OVERSPEED_SKIPS_WINDOW 0 with
    sweep := { w with stripe := st.number, nPrev := a, reached := a, examined := a }
    hist := []
    hs := { s.hs with base := true, lostAt := none, skips := [], wakeLate := false, issued := false, targets := [] }
    job := { s.job with livePass := kind }
    pair := { s.pair with armedSinceSync := true } }
  if s.posState ∈ [1, 2] then s.enterSearching else s

/-- Arm the main sweep of the next stripe (R159, R160). -/
def State.armMain (s : State) (st : Stripe) : State :=
  let s : State := { s with flow := { s.flow with next := s.flow.next + 1, stripeDone := false, accs := [] } }
  s.arm st 0 { ranges := [(0, st.len - 1)], cols := st.order fun _ => true }

/-- Of the spool tiles of a parked stripe, only the pixels up to the park have been written: what the parked sweep loaded beyond it is
loaded again (R226, R227, R296). -/
def State.unloadBeyond (s : State) (st : Stripe) (n : Int) : State :=
  { s with spool := { s.spool with tiles := s.spool.tiles.map fun (t : SpoolTile) =>
      let (a, b) := st.colSpan t.key.u
      if t.key.stripe = st.number ∧ n < b then { t with loaded := 64 * (n + 1 - a).toNat } else t } }

/-- Arm the resume sweep of a parked stripe (R227). -/
def State.armResume (s : State) (st : Stripe) (n : Int) : State :=
  let accs := s.flow.accs
  let s := s.unloadBeyond st n
  let s := s.arm st 0 { ranges := [(n + 1, st.len - 1)], resume := true, accs := accs, cols := st.order fun u => n < (st.colSpan u).2 }
  { s with flow := { s.flow with parked := none, accs := [] } }

/-- Entries of a stripe that a Burnish sweep takes (R230). -/
def State.burnPlan (s : State) (n : Nat) : List Nat :=
  (List.range s.ledger.entries.length).filter fun i =>
    match s.ledger.entries[i]? with
    | some e => e.isOpen && e.key.stripe = n && !s.ownerPending e
    | none => false

/-- Maximal runs of consecutive tile columns, from columns in rising order. -/
def columnRuns (us : List Nat) : List (Nat × Nat) :=
  (us.foldl (fun (acc : List (Nat × Nat)) u =>
    match acc with
    | (a, b) :: r => if b + 1 = u then (a, u) :: r else (u, u) :: acc
    | [] => [(u, u)]) []).reverse

/-- The ranges of a Burnish sweep in sweep coordinates, increasing (R231). -/
def Stripe.burnRanges (st : Stripe) (us : List Nat) : List (Int × Int) :=
  let rs := (columnRuns us).map fun p => st.span (64 * (p.1 : Int)) (64 * (p.2 : Int) + 63)
  if st.dirMinus then rs.reverse else rs

/-- Arm a Burnish sweep over its plan (R230 to R232): the UNKNOWN tiles among it are rasterized again, and what the spool holds of them, a
tile of zeros, is left: their pixels take the new values only. -/
def State.armBurn (s : State) (st : Stripe) (b : Burn) (plan : List Nat) : State :=
  let es := plan.filterMap fun i => s.ledger.entries[i]?
  let us := sortBy (· ≤ ·) (es.map fun e => e.key.u).eraseDups
  let unknown := (es.filter (·.unknown)).map (·.key)
  let again := unknown.filter fun k => !s.ras.again.contains k
  let s : State := { s with spool := { s.spool with tiles := s.spool.tiles.filter fun (t : SpoolTile) => !unknown.contains t.key } }
  let s := s.arm st 1 { ranges := st.burnRanges us, plan := plan, attempt := b.attempt, cols := st.order us.contains }
  let s := (((s.inc Obj.BURNISH_SWEEPS).setN Obj.BURNISH_STATE 2).setN Obj.BURNISH_STRIPE st.number).setN Obj.BURNISH_ATTEMPT b.attempt
  let s : State := { s.setN Obj.BURNISH_PERMILLE 0 with ras := { s.ras with again := s.ras.again ++ again } }
  s.advanceRaster

/-! ### Burnish passes and the ends -/

/-- Stripes with OPEN entries among those that `p` selects, in stripe order. -/
def State.openStripes (s : State) (p : Nat → Bool) : List Nat :=
  sortBy (· ≤ ·) (((s.ledger.entries.filter Entry.isOpen).map (·.key.stripe)).filter p).eraseDups

/-- The job ends: DONE (Table 02-9), SWEEP_STATE 0 (Table 06-4). -/
def State.finishJob (s : State) : State :=
  let s := (((s.setN Obj.SWEEP_STATE 0).setN Obj.BURNISH_STATE 0).endTurnaround).setN Obj.OVERSPEED_SKIPS_WINDOW 0
  let s : State := { s with sweep := {}, hist := [], flow := { next := s.flow.next }, job := { s.job with hold := false } }
  (s.setJobState jobDone).refreshStream

/-- The job is held at a stripe boundary or before a resume sweep (R48, R227). -/
def State.takeHold (s : State) : State := ({ s with job := { s.job with hold := false } }).setJobState jobHeld

/-- What follows a Burnish pass, or its absence (R227 to R230). -/
def State.afterBurn (s : State) (a : AfterBurn) : State :=
  let s : State := { s.setN Obj.BURNISH_STATE 0 with flow := { s.flow with burn := none } }
  match a with
  | .resume =>
    let s := if s.ledgerFree < 2 * s.ledgerReserve then s.setHold else s
    if s.job.hold then s.takeHold else s
  | .stripeEnd =>
    let n := s.flow.next - 1
    let s := (s.reportOpen fun e => e.key.stripe = n).freeTiles
    { s with flow := { s.flow with stripeDone := true } }
  | .nextStripe => { s with flow := { s.flow with stripeDone := true } }
  | .jobEnd => ((s.reportOpen fun _ => true).freeTiles).finishJob

/-- A stripe has an OPEN UNKNOWN entry whose rejection is pending (R230). -/
def State.burnMustWait (s : State) (n : Nat) : Bool :=
  s.ledger.entries.any fun e => e.isOpen && e.key.stripe = n && s.ownerPending e

/-- A Burnish pass goes on to where it waits, can arm a sweep, or ends (R230). -/
def State.settleBurn : Nat → State → State
  | 0, s => s
  | f + 1, s =>
    match s.flow.burn with
    | none => s
    | some b =>
      match b.stripes with
      | [] => s.afterBurn b.after
      | n :: rest =>
        if b.attempt = 0 ∧ !b.waited ∧ s.burnMustWait n then
          { (s.setN Obj.BURNISH_STATE 1).setN Obj.BURNISH_STRIPE n with flow := { s.flow with burn := some { b with waiting := true } } }
        else if s.getN Obj.BURNISH_RETRIES < b.attempt ∨ (s.burnPlan n).isEmpty then
          State.settleBurn f { s with flow := { s.flow with burn := some { stripes := rest, after := b.after } } }
        else { s with flow := { s.flow with burn := some { b with waiting := false } } }

/-- Begin a Burnish pass of stripes. -/
def State.startBurn (s : State) (stripes : List Nat) (a : AfterBurn) : State :=
  State.settleBurn (stripes.length + 1) { s with flow := { s.flow with burn := some { stripes := stripes, after := a } } }

/-- An early Burnish (R227, R228), counted where a stripe takes part. -/
def State.earlyBurn (s : State) (stripes : List Nat) (a : AfterBurn) : State :=
  if stripes.isEmpty then s.afterBurn a else (s.inc Obj.EARLY_BURNISHES).startBurn stripes a

/-- The main sweep of a stripe, or its last resume sweep, has ENDED (R227 to R229); LEDGER_EARLY_LEVEL 0 disables the early Burnish of
R228. -/
def State.mainEnded (s : State) : State :=
  let n := s.flow.next - 1
  match s.getN Obj.BURNISH_MODE with
  | 0 => s.afterBurn .stripeEnd
  | 1 => s.startBurn [n] .stripeEnd
  | _ =>
    let high := s.getN Obj.LEDGER_EARLY_LEVEL ≠ 0 && decide (s.getN Obj.LEDGER_EARLY_LEVEL * s.getN Obj.LEDGER_SIZE < 100 * s.ledgerUsed)
    if high ∧ s.flow.next ≠ s.getN Obj.JOB_STRIPES then s.earlyBurn (s.openStripes fun k => k ≤ n) .nextStripe
    else s.afterBurn .nextStripe

/-- The last stripe has ended (R48, R51, R229). -/
def State.lastStripe (s : State) : State :=
  let s : State := { s with job := { s.job with hold := false }, flow := { s.flow with stripeDone := false } }
  if 2 ≤ s.getN Obj.BURNISH_MODE ∧ 0 < s.ledgerOpen then (s.setJobState jobBurnishing).startBurn (s.openStripes fun _ => true) .jobEnd
  else s.finishJob

/-- A sweep has ENDED: what follows it is drawn (R227, R229, R230). -/
def State.drawEnd (s : State) : State :=
  match s.flow.burn with
  | some b => State.settleBurn (b.stripes.length + 1) { s with flow := { s.flow with burn := some { b with attempt := b.attempt + 1 } } }
  | none =>
    match s.flow.parked with
    | some p => if s.getN Obj.BURNISH_MODE = 0 then s.afterBurn .resume else s.earlyBurn (s.openStripes fun k => k ≤ p.1) .resume
    | none => s.mainEnded

/-- The job writes: RUNNING or BURNISHING, no abort or HALT begun. -/
def State.writing (s : State) : Bool := s.jobState ∈ [2, 4] && s.job.abortAt.isNone

/-- A sweep can be armed: the job is not HELD and no abort or HALT has begun. The first stripe is armed already in PREPARING, once its
STRIPE block is accepted (Table 06-4); the Headstock issues nothing before the job is RUNNING (Table 07-4). -/
def State.mayArm (s : State) : Bool := s.jobState ∈ [1, 2, 4] && s.job.abortAt.isNone

/-- A later sweep of the job can follow (R161). -/
def State.moreSweeps (s : State) : Bool :=
  s.jobState ∈ [2, 3, 4] && (s.flow.next < s.getN Obj.JOB_STRIPES || s.flow.parked.isSome || s.flow.burn.isSome ||
    (2 ≤ s.getN Obj.BURNISH_MODE && 0 < s.ledgerOpen))

/-- A DRAINING sweep whose pixels have all retired reaches ENDED (Table 06-4, R161, R210, R26). -/
def State.endSweep (s : State) : State :=
  if s.sweepState ≠ 3 ∨ s.sweep.examined < s.get Obj.SWEEP_LAST_INDEX ∨ !s.sweep.held.isEmpty ∨ s.job.abortAt.isSome then s
  else
    let s := (s.setN Obj.SWEEP_STATE 4).inc Obj.TURNAROUND_COUNT
    let s : State := if s.sweep.parked then { s with flow := { s.flow with accs := s.sweep.accs } } else s
    let s := if s.getN Obj.SWEEP_KIND = 1 then s.setN Obj.BURNISH_PERMILLE 1000 else s
    let s : State := { s with
      sweep := { s.sweep with win := List.replicate 640 [], loads := [], accs := [], blankRest := false }
      hs := { s.hs with lostAt := none } }
    let s := s.refreshSleep
    let s := s.drawEnd
    if s.on Obj.TURNAROUND_HOLD ∧ s.moreSweeps then s.setN Obj.TURNAROUND_HELD 1 else s

/-- At a boundary between sweeps: a Burnish pass goes on, the last stripe ends the job, a pending hold is taken (R48, R160, R227,
R230). -/
def State.settle (s : State) : State :=
  if !s.writing ∨ s.sweepArmed then s
  else match s.flow.burn with
    | some b => State.settleBurn (b.stripes.length + 1) s
    | none =>
      if s.flow.parked.isSome then (if s.job.hold then s.takeHold else s)
      else if !s.flow.stripeDone then s
      else if s.flow.next = s.getN Obj.JOB_STRIPES then (if s.job.endDone then s.lastStripe else s)
      else if s.job.hold then s.takeHold else s

/-- Arm the sweep that is due, if every condition of R160 holds. -/
def State.tryArm (s : State) : State :=
  if !s.mayArm ∨ s.sweepArmed ∨ s.on Obj.TURNAROUND_HELD then s
  else match s.flow.burn with
    | some b =>
      match b.stripes with
      | n :: _ =>
        match s.stripeOf n with
        | some st => if b.waiting ∨ (s.burnPlan n).isEmpty then s else s.armBurn st b (s.burnPlan n)
        | none => s
      | [] => s
    | none =>
      match s.flow.parked with
      | some (n, i) =>
        match s.stripeOf n with
        | some st => s.armResume st i
        | none => s
      | none =>
        match s.stripeOf s.flow.next with
        | some st => if s.flow.next = 0 ∨ s.flow.stripeDone then s.armMain st else s
        | none => s

/-- The sweep is parked at the last index issued (R226). -/
def State.park (s : State) : State :=
  let n := s.sweep.nPrev
  match s.stripeOf s.sweep.stripe with
  | none => s
  | some st =>
    let s : State := { s with
      sweep := { s.sweep with
        parked := true
        ranges := s.sweep.ranges.map fun p => (p.1, min p.2 n)
        cols := s.sweep.cols.filter fun u => (st.colSpan u).2 ≤ n }
      flow := { s.flow with parked := some (s.sweep.stripe, n) } }
    (((s.set Obj.SWEEP_LAST_INDEX (n + (479 * s.B : Nat))).inc Obj.PARKS).set Obj.PARK_INDEX n).logEvent
      ⟨2, 4, 255, 255, Obj.PARK_INDEX, toUnsigned 32 n, 0⟩

/-- The park check of a decision point: a main or resume sweep in SWEEPING, less free space than the reserve (R226). DESIGN CHOICE: with
every pixel column of the sweep already reached by an index issued there is nothing to park, since the resume sweep of R227 would be
empty; the check then does nothing. -/
def State.parkCheck (s : State) : State :=
  let top := (s.sweep.ranges.getLast?.map (·.2)).getD (-1)
  if s.sweepState = 2 ∧ s.getN Obj.SWEEP_KIND = 0 ∧ !s.sweep.parked ∧ s.job.abortAt.isNone ∧ s.sweep.nPrev < top ∧
     s.ledgerFree < s.ledgerReserve then s.park else s

/-! ### The commands -/

/-- BURNISH_REPAIR_WAIT: the wait for repairs ends (R230). -/
def execBurnishRepairWait (s : State) : Out :=
  match s.flow.burn with
  | some b =>
    if b.waiting then .next ({ s with flow := { s.flow with burn := some { b with waiting := false, waited := true } } }).settle
    else .next s
  | none => .next s

/-- A write of 1 to TURNAROUND_RELEASE (R161): while a gate check or an item that needs a gap runs, it takes effect at its end. -/
def writeTurnaroundRelease (s : State) (by_ : Caller) : Wr :=
  s.gate by_ Obj.TURNAROUND_RELEASE fun s =>
    if !s.on Obj.TURNAROUND_HELD then s.ok
    else if s.gateRuns || s.calGap then ({ s with flow := { s.flow with release := true } }).ok
    else s.endTurnaround.ok

/-- TURNAROUND_RELEASE. -/
def execTurnaroundRelease (by_ : Caller) (s : State) : Out := .next (writeTurnaroundRelease s by_).1

/-- A release that waited for a gate check or an item takes effect at its end (R161). -/
def State.lateRelease (s : State) : State :=
  if s.flow.release && !s.gateRuns && !s.calGap then s.endTurnaround else s

/-- REGION_WAKE_DONE: a half of a region has woken (R26, R184). -/
def execRegionWakeDone (region : Nat) (writingSide : Bool) (s : State) : Out :=
  if 4 ≤ region ∨ s.lost region then .next s
  else if writingSide then
    if atD s.units.writing region 0 = 1 then .next ((s.inc (Obj.REGION_WAKES + region)).setWriting region 2) else .next s
  else if atD s.units.raster region 0 = 1 then .next ((s.inc (Obj.REGION_WAKES + region)).setRaster region 2).advanceRaster
  else .next s

end Sys2Proof.Machine
end

