-- ==== Sys2Proof/Machine/Watch.lean ====
section
/-! DEFINITION. What the regions watch at every decision point: the give-up of rejected blocks (R88), the warnings of pace and of
correction lead and the loss of pace (R114, R133, Table 10-8). -/
namespace Sys2Proof.Machine

/-- A region gives an area up (R88): its affected tiles that are not spooled are spooled as 0 and entered in the ledger; the
rejection counts as DEFERRED once. -/
def State.giveUpArea (s : State) (r : Nat) (a : Area) : State :=
  let keys := (s.affectedTiles a r).filter fun k => !s.spooled k || s.ras.again.contains k
  let s : State := { s with ras := { s.ras with given := (a.block, r) :: s.ras.given } }
  let s := s.giveUpTiles r keys (some a.owner)
  let first := s.st.pending.any fun p => p.seq = a.owner && !p.noted
  let s : State := { s with st := { s.st with pending := s.st.pending.map fun (p : Pend) =>
    if p.seq = a.owner then { p with noted := true, gaveUp := if p.gaveUp.contains r then p.gaveUp else r :: p.gaveUp } else p } }
  let s := if first then (s.inc Obj.AREAS_GIVEN_UP).logEvent ⟨3, 0, r, 255, Obj.AREAS_GIVEN_UP, a.owner, 0⟩ else s
  s.advanceRaster

/-- The nearest affected tile of an area lies within REJECT_GIVE_UP_LEAD pixels of the flash index (R88). -/
def State.giveUpDue (s : State) (r : Nat) (a : Area) : Bool :=
  (s.affectedTiles a r).any fun k => decide (s.runAhead k ≤ (s.getN Obj.REJECT_GIVE_UP_LEAD : Int))

/-- Tell the standby of a give-up (R249, Table 10-3): block, region. -/
def State.tellGiveUp (s : State) (block r : Nat) : State :=
  if s.mirrorsOn then s.mirror 4 0x11 ([4] ++ leBytes 4 block ++ leBytes 4 r) else s

/-- Areas whose region gives up at this decision point: only while the job writes and a sweep is armed. -/
def State.giveUps (s : State) : State :=
  if !s.writing ∨ !s.sweepArmed then s
  else regions.foldl (fun s r =>
    if s.lost r then s
    else (s.areas.filter fun a => !s.gaveUp a r && s.giveUpDue r a).foldl (fun s a =>
      if s.gaveUp a r then s else (s.giveUpArea r a).tellGiveUp a.block r) s) s

/-- A region has a retired cell or block (R114). -/
def State.rasterRetired (s : State) (r : Nat) : Bool :=
  (rangeN (12 * r) (12 * r + 11)).any s.cellRetired || (rangeN (3 * r) (3 * r + 2)).any s.blockRetired

/-- A loss of pace (R114): trigger 7 with PACE_RELEASE = 1, unless an eligible standby has fewer than 12 cells in service in
the region; otherwise only entered. -/
def State.lossOfPace (s : State) (r : Nat) : State :=
  let t : Trig := ⟨7, 1, r, 255, r⟩
  let full := leAt s.pair.peerHealth (16 + r) 1 = 12
  if s.on Obj.PACE_RELEASE && (full || !s.peerEligible) then s.raise t else s.logEvent (t.event 2)

/-- A warning is counted at the fall, and again only after the lead has risen above the threshold: whether it stays counted. -/
def latch (was fell above : Bool) : Bool := (was || fell) && !above

/-- The watch of one region (R114, R133). -/
def State.watchRegion (s : State) (r : Nat) : State :=
  let open_ := s.unspooled r s.sweep.stripe && !s.lost r
  let run := s.jobState = 2
  let lead := s.rasterLead r
  let corr := s.corrLead r
  let was := s.ras
  let paceFell := run && open_ && decide (lead < s.getN Obj.PACE_WARN_LEAD)
  let corrFell := run && open_ && decide (corr < s.getN Obj.CORR_WARN_LEAD)
  let starves := open_ && decide (lead ≤ 0) && s.jobState ∈ [2, 4]
  let s := if paceFell && !atD was.paceLow r false then
      (s.inc (Obj.PACE_WARNINGS + r)).logEvent ⟨2, 1, r, 255, Obj.PACE_WARNINGS + r, 0, 0⟩ else s
  let s := if corrFell && !atD was.corrLow r false then
      (s.inc (Obj.CORR_WARNINGS + r)).logEvent ⟨2, 2, r, 255, Obj.CORR_WARNINGS + r, 0, 0⟩ else s
  let lost := starves && s.rasterRetired r && !atD was.starved r false
  let s : State := { s with ras := { s.ras with
    paceLow := setAt s.ras.paceLow r (latch (atD was.paceLow r false) paceFell (decide ((s.getN Obj.PACE_WARN_LEAD : Int) < lead)))
    corrLow := setAt s.ras.corrLow r (latch (atD was.corrLow r false) corrFell (decide ((s.getN Obj.CORR_WARN_LEAD : Int) < corr)))
    starved := setAt s.ras.starved r (latch (atD was.starved r false) starves (decide (0 < lead))) } }
  if lost then s.lossOfPace r else s

/-- The watch of R114 and R133 at a decision point, while a sweep is armed. -/
def State.watch (s : State) : State := if s.sweepArmed && s.job.abortAt.isNone then regions.foldl State.watchRegion s else s

end Sys2Proof.Machine
end

