-- ==== Sys2Proof/Machine/Ack.lean ====
section
/-! DEFINITION. Head acknowledgements, their decisions, head commands and the head temperature (R197 to R200, R208, R214). -/
namespace Sys2Proof.Machine

/-- The 128 bytes of an acknowledgement (Table 08-5). -/
def ackBytes (m : AckMessage) : Bytes :=
  leBytes 4 m.frame ++ leBytes 3 m.fired.toNat ++ leBytes 1 m.resv1 ++ leBytes 3 m.rxOk.toNat ++ [m.status] ++ leBytesI 2 m.temp ++
  leBytes 2 m.resv2 ++ leBytes 4 m.cmdEcho.toNat ++ leBytes 4 m.resv3 ++
  (List.range 24).flatMap (fun l => leBytes 4 (atD m.rxCrc l 0).toNat) ++ leBytes 8 m.resv4

/-- The decision of Table 08-6 for one lane. -/
inductive LaneVerdict | notFired | protocol | badCrc | fired
  deriving DecidableEq, Repr

/-- Table 08-6, first row that applies. -/
def laneVerdict (p : Period) (m : AckMessage) (l : Nat) : LaneVerdict :=
  if !m.fired.getLsbD l then .notFired
  else if !m.rxOk.getLsbD l || !p.sync || p.kind = some 0 || p.kind = some 2 || !bitOf p.sent l then .protocol
  else if atD m.rxCrc l 0 ≠ atD p.crcs l 0 then .badCrc
  else .fired

/-- Lanes decided fired by an acknowledgement. -/
def firedMask (p : Period) (m : AckMessage) : BitVec 24 :=
  BitVec.ofNat 24 (sumMap (fun l => if laneVerdict p m l = .fired then 2 ^ l else 0) (List.range 24))

/-- Lanes of a mask among those that sent a frame. -/
def Period.sentLanes (p : Period) : List Nat := (List.range 24).filter (bitOf p.sent)

/-- A period whose frames await their decision. -/
def Period.outstanding (p : Period) : Bool := p.sent ≠ 0 && p.verdict.isNone

/-- LAST_INTERRUPTION once period k_1 has its FRAME_SYNC: from the FRAME_SYNC of the last period up to k_r that is decided fired, however
late its decision comes (R260). -/
def State.showInterruption (s : State) : State :=
  match (if s.pair.k1 = 0 then none else kvGet s.pair.frameSyncs s.pair.k1) with
  | some t =>
    if s.pair.k1 = 0 then s
    else
      let last := s.hs.periods.find? fun p => p.k ≤ s.getN Obj.LAST_KR && p.decided.any (· ≠ 0)
      match last with
      | some q => s.setN Obj.LAST_INTERRUPTION ((t - q.fire) * 5 / 2)
      | none => s
  | none => s

/-- A lit shot of calibration items 3 to 5 that is not decided fired is repeated once; a second failure ends the item (R371). -/
def State.noteShot (s : State) (p : Period) (fired : BitVec 24) : State :=
  match p.shot, p.beam with
  | some i, some b =>
    if !s.calGate || decide (p.k < s.cal.begun) || fired.getLsbD (laneOf b) then s
    else if s.cal.tried.contains i then { s with cal := { s.cal with missed := true } }
    else { s with cal := { s.cal with redo := s.cal.redo ++ [i], tried := i :: s.cal.tried } }
  | _, _ => s

/-- The frames of a period are decided; the decision takes effect at the next decision point (R199, R200). -/
def State.decideFrames (s : State) (p : Period) (v : Verdict) (fired : BitVec 24) : State :=
  let s := ((s.putPeriod { p with verdict := some v, decided := some fired }).showInterruption).noteShot p fired
  let s := s.add Obj.FRAMES_NOT_FIRED (p.sentLanes.filter fun l => !fired.getLsbD l).length
  { s with hist := s.hist.map fun (h : HistFlash) => if h.period = p.k then { h with fired := some fired } else h }

/-- A standby's own decision is compared with the active's, which stands (Table 10-5). -/
def State.compareOwn (s : State) (k : Nat) : State :=
  match s.hs.periods.find? (·.k = k) with
  | some p => match p.own, p.decided with
    | some a, some b => if a = b then s else s.inc Obj.DECISION_DISAGREEMENTS
    | _, _ => s
  | none => s

/-- Enter a decision: on a standby it is only compared with the active's. -/
def State.takeVerdict (s : State) (p : Period) (v : Verdict) (fired : BitVec 24) : State :=
  if s.isStandby then (s.putPeriod { p with verdict := some v, own := some fired }).compareOwn p.k
  else s.decideFrames p v fired

/-- A change of THERMAL_STATE waits for the next decision point (R214). -/
def State.setThermal (s : State) (v : Nat) : State :=
  if (s.head.thermal.getD (s.getN Obj.THERMAL_STATE)) = v then s else { s with head := { s.head with thermal := some v } }

/-- The head temperature of an accepted acknowledgement (R214). -/
def State.headTemp (s : State) (temp : Int) : State :=
  let s := s.set Obj.HEAD_TEMP temp
  let cur := s.head.thermal.getD (s.getN Obj.THERMAL_STATE)
  match s.head.identity with
  | none => s
  | some i =>
    if i.tempLimit ≤ temp then s.setThermal 2
    else if cur = 0 ∧ i.tempWarn ≤ temp then s.setThermal 1
    else if cur ≠ 0 ∧ temp < i.tempWarn - i.tempHyst then s.setThermal 0
    else s

/-- A thermal change takes effect at a decision point; entries are counted (R214). -/
def State.thermalEffect (s : State) : State :=
  match s.head.thermal with
  | none => s
  | some v =>
    let s : State := { s with head := { s.head with thermal := none } }
    if v = s.getN Obj.THERMAL_STATE then s
    else
      let s := s.setN Obj.THERMAL_STATE v
      if v = 1 then (s.inc Obj.THERMAL_CAP_ENTRIES).logEvent ⟨2, 7, 255, 255, Obj.THERMAL_CAP_ENTRIES, 0, 0⟩
      else if v = 2 then (s.inc Obj.HEAD_LIMIT_ENTRIES).logEvent ⟨2, 7, 255, 255, Obj.HEAD_LIMIT_ENTRIES, 0, 0⟩
      else s

/-- TEMP_STALE (R214): too many consecutive periods with frames have passed without an accepted acknowledgement. -/
def State.tempStale (s : State) : State := if s.getN Obj.TEMP_STALE_LIMIT ≤ s.head.stale then s.setThermal 2 else s

/-- The COMMAND field of a head command: DISABLE of its beam (Table 08-3). -/
def HeadCmd.field (c : HeadCmd) : Nat := 2 ^ 28 + c.beam

/-- CMD_PENDING follows the queue. -/
def State.setCmds (s : State) (cs : List HeadCmd) : State :=
  { s.setN Obj.CMD_PENDING cs.length with head := { s.head with cmds := cs } }

/-- Queue DISABLE for a beam (R208). -/
def State.queueDisable (s : State) (beam : Nat) : State := s.setCmds (s.head.cmds ++ [{ beam := beam }])

/-- The echo of the outstanding command ends it (R208). -/
def State.echo (s : State) (e : Nat) : State :=
  match s.head.cmds with
  | c :: r => if e = c.field then s.setCmds r else s
  | [] => s

/-- A command outstanding for 1,024 periods is entered in the error log once (R208). -/
def State.unechoed (s : State) : State :=
  match s.head.cmds with
  | c :: r =>
    if 1024 ≤ c.periods ∧ !c.logged then
      (s.setCmds ({ c with logged := true } :: r)).logEvent ⟨2, 7, c.beam % 640 / 160, laneOf c.beam, Obj.CMD_RETRIES, c.field, 0⟩
    else s
  | [] => s

/-- A period passes with a command outstanding (R208). -/
def State.countCommand (s : State) : State :=
  match s.head.cmds with
  | c :: r =>
    let s := s.setCmds ({ c with periods := c.periods + 1 } :: r)
    (if 16 ≤ c.periods then s.inc Obj.CMD_RETRIES else s).unechoed
  | [] => s

/-- An accepted copy (R199, Table 08-6): protocol errors and CRC mismatches are counted and entered, each with its lane. -/
def State.acceptCopy (s : State) (p : Period) (m : AckMessage) : State :=
  let s := (s.inc Obj.ACKS_ACCEPTED).echo m.cmdEcho.toNat
  let s := (List.range 24).foldl (fun (s : State) l =>
    match laneVerdict p m l with
    | .protocol => (s.inc Obj.HEAD_PROTOCOL_ERRORS).logEvent ⟨2, 7, l / 6, l, Obj.HEAD_PROTOCOL_ERRORS, p.k, l⟩
    | .badCrc => (s.inc Obj.HEAD_CRC_MISMATCHES).logEvent ⟨2, 7, l / 6, l, Obj.HEAD_CRC_MISMATCHES, p.k, l⟩
    | _ => s) s
  let s := (p.sentLanes.filter fun l => !m.rxOk.getLsbD l).foldl (fun (s : State) l => s.inc (Obj.LANE_RX_FAILS + l)) s
  let s := if s.isStandby then p.sentLanes.foldl (fun (s : State) l =>
      let own := atD p.ownCrcs l 0
      if !p.ownCrcs.isEmpty ∧ own ≠ atD m.rxCrc l 0 ∧ atD p.crcs l 0 = atD m.rxCrc l 0 then s.inc Obj.RXCRC_DIVERGENCES else s) s else s
  let s : State := { s with head := { s.head with stale := 0 } }
  (s.takeVerdict p (.accepted m.fired.toNat m.rxOk.toNat) (firedMask p m)).headTemp m.temp

/-- A copy whose FRAME_NUMBER is not outstanding, or that arrives late (R199). -/
def State.lateCopy (s : State) (p : Option Period) (m : AckMessage) : State :=
  match p with
  | none => s.inc Obj.ACK_STRAY
  | some p =>
    if p.sent = 0 then s.inc Obj.ACK_STRAY
    else match p.verdict with
      | some (.accepted f r) => if f ≠ m.fired.toNat ∨ r ≠ m.rxOk.toNat then s.inc Obj.ACK_COPY_DISAGREE else s
      | _ =>
        let s := s.inc Obj.ACK_LATE
        if m.fired.toNat = 0 then s else s.logEvent ⟨2, 7, 255, 255, Obj.ACK_LATE, p.k, 0⟩

/-- ACKNOWLEDGEMENT (R198, R199): the last bit of a message arrives on an HST lane at core cycle `t`. -/
def execAcknowledgement (hst : Nat) (t : Nat) (msg : AckMessage) (s : State) : Out :=
  let s := s.at t
  if !s.coreOn ∨ 2 ≤ hst ∨ s.getN (Obj.HST_LANE_STATE + hst) ≠ 1 then .next s
  else if crc32iso (ackBytes msg) ≠ msg.crc then .next (s.inc Obj.ACK_CRC_ERRORS)
  else
    let p := s.hs.periods.find? fun p => p.k % 2 ^ 32 = msg.frame && s.hs.k ≤ p.k + 1024
    match p with
    | some q => if q.outstanding ∧ t ≤ q.due then .next (s.acceptCopy q msg) else .next (s.lateCopy p msg)
    | none => .next (s.lateCopy none msg)

/-- The oldest period whose deadline has passed by decision point `k` without an accepted copy is decided not fired (R200). -/
def State.timeoutOne (s : State) (k : Nat) : State :=
  match s.hs.periods.reverse.find? fun p => p.outstanding && p.k + 8 ≤ k with
  | none => s
  | some p =>
    let s : State := { s.inc Obj.ACK_TIMEOUTS with head := { s.head with stale := s.head.stale + 1 } }
    s.takeVerdict p .timeout 0

/-- Every timeout due at decision point `k`. -/
def State.timeouts (s : State) (k : Nat) : State := (foldN s.hs.periods.length (fun (s : State) _ => s.timeoutOne k) s).tempStale

/-- ACK_TIMEOUT: at D(k + 8) no copy for period k has been accepted (R199, R200). -/
def execAckTimeout (s : State) : Out := .next (if s.coreOn then s.timeoutOne s.hs.k else s)

/-- TEMP_STALE. -/
def execTempStale (s : State) : Out := .next (if s.coreOn then s.tempStale else s)

/-- CMD_UNECHOED. -/
def execCmdUnechoed (s : State) : Out := .next (if s.coreOn then s.unechoed else s)

/-- HST_LANE_LOCK: a status lane locks (R198). -/
def execHstLaneLock (lane : Nat) (s : State) : Out :=
  .next (if 2 ≤ lane ∨ !s.coreOn then s else (s.setN (Obj.HST_LANE_STATE + lane) 1).refreshEligible)

/-- GATE_RX_LINK_CHANGE: the gate ADC link enters or leaves its data phase (R209). -/
def execGateRxLinkChange (dataPhase : Bool) (s : State) : Out :=
  .next (if dataPhase && !s.coreOn then s else s.setN Obj.GATE_RX_STATE (b2n dataPhase))

end Sys2Proof.Machine
end

