-- ==== Sys2Proof/Machine/Beams.lean ====
section
/-! DEFINITION. The per-beam table: changes that wait for their epoch, the epoch boundary, BEAM_EDIT (R203 to R207, R250). -/
namespace Sys2Proof.Machine

/-- Beams of the array (R17). -/
abbrev beamCount : Nat := 307200

/-- Put an entry into a table of rows that holds no zero entry. -/
def putEntryOf (table : List (List (Nat × Nat))) (b e : Nat) : List (List (Nat × Nat)) :=
  modifyAt table (b / 640) fun row => if e = 0 then kvDel row (b % 640) else kvSet row (b % 640) e

/-- Write an entry of the per-beam table. -/
def State.setBeam (s : State) (b e : Nat) : State := { s with head := { s.head with table := putEntryOf s.head.table b e } }

/-- BEAMS_IN_STATE counts the entries in each state (R203). -/
def State.recountBeams (s : State) : State :=
  let count (v : Nat) : Nat := sumMap (fun row => (row.filter fun p => beamState p.2 = v).length) s.head.table
  let w := count 1
  let o := count 2
  let k := count 3
  (((s.setN Obj.BEAMS_IN_STATE (beamCount - w - o - k)).setN (Obj.BEAMS_IN_STATE + 1) w).setN (Obj.BEAMS_IN_STATE + 2) o).setN
    (Obj.BEAMS_IN_STATE + 3) k

/-- A standby that must confirm commits and table changes: SYNCED or ELIGIBLE, link up (R250). -/
def State.peerConfirms (s : State) : Bool :=
  s.getN Obj.PAIR_STATE = 1 && s.getN Obj.PEER_STATE ∈ [3, 4] && s.getN Obj.MIRROR_LINK_STATE = 1 && !s.pair.releasing

/-- Send BEAM_CHANGES with the epoch boundary of the changes, and the head identity after an attach (Table 10-3); the SEQ to be
confirmed, where one must be. The body's coding is the model's own. -/
def State.sendBeams (s : State) (cs : List (Nat × Nat)) (identity : Bool) : State × Option Nat :=
  if !s.mirrorsOn then (s, none)
  else
    let q := atD s.pair.txSeq 4 0
    let body := leBytes 4 cs.length ++ cs.flatMap (fun c => leBytes 4 c.1 ++ leBytes 4 c.2) ++ leBytes 4 (s.getN Obj.BEAM_EPOCH + 1) ++
      (if identity then match s.head.identity with
        | some i => i.model ++ leBytes 8 i.serial
        | none => [] else [])
    let wait := s.peerConfirms
    let s := s.mirror 4 0x13 body
    if wait then ({ s with pair := { s.pair with await := s.pair.await ++ [q] } }, some q) else (s, none)

/-- Gate-check and image results wait for the next epoch boundary (R204). -/
def State.addResults (s : State) (cs : List (Nat × Nat)) : State :=
  if cs.isEmpty then s
  else
    let (s, q) := s.sendBeams cs false
    { s with head := { s.head with results := s.head.results ++ cs.map fun c => ⟨c.1, c.2, q⟩ } }

/-- BEAM_EDITS_PENDING follows the edits that wait. -/
def State.setEdits (s : State) (es : List BeamResult) : State :=
  { s.setN Obj.BEAM_EDITS_PENDING es.length with head := { s.head with edits := es } }

/-- The entry of a beam whose table word reads as uncorrectable: KILLED (Table 11-6). -/
abbrev killedEntry : Nat := 0x0F000003

/-- The entry of a beam as it will stand at the next epoch boundary (R205). -/
def State.beamThen (s : State) (b : Nat) : Nat :=
  let e := match s.head.attachTable with
    | some t => (kvGet (atD t (b / 640) []) (b % 640)).getD 0
    | none => s.beamEntry b
  if s.sram.tableUe.contains (b / 2) then killedEntry
  else (s.head.results ++ s.head.edits).foldl (fun e r => if r.beam = b then r.entry else e) e

/-- Results of one epoch in order; KILLED stands against OFF (Table 08-12). -/
def State.putResult (s : State) (r : BeamResult) (before : List BeamResult) : State :=
  if beamState r.entry = 2 ∧ before.any (fun x => x.beam = r.beam && beamState x.entry = 3) then s else s.setBeam r.beam r.entry

/-- Words of the per-beam table that read as uncorrectable become KILLED entries, with DISABLE queued, once each: their visits stay lost
until the change is in effect (Table 11-6, R250). -/
def State.killWords (s : State) : State :=
  let ws := s.sram.tableUe.filter fun w => !s.head.results.any fun r => r.beam = 2 * w && r.entry = killedEntry
  let bs := ws.flatMap fun w => [2 * w, 2 * w + 1]
  let s := s.addResults (bs.map fun b => (b, killedEntry))
  bs.foldl State.queueDisable s

/-- A word of the per-beam table has been rewritten as two KILLED entries. -/
def State.wordKilled (s : State) (w : Nat) : Bool := s.beamEntry (2 * w) = killedEntry && s.beamEntry (2 * w + 1) = killedEntry

/-- Words rewritten read as good again. -/
def State.dropKilled (s : State) : State := { s with sram := { s.sram with tableUe := s.sram.tableUe.filter fun w => !s.wordKilled w } }

/-- An epoch boundary (R204): attach, results, edits, those that a standby has yet to confirm left waiting (R250). -/
def State.epoch (s : State) (k : Nat) : State :=
  if s.head.epochDone = some k then s
  else
    let s := (s.inc Obj.BEAM_EPOCH).killWords
    let s : State := { s with head := { s.head with epochDone := some k } }
    let s : State := match s.head.attachTable with
      | some t => if s.head.attachAwait.isSome then s else { s with head := { s.head with table := t, attachTable := none } }
      | none => s
    let (wait, go) := s.head.results.partition (·.await.isSome)
    let s := go.foldl (fun (s : State) r => s.putResult r (go.takeWhile (· ≠ r))) s
    let (waitE, goE) := s.head.edits.partition (·.await.isSome)
    let s := goE.foldl (fun (s : State) r => s.setBeam r.beam r.entry) s
    (({ s with head := { s.head with results := wait } }).setEdits waitE).dropKilled.recountBeams

/-- BEAM_EPOCH: a decision point D(k) with k mod 64 = 0 (R204). -/
def execBeamEpoch (s : State) : Out :=
  .next (if s.coreOn && !(s.getN Obj.PAIR_STATE ∈ [2, 3, 4]) && s.hs.k % 64 = 0 then s.epoch s.hs.k else s)

/-- A write of BEAM_EDIT (R205). -/
def writeBeamEdit (s : State) (by_ : Caller) (v : Nat) : Wr :=
  s.gate by_ Obj.BEAM_EDIT fun s =>
    let b := bitsOf v 18 0
    let e := bitsOf v 63 32
    if beamCount ≤ b ∨ bitsOf v 31 19 ≠ 0 ∨ bitsOf v 63 60 ≠ 0 then s.deny stRange
    else if s.isStandby ∨ beamState (s.beamThen b) = 3 then s.deny stState
    else if 1024 ≤ s.head.edits.length then s.deny stLimit
    else
      let (s, q) := s.sendBeams [(b, e)] false
      let s := s.setEdits (s.head.edits ++ [⟨b, e, q⟩])
      (if beamState e = 3 then s.queueDisable b else s).ok

/-- BEAM_EDIT (R205). -/
def execBeamEdit (by_ : Caller) (value : BitVec 64) (s : State) : Out := .next (writeBeamEdit s by_ value.toNat).1

/-- 2800.00 BEAM_TABLE: entry b at offset 4·b. -/
def State.beamTable (s : State) : Bytes := (List.range beamCount).flatMap fun b => leBytes 4 (s.beamEntry b)

end Sys2Proof.Machine
end

