-- ==== Sys2Proof/Machine/Memory.lean ====
section
/-! DEFINITION. The DRAM controller's own events (chapter 11): training, fill, refresh, row disturbance, remapping and
channel loss. Reads that may find uncorrectable words stand in Machine/Scrub.lean. -/
namespace Sys2Proof.Machine

/-- Bounds of the start-up phases 0 to 5 in microseconds, by Table 18-7; the fill's depends on the population. -/
def phaseBounds (dpop : Nat) : List Nat := [1050, 19950, 300000 * (dramCapacity dpop / (32 * 2 ^ 30)), 1400000, 5000, 500000]

/-- STARTUP_PERMILLE with phases 0 to `n - 1` done, each weighted by its own bound (R393); 1000 only at completion. -/
def startupPermille (dpop n : Nat) : Nat :=
  let b := phaseBounds dpop
  1000 * (b.take n).sum / b.sum

/-- Enter a start-up phase from 1 to 5 (Table 18-7). -/
def State.enterPhase (s : State) (n : Nat) : State :=
  (s.setN Obj.STARTUP_PHASE n).setN Obj.STARTUP_PERMILLE (max (s.getN Obj.STARTUP_PERMILLE) (startupPermille s.straps.dpop n))

/-- Start-up fails in phase 7 (Table 18-7). -/
def State.startupFail (s : State) (error detail : Nat) : State :=
  ((s.setN Obj.STARTUP_PHASE 7).setN Obj.STARTUP_ERROR error).setN Obj.STARTUP_DETAIL detail

/-- Channels that are lost, as a mask. -/
def State.lostMask (s : State) : Nat := sumMap (fun i => if s.channelLost i then 2 ^ i else 0) regions

/-- Slots that BOOTSEL tries in order: 0 slot A, 1 slot B (Table 18-5). -/
def bootOrder (sel : Nat) : List Nat :=
  match sel with
  | 0 => [0, 1]
  | 1 => [1, 0]
  | 2 => [0]
  | _ => []

/-- Leave the fill (Table 18-7): phase 7 with a channel lost, phase 8 with BOOTSEL 0b11, otherwise the first slot is read. -/
def State.afterFill (s : State) : State :=
  if s.lostMask ≠ 0 then s.startupFail 1 s.lostMask
  else if s.straps.bootsel % 4 = 3 then s.setN Obj.STARTUP_PHASE 8
  else
    let s := s.enterPhase 3
    { s with boot := { s.boot with slots := bootOrder (s.straps.bootsel % 4), loaded := false } }

/-- The data rate that training reaches (R266): DDR5-6400, and after a failure 5600, then 4800; none where all three fail. -/
def trainedRate (rates : List Nat) : Option Nat := [6400, 5600, 4800].find? rates.contains

/-- A channel that fails its training in start-up is lost (R266, R281): trigger 3 arises and is held, a standby loses synchronisation by
cause 7; no HALT follows, for the loss ends start-up in phase 7 (R403, Table 18-7). -/
def State.loseInStartup (s : State) (ch : Nat) : State :=
  (((s.setN (Obj.MC_STATE + ch) 3).setN (Obj.MC_SPEED + ch) 0).inc Obj.TRIGGERS_HELD).desync 7

/-- A channel ends its training at a data rate, or fails at DDR5-4800 and is lost (R266). The last one starts the fill. -/
def execDramTrainingDone (ch : Nat) (rates : List Nat) (s : State) : Out :=
  if ch ≥ 4 ∨ s.pwr.locking.contains (.dram ch) ∨ s.getN (Obj.MC_STATE + ch) = 1 ∨ s.channelLost ch ∨ ¬s.pins.porstN then .next s
  else
    let starting := s.power = 4 && s.getN Obj.STARTUP_PHASE = 1
    if !starting && s.pwr.target.isNone then .next s
    else
      let s := match trainedRate rates with
        | some v => (s.setN (Obj.MC_STATE + ch) 1).setN (Obj.MC_SPEED + ch) v
        | none => if starting then s.loseInStartup ch else s.loseChannel ch
      if starting && regions.all (fun i => s.getN (Obj.MC_STATE + i) = 1 || s.channelLost i) then .next (s.enterPhase 2)
      else .next s

/-- The fill ends (R275, R276): every DRAM word 0 with a good check; FILL_STATE 2 with a channel lost. -/
def execDramFillDone (timeUs : Nat) (s : State) : Out :=
  if s.power ≠ 4 ∨ s.getN Obj.STARTUP_PHASE ≠ 2 then .next s
  else
    let empty (c : Channel) : Channel := { c with queue := [] }
    let s := { s with dram := { s.dram with
      mem := []
      poisoned := []
      watch := []
      used := false
      logBad := []
      channels := s.dram.channels.map empty } }
    let s := (((s.setN Obj.FILL_STATE (if s.lostMask = 0 then 1 else 2)).setN Obj.FILL_PERMILLE 1000).setN
      Obj.FILL_POSITION (s.getN Obj.DRAM_CAPACITY / 4)).setN Obj.FILL_TIME timeUs
    .next s.afterFill

/-- The temperatures a channel's components report set its refresh rate (R277). -/
def execDramTempPoll (ch : Nat) (temps : List Int) (s : State) : Out :=
  if ch ≥ 4 ∨ s.channelLost ch then .next s
  else .next (s.setN (Obj.MC_REFRESH_RATE + ch) (if temps.all (· ≤ 85) then 1 else 2))

/-- One tREFI of a channel: one REFsb is due for each bank number 0 to 3; a bank that queued requests target is
postponed, by at most 3 tREFI (R277). -/
def execRefresh (ch : Nat) (busy : List Nat) (s : State) : Out :=
  if ch ≥ 4 ∨ s.getN (Obj.MC_STATE + ch) ≠ 1 then .next s
  else
    let owed (c : Channel) : List Nat := regions.map fun b => if busy.contains b then min 3 (atD c.due b 0 + 1) else 0
    .next (s.modChan ch fun c => { c with due := owed c })

/-- One activate against the 32 entries of a bank (R278); `pick` chooses among entries of equal smallest count. -/
def trackActivate (pick : Nat) (l : List (Nat × Nat)) (row : Nat) : List (Nat × Nat) :=
  if l.any (·.1 = row) then l.map fun p => if p.1 = row then (row, p.2 + 1) else p
  else if l.length < 32 then l ++ [(row, 1)]
  else
    let m := l.foldl (fun m p => min m p.2) (l.headD (0, 0)).2
    let ties := (List.range l.length).filter fun i => (atD l i (0, 0)).2 = m
    setAt l (atD ties (pick % ties.length) 0) (row, m + 1)

/-- The rows within DISTURB_RADIUS on either side of a row of its bank (R278). -/
def State.neighbourRows (s : State) (row : Nat) : List Nat :=
  let n := s.getN Obj.DISTURB_RADIUS
  (rangeN (row - n) (min (row + n) (rowCount s.straps.dpop - 1))).filter (· ≠ row)

/-- A row is refreshed; of a remapped row the spare row (Table 11-7). -/
def State.refreshRow (s : State) (ch bank row : Nat) : State :=
  s.emit (.rowRefresh ch bank row (((s.chan ch).remap.find? fun e => e.row = row && e.bank = bank).map (·.spare)))

/-- Activates of a bank: a count that reaches DISTURB_THRESHOLD refreshes the neighbours and returns to 0 (R278). -/
def State.activate (s : State) (ch bank row : Nat) : State :=
  let c := s.chan ch
  let l := trackActivate (Config.choice s.free) ((kvGet c.activates bank).getD []) row
  let hit := l.any fun p => p.1 = row && p.2 ≥ s.getN Obj.DISTURB_THRESHOLD
  let l := if hit then l.map fun p => if p.1 = row then (row, 0) else p else l
  let s := { s with free := s.free + 1 }
  let s := s.modChan ch fun c => { c with activates := kvSet c.activates bank l }
  if hit then ((s.neighbourRows row).foldl (fun s n => s.refreshRow ch bank n) s).inc (Obj.MC_NEIGHBOUR_REFRESHES + ch) else s

/-- Rows of a bank are activated, in order (R278). -/
def execNeighbourRefresh (ch bank : Nat) (activates : List Nat) (s : State) : Out :=
  if ch ≥ 4 ∨ s.getN (Obj.MC_STATE + ch) ≠ 1 ∨ bank ≥ bankCount s.straps.dpop then .next s
  else .next (activates.foldl (fun s r => s.activate ch bank r) s)

/-- Every count of a channel is cleared once per refresh window (R278). -/
def execDisturbCountClear (ch : Nat) (s : State) : Out := .next (s.modChan ch fun c => { c with activates := [] })

/-- A write of REMAP_ADD (R280). -/
def writeRemapAdd (s : State) (by_ : Caller) (v : Nat) : Wr :=
  s.gate by_ Obj.REMAP_ADD fun s =>
    let row := bitsOf v 17 0
    let bank := bitsOf v 22 18
    let ch := bitsOf v 25 24
    let c := s.chan ch
    if bitOf v 23 ∨ bitsOf v 31 26 ≠ 0 ∨ row ≥ rowCount s.straps.dpop ∨ bank ≥ bankCount s.straps.dpop then s.deny stRange
    else if c.remap.any (fun e => e.row = row && e.bank = bank) then s.ok
    else if c.remap.length + (if c.copy.isSome then 1 else 0) + c.queued.length ≥ 16 then s.deny stLimit
    else (s.failRow ch bank row 4).ok

/-- REMAP_ADD (R280). -/
def execRemapAdd (by_ : Caller) (v : BitVec 32) (s : State) : Out := .next (writeRemapAdd s by_ v.toNat).1

/-- The bytes of 300D REMAP_TABLE: 16 entries of 8 bytes (R280). -/
def State.remapTable (s : State) (ch : Nat) : Bytes :=
  let es := (s.chan ch).remap.flatMap fun e =>
    leBytes 4 (e.row + e.bank * 2 ^ 18 + ch * 2 ^ 24) ++ [byte e.cause, byte e.spare, 0, 0]
  (es ++ zeros 128).take 128

/-- ALERT_n reports a parity error at cycle `t` (R281): the channel is lost when the retraining fails or when a second
error arrives within 1 s. -/
def execDramParityAlert (ch t : Nat) (retrained : Bool) (s : State) : Out :=
  if ch ≥ 4 ∨ s.getN (Obj.MC_STATE + ch) ≠ 1 then .next s
  else
    let s := s.at t
    let again := match (s.chan ch).parityAt with
      | some p => t ≤ p + secCycles
      | none => false
    let s := s.modChan ch fun c => { c with parityAt := some t }
    if again || !retrained then .next (s.loseChannel ch) else .next s

/-- A channel's PLL loses lock: twice in one job loses the channel (R281). -/
def execDramPllLockLoss (ch : Nat) (s : State) : Out :=
  if ch ≥ 4 ∨ ¬s.coreOn ∨ s.channelLost ch ∨ ¬s.jobActive then .next s
  else
    let s := s.modChan ch fun c => { c with pllLosses := c.pllLosses + 1 }
    if (s.chan ch).pllLosses ≥ 2 then .next (s.loseChannel ch) else .next s

end Sys2Proof.Machine
end

