-- ==== Sys2Proof/Machine/Sha.lean ====
section
/-! DEFINITION. SHA-256, HMAC-SHA-256 (R41) and the verification of an ECDSA P-256 signature (R392). -/
namespace Sys2Proof.Machine

/-- Whether `n` has no divisor from 2 to `n - 1`. -/
def isPrime (n : Nat) : Bool := 2 ≤ n && (rangeN 2 (n - 1)).all fun d => n % d ≠ 0

/-- The first 64 primes, up to 311. -/
def firstPrimes : List Nat := (List.range 312).filter isPrime

/-- The first 32 bits of the fractional part of the `e`-th root of `p` (FIPS 180-4): the root of p · 2^(32 e), less its whole part.
The root is below 2^37; it is found bit by bit. -/
def rootBits (e p : Nat) : Nat :=
  foldN 37 (fun r i => let r1 := r + 2 ^ (36 - i); if r1 ^ e ≤ p * 2 ^ (32 * e) then r1 else r) 0 % 2 ^ 32

/-- The round constants of SHA-256 (FIPS 180-4), from the cube roots of the primes; a word is a number below 2^32. -/
def sha256K : List Nat := firstPrimes.map (rootBits 3)

/-- The initial hash value of SHA-256, from the square roots of the first eight primes. -/
def sha256H : List Nat := (firstPrimes.take 8).map (rootBits 2)

/-- The padded message of SHA-256. -/
def sha256Pad (m : Bytes) : Bytes :=
  m ++ [0x80] ++ zeros ((119 - m.length % 64) % 64) ++ beBytes 8 (8 * m.length)

/-- A word rotated right. -/
def rotr32 (n x : Nat) : Nat := (x >>> n ||| x <<< (32 - n)) % 4294967296

/-- The message schedule: 48 words after the 16 of the block, kept newest first. -/
def sha256Schedule (w16 : List Nat) : List Nat :=
  (foldN 48 (fun (w : List Nat) _ =>
    let w15 := atD w 14 0
    let w2 := atD w 1 0
    let s0 := rotr32 7 w15 ^^^ rotr32 18 w15 ^^^ (w15 >>> 3)
    let s1 := rotr32 17 w2 ^^^ rotr32 19 w2 ^^^ (w2 >>> 10)
    ((atD w 15 0 + s0 + atD w 6 0 + s1) % 4294967296) :: w) w16.reverse).reverse

/-- One round of SHA-256 on the working variables a to h. -/
def sha256Round (v : List Nat) (kw : Nat × Nat) : List Nat :=
  match v with
  | [a, b, c, d, e, f, g, h] =>
    let s1 := rotr32 6 e ^^^ rotr32 11 e ^^^ rotr32 25 e
    let ch := (e &&& f) ^^^ ((4294967295 - e) &&& g)
    let t1 := h + s1 + ch + kw.1 + kw.2
    let s0 := rotr32 2 a ^^^ rotr32 13 a ^^^ rotr32 22 a
    let maj := (a &&& b) ^^^ (a &&& c) ^^^ (b &&& c)
    [(t1 + s0 + maj) % 4294967296, a, b, c, (d + t1) % 4294967296, e, f, g]
  | _ => v

/-- One 64-byte block of SHA-256. -/
def sha256Block (h : List Nat) (blk : Bytes) : List Nat :=
  let w16 := (List.range 16).map fun i => ofBe (slice blk (4 * i) 4)
  let v := (sha256K.zip (sha256Schedule w16)).foldl sha256Round h
  (h.zip v).map fun p => (p.1 + p.2) % 4294967296

/-- Blocks of SHA-256, `n` of them. -/
def sha256Blocks : Nat → List Nat → Bytes → List Nat
  | 0, h, _ => h
  | n + 1, h, m => sha256Blocks n (sha256Block h (m.take 64)) (m.drop 64)

/-- SHA-256 of a byte string, 32 bytes. -/
def sha256 (m : Bytes) : Bytes :=
  let p := sha256Pad m
  (sha256Blocks (p.length / 64) sha256H p).flatMap (beBytes 4)

/-- HMAC with SHA-256 (RFC 2104). -/
def hmacSha256 (key msg : Bytes) : Bytes :=
  let k0 := if key.length > 64 then sha256 key else key
  let k := k0 ++ zeros (64 - k0.length)
  sha256 (k.map (· ^^^ 0x5c) ++ sha256 (k.map (· ^^^ 0x36) ++ msg))

/-- The field prime of P-256. -/
def p256P : Nat := 0xffffffff00000001000000000000000000000000ffffffffffffffffffffffff
/-- The group order of P-256. -/
def p256N : Nat := 0xffffffff00000000ffffffffffffffffbce6faada7179e84f3b9cac2fc632551
/-- The coefficient b of P-256. -/
def p256B : Nat := 0x5ac635d8aa3a93e7b3ebbd55769886bc651d06b0cc53b0f63bce3c3e27d2604b
/-- The base point of P-256. -/
def p256G : Nat × Nat :=
  (0x6b17d1f2e12c4247f8bce6e563a440f277037d812deb33a0f4a13945d898c296,
   0x4fe342e2fe1a7f9b8ee7eb4a7c0f9e162bce33576b315ececbb6406837bf51f5)

/-- Modular power by squaring over `n` bits of the exponent, least significant first. -/
def powMod (m : Nat) : Nat → Nat → Nat → Nat → Nat
  | 0, _, _, acc => acc
  | n + 1, b, e, acc => powMod m n (b * b % m) (e / 2) (if e % 2 = 1 then acc * b % m else acc)

/-- Inverse modulo a 256-bit prime. -/
def invMod (m x : Nat) : Nat := powMod m 256 (x % m) (m - 2) 1

/-- A point of the curve in Jacobian coordinates: X / Z^2 and Y / Z^3, the point at infinity with Z = 0. -/
structure P256Point where
  x : Nat
  y : Nat
  z : Nat
  deriving DecidableEq, Repr

/-- The point at infinity. -/
def p256Zero : P256Point := ⟨1, 1, 0⟩

/-- A difference in the field, of values less than the prime. -/
def p256Sub (a b : Nat) : Nat := (a + p256P - b) % p256P

/-- Twice a point; the curve has a = -3. -/
def p256Double (q : P256Point) : P256Point :=
  let delta := q.z * q.z % p256P
  let gamma := q.y * q.y % p256P
  let beta := q.x * gamma % p256P
  let alpha := 3 * p256Sub q.x delta * (q.x + delta) % p256P
  let x := p256Sub (alpha * alpha % p256P) (8 * beta % p256P)
  ⟨x, p256Sub (alpha * p256Sub (4 * beta % p256P) x % p256P) (8 * gamma * gamma % p256P), 2 * q.y * q.z % p256P⟩

/-- Addition of points. -/
def p256Add (a b : P256Point) : P256Point :=
  if a.z = 0 then b
  else if b.z = 0 then a
  else
    let za := a.z * a.z % p256P
    let zb := b.z * b.z % p256P
    let u := a.x * zb % p256P
    let s := a.y * b.z * zb % p256P
    let h := p256Sub (b.x * za % p256P) u
    let r := p256Sub (b.y * a.z * za % p256P) s
    if h = 0 then (if r = 0 then p256Double a else p256Zero)
    else
      let hh := h * h % p256P
      let v := u * hh % p256P
      let x := p256Sub (r * r % p256P) ((h * hh + 2 * v) % p256P)
      ⟨x, p256Sub (r * p256Sub v x % p256P) (s * h * hh % p256P), h * a.z * b.z % p256P⟩

/-- Scalar multiplication over `n` bits, least significant first. -/
def p256Mul : Nat → Nat → P256Point → P256Point → P256Point
  | 0, _, _, acc => acc
  | n + 1, k, p, acc => p256Mul n (k / 2) (p256Double p) (if k % 2 = 1 then p256Add acc p else acc)

/-- Whether (x, y) is a point of the curve other than infinity. -/
def p256On (x y : Nat) : Bool :=
  x < p256P && y < p256P && y * y % p256P = (x * x % p256P * x + (p256P - 3) * x + p256B) % p256P

/-- ECDSA P-256 verification (FIPS 186-4): public key X then Y, signature r then s, each 32 bytes big-endian. -/
def ecdsaVerify (pub hash sig : Bytes) : Bool :=
  let x := ofBe (slice pub 0 32)
  let y := ofBe (slice pub 32 32)
  let r := ofBe (slice sig 0 32)
  let s := ofBe (slice sig 32 32)
  if !p256On x y || r = 0 || r ≥ p256N || s = 0 || s ≥ p256N then false
  else
    let w := invMod p256N s
    let u1 := ofBe hash * w % p256N
    let u2 := r * w % p256N
    let q := p256Add (p256Mul 256 u1 ⟨p256G.1, p256G.2, 1⟩ p256Zero) (p256Mul 256 u2 ⟨x, y, 1⟩ p256Zero)
    q.z ≠ 0 && q.x * invMod p256P (q.z * q.z) % p256P % p256N = r

end Sys2Proof.Machine
end

