-- ==== Sys2Proof/Machine/Boot.lean ====
section
/-! DEFINITION. Boot images, one-time-programmable memory and network record (R392 to R396): the checks of Table 18-8,
BOOT_LOAD_DONE, BOOT_VERIFY_DONE, the image commands, ROLLBACK_RAISE, KEY_REVOKE, NET_SAVE, PAGE_RELOAD_DONE. -/
namespace Sys2Proof.Machine

/-- Fields of an image header (Table 18-6). -/
def imgKeySlot (b : Bytes) : Nat := leAt b 5 1
def imgVersion (b : Bytes) : Nat := leAt b 8 4
def imgSecurity (b : Bytes) : Nat := leAt b 12 4
def imgLength (b : Bytes) : Nat := leAt b 16 4

/-- Whether `n` bytes at an offset are 0. -/
def zeroAt (b : Bytes) (off n : Nat) : Bool := slice b off n = zeros n

/-- The FORMAT check of Table 18-8: MAGIC, FORMAT, reserved fields, LENGTH and offsets within range. -/
def imgFormatOk (b : Bytes) : Bool :=
  let len := imgLength b
  slice b 0 4 = [0x48, 0x54, 0x46, 0x57] && leAt b 4 1 = 1 && imgKeySlot b ≤ 3 && zeroAt b 6 2 && zeroAt b 28 4 &&
  zeroAt b 96 32 && zeroAt b 192 64 && len % 4096 = 0 && 4096 ≤ len && len ≤ 62914560 && 256 + len ≤ b.length &&
  leAt b 20 4 < len && leAt b 24 4 + 32 * (len / 4096) ≤ len

/-- The status of an image by Table 18-8, after the read itself. -/
def State.imageStatus (s : State) (b : Bytes) : Nat :=
  if !imgFormatOk b then 2
  else if sha256 (slice b 32 64) ≠ atD s.otp.keys (imgKeySlot b) [] then 3
  else if s.otp.revoked.getLsbD (imgKeySlot b) then 4
  else if imgSecurity b < s.otp.securityMin then 5
  else if !ecdsaVerify (slice b 32 64) (sha256 (slice b 0 128 ++ slice b 256 (imgLength b))) (slice b 128 64) then 6
  else 1

/-- The image being tried: slot A (0), slot B (1), the buffer (2). -/
def State.slotImage (s : State) (slot : Nat) : Bytes :=
  match slot with
  | 0 => s.boot.flashA
  | 1 => s.boot.flashB
  | _ => s.boot.buffer

/-- The object that holds a slot's status. -/
def slotStatusObj (slot : Nat) : ObjRef := if slot ≤ 1 then Obj.IMAGE_STATUS + slot else Obj.IMAGE_BUFFER_STATUS

/-- A slot has failed: the next slot is tried from phase 3; with none left, phase 8 with error 2 (Table 18-7). A failed
boot from the buffer waits in phase 8 again, its command FAILED. -/
def State.slotFailed (s : State) (status : Nat) : State :=
  match s.boot.slots with
  | [] => s
  | x :: rest =>
    let s := { s.setN (slotStatusObj x) status with boot := { s.boot with slots := rest, loaded := false } }
    if x = 2 then (s.setN Obj.STARTUP_PHASE 8).setN Obj.IMAGE_COMMAND_STATE 3
    else if rest.isEmpty then
      ((s.setN Obj.STARTUP_PHASE 8).setN Obj.STARTUP_ERROR 2).setN Obj.STARTUP_DETAIL
        (s.getN Obj.IMAGE_STATUS + 256 * s.getN (Obj.IMAGE_STATUS + 1))
    else s.setN Obj.STARTUP_PHASE 3

/-- A slot has been read into DRAM, or the flash did not answer (status 7). -/
def execBootLoadDone (flashOk : Bool) (s : State) : Out :=
  if s.power ≠ 4 ∨ s.getN Obj.STARTUP_PHASE ≠ 3 then .next s
  else if !flashOk then .next (s.slotFailed 7)
  else .next { s.enterPhase 4 with boot := { s.boot with loaded := true } }

/-- Verification ends (R392, Table 18-7): a good image is released at ENTRY in phase 5. -/
def execBootVerifyDone (s : State) : Out :=
  if s.power ≠ 4 ∨ s.getN Obj.STARTUP_PHASE ≠ 4 then .next s
  else match s.boot.slots with
    | [] => .next s
    | x :: _ =>
      let b := s.slotImage x
      let st := s.imageStatus b
      if st ≠ 1 then .next (s.slotFailed st)
      else
        let s := (((s.setN (slotStatusObj x) 1).setN Obj.BOOT_SLOT x).setN Obj.FIRMWARE_VERSION (imgVersion b)).enterPhase 5
        let s := if x = 2 then s.setN Obj.IMAGE_COMMAND_STATE 2 else s
        .next { s with boot := { s.boot with slots := [], released := true, runKey := imgKeySlot b, runSecurity := imgSecurity b } }

/-- The firmware is not ready within 500 ms: phase 7 with error 3. -/
def execFirmwareReadyTimeout (s : State) : Out :=
  if s.power ≠ 4 ∨ s.getN Obj.STARTUP_PHASE ≠ 5 then .next s
  else
    let s := s.startupFail 3 0
    .next { s with boot := { s.boot with released := false } }

/-- An IMAGE_COMMAND while one is BUSY is refused with STATE (the model's reading of R394). -/
def State.imageBusy (s : State) : Bool := s.getN Obj.IMAGE_COMMAND_STATE = 1

/-- IMAGE_COMMAND 1: verify the buffer, with the result in 2002.04 (R394). -/
def writeImageVerify (s : State) (by_ : Caller) : Wr :=
  s.gate by_ Obj.IMAGE_COMMAND fun s =>
    if s.imageBusy then s.deny stState
    else ((s.setN Obj.IMAGE_BUFFER_STATUS (s.imageStatus s.boot.buffer)).setN Obj.IMAGE_COMMAND_STATE 2).ok

/-- IMAGE_COMMAND 2: boot from the buffer, from phase 4; allowed only in phase 8 (R394). -/
def writeImageBoot (s : State) (by_ : Caller) : Wr :=
  s.gate by_ Obj.IMAGE_COMMAND fun s =>
    if s.imageBusy ∨ s.getN Obj.STARTUP_PHASE ≠ 8 then s.deny stState
    else
      let s := (s.setN Obj.STARTUP_PHASE 4).setN Obj.IMAGE_COMMAND_STATE 1
      ({ s with boot := { s.boot with slots := [2], loaded := true } }).ok

/-- IMAGE_COMMAND 3 and 4: verify the buffer and program it; refused with STATE for the slot the running firmware booted
from, REFUSED for a buffer that fails (R394). -/
def writeImageProgram (s : State) (by_ : Caller) (slot : Nat) : Wr :=
  s.gate by_ Obj.IMAGE_COMMAND fun s =>
    if s.imageBusy ∨ (s.boot.released ∧ s.getN Obj.BOOT_SLOT = slot) then s.deny stState
    else
      let st := s.imageStatus s.boot.buffer
      let s := s.setN Obj.IMAGE_BUFFER_STATUS st
      if st ≠ 1 then s.deny stRefused
      else ({ s.setN Obj.IMAGE_COMMAND_STATE 1 with boot := { s.boot with command := 3 + slot } }).ok

/-- IMAGE_COMMAND 1. -/
def execImageVerify (by_ : Caller) (s : State) : Out := .next (writeImageVerify s by_).1
/-- IMAGE_COMMAND 2. -/
def execImageBoot (by_ : Caller) (s : State) : Out := .next (writeImageBoot s by_).1
/-- IMAGE_COMMAND 3. -/
def execImageProgramA (by_ : Caller) (s : State) : Out := .next (writeImageProgram s by_ 0).1
/-- IMAGE_COMMAND 4. -/
def execImageProgramB (by_ : Caller) (s : State) : Out := .next (writeImageProgram s by_ 1).1

/-- Programming a slot ends (R394). A slot whose programming failed holds bytes that the spec does not give. -/
def execImageProgramDone (ok : Bool) (s : State) : Out :=
  if s.boot.command = 0 then .next s
  else
    let slot := s.boot.command - 3
    let (junk, s') := s.freeBytes 256
    let data := if ok then s.boot.buffer else junk
    let s' := s'.setN Obj.IMAGE_COMMAND_STATE (if ok then 2 else 3)
    let s' := if ok then s'.emit (.flash (slot * 0x4000000) data) else s'
    .next { s' with boot := { s'.boot with
      command := 0
      flashA := if slot = 0 then data else s'.boot.flashA
      flashB := if slot = 1 then data else s'.boot.flashB } }

/-- ROLLBACK_RAISE: SECURITY_VERSION_MIN takes the SECURITY_VERSION of the running image; it never falls (R395). -/
def writeRollbackRaise (s : State) (by_ : Caller) : Wr :=
  s.gate by_ Obj.ROLLBACK_RAISE fun s =>
    if !s.boot.released then s.deny stState
    else ({ s with otp := { s.otp with securityMin := max s.otp.securityMin s.boot.runSecurity } }).ok

/-- KEY_REVOKE: refused for the running image's KEY_SLOT and where no slot would stay unrevoked (R395). -/
def writeKeyRevoke (s : State) (by_ : Caller) (slot : Nat) : Wr :=
  s.gate by_ Obj.KEY_REVOKE fun s =>
    let r := s.otp.revoked ||| BitVec.ofNat 4 (2 ^ slot)
    if slot > 3 then s.deny stRange
    else if (s.boot.released ∧ slot = s.boot.runKey) ∨ r = 0xF#4 then s.deny stState
    else ({ s with otp := { s.otp with revoked := r } }).ok

/-- ROLLBACK_RAISE. -/
def execRollbackRaise (by_ : Caller) (s : State) : Out := .next (writeRollbackRaise s by_).1
/-- KEY_REVOKE. -/
def execKeyRevoke (by_ : Caller) (slot : Nat) (s : State) : Out := .next (writeKeyRevoke s by_ slot).1

/-- The network record of the effective values (Table 18-9). -/
def State.netRecordBytes (s : State) : Bytes :=
  let port (p : Nat) : Bytes :=
    leBytes 4 (s.getN (Obj.CTL_IPV4_ADDR + p)) ++ [byte (s.getN (Obj.CTL_IPV4_PREFIX + p)), 0, 0, 0] ++
    leBytes 4 (s.getN (Obj.CTL_IPV4_GATEWAY + p))
  let b := [0x48, 0x54, 0x4E, 0x52] ++ port 0 ++ port 1
  b ++ leBytes 4 (crc32c b).toNat

/-- NET_SAVE (R396). -/
def writeNetSave (s : State) (by_ : Caller) : Wr :=
  s.gate by_ Obj.NET_SAVE fun s =>
    let b := s.netRecordBytes
    ({ s.emit (.flash 0x8000000 b) with boot := { s.boot with netRecord := b } }).ok

/-- NET_SAVE. -/
def execNetSave (by_ : Caller) (s : State) : Out := .next (writeNetSave s by_).1

/-- The addresses of phase 6 (R396): from the network record in mode 0b00, from outside in mode 0b01. -/
def State.takeAddresses (s : State) (net : Option NetConfig) : State :=
  let put (s : State) (a p g a1 p1 g1 : Nat) : State :=
    (((((s.setN Obj.CTL_IPV4_ADDR a).setN Obj.CTL_IPV4_PREFIX p).setN Obj.CTL_IPV4_GATEWAY g).setN
      (Obj.CTL_IPV4_ADDR + 1) a1).setN (Obj.CTL_IPV4_PREFIX + 1) p1).setN (Obj.CTL_IPV4_GATEWAY + 1) g1
  match s.straps.ctlmode % 4, net with
  | 0, _ =>
    let b := s.boot.netRecord
    if b.length ≥ 32 ∧ slice b 0 4 = [0x48, 0x54, 0x4E, 0x52] ∧ leAt b 28 4 = (crc32c (b.take 28)).toNat then
      put s (leAt b 4 4) (leAt b 8 1) (leAt b 12 4) (leAt b 16 4) (leAt b 20 1) (leAt b 24 4)
    else s.logEvent ⟨2, 15, 255, 255, Obj.CTL_IPV4_ADDR, 0, 0⟩
  | 1, some n => put s n.addr0 n.prefix0 n.gateway0 n.addr1 n.prefix1 n.gateway1
  | _, _ => s

/-- The watchdog expires (R405): counted, release trigger 6; after a release, and at HALT cause 3, no firmware runs. -/
def State.expireWatchdog (s : State) : State :=
  let s := (s.inc Obj.WATCHDOG_EXPIRIES).raise ⟨6, 15, 255, 255, 0⟩
  if s.isStandby then s else { s with boot := { s.boot with released := false } }

/-- The watchdog expires for one of the causes of R405, while firmware runs. -/
def execWatchdogExpiry (_cause : WatchdogCause) (s : State) : Out :=
  if s.boot.released ∧ s.power ≠ 0 ∧ s.power ≠ 5 then .next s.expireWatchdog else .next s

/-- A page reload ends; a page that fails twice ends the firmware as a watchdog expiry does (R392). -/
def execPageReloadDone (page : Nat) (good : Bool) (s : State) : Out :=
  if ¬s.boot.released ∨ s.power = 0 ∨ s.power = 5 then .next s
  else
    let n := (kvGet s.boot.fails page).getD 0
    if good then .next { s with boot := { s.boot with fails := kvDel s.boot.fails page } }
    else
      let s := { s with boot := { s.boot with fails := kvSet s.boot.fails page (n + 1) } }
      if n + 1 ≥ 2 then .next s.expireWatchdog else .next s

end Sys2Proof.Machine
end

