-- ==== Sys2Proof/Machine/Accept.lean ====
section
/-! DEFINITION. What an accepted Fiufen block does (R62 to R65, R76, R84, R89, R107, R119, R120, R145, R222, R238): the same for a
block read from a ring and for one that a standby receives by mirror. -/
namespace Sys2Proof.Machine

/-! ### JOB -/

/-- The content of a JOB payload (Table 03-3). -/
def jobPayloadOk (b : BlockImage) (p : Bytes) : Bool :=
  p.length = 32 && leAt p 0 4 = b.jobId && 1 ≤ leAt p 4 4 && leAt p 4 4 ≤ 65535 && 1 ≤ leAt p 8 8 && (slice p 20 12).all (· = 0)

/-- A JOB block may be accepted now (R48). -/
def State.mayTakeJob (s : State) : Bool := s.jobState ∈ [0, 5, 7] && s.coreOn

/-- Counts marked "this job" return to their defaults. -/
def State.clearJobCounts (s : State) : State :=
  { s with od := s.od.filter fun p => !((objRow p.1).map (·.thisJob)).getD false }

/-- The parts of the device that belong to one job begin anew; the mark table stays until a MARKS block replaces it (R64). -/
def State.clearJob (s : State) : State :=
  let keep (u : Option LaneUnit) : Option LaneUnit := u.filter LaneUnit.isHost
  { s with
    job := {}
    lay := { marks := s.lay.marks }
    ras := { runs := s.ras.runs, fails := s.ras.fails, refNext := s.ras.refNext, refRun := s.ras.refRun,
             corrCols := s.ras.corrCols, corrFails := s.ras.corrFails }
    spool := { redo := s.spool.redo.filter (·.2.isHost), lanes := s.spool.lanes.map fun (l : Lane) => { l with unit := keep l.unit } }
    sweep := {}
    hist := []
    flow := {}
    ledger := {}
    units := { s.units with sliceDue := [], lockLosses := [] }
    sram := { s.sram with windowUe := [[], [], [], []] }
    dram := { s.dram with used := true, channels := s.dram.channels.map fun (c : Channel) => { c with pllLosses := 0 } }
    st := { s.st with pending := [], unreleased := [], slots := [], stalled := false, nextStripe := 0, lastBand := none, doneBand := none, reload := [], reading := true, waitHead := none } }

/-- A JOB block is accepted (R48, R53, R62, R75, R107, R225, R238): PREPARING. -/
def State.acceptJob (s : State) (b : BlockImage) (p : Bytes) (refFails : List Nat) : State :=
  let s := (s.clearJobCounts).clearJob
  let s := (((s.setN Obj.JOB_ID b.jobId).setN Obj.JOB_STRIPES (leAt p 4 4)).setN Obj.JOB_AREA (leAt p 8 8)).setN Obj.JOB_PIXEL_SIZE (leAt p 16 4)
  let s := ((s.setN Obj.EXPECTED_SEQ 1).setN Obj.SWEEP_STATE 0).setN Obj.PENDING_REJECTIONS 0
  let s : State := { s with st := { s.st with jobId := b.jobId } }
  ((s.referenceTest refFails).setJobState jobPreparing).advanceRaster

/-! ### STRIPE and END -/

/-- A head identity has been read (R202). -/
def State.headKnown (s : State) : Bool := s.head.identity.isSome && s.getN Obj.HEAD_STATE = 2

/-- The pitch that a STRIPE block must match: the head's for the first stripe, then the one in force (R145). -/
def State.pitchDue (s : State) : Nat :=
  if s.st.nextStripe = 0 then (s.head.identity.map (·.pitch)).getD s.B else s.B

/-- The geometry of a STRIPE payload (R63, Table 03-12). -/
def State.stripeGeometryOk (s : State) (p : Bytes) : Bool :=
  let x0 := leAtI p 12 4
  let x1 := leAtI p 16 4
  decide (x0 < x1) && leAt p 20 4 = 640 * s.pitchDue && ceilDiv (x1 - x0).toNat 4096 ≤ 65536

/-- The placement fields in effect (R116). -/
def State.fieldTable (s : State) : List Field :=
  ((List.range 64).filter fun f => s.on (Obj.FIELD_ENABLE + 256 * f)).map fun f =>
    let g (o : ObjRef) : Int := s.get (o + 256 * f)
    { index := f, xLo := g Obj.X_LO, xHi := g Obj.X_HI, yLo := g Obj.Y_LO, yHi := g Obj.Y_HI, xc := g Obj.FIELD_XC, yc := g Obj.FIELD_YC,
      shift := (g Obj.FIELD_SHIFT).toNat, a := (List.range 10).map fun i => g (Obj.FIELD_A + i), b := (List.range 10).map fun i => g (Obj.FIELD_B + i) }

/-- Every accepted stripe is complete (R76). -/
def State.completeStripes (s : State) : State :=
  { s with lay := { s.lay with stripes := s.lay.stripes.map fun (t : Stripe) => { t with complete := true } } }

/-- A STRIPE block is accepted (R63, R76, R120, R145). -/
def State.acceptStripe (s : State) (b : BlockImage) (p : Bytes) : State :=
  let s := if s.st.nextStripe = 0 then s.setPitch s.pitchDue else s
  let s := (s.takeStripe isFieldObj).completeStripes
  let st : Stripe := { number := b.stripe, dirMinus := leAt p 4 1 = 1, yOrigin := leAtI p 8 4, xStart := leAtI p 12 4, xEnd := leAtI p 16 4,
                       complete := false, fields := s.fieldTable }
  ({ s with lay := { s.lay with stripes := s.lay.stripes ++ [st] }, st := { s.st with nextStripe := b.stripe + 1, lastBand := none, doneBand := none } }).advanceRaster

/-- An END block is accepted (R76, R87). -/
def State.acceptEnd (s : State) : State :=
  let s := s.completeStripes
  ({ s with st := { s.st with reading := false }, job := { s.job with endDone := true } }).advanceRaster

/-! ### CELLDEF -/

/-- A rejected CELLDEF makes its cell pending (R84). -/
def State.addPendingCell (s : State) (id seq : Nat) : State :=
  if (findCell s.lay.cells id).isSome then s
  else { s with lay := { s.lay with cells := s.lay.cells ++ [⟨id, [], boxZero, true, seq, 0⟩] } }

/-- A CELLDEF is accepted; a repair fills the pending cell. -/
def State.acceptCell (s : State) (b : BlockImage) (rs : List Rec) : State :=
  let c : Cell := ⟨b.aux, rs, b.bbox, false, b.seq, b.rawLength⟩
  let rest := s.lay.cells.filter (·.id ≠ b.aux)
  { s with lay := { s.lay with cells := rest ++ [c] } }

/-! ### BAND and HALO -/

/-- The regions that receive a block (R19). -/
def State.receivers (s : State) (b : LBlock) : List Nat := regions.filter fun r => s.receives r b

/-- Primitive instances of a block whose displacement is clamped (R119). -/
def State.clampedIn (s : State) (st : Stripe) (b : LBlock) : Nat :=
  let clip : Box := ⟨-2 ^ 33, -2 ^ 33, 2 ^ 33, 2 ^ 33⟩
  ((expandRecs s.lay.cells clip 9 Xform.id none b.recs).filter fun p => p.saturates st b.band).length

/-- Count clamped instances in the regions that receive their block, and enter each once (R119, R440). -/
def State.countClamps (s : State) (b : LBlock) (n : Nat) : State :=
  if n = 0 then s
  else
    let rs := s.receivers b
    let s := rs.foldl (fun s r => s.add (Obj.PLACEMENT_SATURATIONS + r) n) s
    let r := rs.headD 0
    foldN n (fun s i => s.logEvent ⟨3, 2, r, 255, Obj.PLACEMENT_SATURATIONS + r, b.seq, i⟩) s

/-- The later of two bands of a stripe in sweep order. -/
def Stripe.laterBand (st : Stripe) (old : Option Nat) (band : Nat) : Option Nat :=
  match old with
  | none => some band
  | some o => some (if st.dirMinus then min o band else max o band)

/-- A band of the stripe that the stream stands at: one that has stood on the ring in its turn, one with an accepted block. -/
def State.noteBand (s : State) (stripe band : Nat) (turn accepted : Bool) : State :=
  match s.stripeOf stripe with
  | none => s
  | some st =>
    if stripe + 1 ≠ s.st.nextStripe then s
    else { s with st := { s.st with
      lastBand := if turn then st.laterBand s.st.lastBand band else s.st.lastBand
      doneBand := if accepted then st.laterBand s.st.doneBand band else s.st.doneBand } }

/-- A rejected BAND or HALO block that stood in its turn on the ring (R75): all but those rejected for their own order (status 5). -/
def State.noteRejected (s : State) (p : Pend) : State :=
  if p.known && !p.waits && p.tile.isNone && (p.type = blockCode .band || p.type = blockCode .halo) && p.status ≠ 5 then
    s.noteBand p.stripe p.band true false
  else s

/-- A BAND or HALO block is accepted (R65, R76, R79, R119, R135, R222). A repair in a slot at which the stream waited stands in its turn. -/
def State.acceptBand (s : State) (b : BlockImage) (halo : Bool) (rs : List Rec) (rails : List (Nat × List Bool)) (repair late : Bool) : State :=
  let blk : LBlock := { halo := halo, stripe := b.stripe, band := b.band, seq := b.seq, recs := rs, bbox := b.bbox, bytes := 64 + b.payloadLength,
                        held := true, released := false, late := late }
  let rest := s.lay.blocks.filter (·.seq ≠ b.seq)
  let s : State := { s with lay := { s.lay with blocks := rest ++ [blk] } }
  let s := s.noteBand b.stripe b.band (!repair) true
  let s := match s.stripeOf b.stripe with
    | some st => s.countClamps blk (s.clampedIn st blk)
    | none => s
  (s.placementRails rails).advanceRaster

/-! ### MARKS -/

/-- A MARKS block is accepted: the mark table is replaced, every entry of MF_RESULTS has STATUS 0 (R64, R344). -/
def State.acceptMarks (s : State) (ms : List Mark) : State :=
  let old := s.cams.marks
  let fresh := ms.map fun m =>
    match old.find? (·.id = m.id) with
    | some r => { r with status := 0 }
    | none => { id := m.id }
  let mf : Option MfRequest := s.cams.mf.bind fun r =>
    match old[r.mark]? with
    | some x => (ms.findIdx? (·.id = x.id)).map fun i => { r with mark := i }
    | none => none
  let s := if s.cams.mf.isSome && mf.isNone then s.setN Obj.MF_STATE 2 else s
  { s with lay := { s.lay with marks := ms }, cams := { s.cams with marks := fresh, mf := mf } }

/-! ### Repairs -/

/-- Blocks and cells that place a cell, directly or through others, by what they place (`n` levels). -/
def reachesCell (cs : List Cell) (id : Nat) : Nat → List Rec → Bool
  | 0, _ => false
  | n + 1, rs => (placedCells rs).any fun k => k = id || match findCell cs k with
    | some c => reachesCell cs id n c.recs
    | none => false

/-- The records of a block or cell pass R71 and R73. -/
def recsOk (cs : List Cell) (level : Nat) (box : Box) (rs : List Rec) : Bool := rs.all (placeOk cs level box)

/-- A repaired cell: every accepted placement of it is checked again; a placing block or cell that fails becomes pending (R84).
Instances that contribute from now on may be clamped (R119). -/
def State.recheckCell (s : State) (id : Nat) : State :=
  let cs := s.lay.cells
  let badCells := cs.filter fun c => !c.pending && c.id ≠ id && reachesCell cs id 9 c.recs && !recsOk cs 1 c.bbox c.recs
  let s := badCells.foldl (fun (s : State) c =>
    ({ s with lay := { s.lay with cells := s.lay.cells.map fun (x : Cell) => if x.id = c.id then { x with recs := [], pending := true } else x } }).rejectLate
      4 c.seq 0 0 3 c.id none none) s
  let hit := s.lay.blocks.filter fun b => reachesCell cs id 9 b.recs
  hit.foldl (fun (s : State) b =>
    if recsOk s.lay.cells 0 b.bbox b.recs then
      match s.stripeOf b.stripe with
      | some st =>
        let was : State := { s with lay := { s.lay with cells := s.lay.cells.map fun (x : Cell) => if x.id = id then { x with pending := true } else x } }
        s.countClamps b (s.clampedIn st b - was.clampedIn st b)
      | none => s
    else
      ({ s with lay := { s.lay with blocks := s.lay.blocks.filter (·.seq ≠ b.seq) } }).rejectLate 4 b.seq b.stripe b.band
        (if b.halo then 5 else 4) 0 (some b.bbox) none) s

/-- What follows an accepted repair: a repaired cell is checked in its placements; a lost tile is rasterized again unless its
region has given it up (R84, R88, R222, Table 11-5). -/
def State.afterRepair (s : State) (p : Pend) (type : BlockType) (aux : Nat) : State :=
  let s := if type = .celldef then s.recheckCell aux else s
  let s : State := match p.tile with
    | some (u, t) =>
      let k : TileKey := ⟨p.stripe, u, t⟩
      if p.gaveUp.contains (s.regionOf t) ∨ s.ras.again.contains k then s else { s with ras := { s.ras with again := s.ras.again ++ [k] } }
    | none => s
  s.advanceRaster

end Sys2Proof.Machine
end

