-- ==== Sys2Proof/Machine/CheckUnit.lean ====
section
/-! DEFINITION. The check-value units CU0 to CU3 (R322 to R329). The bytes of an accepted write are taken into the register at
once; the buffer of a feed port is held as the core cycle at which it runs empty. The units belong to the core domain: while it is
stopped a write of theirs answers STATE and nothing is fed or latched (R24). -/
namespace Sys2Proof.Machine

/-- Register width of an algorithm (Table 14-1). -/
def cuWidth (poly : Nat) : Nat := if poly = 2 then 16 else if poly = 3 then 64 else 32

/-- Initial value of an algorithm (Table 14-1). -/
def cuInitial (poly : Nat) : Nat := 2 ^ cuWidth poly - 1

/-- Final XOR of an algorithm (Table 14-1). -/
def cuFinal (poly : Nat) : Nat := if poly = 2 then 0 else 2 ^ cuWidth poly - 1

/-- The register of an algorithm after bytes (R323): reflected for algorithms 0, 1 and 3. -/
def cuRun (poly v : Nat) (bs : Bytes) : Nat :=
  match poly with
  | 0 => (crcRefl 32 0x82F63B78#32 (BitVec.ofNat 32 v) bs).toNat
  | 1 => (crcRefl 32 0xEDB88320#32 (BitVec.ofNat 32 v) bs).toNat
  | 2 => (crcFwd 16 0x1021#16 (BitVec.ofNat 16 v) bs).toNat
  | _ => (crcRefl 64 0xC96C5795D7870F42#64 (BitVec.ofNat 64 v) bs).toNat

/-- Buffer of a feed port in bytes (R324). -/
abbrev cuBuffer : Nat := 8192

/-- The unit's part. -/
def State.cu (s : State) (u : Nat) : CheckUnit := atD s.cus u {}

/-- Bytes that wait in the feed port: one leaves per core cycle (R324, R325). -/
def State.cuLevel (s : State) (u : Nat) : Nat := min cuBuffer ((s.cu u).drain - s.clk.cycle)

/-- The level request of a feed port (R325): at least 4,096 bytes free. -/
def State.cuRequest (s : State) (u : Nat) : Bool := s.cuLevel u ≤ 4096

/-- CU_RESULT after every byte accepted (R323). -/
def State.cuResult (s : State) (u : Nat) : Nat := s.getN (Obj.CU_VALUE + u) ^^^ cuFinal (s.getN (Obj.CU_POLY + u))

/-- Bytes enter a unit's stream in order of acceptance (R324, R326). -/
def State.cuFeed (s : State) (u : Nat) (bs : Bytes) : State :=
  let s := (s.setN (Obj.CU_VALUE + u) (cuRun (s.getN (Obj.CU_POLY + u)) (s.getN (Obj.CU_VALUE + u)) bs)).add (Obj.CU_BYTES + u) bs.length
  { s with cus := modifyAt s.cus u fun (c : CheckUnit) => { c with drain := max c.drain s.clk.cycle + bs.length } }

/-- The register takes the initial value of its algorithm, CU_BYTES becomes 0 (Table 14-2). -/
def State.cuStart (s : State) (u : Nat) : State :=
  (s.setN (Obj.CU_VALUE + u) (cuInitial (s.getN (Obj.CU_POLY + u)))).setN (Obj.CU_BYTES + u) 0

/-- A pulse reaches a unit's latch: the value at this point of its stream waits to be captured (R328). -/
def State.cuPulse (s : State) (u : Nat) : State :=
  { s with cus := modifyAt s.cus u fun (c : CheckUnit) => { c with latches := c.latches ++ [(s.cuResult u, s.getN (Obj.CU_BYTES + u))] } }

/-- The oldest latch of a unit completes (R328). -/
def State.cuCapture (s : State) (u : Nat) : State :=
  match (s.cu u).latches with
  | [] => s
  | (r, n) :: rest =>
    let s := ((s.setN (Obj.CU_LATCH + u) r).setN (Obj.CU_LATCH_BYTES + u) n).inc (Obj.CU_LATCH_COUNT + u)
    { s with cus := modifyAt s.cus u fun (c : CheckUnit) => { c with latches := rest } }

/-- A write of CU_VALUE: RANGE where a bit at or above the width is set (Table 14-2). -/
def writeCuValue (s : State) (u v : Nat) : Wr :=
  if !s.coreOn then s.deny stState else if 2 ^ cuWidth (s.getN (Obj.CU_POLY + u)) ≤ v then s.deny stRange else (s.setN (Obj.CU_VALUE + u) v).ok

/-- A write of CU_POLY: then as CU_INIT under the new algorithm (Table 14-2). -/
def writeCuPoly (s : State) (u poly : Nat) : Wr :=
  if !s.coreOn then s.deny stState else if 3 < poly then s.deny stRange else ((s.setN (Obj.CU_POLY + u) poly).cuStart u).ok

/-- A feed write of the unit: 1, 2 or 4 bytes, lowest first. -/
def writeCuFeed (s : State) (u n v : Nat) : Wr := if s.coreOn then (s.cuFeed u (leBytes n v)).ok else s.deny stState

/-- A write of 1 to CU_INIT. -/
def writeCuInit (s : State) (u : Nat) : Wr := if s.coreOn then (s.cuStart u).ok else s.deny stState

/-- CU_FEED8 (R324). -/
def execCuFeed8 (u : Nat) (v : BitVec 8) (s : State) : Out := .next (if u < 4 then (writeCuFeed s u 1 v.toNat).1 else s)
/-- CU_FEED16 (R324). -/
def execCuFeed16 (u : Nat) (v : BitVec 16) (s : State) : Out := .next (if u < 4 then (writeCuFeed s u 2 v.toNat).1 else s)
/-- CU_FEED32 (R324). -/
def execCuFeed32 (u : Nat) (v : BitVec 32) (s : State) : Out := .next (if u < 4 then (writeCuFeed s u 4 v.toNat).1 else s)
/-- CU_VALUE_WRITE (R327). -/
def execCuValueWrite (u : Nat) (v : BitVec 64) (s : State) : Out := .next (if u < 4 then (writeCuValue s u v.toNat).1 else s)
/-- CU_INIT (R327). -/
def execCuInit (u : Nat) (s : State) : Out := .next (if u < 4 then (writeCuInit s u).1 else s)
/-- CU_POLY (R327). -/
def execCuPoly (u poly : Nat) (s : State) : Out := .next (if u < 4 then (writeCuPoly s u poly).1 else s)
/-- CU_LATCH (R328): the oldest latch whose pulse has arrived completes. -/
def execCuLatch (u : Nat) (s : State) : Out := .next (if u < 4 ∧ s.coreOn then s.cuCapture u else s)
/-- CU_STATE_READ (R327): CU_VALUE or CU_RESULT after the bytes accepted before the read. -/
def execCuStateRead (u : Nat) (result : Bool) (s : State) : Out :=
  .next (if 4 ≤ u then s
    else if result then s.emit (.reading (Obj.CU_RESULT + u) (leBytes 8 (s.cuResult u)))
    else s.emit (.reading (Obj.CU_VALUE + u) (leBytes 8 (s.getN (Obj.CU_VALUE + u)))))

end Sys2Proof.Machine
end

