-- ==== Sys2Proof/Machine/Dma.lean ====
section
/-! DEFINITION. The DMA engine (R306 to R321): descriptors, bursts, the event matrix, halts and aborts. -/
namespace Sys2Proof.Machine

/-- The channel's part. -/
def State.dmaCh (s : State) (c : Nat) : DmaChannel := atD s.dma c {}

/-- Change a channel's part. -/
def State.modDma (s : State) (c : Nat) (f : DmaChannel → DmaChannel) : State := { s with dma := modifyAt s.dma c f }

/-- A channel runs: CH_STATE 1 or 2. -/
def State.dmaActive (s : State) (c : Nat) : Bool := s.getN (Obj.CH_STATE + c) = 1 || s.getN (Obj.CH_STATE + c) = 2

/-- CONTROL fields (Table 13-3). -/
def DmaDesc.srcSpace (d : DmaDesc) : Nat := bitsOf d.control 1 0
def DmaDesc.dstSpace (d : DmaDesc) : Nat := bitsOf d.control 3 2
def DmaDesc.srcFixed (d : DmaDesc) : Bool := bitOf d.control 6
def DmaDesc.dstFixed (d : DmaDesc) : Bool := bitOf d.control 7
def DmaDesc.srcWidth (d : DmaDesc) : Nat := bitsOf d.control 10 8
def DmaDesc.dstWidth (d : DmaDesc) : Nat := bitsOf d.control 13 11
def DmaDesc.eventOnEnd (d : DmaDesc) : Bool := bitOf d.control 14

/-- A descriptor from its 64 bytes (Table 13-2). -/
def dmaDescOf (b : Bytes) : DmaDesc := ⟨leAt b 0 4, leAt b 4 4, leAt b 8 8, leAt b 16 8, leAt b 24 8⟩

/-- R308 for a channel: bulk below 4. The destination alone can be a port (Table 13-4). -/
def dmaDescOk (c : Nat) (d : DmaDesc) (reserved : Bytes) : Bool :=
  bitsOf d.control 31 15 = 0 && bitsOf d.control 5 4 = 0 && reserved.all (· = 0) && 1 ≤ d.length && d.next % 64 = 0 &&
  d.srcSpace ≤ 1 && d.dstSpace ≤ 2 && !d.srcFixed && (d.dstFixed == (d.dstSpace = 2)) &&
  if c < 4 then
    let sw := 2 ^ d.srcWidth
    let dw := 2 ^ d.dstWidth
    d.dstSpace ≠ 2 && 3 ≤ d.srcWidth && d.srcWidth ≤ 6 && 3 ≤ d.dstWidth && d.dstWidth ≤ 6 &&
    d.src % sw = 0 && d.dst % dw = 0 && d.length % max sw dw = 0
  else
    d.srcWidth = 0 &&
    (if d.dstSpace = 2 then d.dst ≤ 3 && d.dstWidth ≤ 2 && d.length % 2 ^ d.dstWidth = 0 else d.dstWidth = 0)

/-- The first address outside the limits of R309 and Table 13-6 cause 5. -/
def State.dmaOutside (s : State) (d : DmaDesc) : Option Nat :=
  let cap := s.getN Obj.DRAM_CAPACITY
  let top := s.getN Obj.DRAM_RESERVED_BASE
  if d.srcSpace = 0 ∧ cap < d.src + d.length then some (max d.src cap)
  else if d.dstSpace = 0 ∧ top < d.dst + d.length then some (max d.dst top)
  else none

/-- Source and destination in one space whose ranges overlap (R314). -/
def DmaDesc.overlaps (d : DmaDesc) : Bool :=
  d.srcSpace = d.dstSpace && d.src < d.dst + d.length && d.dst < d.src + d.length

/-- The copy runs downward (R314). -/
def DmaDesc.descending (d : DmaDesc) : Bool := d.overlaps && d.src < d.dst

/-- Whether the channel has a request to serve (R310). -/
def State.dmaGranted (s : State) (c : Nat) : Bool :=
  let x := s.dmaCh c
  if x.request = 0 then true else if x.request ≤ 64 then 0 < x.pulses else s.cuRequest (x.request - 65)

/-- CH_STATE of a running channel: RUNNING with a request to serve, otherwise WAITING (R310). -/
def State.refreshDma (s : State) (c : Nat) : State :=
  if s.dmaActive c then s.setN (Obj.CH_STATE + c) (if s.dmaGranted c then 1 else 2) else s

/-- Bytes of the current descriptor are written. -/
def State.dmaWrote (s : State) (c n : Nat) : State :=
  (s.add (Obj.CH_BYTES + c) n).setN (Obj.CH_REMAINING + c) (s.getN (Obj.CH_REMAINING + c) - n)

/-- Write a piece of DRAM for a channel: a part of a word that reads as uncorrectable stays poisoned (R318). -/
def State.dmaDram (s : State) (a : Nat) (bs : Bytes) (fs : List WordFault) : State :=
  let ends := [a / 8, (a + bs.length - 1) / 8].filter fun wa => a > 8 * wa || a + bs.length < 8 * wa + 8
  let s := ends.eraseDups.foldl (fun (s : State) wa =>
    if (s.readOutcome wa fs).1.bad then (s.readWordAt wa fs 1).1 else s) s
  s.dramStore a bs

/-- Write a piece at offset `o` of the destination. -/
def State.dmaPut (s : State) (c : Nat) (d : DmaDesc) (o : Nat) (bs : Bytes) (fs : List WordFault) : State :=
  if bs = [] then s
  else
    let s := if d.dstSpace = 0 then s.dmaDram (d.dst + o) bs fs
      else if d.dstSpace = 1 then s.emit (.hostWrite (d.dst + o) bs)
      else s.cuFeed d.dst bs
    s.dmaWrote c bs.length

/-- The offset of `n` bytes in copy order after `m`: from the bottom, or from the top of a descending copy. -/
def DmaDesc.offset (d : DmaDesc) (m n : Nat) : Nat := if d.descending then d.length - m - n else m

/-- Bytes that have been read, in address order, are written: those of the funnel first in copy order. A narrow channel keeps the
part of a destination word that the rest of the descriptor completes (R313), unless `flush`. -/
def State.dmaDrain (s : State) (c : Nat) (d : DmaDesc) (fs : List WordFault) (flush : Bool) : State :=
  let x := s.dmaCh c
  let m := x.moved - x.funnel.length
  let n := x.funnel.length
  let o := d.offset m n
  let keep := if flush || d.dstSpace ≠ 0 || x.moved = d.length then 0
    else if d.descending then min n ((8 - (d.dst + o) % 8) % 8) else min n ((d.dst + o + n) % 8)
  let s := s.modDma c fun x => { x with funnel := if d.descending then x.funnel.take keep else x.funnel.drop (n - keep) }
  if d.descending then s.dmaPut c d (o + keep) (x.funnel.drop keep) fs else s.dmaPut c d o (x.funnel.take (n - keep)) fs

/-- A channel halts (R318): what the funnel holds has been read and is written. -/
def State.dmaHalt (s : State) (c cause addr : Nat) : State :=
  let s := match (s.dmaCh c).desc with
    | some d => s.dmaDrain c d [] true
    | none => s
  let s := ((s.setN (Obj.CH_STATE + c) 4).setN (Obj.CH_HALT_CAUSE + c) cause).setN (Obj.CH_HALT_ADDR + c) addr
  (s.modDma c fun x => { x with pulses := 0, port := [] }).logEvent ⟨4, 15, 255, c, Obj.CH_HALT_CAUSE + c, cause, addr⟩

/-- Begin the descriptor at an address (R309): read once, checked by R308. A copy onto itself moves nothing (R314). -/
def State.dmaBegin (s : State) (c a : Nat) (fs : List WordFault) : State :=
  let s := s.setN (Obj.CH_DESC_ADDR + c) a
  let s := s.modDma c fun x => { x with desc := none, moved := 0, funnel := [], port := [] }
  if s.getN Obj.DRAM_CAPACITY ≤ a then s.dmaHalt c 5 a
  else match s.readMem a 64 fs with
    | (s, none) => s.dmaHalt c 4 a
    | (s, some b) =>
      let d := dmaDescOf b
      if !dmaDescOk c d (b.drop 36) then s.dmaHalt c 3 a
      else match s.dmaOutside d with
        | some x => s.dmaHalt c 5 x
        | none =>
          let none_ := d.overlaps && d.src = d.dst
          let s := (s.setN (Obj.CH_TAG + c) (leAt b 32 4)).setN (Obj.CH_REMAINING + c) (if none_ then 0 else d.length)
          (s.modDma c fun x => { x with desc := some d, moved := if none_ then d.length else 0 }).refreshDma c

/-- A write of CH_START (R309). -/
def State.dmaStart (s : State) (c a : Nat) (fs : List WordFault) : Wr :=
  if s.dmaActive c then s.deny stState
  else if a % 64 ≠ 0 ∨ s.getN Obj.DRAM_CAPACITY ≤ a then s.deny stRange
  else
    let s := ((s.setN (Obj.CH_STATE + c) 1).setN (Obj.CH_HALT_CAUSE + c) 0).setN (Obj.CH_BYTES + c) 0
    let s := s.modDma c fun _ => { request := s.getN (Obj.CH_REQUEST + c), burst := s.getN (Obj.CH_BURST + c),
                                   line := s.getN (Obj.CH_EVENT_LINE + c) }
    (s.dmaBegin c a fs).ok

/-- A write of CH_START by a session. -/
def writeChStart (s : State) (by_ : Caller) (c a : Nat) (fs : List WordFault) : Wr :=
  s.gate by_ (Obj.CH_START + c) fun s => if s.coreOn then s.dmaStart c a fs else s.deny stState

/-- CH_START (R309). -/
def execChStart (by_ : Caller) (c a : Nat) (fs : List WordFault) (s : State) : Out :=
  .next (if c < 32 then (writeChStart s by_ c a fs).1 else s)

/-- A pulse of an event line reaches every consumer that selects it (R310, R317). -/
def State.pulseLine (s : State) (line : Nat) : State :=
  let s := (List.range 32).foldl (fun (s : State) c =>
    let x := s.dmaCh c
    if s.dmaActive c ∧ x.request = line + 1 then
      if x.pulses ≥ 255 then s.inc (Obj.CH_OVERRUNS + c)
      else (s.modDma c fun x => { x with pulses := x.pulses + 1 }).refreshDma c
    else s) s
  let takes (i : Nat) : Bool := s.getN (Obj.EVENT_CONSUMER + i) = line
  let s := (List.range 4).foldl (fun (s : State) u => if takes u then s.cuPulse u else s) s
  let s := if takes 4 then s.setN Obj.HJ_PRODUCER ((s.getN Obj.HJ_PRODUCER + 1) % 2 ^ 32) else s
  (List.range 4).foldl (fun (s : State) i => if takes (5 + i) then s.setN (Obj.EVENT_TIME + i) s.now else s) s

/-- The address of the first word of a destination piece on a lost channel, if any, in copy order. -/
def State.dmaLostWord (s : State) (d : DmaDesc) (o n : Nat) : Option Nat :=
  let ws := (wordsOf (d.dst + o) n).filter fun wa => s.channelLost (channelOf (8 * wa))
  if d.descending then ws.getLast? else ws.head?

/-- Bytes of a piece of `n` at offset `o` that precede a word of address `w` on a side that begins at `base`, in copy order. -/
def DmaDesc.before (d : DmaDesc) (base o n w : Nat) : Nat :=
  if d.descending then base + o + n - min (base + o + n) (w + 8) else w - (base + o)

/-- The bytes of a piece that the source delivers in copy order before its first fault, and the fault (R318). -/
def State.dmaRead (s : State) (d : DmaDesc) (o n : Nat) (inp : DmaInputs) : State × Nat × Bytes × Option (Nat × Nat) :=
  if d.srcSpace = 1 then
    let k := min n (inp.hostFault.getD n)
    let at_ := if d.descending then d.src + o + n - k - 1 else d.src + o + k
    let bs := (inp.hostData ++ zeros n).take n
    (s, k, if d.descending then bs.drop (n - k) else bs.take k, if k < n then some (2, at_) else none)
  else
    let (s, fs) := s.forwards (d.src + o) n inp.faults
    let ws := (wordsOf (d.src + o) n).filter fun wa => (s.readOutcome wa fs).1.bad
    match if d.descending then ws.getLast? else ws.head? with
    | none => match s.readWords (d.src + o) n fs with
      | (s, bs) => (s, n, bs.getD [], none)
    | some wa =>
      let k := d.before d.src o n (8 * wa)
      match s.readWords (if d.descending then d.src + o + n - k else d.src + o) k fs with
      | (s, bs) => ((s.readWordAt wa fs 1).1, k, bs.getD [], some (1, 8 * wa))

/-- One burst (R310, R311): read, then written in copy order up to its first fault. -/
def State.dmaMove (s : State) (c : Nat) (d : DmaDesc) (inp : DmaInputs) : State :=
  let x := s.dmaCh c
  let n := min x.burst (d.length - x.moved)
  let o := d.offset x.moved n
  let s := if 65 ≤ x.request ∧ inp.withdrawn then s.inc (Obj.CH_WITHDRAWN + c) else s
  let s := if 1 ≤ x.request ∧ x.request ≤ 64 then s.modDma c fun x => { x with pulses := x.pulses - 1 } else s
  let (s, k, bs, fault) := s.dmaRead d o n inp
  let lostAt := if d.dstSpace = 0 then s.dmaLostWord d (d.offset x.moved k) k else none
  let (k, bs, fault) := match lostAt with
    | none => (k, bs, fault)
    | some wa =>
      let j := min k (d.before d.dst (d.offset x.moved k) k (8 * wa))
      (j, if d.descending then bs.drop (k - j) else bs.take j, some (1, 8 * wa))
  if d.dstSpace = 2 ∧ fault = none then (s.modDma c fun x => { x with moved := x.moved + k, port := bs }).refreshDma c
  else
    let s := s.modDma c fun x =>
      { x with moved := x.moved + k, funnel := if d.descending then bs ++ x.funnel else x.funnel ++ bs }
    match fault with
    | some (cause, a) => s.dmaHalt c cause a
    | none => (s.dmaDrain c d inp.faults false).refreshDma c

/-- A channel whose HOST side cannot be served halts with cause 2 at the address of its next request (R81). -/
def State.dmaHostHalt (s : State) (c : Nat) (d : DmaDesc) : State :=
  let m := (s.dmaCh c).moved
  let base := if d.srcSpace = 1 then d.src else d.dst
  s.dmaHalt c 2 (if d.descending then base + (d.length - m) - 1 else base + m)

/-- A descriptor with a HOST side. -/
def DmaDesc.host (d : DmaDesc) : Bool := d.srcSpace = 1 || d.dstSpace = 1

/-- DMA_BURST (R310): a channel with a request to serve and bytes left moves a burst. With a HOST side it waits while Bus Master
Enable is clear (R80) and halts while the link is down (R81). -/
def execDmaBurst (c : Nat) (inp : DmaInputs) (s : State) : Out :=
  match (s.dmaCh c).desc with
  | some d =>
    if s.coreOn && s.dmaActive c && s.dmaGranted c && (s.dmaCh c).port = [] && (s.dmaCh c).moved < d.length then
      if d.host && !s.host.up then .next (s.dmaHostHalt c d)
      else if d.host && !s.host.busMaster then .next s
      else .next (s.dmaMove c d inp)
    else .next s
  | none => .next s

/-- CU_PORT_WRITE (R325): the write of a channel that waits at a feed port is accepted once it finds space. -/
def execCuPortWrite (c u : Nat) (s : State) : Out :=
  let x := s.dmaCh c
  match x.desc with
  | some d =>
    if d.dstSpace = 2 ∧ d.dst = u ∧ x.port ≠ [] ∧ s.cuLevel u + x.port.length ≤ cuBuffer then
      .next (((s.cuFeed u x.port).dmaWrote c x.port.length).modDma c fun x => { x with port := [] })
    else .next s
  | none => .next s

/-- DMA_DESCRIPTOR_END (R316): every write has been accepted. `samePulse`: another channel pulses the line in this cycle. -/
def execDmaDescriptorEnd (c : Nat) (samePulse : Bool) (faults : DescFaults) (s : State) : Out :=
  let x := s.dmaCh c
  match x.desc with
  | some d =>
    if s.dmaActive c ∧ x.moved = d.length ∧ x.port = [] then
      let s := if !d.eventOnEnd then s else if samePulse then s.inc Obj.EVENT_MERGES else s.pulseLine x.line
      if d.next = 0 then .next (s.setN (Obj.CH_STATE + c) 3)
      else .next (s.dmaBegin c d.next faults)
    else .next s
  | none => .next s

/-- A channel is aborted (R319): what has been read is written; it reads ABORTED. -/
def State.abortChannel (s : State) (c : Nat) : State :=
  if s.dmaActive c then
    let s := match (s.dmaCh c).desc with
      | some d =>
        let p := (s.dmaCh c).port
        let s := if p = [] then s else (s.cuFeed d.dst p).dmaWrote c p.length
        s.dmaDrain c d [] true
      | none => s
    (s.modDma c fun x => { x with pulses := 0, port := [] }).setN (Obj.CH_STATE + c) 5
  else s

/-- The abort of the channels of a mask (R319). -/
def State.abortDma (s : State) (mask : Nat) : State :=
  (List.range 32).foldl (fun (s : State) c => if bitOf mask c then s.abortChannel c else s) s

/-- ABORT function 2 (R319): complete at once, within its 4 us; with no channel running it changes nothing (R56). -/
def State.abortDmaBy (s : State) (selector : Nat) : State :=
  (if (List.range 32).any fun c => bitOf selector c && s.dmaActive c then (s.abortDma selector).setN (Obj.ABORT_STATE + 1) 2 else s)

/-- The host port is reset (R81, R318): a channel with a HOST side halts with cause 2 when a completion it awaits is lost, or at its next
request. One that has moved all its bytes has no request left, and ends. -/
def State.haltHostDma (s : State) : State :=
  (List.range 32).foldl (fun (s : State) c =>
    match (s.dmaCh c).desc with
    | some d => if s.dmaActive c ∧ d.host ∧ s.dmaGranted c ∧ (s.dmaCh c).moved < d.length then s.dmaHostHalt c d else s
    | none => s) s

end Sys2Proof.Machine
end

