-- ==== Sys2Proof/Machine/Stream.lean ====
section
/-! DEFINITION. The rings, the host port and the checks of fetched blocks (R77 to R91): producers, descriptor fetches, the
block commands, refetches, repairs, progress records, host port resets. What an accepted block does stands in
Machine/Accept.lean. -/
namespace Sys2Proof.Machine

/-- The consumer index of a ring. -/
def State.consumer (s : State) (r : Ring) : Nat :=
  match r with
  | .stream => s.getN Obj.STREAM_CONSUMER
  | .repair => s.st.repairConsumer

/-- The producer index of a ring. -/
def State.producer (s : State) (r : Ring) : Nat :=
  match r with
  | .stream => s.getN Obj.STREAM_PRODUCER
  | .repair => s.getN Obj.REPAIR_PRODUCER

/-- ENTRIES of a ring. -/
def State.ringEntries (s : State) (r : Ring) : Nat :=
  match r with
  | .stream => s.getN Obj.RING_ENTRIES
  | .repair => s.getN Obj.REPAIR_RING_ENTRIES

/-- Host address of the descriptor of an index (R77). -/
def State.descAddr (s : State) (r : Ring) (i : Nat) : Nat :=
  match r with
  | .stream => s.getN Obj.RING_BASE + 32 * (i % s.getN Obj.RING_ENTRIES)
  | .repair => s.getN Obj.REPAIR_RING_BASE + 32 * (i % s.getN Obj.REPAIR_RING_ENTRIES)

/-- The host port can carry a request: link up and Bus Master Enable set (R80, R81). -/
def State.hostReady (s : State) : Bool := s.host.up && s.host.busMaster

/-- The device reads the rings now (R78, R86, R91): enabled, the active of its pair, core running, host port ready, no stall, a lane to
decompress (R300), space in the block buffer. -/
def State.readsRings (s : State) : Bool :=
  s.on Obj.STREAM_ENABLE && s.isActive && s.coreOn && s.hostReady && !s.st.stalled && !s.noLanes && s.st.inflating.isNone &&
  decide (s.bufferUsed < s.getN Obj.BLOCK_BUFFER_SIZE)

/-- The device takes the next block of a ring now (R63, R78, R85 to R87). The repair ring goes ahead: the stream ring is not served while
descriptors are posted there, nor while a repair is awaited, a JOB block is held, a STRIPE waits for the head, or an abort runs. -/
def State.readsRing (s : State) (r : Ring) : Bool :=
  s.readsRings && s.producer r ≠ s.consumer r &&
  match r with
  | .repair => s.st.waitHead.all fun f => f.desc.ring ≠ .repair
  | .stream => s.producer .repair = s.consumer .repair && !s.waitsRepair && s.st.heldJob.isNone && s.st.waitHead.isNone && s.jobState ≠ jobAborting

/-- Write descriptor bytes 20 to 31 (Table 03-10); they wait while the host port cannot carry them (R81). -/
def State.writeStatus (s : State) (r : Ring) (i status fetches detail : Nat) : State :=
  let a := s.descAddr r i + 20
  let b := [byte status, byte fetches, 0, 0] ++ leBytes 4 detail ++ zeros 4
  if s.hostReady && s.isActive then s.emit (.hostWrite a b)
  else { s with st := { s.st with statusWrites := s.st.statusWrites ++ [(a, b)] } }

/-- The consumer index passes a descriptor; a progress record is due (R79). -/
def State.passConsumer (s : State) (r : Ring) : State :=
  match r with
  | .stream => { s.setN Obj.STREAM_CONSUMER ((s.getN Obj.STREAM_CONSUMER + 1) % 2 ^ 32) with st := { s.st with dirty := true } }
  | .repair => { s with st := { s.st with repairConsumer := (s.st.repairConsumer + 1) % 2 ^ 32, dirty := true } }

/-- What a failure of the checks leads to (Table 03-12). -/
inductive Outcome12 | wait | payload | report | stall
  deriving DecidableEq, Repr

/-- A failure: status of Table 03-11, DETAIL, outcome, whether the header passed step 3. -/
structure Reject where
  status : Nat
  detail : Nat := 0xFFFFFFFF
  out12  : Outcome12
  known  : Bool := true
  deriving DecidableEq, Repr

/-- Outside a job (R87): before the first JOB block, from END, and after an abort or HALT. -/
def State.outsideJob (s : State) : Bool :=
  !s.st.reading || s.jobState = jobAborted || s.jobState = jobFailed || s.jobState = jobIdle || s.jobState = jobDone

/-- Tell the standby of the rings' indexes. -/
def State.tellIndexes (s : State) : State :=
  s.tell (.consumers (s.getN Obj.STREAM_CONSUMER) (s.getN Obj.STREAM_RELEASE) s.st.repairConsumer s.st.repairRelease)

/-- Send an accepted block to the standby as it is stored, with its ring, slot and TAG (R249). -/
def State.tellBlock (s : State) (t : BlockType) (d : Desc) (b : BlockImage) : State :=
  if !s.mirrorsOn then s
  else s.mirror 4 0x10 ([byte (if d.ring = .stream then 0 else 1)] ++ leBytes 4 d.index ++ leBytes 4 d.tag ++ headerBytes t b ++
    leBytes 4 b.headerCrc.toNat ++ b.payload)

/-- Record a rejection in 2202, count it and enter it in the error log (R83, R440). DESIGN CHOICE: where the header did not pass step 3
the spec gives what TYPE and BLOCK_SEQ read; STRIPE and BAND keep what they held. -/
def State.recordReject (s : State) (d : Desc) (t : BlockType) (b : BlockImage) (r : Reject) (stalls : Bool) : State :=
  let s := (((s.setN Obj.LAST_REJ_RING (if d.ring = .stream then 0 else 1)).setN Obj.LAST_REJ_INDEX d.index).setN
    Obj.LAST_REJ_TAG d.tag).setN Obj.LAST_REJ_STATUS r.status
  let s := if r.known then
      ((((s.setN Obj.LAST_REJ_TYPE (typeByte t b)).setN Obj.LAST_REJ_JOB b.jobId).setN Obj.LAST_REJ_STRIPE b.stripe).setN
        Obj.LAST_REJ_BAND b.band).setN Obj.LAST_REJ_SEQ b.seq
    else ((s.setN Obj.LAST_REJ_TYPE 0xFF).setN Obj.LAST_REJ_JOB s.st.jobId).setN Obj.LAST_REJ_SEQ (s.getN Obj.EXPECTED_SEQ)
  let s := (s.setN Obj.LAST_REJ_DETAIL r.detail).inc Obj.REJECTIONS
  s.logEvent ⟨if stalls then 4 else 2, 0, 255, 255, Obj.REJECTIONS, d.index, d.tag⟩

/-- The front end stalls: neither ring is read until the job is aborted (R86). -/
def State.stall (s : State) : State := ({ s with st := { s.st with stalled := true } }).refreshStream

/-- The pending rejection of a rejected stream block (R84, R85, R89). A BAND or HALO block rejected by the payload rule has stood in its
turn on the ring, and the next one is held to its band; DESIGN CHOICE: one rejected for its own order, or for its header, has not. -/
def State.addPending (s : State) (t : BlockType) (b : BlockImage) (r : Reject) : State :=
  let waits := r.out12 = .wait || t = .stripe || t = .endBlock
  let box := if t = .band ∨ t = .halo then some b.bbox else none
  let p : Pend :=
    if r.known then { seq := b.seq, jobId := b.jobId, stripe := b.stripe, band := b.band, type := typeByte t b, status := r.status,
                      aux := b.aux, known := true, waits := waits, bbox := box, gaveUp := [], noted := false, due := s.getN Obj.EXPECTED_SEQ }
    else { seq := s.getN Obj.EXPECTED_SEQ, jobId := s.st.jobId, stripe := 0, band := 0, type := 0xFF, status := r.status, aux := 0,
           known := false, waits := waits, bbox := none, gaveUp := [], noted := false, due := s.getN Obj.EXPECTED_SEQ }
  let s := (s.tell p.event).noteRejected p
  let s := if t = .celldef ∧ r.known ∧ r.out12 = .payload then s.addPendingCell b.aux b.seq else s
  { (s.setN Obj.PENDING_REJECTIONS (s.st.pending.length + 1)).setN Obj.EXPECTED_SEQ ((s.getN Obj.EXPECTED_SEQ + 1) % 2 ^ 32) with
    st := { s.st with pending := s.st.pending ++ [p] } }

/-- Reject a block of the stream ring (R83 to R87). DESIGN CHOICE: R79 has the release index wait for the tiles of a BAND or HALO block;
of a rejected one the device keeps nothing, and the index passes it at the rejection, as it does other blocks. -/
def State.rejectStream (s : State) (d : Desc) (t : BlockType) (b : BlockImage) (r : Reject) (fetches : Nat) : State :=
  let s := s.writeStatus .stream d.index r.status fetches r.detail
  if s.outsideJob then
    (((s.recordReject d t b r false).passConsumer .stream).advanceRelease).refreshStream
  else
    let full := s.st.pending.length ≥ 256
    let stalls := r.out12 = .stall || (full && r.out12 ≠ .report)
    let s := (s.recordReject d t b r stalls).passConsumer .stream
    let s := if stalls then s.stall else if r.out12 = .report then
        s.setN Obj.EXPECTED_SEQ ((s.getN Obj.EXPECTED_SEQ + 1) % 2 ^ 32)
      else s.addPending t b r
    (s.advanceRelease).refreshStream

/-- Reject a block of the repair ring: the rejection it would repair stays pending (R89). -/
def State.rejectRepair (s : State) (d : Desc) (t : BlockType) (b : BlockImage) (r : Reject) (fetches : Nat) : State :=
  let s := s.writeStatus .repair d.index r.status fetches r.detail
  (((s.recordReject d t b r false).passConsumer .repair).advanceRelease).refreshStream

/-- Reject a block of either ring. -/
def State.reject (s : State) (d : Desc) (t : BlockType) (b : BlockImage) (r : Reject) (fetches : Nat) : State :=
  match d.ring with
  | .stream => s.rejectStream d t b r fetches
  | .repair => s.rejectRepair d t b r fetches

/-- Step 1 of R82. -/
def descOk (d : Desc) : Bool := d.addr % 64 = 0 && 64 ≤ d.length && d.length ≤ 16777280

/-- A descriptor's reserved field is not judged by R82; ADDR and LENGTH are. The image of a block not fetched. -/
def noImage : BlockImage := ⟨0, 0, 0, 0, 0, 0, 0, 0, 0, 0, 0, 0, 0, boxZero, 0, 0, [], none⟩

/-- The order of R75 for a block in the place of the stream it stands in; `bandOrder` false for a repair (R89). -/
def State.orderFault (s : State) (t : BlockType) (b : BlockImage) (bandOrder : Bool) : Option Reject :=
  let stall : Option Reject := some { status := 5, out12 := .stall }
  match t with
  | .job => stall
  | .stripe => if b.stripe ≠ s.st.nextStripe ∨ b.stripe ≥ s.getN Obj.JOB_STRIPES then stall else none
  | .endBlock => if s.st.nextStripe ≠ s.getN Obj.JOB_STRIPES then stall else none
  | .celldef | .marks => none
  | .band | .halo =>
    if b.stripe ≥ s.st.nextStripe then stall
    else if !bandOrder then none
    else if b.stripe + 1 < s.st.nextStripe then some { status := 5, out12 := .payload }
    else match s.st.lastBand, s.stripeOf b.stripe with
      | some l, some sp => if (if sp.dirMinus then b.band > l else b.band < l) then some { status := 5, out12 := .payload } else none
      | _, _ => none

/-- The stored payload after step 7 of R82, or a failure of steps 6 and 7. -/
def payloadOf (b : BlockImage) : Except Reject Bytes :=
  if b.payload.length ≠ b.payloadLength ∨ crc32c b.payload ≠ b.payloadCrc then .error { status := 3, out12 := .payload }
  else if b.flags.toNat = 1 then
    match inflateFiufen b.payload b.rawLength with
    | none => .error { status := 4, out12 := .payload }
    | some p => .ok p
  else .ok b.payload

/-- Segments of 4 KiB of output into which the decompression of a payload falls (Table 12-1): up to where an error stops it, one at least. -/
def segmentsOf (b : BlockImage) : Nat :=
  match inflate b.payload with
  | .ok (o, _) => max 1 (ceilDiv o.length 4096)
  | .error (_, o) => o.length / 4096 + 1

/-- A payload that has passed step 6 goes to the compression lanes before step 7 is known (R61, R300). -/
def State.mustInflate (s : State) (b : BlockImage) (ready : Bool) : Bool :=
  b.flags.toNat = 1 && !ready && s.st.inflating.isNone && !(match payloadOf b with
    | .error r => r.status = 3
    | .ok _ => false)

/-- The front end hands the segments of a payload to the lanes; neither ring is served until they are done. DESIGN CHOICE: one block at a
time passes steps 5 to 8, the order of each ring being all that the spec asks for (R78). -/
def State.startInflate (s : State) (t : BlockType) (f : Fetch) (fetches : Nat) : State :=
  let x : Inflating := { type := t, fetch := f, second := 2 ≤ fetches, lanes := giveSegments s.lanesIn (segmentsOf f.image) [] }
  ({ s with st := { s.st with inflating := some x } }).feedLanes

/-- Step 8 for a block type: a failure, or the state with the block accepted. `repair` tells a repair that comes after its turn on the
stream, `late` one whose rejection some region has given up. DESIGN CHOICE: a CELLDEF of the stream whose cell is pending from another
rejected CELLDEF is its definition, since no accepted block has defined the cell; the accepted placements of it are checked when the
repair comes. DESIGN CHOICE: a BAND or HALO block of a band at or above NB leaves the order of bands as it was. -/
def State.content (s : State) (f : Fetch) (t : BlockType) (p : Bytes) (repair late : Bool) : Except Reject State :=
  let b := f.image
  match t with
  | .job => if jobPayloadOk b p then .ok (s.acceptJob b p f.refFails) else .error { status := 4, out12 := .payload }
  | .stripe =>
    if leAt p 0 4 ≠ b.stripe ∨ leAt p 4 1 > 1 ∨ (slice p 5 3).any (· ≠ 0) ∨ (slice p 24 8).any (· ≠ 0) then .error { status := 4, out12 := .payload }
    else if !s.stripeGeometryOk p then .error { status := 9, out12 := .stall }
    else .ok (s.acceptStripe b p)
  | .celldef =>
    if (findCell s.lay.cells b.aux).any (!·.pending) then .error { status := 4, out12 := .stall }
    else match parseRecords (s.lay.cells.filter (·.id ≠ b.aux)) 1 b.bbox p b.itemCount 0 with
      | .error e => .error { status := 4, detail := e, out12 := .payload }
      | .ok rs =>
        if cellStoreUsed s.lay.cells + b.rawLength > s.getN Obj.CELL_STORE_SIZE then .error { status := 8, out12 := .stall }
        else .ok (s.acceptCell b rs)
  | .band | .halo =>
    match s.stripeOf b.stripe with
    | none => .error { status := 5, out12 := .stall }
    | some sp =>
      if b.band ≥ sp.bands then .error { status := 4, out12 := .report }
      else match parseRecords s.lay.cells 0 b.bbox p b.itemCount 0 with
        | .error e => .error { status := 4, detail := e, out12 := .payload }
        | .ok rs => .ok (s.acceptBand b (t = .halo) rs f.rails repair late)
  | .marks =>
    match parseMarks p b.itemCount 0 [] with
    | .error e => .error { status := 4, detail := e, out12 := .payload }
    | .ok ms => .ok (s.acceptMarks ms)
  | .endBlock => .ok s.acceptEnd

/-- The slot of an accepted block that a later rejection may name (R84, R90). -/
def State.noteSlot (s : State) (d : Desc) (t : BlockType) (b : BlockImage) : State :=
  if t = .band ∨ t = .halo ∨ t = .celldef then
    { s with st := { s.st with slots := s.st.slots.filter (·.seq ≠ b.seq) ++ [⟨b.seq, d.ring, d.index, d.tag⟩] } }
  else s

/-- An accepted block: STATUS 1, counts, consumer and release (R79, R82, 2201). -/
def State.acceptedBlock (s : State) (d : Desc) (t : BlockType) (b : BlockImage) (fetches : Nat) : State :=
  let s := ((s.noteSlot d t b).writeStatus d.ring d.index 1 fetches 0xFFFFFFFF).tellBlock t d b
  let s := (s.inc Obj.BLOCKS_ACCEPTED).add Obj.BYTES_ACCEPTED (64 + b.payloadLength)
  let s := s.passConsumer d.ring
  let waits := t = .band || t = .halo
  let s := if waits then { s with st := { s.st with unreleased := s.st.unreleased ++ [⟨d.ring, d.index, b.stripe, b.band, true⟩] } } else s
  ((s.releaseBands.advanceRelease).tellIndexes).refreshStream

/-- The pending rejection that a repair block matches (R89). -/
def State.matching (s : State) (t : BlockType) (b : BlockImage) : Option Pend :=
  s.st.pending.find? fun p =>
    if p.known then
      p.type = typeByte t b && p.jobId = b.jobId && p.stripe = b.stripe && p.band = b.band && p.seq = b.seq &&
      (t ≠ .celldef || p.aux = b.aux)
    else p.jobId = b.jobId && p.seq = b.seq

/-- A repair is accepted: the rejection leaves the list, counted and, before the give-up, logged as CORRECTED (R88, R440). -/
def State.repairAccepted (s : State) (p : Pend) : State :=
  let s := { s with st := { s.st with pending := s.st.pending.filter (·.seq ≠ p.seq) } }
  let s := (s.setN Obj.PENDING_REJECTIONS s.st.pending.length).inc Obj.REPAIRS_ACCEPTED
  let s := s.tell (.repaired p.seq)
  if p.gaveUp.isEmpty then s.logEvent ⟨1, 0, 255, 255, Obj.REPAIRS_ACCEPTED, p.seq, 0⟩ else s

/-- The front end waits at a STRIPE block for a head identity (R63). -/
def State.waitForHead (s : State) (f : Fetch) (fetches : Nat) : State :=
  ({ s with st := { s.st with waitHead := some f, lastFetches := fetches } }).refreshStream

/-- Step 8 of a repair, and its acceptance. -/
def State.repairContent (s : State) (p : Pend) (f : Fetch) (t : BlockType) (bytes : Bytes) (fetches : Nat) : State :=
  match s.content f t bytes (!p.waits) (!p.gaveUp.isEmpty) with
  | .error r => s.reject f.desc t f.image r fetches
  | .ok s' => ((s'.repairAccepted p).afterRepair p t f.image.aux).acceptedBlock f.desc t f.image fetches

/-- Steps 5 to 8 of a stream block inside a job. -/
def State.streamSteps (s : State) (f : Fetch) (t : BlockType) (fetches : Nat) (retry : State) (ready : Bool) : State :=
  let d := f.desc
  let b := f.image
  let bad (r : Reject) := s.reject d t b r fetches
  if s.outsideJob then
    if t ≠ .job then
      (((s.writeStatus .stream d.index 10 fetches 0xFFFFFFFF).passConsumer .stream).advanceRelease).refreshStream
    else if b.seq ≠ 0 then bad { status := 6, out12 := .stall }
    else if s.mustInflate b ready then s.startInflate t f fetches
    else match payloadOf b with
      | .error r => if r.status = 3 ∧ fetches = 1 then retry else bad r
      | .ok p =>
        if !jobPayloadOk b p then bad { status := 4, out12 := .payload }
        else if s.mayTakeJob then (s.acceptJob b p f.refFails).acceptedBlock d t b fetches
        else ({ s with st := { s.st with heldJob := some f, lastFetches := fetches } }).refreshStream
  else if b.seq ≠ s.getN Obj.EXPECTED_SEQ then bad { status := 6, out12 := .stall }
  else if b.jobId ≠ s.st.jobId then bad { status := 5, out12 := .stall }
  else match s.orderFault t b true with
    | some r => bad r
    | none =>
      if s.mustInflate b ready then s.startInflate t f fetches
      else match payloadOf b with
      | .error r => if r.status = 3 ∧ fetches = 1 then retry else bad r
      | .ok p =>
        if t = .stripe ∧ !s.headKnown then s.waitForHead f fetches
        else match s.content f t p false false with
          | .error r => bad r
          | .ok s' =>
            (s'.setN Obj.EXPECTED_SEQ ((b.seq + 1) % 2 ^ 32)).acceptedBlock d t b fetches

/-- Steps 5 to 8 of a repair block (R89): as if it stood in the rejected slot, so that its BLOCK_SEQ and JOB_ID are those that the slot
was expected to hold, though the rejected block's own may have been others. -/
def State.repairSteps (s : State) (f : Fetch) (t : BlockType) (fetches : Nat) (retry : State) (ready : Bool) : State :=
  let d := f.desc
  let b := f.image
  let bad (r : Reject) := s.reject d t b r fetches
  match s.matching t b with
  | none => bad { status := 11, out12 := .report }
  | some p =>
    if b.seq ≠ p.due then bad { status := 6, out12 := .report }
    else if b.jobId ≠ s.st.jobId then bad { status := 5, out12 := .report }
    else match s.orderFault t b false with
    | some r => bad r
    | none =>
      if s.mustInflate b ready then s.startInflate t f fetches
      else match payloadOf b with
      | .error r => if r.status = 3 ∧ fetches = 1 then retry else bad r
      | .ok bytes => if t = .stripe ∧ !s.headKnown then s.waitForHead f fetches else s.repairContent p f t bytes fetches

/-- Steps 1 to 4 of R82, then the rest. `second` marks the copy of a refetch, `ready` a payload that the lanes have decompressed. -/
def State.checkBlock (s : State) (t : BlockType) (f : Fetch) (second : Bool) (ready : Bool := false) : State :=
  let d := f.desc
  let b := f.image
  let fetches := if second then 2 else 1
  let retry : State := { s.inc Obj.REFETCHES with st := { s.st with refetch := s.st.refetch ++ [⟨d.ring, d⟩] } }
  if !second && !descOk d then s.reject d t b { status := 7, out12 := .wait, known := false } 0
  else if f.error || !headerCrcOk t b then
    if second then s.reject d t b { status := 2, out12 := .wait, known := false } 2 else retry
  else if !headerFieldsOk t b then s.reject d t b { status := 4, out12 := .wait } fetches
  else if d.length ≠ 64 + b.payloadLength then s.reject d t b { status := 7, out12 := .wait } fetches
  else match d.ring with
    | .stream => s.streamSteps f t fetches retry ready
    | .repair => s.repairSteps f t fetches retry ready

/-- The lanes have decompressed a block's payload: its checks end (R82). A front end that has stalled meanwhile, or a device that is not the
active any more, drops it. -/
def State.finishInflate (s : State) (x : Inflating) : State :=
  let s : State := { s with st := { s.st with inflating := none } }
  if s.st.stalled ∨ !s.isActive then s else s.checkBlock x.type x.fetch x.second true

/-- A segment of the payload is decompressed: the lane saves its context, and the next segment, or the rest of the checks, follows (R290). -/
def State.segmentDone (s : State) (l : Nat) : State :=
  match s.st.inflating with
  | none => s
  | some x =>
    let out := match inflate x.fetch.image.payload with
      | .ok (o, _) => o
      | .error (_, o) => o
    let n := min out.length (4096 * (x.done + 1))
    let s := s.modLane l fun y => { y with saved := some ⟨x.done + 1, slice out (n - 32768) (n - (n - 32768))⟩ }
    let x := { x with done := x.done + 1 }
    if x.lanes.length ≤ x.done then s.finishInflate x else { s with st := { s.st with inflating := some x } }

/-- The block of the next descriptor of a ring has been fetched. -/
def State.fetchedBlock (s : State) (t : BlockType) (f : Fetch) : State :=
  if s.readsRing f.desc.ring ∧ f.desc.index = s.consumer f.desc.ring ∧ !s.st.refetch.any (·.ring = f.desc.ring) then
    s.checkBlock t f false
  else s

/-- A stream ring block of a type. -/
def State.streamBlock (s : State) (t : BlockType) (f : Fetch) : Out :=
  if f.desc.ring = .stream then .next (s.fetchedBlock t f) else .next s

/-- JOB_BLOCK. -/
def execJobBlock (f : Fetch) (s : State) : Out := s.streamBlock .job f
/-- STRIPE_BLOCK. -/
def execStripeBlock (f : Fetch) (s : State) : Out := s.streamBlock .stripe f
/-- CELLDEF_BLOCK. -/
def execCelldefBlock (f : Fetch) (s : State) : Out := s.streamBlock .celldef f
/-- BAND_BLOCK. -/
def execBandBlock (f : Fetch) (s : State) : Out := s.streamBlock .band f
/-- HALO_BLOCK. -/
def execHaloBlock (f : Fetch) (s : State) : Out := s.streamBlock .halo f
/-- MARKS_BLOCK. -/
def execMarksBlock (f : Fetch) (s : State) : Out := s.streamBlock .marks f
/-- END_BLOCK. -/
def execEndBlock (f : Fetch) (s : State) : Out := s.streamBlock .endBlock f

/-- REPAIR_BLOCK: a block of the repair ring. -/
def execRepairBlock (t : BlockType) (f : Fetch) (s : State) : Out :=
  if f.desc.ring = .repair then .next (s.fetchedBlock t f) else .next s

/-- A copy of a stored block is good: it passes what R82 says of the block itself. -/
def goodCopy (t : BlockType) (f : Fetch) (seq : Nat) : Bool :=
  !f.error && headerCrcOk t f.image && headerFieldsOk t f.image && f.image.seq = seq && (payloadOf f.image).isOk

/-- The copy of a stored block has come (R90): the block is as it was. DESIGN CHOICE: where the copy is bad too, the block is lost. -/
def State.reloaded (s : State) (t : BlockType) (f : Fetch) (x : SlotRef) : State :=
  let s : State := { s with st := { s.st with reload := s.st.reload.filter (·.seq ≠ x.seq) } }
  if goodCopy t f x.seq then s.advanceRaster
  else match s.lay.blocks.find? (·.seq = x.seq) with
    | some b => s.dropBlock b
    | none => s

/-- BLOCK_REFETCH: the second copy of a block whose step 2, 3 or 6 failed; its result stands (R82). Or the copy of a stored block (R90). -/
def execBlockRefetch (t : BlockType) (f : Fetch) (s : State) : Out :=
  match s.st.refetch.find? fun x => x.ring = f.desc.ring && x.desc = f.desc with
  | none => match s.st.reload.find? fun x => x.ring = f.desc.ring && x.index = f.desc.index with
    | some x => if s.hostReady && s.coreOn then .next (s.reloaded t f x) else .next s
    | none => .next s
  | some x =>
    if !s.hostReady ∨ s.st.stalled ∨ s.st.inflating.isSome then .next s
    else .next (({ s with st := { s.st with refetch := s.st.refetch.filter (·.ring ≠ x.ring) } }).checkBlock t f true)

/-- DESCRIPTOR_FETCH: the descriptor of the next index has been read; step 1 rejects it before any fetch (R82). -/
def execDescriptorFetch (d : Desc) (s : State) : Out :=
  if ¬s.readsRing d.ring ∨ d.index ≠ s.consumer d.ring ∨ s.st.refetch.any (·.ring = d.ring) then .next s
  else if descOk d then .next { s with st := { s.st with fetched := (d :: s.st.fetched).take (s.getN Obj.PREFETCH_DEPTH) } }
  else .next (s.reject d .job noImage { status := 7, out12 := .wait, known := false } 0)

/-- A producer write (R78): a value more than ENTRIES ahead of the consumer, or behind it, is ignored and counted. A value from the
consumer index on is taken, also one behind the producer index. A device that is not the active keeps what the host writes (R261). -/
def State.writeProducer (s : State) (r : Ring) (v : Nat) : State :=
  let o := if r = .stream then Obj.STREAM_PRODUCER else Obj.REPAIR_PRODUCER
  if !s.isActive then s.setN o v
  else if (v + 2 ^ 32 - s.consumer r) % 2 ^ 32 > s.ringEntries r then s.inc Obj.DOORBELL_ERRORS
  else
    ((s.setN o v).tell (.producers (if r = .stream then v else s.getN Obj.STREAM_PRODUCER)
      (if r = .repair then v else s.getN Obj.REPAIR_PRODUCER))).refreshStream

/-- A write through BAR0 needs the link; in CONTROL it is kept and takes effect on entry to READY (R388). -/
def State.doorbell (s : State) (r : Ring) (v : Nat) : State :=
  let v := v % 2 ^ 32
  let o := if r = .stream then Obj.STREAM_PRODUCER else Obj.REPAIR_PRODUCER
  if s.power = 1 then { s with st := { s.st with keptProducers := kvSet s.st.keptProducers o v } }
  else if s.power = 2 ∨ s.power = 3 then s.writeProducer r v
  else s

/-- STREAM_PRODUCER: a write to BAR0 offset 0x0000 or 2200.07. -/
def execStreamProducer (value : Nat) (s : State) : Out := .next (s.doorbell .stream value)
/-- REPAIR_PRODUCER: a write to BAR0 offset 0x0004 or 2200.08. -/
def execRepairProducer (value : Nat) (s : State) : Out := .next (s.doorbell .repair value)

/-- A request is a naturally aligned access of 4 bytes, or of 8 bytes in the pending bit array (R80). -/
def barAligned (offset size : Nat) : Bool :=
  (size = 4 && offset % 4 = 0) || (size = 8 && 0x1800 ≤ offset && offset < 0x1808 && offset % 8 = 0)

/-- What a read of BAR0 gives (Table 03-15). -/
def State.barRead (s : State) (offset size : Nat) : Bytes :=
  if 0x1000 ≤ offset ∧ offset < 0x1040 then slice s.host.msixTable (offset - 0x1000) size
  else if 0x1800 ≤ offset ∧ offset < 0x1808 then slice (leBytes 8 s.host.msixPba) (offset - 0x1800) size
  else leBytes size (match offset with
    | 0x0000 => s.getN Obj.STREAM_PRODUCER
    | 0x0004 => s.getN Obj.REPAIR_PRODUCER
    | 0x0008 => s.getN Obj.STREAM_CONSUMER
    | 0x000C => s.getN Obj.STREAM_RELEASE
    | 0x0010 => s.getN Obj.STREAM_STATE + 256 * s.jobState
    | _ => 0)

/-- MSI-X vector 0 is raised; one whose table entry is masked sets its pending bit. PRESUMED, as PCI Express has it. -/
def State.raiseMsix (s : State) : State :=
  if bitOf (leAt s.host.msixTable 12 4) 0 then { s with host := { s.host with msixPba := setBit s.host.msixPba 0 } } else s.emit (.msix 0)

/-- A pending vector 0 whose entry is no longer masked is signalled, once the host port can carry it. -/
def State.releaseMsix (s : State) : State :=
  if s.hostReady && bitOf s.host.msixPba 0 && !bitOf (leAt s.host.msixTable 12 4) 0 then
    ({ s with host := { s.host with msixPba := clearBit s.host.msixPba 0 } }).emit (.msix 0)
  else s

/-- A write of BAR0 (Table 03-15). -/
def State.barWrite (s : State) (offset value : Nat) : State :=
  if offset = 0 then s.doorbell .stream value
  else if offset = 4 then s.doorbell .repair value
  else if 0x1000 ≤ offset ∧ offset < 0x1040 then
    let i := offset - 0x1000
    State.releaseMsix { s with host := { s.host with msixTable := s.host.msixTable.take i ++ leBytes 4 value ++ s.host.msixTable.drop (i + 4) } }
  else s

/-- A memory request to BAR0: an access as Table 03-15 gives, or one that is not a naturally aligned access of the allowed size, which
completes normally, reads 0 or is ignored, and is counted (R80). -/
def execBarAccessError (offset size : Nat) (write : Option Nat) (s : State) : Out :=
  if !s.host.up then .next s
  else
    let good := barAligned offset size
    let s := if good then s else s.inc Obj.BAR_ACCESS_ERRORS
    match write with
    | none => .next (s.emit (.hostRead (if good then s.barRead offset size else zeros size)))
    | some v => .next (if good then s.barWrite offset v else s)

/-- The progress record (R79). -/
def State.progressRecord (s : State) : Bytes :=
  leBytes 4 (s.getN Obj.STREAM_CONSUMER) ++ leBytes 4 (s.getN Obj.STREAM_RELEASE) ++ leBytes 4 s.st.repairConsumer ++
  leBytes 4 s.st.repairRelease

/-- Write the progress record and raise MSI-X vector 0, if the host port can carry it (R79, R81, R91). -/
def State.writeProgress (s : State) : State :=
  if !s.st.dirty || !s.hostReady || !s.isActive || !s.coreOn then s
  else
    let s := { s.emit (.hostWrite (s.getN Obj.WRITEBACK_ADDR) s.progressRecord) with st := { s.st with dirty := false } }
    if s.on Obj.WRITEBACK_MSIX then s.raiseMsix else s

/-- WRITEBACK. -/
def execWriteback (s : State) : Out := .next s.writeProgress

/-- What waited for the host port is issued (R80, R81): descriptor status writes in order, then the latest progress record. -/
def State.flushHost (s : State) : State :=
  if !s.hostReady || !s.isActive then s
  else
    let s' := s.st.statusWrites.foldl (fun s p => s.emit (.hostWrite p.1 p.2)) s
    ({ s' with st := { s'.st with statusWrites := [] } }).writeProgress

/-- What a read of the configuration space gives (Table 03-14); the command register's Bus Master Enable stands in bit 2. -/
def State.configRead (s : State) : ConfigItem → Bytes
  | .vendorId | .subsystemVendorId => leBytes 2 (s.getN Obj.PCI_VENDOR_ID)
  | .deviceId | .subsystemId => leBytes 2 (s.getN Obj.PCI_DEVICE_ID)
  | .revisionId => leBytes 1 (s.getN Obj.STEPPING)
  | .classCode => leBytes 3 0x118000
  | .bar n => leBytes 4 (if n = 0 then s.host.bar0 % 2 ^ 32 + 4 else if n = 1 then s.host.bar0 / 2 ^ 32 else 0)
  | .expansionRom => zeros 4
  | .command => leBytes 2 (if s.host.busMaster then 4 else 0)
  | .msixVectors => leBytes 2 4
  | .maxPayloadSize => leBytes 2 s.host.maxPayload
  | .maxReadRequestSize => leBytes 2 s.host.maxRead

/-- A request to the configuration space; setting Bus Master Enable issues the requests that waited (R80). -/
def State.configure (s : State) : ConfigRequest → State
  | .busMaster on =>
    let s : State := { s with host := { s.host with busMaster := on } }
    if on then s.flushHost.releaseMsix else s
  | .maxPayload n => { s with host := { s.host with maxPayload := n } }
  | .maxReadRequest n => { s with host := { s.host with maxRead := n } }
  | .bar0 a => { s with host := { s.host with bar0 := a } }
  | .read x => s.emit (.hostRead (s.configRead x))

/-- BUS_MASTER_ENABLE: the host sets or clears the bit, or makes another request to the configuration space (R80, Table 03-14). -/
def execBusMasterEnable (s : State) (request : ConfigRequest := .busMaster true) : Out := .next (if s.host.up then s.configure request else s)

/-- HOST_PORT_RESET (R81): link, configuration space, MSI-X table and pending bits are cleared; counted and logged. -/
def execHostPortReset (_cause : HostReset) (s : State) : Out :=
  if ¬s.pins.porstN ∨ s.power = 0 ∨ s.power = 5 then .next s
  else
    let s := { s with host := {} }
    let s := ((s.setN Obj.HOST_LINK_STATE 0).setN Obj.HOST_LINK_WIDTH 0).setN Obj.HOST_LINK_SPEED 0
    .next ((s.inc Obj.HOST_RESETS).logEvent ⟨2, 0, 255, 255, Obj.HOST_RESETS, 0, 0⟩).haltHostDma

/-- HOST_LINK_UP: the link has trained to a width and a speed code (R80, R81). -/
def execHostLinkUp (width speed : Nat) (s : State) : Out :=
  if ¬(s.power = 2 ∨ s.power = 3) then .next s
  else
    let s := ((s.setN Obj.HOST_LINK_STATE 1).setN Obj.HOST_LINK_WIDTH width).setN Obj.HOST_LINK_SPEED speed
    .next ({ s with host := { s.host with up := true } }).flushHost

/-- A JOB block held by R87 is taken once it may be. -/
def State.takeHeldJob (s : State) : State :=
  match s.st.heldJob with
  | some f =>
    if !s.mayTakeJob then s
    else match payloadOf f.image with
      | .ok p => (({ s with st := { s.st with heldJob := none } }).acceptJob f.image p f.refFails).acceptedBlock f.desc .job f.image s.st.lastFetches
      | .error _ => s
  | none => s

/-- A STRIPE block that waited for a head identity goes on once one is known (R63). -/
def State.takeWaiting (s : State) : State :=
  match s.st.waitHead with
  | some f =>
    if !s.headKnown then s
    else
      let s : State := { s with st := { s.st with waitHead := none } }
      match payloadOf f.image with
      | .error r => s.reject f.desc .stripe f.image r s.st.lastFetches
      | .ok p =>
        if f.desc.ring = .repair then
          match s.matching .stripe f.image with
          | some x => s.repairContent x f .stripe p s.st.lastFetches
          | none => s.reject f.desc .stripe f.image { status := 11, out12 := .report } s.st.lastFetches
        else match s.content f .stripe p false false with
        | .error r => s.reject f.desc .stripe f.image r s.st.lastFetches
        | .ok s' => (s'.setN Obj.EXPECTED_SEQ ((f.image.seq + 1) % 2 ^ 32)).acceptedBlock f.desc .stripe f.image s.st.lastFetches
  | none => s

/-- What the front end has kept back goes on where it may. -/
def State.takeHeld (s : State) : State := (s.takeHeldJob).takeWaiting

/-- The bytes of 2202.0B PENDING_LIST, 16 per entry. -/
def State.pendingList (s : State) : Bytes :=
  s.st.pending.flatMap fun p =>
    leBytes 4 p.seq ++ leBytes 4 p.stripe ++ leBytes 2 p.band ++ [byte p.type, byte p.status] ++ leBytes 4 p.aux

end Sys2Proof.Machine
end

