-- ==== Sys2Proof/Machine/Headstock.lean ====
section
/-! DEFINITION. The decision points of the Headstock (R165, R166, R173 to R179, R185), the boundary work done at each, test
periods (R210 to R213, R366), the firing check and FRAME_SYNC (R175, R194, R195). -/
namespace Sys2Proof.Machine

/-- PREDICTION_HORIZON H = 2·Tf + Dsync (R166). -/
def State.horizon (s : State) : Nat := 2 * s.getN Obj.FLASH_PERIOD + s.getN Obj.FRAME_SYNC_DELAY

/-- The fit test of R173 for an index: its distance from the position at FRAME_SYNC and at the end of the firing window, and Yc. -/
def State.within (s : State) (d0 d1 y : Int) : Bool :=
  let r := 1024 * s.getN Obj.DEFL_RANGE
  d0.natAbs ≤ r && d1.natAbs ≤ r && y.natAbs ≤ r

/-- A gap index of a Burnish or resume sweep (R231). -/
def State.isGap (s : State) (n : Int) : Bool :=
  decide (n ≤ s.get Obj.SWEEP_LAST_INDEX) && !s.sweep.ranges.any fun r => decide (r.1 ≤ n) && decide (n ≤ r.2 + (479 * s.B : Nat))

/-- Indexes that a decision passes become skips (R173, R174); gap indexes are left out. -/
def State.passTo (s : State) (a b : Int) : State × Nat :=
  let ns := (rangeI a b).filter (!s.isGap ·)
  ((ns.foldl (fun (s : State) n => (s.loseIndex n rsnSkip).reach n) s).add Obj.INDEXES_SKIPPED ns.length, ns.length)

/-- What Table 07-4 gives: DECISION, index, whether it repeats one already issued, and the overspeed skips. -/
structure Choice where
  dec   : Nat := 0
  n     : Int
  again : Bool := false
  jump  : Nat := 0
  deriving DecidableEq, Repr

/-- An index is issued: counts, SWEEPING, progress (R53, R159, R174). -/
def State.issue (s : State) (n : Int) : State :=
  let s := s.inc Obj.FLASHES_ISSUED
  let s := if s.sweepState = 1 then s.setN Obj.SWEEP_STATE 2 else s
  let s := if s.burnishing then s.set Obj.BURNISH_FLASH_INDEX n else s
  let band := match s.stripeOf s.sweep.stripe with
    | some st => (clampI 0 (st.bands - 1 : Nat) (s.pixelOf n / 4096)).toNat
    | none => 0
  let change := s.job.liveBand ≠ band || s.job.liveStripe ≠ s.sweep.stripe
  let s : State := { s with job := { s.job with liveStripe := s.sweep.stripe, liveBand := band, liveIndex := n } }
  if change then { s with job := { s.job with permille := s.livePermille } }.snapshot else s

/-- The index nearest the position predicted for FRAME_SYNC: the n of R173. -/
def State.found (s : State) (w : Look) (q : Pred) : Int := (q.predict (w.d + s.horizon) + 512) / 1024

/-- The outcome of Table 07-4, the first row whose condition holds. DESIGN CHOICE: a blanked repeat of an index already issued is no "last
flash issued" of PROG_STRIPE, PROG_BAND and PROG_FLASH_INDEX, which stay (R53). -/
def State.choose (s : State) (w : Look) (valid : Bool) : State × Choice :=
  let prev := s.sweep.nPrev
  let last := s.get Obj.SWEEP_LAST_INDEX
  if !s.sweepArmed || !(s.jobState = 2 || s.jobState = 4) then (s, { n := prev })
  else match (if valid then w.q else none) with
    | none => (s, { n := prev })
    | some q =>
      let t := w.d + s.horizon
      let pp := q.predict t
      let n := s.found w q
      let d0 := 1024 * n - pp
      let d1 := d0 - rneDiv (q.v * (s.getN Obj.FLASH_PERIOD - s.tsettle)) (2 ^ 24)
      let no : Choice := { n := prev }
      let s : State := if !w.awake && decide (s.sweep.first ≤ n) && !s.hs.wakeLate then
          { s.inc Obj.WAKE_LATE with hs := { s.hs with wakeLate := true } } else s
      if !w.ok || !w.awake then (s, no)
      else if s.sweep.blankRest ∧ prev < n then
        let m := min n last
        if m ≤ prev ∨ s.isGap m then (s, no)
        else
          let s := (s.passTo (prev + 1) (m - 1)).1
          (({ s with sweep := { s.sweep with nPrev := m } }).issue m, { no with dec := 2, n := m })
      else if n < 0 ∨ s.isGap n then (s, no)
      else if !s.within d0 d1 q.y then (s.inc Obj.RANGE_REFUSALS, no)
      else if n ≤ prev then ((s.inc Obj.REPEATS_BLANKED).inc Obj.FLASHES_ISSUED, { no with dec := 2, n := n, again := true })
      else if last < n then
        let s := (s.passTo (prev + 1) last).1
        ({ s with sweep := { s.sweep with nPrev := max prev last } }, { no with n := max prev last })
      else
        let (s, c) := s.passTo (prev + 1) (n - 1)
        (({ s with sweep := { s.sweep with nPrev := n } }).issue n,
         { no with dec := 1, n := n, jump := if s.hs.issued then c else 0 })

/-- The overspeed window and STAGE_SLOW_N (R176, R177). -/
def State.overspeed (s : State) (k jump : Nat) : State :=
  let sk := (if jump = 0 then s.hs.skips else (k, jump) :: s.hs.skips).filter fun x => k < x.1 + 1000
  let c := sumMap (·.2) sk
  let warn := s.getN Obj.SKIP_WARN
  let s : State := { s.setN Obj.OVERSPEED_SKIPS_WINDOW (min 1000 c) with hs := { s.hs with skips := sk } }
  let slow (v : Bool) (s : State) : State := (s.setN Obj.STAGE_SLOW (b2n v)).driveStageSlow (v && s.outputsOn)
  let s := if !s.on Obj.STAGE_SLOW ∧ warn < c then (slow true s).logEvent ⟨2, 8, 255, 255, Obj.STAGE_SLOW, c, 0⟩
    else if s.on Obj.STAGE_SLOW ∧ c ≤ min (s.getN Obj.SKIP_CLEAR) (warn - 1) then slow false s else s
  if s.getN Obj.SKIP_LIMIT < c then s.blankRest else s

/-! ### Test periods -/

/-- A beam that tests measure: neither OFF nor KILLED. -/
def State.measurable (s : State) (b : Nat) : Bool := beamState (s.beamEntry b) < 2

/-- The next measurable beam from an index on, wrapping at 307,200 (R212). -/
def State.nextBeam (s : State) (from_ : Nat) : Option Nat :=
  ((List.range beamCount).map fun i => (from_ + i) % beamCount).find? s.measurable

/-- The gate check takes the beam to be measured next: first those to be measured again (R212). -/
def State.pickBeam (s : State) (g : Gate) : Gate :=
  match g.redo with
  | b :: r => { g with beam := some b, redo := r, sent := 0 }
  | [] =>
    if s.getN Obj.GATE_BEAMS ≤ g.picked then { g with beam := none }
    else match s.nextBeam g.cursor with
      | some b => { g with beam := some b, picked := g.picked + 1, cursor := (b + 1) % beamCount, sent := 0 }
      | none => { g with beam := none }

/-- What a KIND 3 period carries: its code, the one beam that carries it (none: all), the number of its shot. -/
structure Shot where
  code : Nat := 0
  beam : Option Nat := none
  num  : Option Nat := none
  deriving DecidableEq, Repr

/-- A period of a gate check (R211, R212). -/
def State.gateShot (s : State) (g : Gate) : Gate × Shot :=
  let shots := s.getN Obj.GATE_SHOTS
  if s.getN Obj.GATE_STATE = 1 then ({ g with sent := g.sent + 1 }, { num := if g.sent < shots then some g.sent else none })
  else
    let g := if g.beam.isNone then s.pickBeam g else g
    match g.beam with
    | none => (g, {})
    | some b =>
      let g' := { g with sent := g.sent + 1 }
      (if shots ≤ g'.sent then { g' with waiting := g'.waiting ++ [b], beam := none } else g',
       { code := s.getN Obj.GATE_CODE, beam := some b, num := some g.sent })

/-- The beams that item 4 measures. -/
def State.calBeams (s : State) : List Nat := (List.range beamCount).filter s.measurable

/-- Shots of the running calibration item: the dark ones, then those of its beam, its beams or its steps (R371 to R373). -/
def State.calTotal (s : State) : Nat :=
  let groups := match s.getN Obj.CAL_ITEM with
    | 3 => 2
    | 4 => 1 + s.calBeams.length
    | 5 => 1 + s.getN Obj.DEFL_SCAN_STEPS
    | _ => 1
  groups * s.getN Obj.GATE_SHOTS

/-- Shot `i` of calibration items 2 to 5. -/
def State.calShot (s : State) (i : Nat) : Shot :=
  let shots := s.getN Obj.GATE_SHOTS
  let beam := if i < shots then none else match s.getN Obj.CAL_ITEM with
    | 3 => some (s.getN Obj.GATE_REF_BEAM)
    | 4 => s.calBeams[(i - shots) / shots]?
    | 5 => some (s.getN Obj.DEFL_REF_BEAM)
    | _ => none
  { code := if beam.isSome then s.getN Obj.GATE_CODE else 0, beam := beam, num := some i }

/-- The next shot of the running item: first those to be repeated (R371). -/
def State.nextCalShot (s : State) : State × Shot :=
  match s.cal.redo with
  | i :: r => ({ s with cal := { s.cal with redo := r } }, s.calShot i)
  | [] =>
    if s.cal.sent < s.calTotal then ({ s with cal := { s.cal with sent := s.cal.sent + 1 } }, s.calShot s.cal.sent) else (s, {})

/-- A KIND 3 period, and the state after it is counted. GATE_CURSOR stands on the beam whose measurement is the first not complete. -/
def State.testShot (s : State) : State × Shot :=
  if s.getN Obj.GATE_STATE ∈ [1, 2] then
    match s.head.gate with
    | some g => let (g, x) := s.gateShot g; ({ s.setN Obj.GATE_CURSOR g.at with head := { s.head with gate := some g } }, x)
    | none => (s, {})
  else if s.calGate then s.nextCalShot
  else match s.head.image with
    | some g =>
      let counts := decide (g.sent < s.getN Obj.IMAGE_SHOTS)
      ({ s with head := { s.head with image := some { g with sent := g.sent + 1 } } },
       { code := if s.getN Obj.IMAGE_STATE = 2 && counts then s.getN Obj.IMAGE_CODE else 0, num := if counts then some g.sent else none })
    | none => (s, {})

/-! ### The boundary work of an active -/

/-- While records are sent, one commit a period is announced: first those that took effect at acceptance, then the oldest
accepted one, which takes effect (Table 10-4); otherwise every one takes effect. -/
def State.takeCommits (s : State) : State :=
  if !s.mirrorsOn then ({ s with stg := { s.stg with untold := 0 } }).takeFlash
  else if 0 < s.stg.untold then { s with stg := { s.stg with untold := s.stg.untold - 1 } }
  else match s.stg.atFlash with
    | es :: r => ({ s with stg := { s.stg with atFlash := r } }).applyEntries es
    | [] => s

/-- The sweep's work at a decision point, in order: retirements, loads, the end of the sweep, hold, park, arming, give-ups,
warnings, wakes. -/
def State.sweepBoundary (s : State) : State :=
  let s := (((s.retireDue).retirePixels).closeColumns).effectLoads
  let s := ((s.endSweep).settle).parkCheck
  (((s.tryArm).giveUps).watch).wakeCheck

/-- The boundary work of decision point D(k): timeouts, thermal change, add-backs, commits, epoch, sweep (R46, R156, R200, R204, R214). -/
def State.boundary (s : State) (k : Nat) (history : List HistoryFault) : State :=
  let s := (((s.timeouts k).thermalEffect).effectDecisions history).takeCommits
  ((if k % 64 = 0 then s.epoch k else s).countCommand).sweepBoundary

/-- EVENTS of a flash record (Table 10-4), from the states before and after the boundary work. -/
def eventsOf (a b : State) (k : Nat) : Nat :=
  b2n (!a.sweepArmed && b.sweepArmed) + 2 * b2n (!a.sweep.parked && b.sweep.parked) + 4 * b2n (a.jobState ≠ 3 && b.jobState = 3) +
  8 * b2n (b.jobState = 6 && !a.job.abortTold) + 16 * b2n (b.stg.untold + b.stg.atFlash.length < a.stg.untold + a.stg.atFlash.length) + 32 * b2n (k % 64 = 0)

/-- The cap of R151. -/
def State.capNow (s : State) : Nat := if s.getN Obj.THERMAL_STATE = 1 then s.getN Obj.THERMAL_CAP else 15

/-- KIND of the frames of a period (Table 08-2). Item 1 of calibration sends none. -/
def State.kindOf (s : State) (c : Choice) : Option Nat :=
  if c.dec = 1 then some 1
  else if c.dec = 2 then some 2
  else if s.sweepArmed then some 0
  else if s.gateRuns || s.imageRuns then some 3
  else if !s.head.cmds.isEmpty then some 0
  else none

/-- Periods that the device keeps: the last 1,024 and those in flight (R199). -/
abbrev periodsKept : Nat := 1032

/-- A decided period joins the pipeline. -/
def State.pushPeriod (s : State) (p : Period) : State :=
  { s with hs := { s.hs with periods := (p :: s.hs.periods).take periodsKept, issued := p.dec ≠ 0 } }

/-- The deflector target changes at tF(k) - Tsettle to the index that the decision found, whatever the period carries (R182). -/
def State.pushTarget (s : State) (w : Look) : State :=
  { s with hs := { s.hs with targets := ((w.d + s.horizon - s.tsettle, w.q.map (s.found w)) :: s.hs.targets).take 64 } }

/-- Decide period `k` and put it into the pipeline. -/
def State.decidePeriod (s : State) (w : Look) (valid handover : Bool) (events : Nat) : State :=
  let (s, c) := s.choose w valid
  let s := s.overspeed w.k c.jump
  let c : Choice := if handover then { c with dec := if c.dec = 0 ∨ c.again then 0 else 3, again := false } else c
  let kind := if handover then none else s.kindOf c
  let (s, x) := if kind = some 3 then s.testShot else (s, {})
  s.pushPeriod { k := w.k, d := w.d, fire := w.d + s.horizon, dec := c.dec, n := c.n, kind := kind,
                 due := w.d + 8 * s.getN Obj.FLASH_PERIOD - 8, again := c.again, code := x.code, beam := x.beam, shot := x.num,
                 cap := s.capNow, thermal := s.getN Obj.THERMAL_STATE, events := events }

/-- What the decision point sees: the latest good sample whose last bit arrived at least 3 cycles before (R173). -/
def State.look (s : State) (hold : Bool) : Look :=
  { k := s.hs.k, d := s.hs.nextD, q := if s.posState = 2 then s.sampleBy (s.hs.nextD - 3) else none,
    ok := !hold && s.getN Obj.DEFL_LINK_STATE = 1, awake := regions.all fun r => s.lost r || atD s.units.writing r 0 = 2 }

/-- The next decision point; RAIL_WINDOW follows the periods (R254). -/
def State.nextGrid (s : State) : State :=
  { s with hs := { s.hs with k := s.hs.k + 1, nextD := s.hs.nextD + s.getN Obj.FLASH_PERIOD } }.refreshRails

/-- STAGE_HOLD_N as taken at a decision point (R178). -/
def State.takeHoldPin (s : State) (hold : Bool) : State :=
  let s := s.setN Obj.STAGE_HOLD (b2n hold)
  if hold then s.inc Obj.HOLD_PERIODS else s

/-- A decision point of the active: the computation of the period before ends, the boundary work is done, the period decided. -/
def State.decideActive (s : State) (inp : DecisionInputs) : State :=
  let hold := !inp.stageHoldN
  let s := match s.openPeriod with
    | some p => s.computeActive p {}
    | none => s
  let a := s
  let s := (s.boundary s.hs.k inp.history).takeHoldPin hold
  let events := eventsOf a s s.hs.k
  let s : State := if s.jobState = 6 then { s with job := { s.job with abortTold := true } } else s
  let w := s.look hold
  let s := (s.pushTarget w).decidePeriod w (s.posState = 2) (decide (s.hs.k < s.pair.k1)) events
  (s.nextGrid).takeHeld

/-- The epoch boundary of a device that follows no records (R204). -/
def State.ownEpoch (s : State) : State := if s.hs.k % 64 = 0 then s.epoch s.hs.k else s

/-- A device that is releasing or released decides nothing (R256). -/
def State.decideNothing (s : State) (hold : Bool) : State := (((s.takeHoldPin hold).timeouts s.hs.k).ownEpoch).nextGrid

/-! ### The takeover at a decision point -/

/-- k_1: the first period with D(k_1 + 1) ≥ D(k_a) + HEAD_SWITCH_TIME (R258). -/
def State.firstPeriod (s : State) (ka : Nat) : Nat :=
  ka - 1 + ceilDiv (nsCycles (s.getN Obj.HEAD_SWITCH_TIME)) (s.getN Obj.FLASH_PERIOD)

/-- The last period whose record the standby holds (R257). -/
def State.lastHeld (s : State) : Nat := s.pair.lastRecord

/-- A period between k_r and D(k_a): boundary work and decision, carrying no frame (Table 10-9). -/
def State.handoverPeriod (s : State) (w : Look) : State :=
  let s := s.boundary w.k []
  let s := s.decidePeriod w w.q.isSome true 0
  match s.openPeriod with
  | some p => s.computeActive p {}
  | none => s

/-- The periods up to k_r that no record has decided are decided from the acknowledgements received (Table 10-9). -/
def State.adoptDecisions (s : State) : State :=
  s.hs.periods.foldl (fun (s : State) p =>
    match p.decided, p.own with
    | none, some f => s.decideFrames p (p.verdict.getD .timeout) f
    | some _, _ => s.putPeriod { p with verdict := some (p.verdict.getD .timeout) }
    | none, none => s) s

/-- The stream goes on from the indexes of the last STREAM_EVENT; the progress record is written; commands are sent again (R261). -/
def State.resumeRings (s : State) : State :=
  (({ s with st := { s.st with dirty := true } }.writeProgress).setCmds (s.head.cmds.map fun (c : HeadCmd) => { c with periods := 0 })).refreshStream

/-- The period in whose firing window PEER_ACT fell (Table 10-10). -/
def State.abruptIn (s : State) : Option Period :=
  match s.pair.peerFellAt with
  | none => none
  | some t => s.hs.periods.find? fun p => p.sync && p.fire ≤ t && t < p.fire + s.getN Obj.FLASH_PERIOD - s.tsettle

/-- Commits and table changes that this device has confirmed and that no record has put into effect yet are its own now (R249, R250): the
commits take effect at the flash boundaries to come, the changes at the next epoch boundary. DESIGN CHOICE: one that the released device
dropped because the confirmation came too late (Table 10-10) cannot be told from them here. -/
def State.adoptPending (s : State) : State :=
  let cs := s.pair.pendCommits
  let bs := s.pair.pendBeams
  let s : State := { s with pair := { s.pair with pendCommits := [], pendBeams := [] } }
  let s := cs.foldl (fun (s : State) es => s.acceptEntries (es.map fun e => ⟨e.1, .scalar e.2, 0⟩)) s
  bs.foldl (fun (s : State) x =>
    let rs := x.1.map fun (c : BeamChange) => (c.1, c.2.toNat)
    if x.2.2.isSome && !x.1.isEmpty then
      { s with head := { s.head with
          attachTable := some (rs.foldl (fun t c => putEntryOf t c.1 c.2) (List.replicate 480 [])), results := [] } }
    else { s with head := { s.head with results := s.head.results ++ rs.map fun c => ⟨c.1, c.2, none⟩ } }) s

/-- The standby claims at D(k_a) (R257 to R261, Table 10-8, Table 10-9). -/
def State.takeOver (s : State) : State :=
  let ka := s.hs.k
  let kr := s.lastHeld
  let k1 := s.firstPeriod ka
  let s : State := { s with pins := { s.pins with ownAct := true }, pair := { s.pair with claim := false, k1 := k1, releasing := false } }
  let s := (s.setN Obj.PAIR_STATE 1).inc Obj.HANDOVERS_TAKEN
  let s := s.setN Obj.LAST_TRIGGER ((s.pair.release.map (·.1)).getD 0)
  let abrupt := if s.pair.release.isSome then none else s.abruptIn
  let s := if abrupt.isSome then s.inc Obj.ABRUPT_RELEASES else s
  let s := ((s.setN Obj.LAST_KR kr).setN Obj.LAST_K1 k1).adoptDecisions
  let s : State := { s with pair := { s.pair with release := none, peerFellAt := none, peerStays := s.pair.release.any fun r => r.1 = 8 } }
  let d0 := match abrupt with
    | some p => toUnsigned 32 p.n
    | none => s.getN Obj.LAST_TRIGGER
  let s := (s.refreshBlk).logEvent ⟨5, 12, 255, 255, Obj.HANDOVERS_TAKEN, d0, b2n abrupt.isSome⟩
  let s := ((s.hs.looks.filter fun w => kr < w.k && w.k < ka).reverse).foldl State.handoverPeriod s
  (s.adoptPending).resumeRings

/-- A decision point of a standby: its own grid, position and deflector target (R242); what it saw is kept, and a decided takeover claims
here (R249, R257). -/
def State.decideStandby (s : State) (inp : DecisionInputs) : State :=
  let hold := !inp.stageHoldN
  if s.pair.claim then (s.takeOver).decideActive inp
  else
    let w := s.look hold
    let s := ((s.takeHoldPin hold).timeouts s.hs.k).pushTarget w
    let s : State := { s with hs := { s.hs with looks := (w :: s.hs.looks).take 64 } }
    (if s.getN Obj.PAIR_STATE = 0 then s.ownEpoch else s).nextGrid

/-- FLASH_DECISION: the decision point D(k) (R165, R173). From the lock of the core PLL on, periods and epochs are counted, before READY
too (Table 08-3, R204). -/
def execFlashDecision (inp : DecisionInputs) (s : State) : Out :=
  if !s.clk.coreLocked then .next s
  else if !s.coreOn then .next ((if s.hs.k % 64 = 0 then s.inc Obj.BEAM_EPOCH else s).nextGrid)
  else
    let s := s.at s.hs.nextD
    if s.isStandby then .next (s.decideStandby inp)
    else if s.getN Obj.PAIR_STATE ≠ 1 ∨ s.pair.releasing then .next (s.decideNothing (!inp.stageHoldN))
    else .next (s.decideActive inp)

/-! ### The firing check and FRAME_SYNC -/

/-- The firing check of R175 for a flash. -/
def State.fireOk (s : State) (p : Period) : Bool :=
  match s.sampleBy (p.fire - 7) with
  | none => false
  | some q =>
    let d0 := 1024 * p.n - q.predict p.fire
    let d1 := 1024 * p.n - q.predict (p.fire + s.getN Obj.FLASH_PERIOD - s.tsettle)
    s.posState = 2 && !s.pins.posFault && s.within d0 d1 q.y

/-- A period whose firing check is due: KIND 1 with a code other than 0. -/
def Period.checks (p : Period) : Bool := p.computed && p.kind = some 1 && p.lit && p.check.isNone && !p.sync

/-- Make the firing check of a period. -/
def State.checkFiring (s : State) (p : Period) : State :=
  let s := s.at (p.fire - 4)
  let ok := s.fireOk p
  (if ok then s else s.inc Obj.FIRE_WITHHELD).putPeriod { p with check := some ok }

/-- FIRING_CHECK: tF(k) - 4 cycles of the oldest flash not yet checked (R175). -/
def execFiringCheck (s : State) : Out :=
  if !s.coreOn ∨ s.isStandby then .next s
  else match s.hs.periods.reverse.find? fun p => p.checks && s.hs.k ≤ p.k + 8 with
    | some p => .next (s.checkFiring p)
    | none => .next s

/-- FRAME_SYNC is withheld after an abort or HALT (Table 02-11), and from a release on (R256). -/
def State.withheld (s : State) (p : Period) : Bool :=
  s.pair.releasing || s.aborted p || p.check = some false

/-- A period that raises FRAME_SYNC: a flash, a blanked flash or a test (R194). -/
def Period.syncs (p : Period) : Bool := p.computed && !p.sync && (p.kind = some 1 || p.kind = some 2 || p.kind = some 3)

/-- Sub-strobes of a firing group, in 78.125 ps after FRAME_SYNC: rise and fall (R195). -/
def State.strobes (s : State) (p : Period) (g : Nat) : List (Int × Int) :=
  let w : Int := s.get Obj.FIRE_WIDTH
  let x := s.get Obj.FIRE_STAGGER
  let n : Int := if p.kind = some 3 then 0 else p.n
  let slot : Int := if s.on Obj.FIRE_ROTATE then (g + n) % 8 else g
  (List.range 15).map fun (j : Nat) =>
    let t := 4 * slot * x * w + s.get (Obj.FIRE_TRIM + g) + 32 * (j : Int) * w
    (t, t + 16 * w)

/-- FRAME_SYNC rises at tF(k), with the strobes of the eight groups (R194, R195). -/
def State.raiseSync (s : State) (p : Period) : State :=
  let s := s.at p.fire
  let s := s.putPeriod { p with sync := true }
  let s : State := { s with pair := { s.pair with frameSyncs := ((p.k, p.fire) :: s.pair.frameSyncs).take 32 } }
  let s := (List.range 8).foldl (fun (s : State) g => s.emit (.fire p.k g (s.strobes p g))) (s.emit (.frameSync p.k))
  s.showInterruption

/-- FRAME_SYNC: tF(k) of the oldest period that raises it; a flash not yet checked is checked first (R175). -/
def execFrameSync (s : State) : Out :=
  if !s.coreOn ∨ s.isStandby ∨ !s.outputsOn then .next s
  else match s.hs.periods.reverse.find? fun p => p.syncs && !s.withheld p && s.hs.k ≤ p.k + 8 with
    | none => .next s
    | some p =>
      let s := if p.checks then s.checkFiring p else s
      match s.hs.periods.find? (·.k = p.k) with
      | some p => if p.check = some false then .next s else .next (s.raiseSync p)
      | none => .next s

end Sys2Proof.Machine
end

