-- ==== Sys2Proof/Machine/Commit.lean ====
section
/-! DEFINITION. The staging set and its commit (R44 to R47, R250, Table 02-7). -/
namespace Sys2Proof.Machine

/-! ### Staging (R44) -/

/-- STAGING_OWNER and STAGED_ENTRIES follow the set. -/
def State.setStaging (s : State) (owner : Nat) (es : List StagedEntry) : State :=
  let o := if es.isEmpty then 0 else owner
  { (s.setN Obj.STAGING_OWNER o).setN Obj.STAGED_ENTRIES es.length with stg := { s.stg with owner := o, entries := es } }

/-- The set is discarded. -/
def State.discardStaging (s : State) : State := s.setStaging 0 []

/-- The staged value of an object. -/
def State.stagedVal (s : State) (o : ObjRef) : Option StagedVal := (s.stg.entries.find? (·.obj = o)).map (·.val)

/-- Entries that the set holds at most. -/
abbrev stagingMax : Nat := 4096

/-- Stage a value: replaces the object's entry in its place, or adds one (R44). -/
def State.stage (s : State) (session : Nat) (o : ObjRef) (v : StagedVal) : Wr :=
  if !s.stg.entries.isEmpty ∧ s.stg.owner ≠ session then s.deny stStagingOwned
  else
    let k := s.stg.stamp + 1
    let u : State := { s with stg := { s.stg with stamp := k } }
    if s.stg.entries.any (·.obj = o) then
      (u.setStaging session (s.stg.entries.map fun (e : StagedEntry) => if e.obj = o then { e with val := v, stamp := k } else e)).ok
    else if stagingMax ≤ s.stg.entries.length then s.deny stLimit
    else (u.setStaging session (s.stg.entries ++ [⟨o, v, k⟩])).ok

/-! ### Conflict rules (R47, Table 02-7) -/

/-- The would-be configuration: every effective value, overlaid by staged ones (R45 step 2). -/
def State.wouldBe (s : State) (es : List StagedEntry) : State := es.foldl State.putEntry s

/-- The last write of any of the objects in the set; none where none is staged. -/
def stampOf (es : List StagedEntry) (objs : List ObjRef) : Option Nat :=
  es.foldl (fun a e => if objs.contains e.obj then some (max (a.getD 0) e.stamp) else a) none

/-- A claim: the object that names it and every object that makes it. -/
abbrev Claim := ObjRef × List ObjRef

/-- Claimants in the order of R47: the staged one, the one written later, else the lower reference. -/
def orderClaims (es : List StagedEntry) (a b : Claim) : ObjRef × ObjRef :=
  match stampOf es a.2, stampOf es b.2 with
  | some x, some y => if x > y then (a.1, b.1) else (b.1, a.1)
  | some _, none => (a.1, b.1)
  | none, some _ => (b.1, a.1)
  | none, none => if a.1 < b.1 then (a.1, b.1) else (b.1, a.1)

/-- Of several failures, the one with the lowest claimant 1, then the lowest claimant 2 (R47). -/
def lowest : List (ObjRef × ObjRef) → Option (ObjRef × ObjRef)
  | [] => none
  | x :: r =>
    match lowest r with
    | none => some x
    | some y => if x.1 < y.1 ∨ (x.1 = y.1 ∧ x.2 ≤ y.2) then some x else some y

/-- Every pair of a list, the earlier element first. -/
def pairsOf : List α → List (α × α)
  | [] => []
  | x :: r => r.map (fun y => (x, y)) ++ pairsOf r

/-- Minimum Tf and W of a head rank (Table 08-4). -/
def rankMin (rank : Nat) : Nat × Nat :=
  match rank with
  | 1 => (1000, 8)
  | 2 => (1600, 16)
  | _ => (3200, 32)

/-- Rule 4: the flash-fit rule of R196 does not hold. -/
def State.flashMisfit (s : State) (i : HeadIdentity) : Bool :=
  let w := s.getN Obj.FIRE_WIDTH
  8 * s.getN Obj.FLASH_PERIOD < 120 * w + 7 * w * s.getN Obj.FIRE_STAGGER + 8 * nsCycles i.tsettle

/-- Rules 4 and 5 on a configuration: code and claimants. -/
def State.headRules (s : State) : Option (Nat × ObjRef × ObjRef) :=
  match s.head.identity with
  | none => none
  | some i =>
    let (tf, w) := rankMin i.rank
    if s.flashMisfit i then some (4, Obj.FIRE_WIDTH, Obj.FLASH_PERIOD)
    else if s.getN Obj.FLASH_PERIOD < tf then some (5, Obj.FLASH_PERIOD, 0)
    else if s.getN Obj.FIRE_WIDTH < w then some (5, Obj.FIRE_WIDTH, 0)
    else none

/-- Users of the comparators in a configuration: comparator and claim (Table 16-2). -/
def State.comparatorUsers (s : State) : List (Nat × Claim) :=
  ((List.range 4).filter fun k => s.on (Obj.TTO_ENABLE + k)).map (fun k =>
    (s.getN (Obj.TTO_COMPARATOR + k), (Obj.TTO_COMPARATOR + k, [Obj.TTO_COMPARATOR + k, Obj.TTO_ENABLE + k]))) ++
  ((List.range 2).filter fun p => s.getN (Obj.CAM_TRIGGER + p) = 1).map (fun p =>
    (s.getN (Obj.CAM_COMPARATOR + p), (Obj.CAM_COMPARATOR + p, [Obj.CAM_COMPARATOR + p, Obj.CAM_TRIGGER + p]))) ++
  (if s.on Obj.CAL_SCHED_ENABLE then
    [(s.getN Obj.CAL_SCHED_COMPARATOR, (Obj.CAL_SCHED_COMPARATOR, [Obj.CAL_SCHED_COMPARATOR, Obj.CAL_SCHED_ENABLE]))] else [])

/-- DRAM regions and buffers that a configuration places: base, bytes, claim (R92, R225, R305, R337). A camera output's ring counts
while the output is enabled. -/
def State.placedRegions (s : State) : List (Nat × Nat × Claim) :=
  [(Obj.BLOCK_BUFFER_BASE, Obj.BLOCK_BUFFER_SIZE), (Obj.CELL_STORE_BASE, Obj.CELL_STORE_SIZE), (Obj.SPOOL_BASE, Obj.SPOOL_SIZE),
   (Obj.LEDGER_BASE, Obj.LEDGER_SIZE)].map (fun r => (s.getN r.1, s.getN r.2, (r.1, [r.1, r.2]))) ++
  ((List.range 6).filter fun i => s.on (Obj.OUT_ENABLE + i)).map (fun i =>
    (s.getN (Obj.OUT_BASE + i), s.getN (Obj.OUT_SLOTS + i) * (s.camCfg (i / 3)).slotSize (i % 3),
     (Obj.OUT_BASE + i, [Obj.OUT_BASE + i, Obj.OUT_SLOTS + i, Obj.OUT_ENABLE + i, Obj.CAM_WIDTH + i / 3, Obj.CAM_HEIGHT + i / 3,
       Obj.DISP_WIDTH + i / 3, Obj.DISP_HEIGHT + i / 3])))

/-- Two ranges of bytes share an address. -/
def rangesMeet (a n b m : Nat) : Bool := a < b + m && b < a + n

/-- Bytes of the ring of host jobs, whose descriptors take 32 each (R301). -/
def State.jobRingBytes (s : State) : Nat := 32 * s.getN Obj.HJ_RING_ENTRIES

/-- Rule 8: overlaps of placed regions, and of one or of the ring of host jobs with the reserved region, whose claimant 2 is 3000.03 (R268).
DEDUCED: the ring, whose default address is that of the block buffer, is judged against the reserved region only: the defaults would fail
otherwise. -/
def State.overlaps (s : State) (es : List StagedEntry) : List (ObjRef × ObjRef) :=
  let rs := s.placedRegions
  ((pairsOf rs).filter fun p => rangesMeet p.1.1 p.1.2.1 p.2.1 p.2.2.1).map (fun p => orderClaims es p.1.2.2 p.2.2.2) ++
  ((rs.filter fun r => rangesMeet r.1 r.2.1 (s.getN Obj.DRAM_RESERVED_BASE) (2 ^ 30)).map fun r => (r.2.2.1, Obj.DRAM_RESERVED_BASE)) ++
  (if rangesMeet (s.getN Obj.HJ_RING_BASE) s.jobRingBytes (s.getN Obj.DRAM_RESERVED_BASE) (2 ^ 30) then
    [(Obj.HJ_RING_BASE, Obj.DRAM_RESERVED_BASE)] else [])

/-- Rule 9: a region beyond the DRAM that the straps declare. The ring of host compression jobs is a buffer too. -/
def State.outOfDram (s : State) : List (ObjRef × ObjRef) :=
  let c := s.getN Obj.DRAM_CAPACITY
  ((s.placedRegions.filter fun r => c < r.1 + r.2.1).map fun r => (r.2.2.1, 0)) ++
  (if c < s.getN Obj.HJ_RING_BASE + s.jobRingBytes then [(Obj.HJ_RING_BASE, 0)] else [])

/-- Rule 10: SPOOL_NEED of R299 against SPOOL_SIZE. -/
def State.spoolShort (s : State) : Bool :=
  s.getN Obj.SPOOL_SIZE < spoolNeed (s.getN Obj.RUN_AHEAD_DEPTH) ((s.head.identity.map (·.pitch)).getD 32)

/-- Rule 11: the enabled term with the widest sigma, the lowest of several. -/
def State.widestTerm (s : State) : ObjRef :=
  let ts := (List.range 3).filter fun i => 0 < s.getN (Obj.TERM_ETA + i)
  let m := ts.foldl (fun m i => max m (s.getN (Obj.TERM_SIGMA + i))) 0
  match ts.find? fun i => s.getN (Obj.TERM_SIGMA + i) = m with
  | some i => Obj.TERM_SIGMA + i
  | none => Obj.TERM_SIGMA

/-- Objects that a standby receives from the active (rule 3, Table 10-3). -/
def isMirrored (o : ObjRef) : Bool := (0x2100 ≤ o / 256 && o / 256 ≤ 0x29FF) || (0x3600 ≤ o / 256 && o / 256 ≤ 0x36FF)

/-- An object whose Meaning says "job-fixed". -/
def jobFixedObj (o : ObjRef) : Bool := (objRow o).any (·.jobFixed)

/-- The lowest reference among objects. -/
def lowestObj (os : List ObjRef) : Option (ObjRef × ObjRef) := lowest (os.map fun o => (o, 0))

/-- A rule's code with the claimants of its failure, if it fails. -/
def ruleFails (code : Nat) (x : Option (ObjRef × ObjRef)) : Option (Nat × ObjRef × ObjRef) := x.map fun c => (code, c.1, c.2)

/-- The first rule of Table 02-7 that fails, in code order: code and claimants. -/
def State.conflict (s : State) (es : List StagedEntry) : Option (Nat × ObjRef × ObjRef) :=
  let w := s.wouldBe es
  let both (a b : ObjRef) : Option (ObjRef × ObjRef) := if w.on a ∧ w.on b then some (orderClaims es (a, [a]) (b, [b])) else none
  let users := w.comparatorUsers
  let shared := ((pairsOf users).filter fun p => p.1.1 = p.2.1).map fun p => orderClaims es p.1.2 p.2.2
  (if s.jobActive then ruleFails 1 (lowestObj ((es.map (·.obj)).filter jobFixedObj)) else none) <|>
  (if es.any (·.obj = Obj.BEHAVIOUR_LEVEL) then
    (es.find? (·.obj ≠ Obj.BEHAVIOUR_LEVEL)).map fun e => (2, Obj.BEHAVIOUR_LEVEL, e.obj) else none) <|>
  (if s.isStandby then ruleFails 3 (lowestObj ((es.map (·.obj)).filter isMirrored)) else none) <|>
  w.headRules <|>
  ruleFails 6 (both (Obj.TTO_ENABLE + 3) (Obj.CAM_STROBE_ENABLE + 1)) <|>
  ruleFails 7 (lowest shared) <|>
  ruleFails 8 (lowest (w.overlaps es)) <|>
  ruleFails 9 (lowest w.outOfDram) <|>
  (if w.spoolShort then some (10, Obj.RUN_AHEAD_DEPTH, Obj.SPOOL_SIZE) else none) <|>
  (if 128 < w.kernelR then some (11, w.widestTerm, 0) else none) <|>
  ruleFails 12 (both Obj.PTP_ENABLE (Obj.PTP_ENABLE + 1))

/-- Rules 13, 4 and 5 on the effective configuration, which START checks (R50). -/
def State.startConflict (s : State) : Option Nat :=
  if s.head.identity.isNone then some 13 else s.headRules.map (·.1)

/-! ### Acceptance (R45, R46) -/

/-- 1100.05 to 1100.08 record the result of a commit. -/
def State.recordCommit (s : State) (result code : Nat) (c1 c2 : ObjRef) : State :=
  (((s.setN Obj.LAST_COMMIT_RESULT result).setN Obj.LAST_CLAIMANT_1 c1).setN Obj.LAST_CLAIMANT_2 c2).setN Obj.LAST_CONFLICT code

/-- A commit is accepted: a session's (R45), or one that calibration makes, whose 3705 objects take effect at once (R368). -/
def State.acceptCommit (s : State) (es : List StagedEntry) (own : Bool) : State :=
  if !own then ((s.inc Obj.COMMITS_ACCEPTED).recordCommit 0 0 0 0).acceptEntries es
  else
    let (now, rest) := es.partition fun e => e.obj / 256 = 0x3705
    (s.applyEntries now).acceptEntries rest

/-- Body of a COMMIT mirror message: the entries that the standby receives. The coding is the model's own. -/
def commitBody (es : List StagedEntry) : Bytes :=
  (es.filter fun e => isMirrored e.obj).flatMap fun e =>
    match e.val with
    | .scalar v => leBytes 4 e.obj ++ leBytesI 8 v
    | .image _ => []

/-- What became of a commit: its RESULT, or it waits for the standby. -/
inductive CommitOutcome where
  | result (r : Nat)
  | waits
  deriving DecidableEq, Repr

/-- Entries become effective by a commit: at once, or after the standby has confirmed the mirror message (R250). -/
def State.commitEntries (s : State) (es : List StagedEntry) (own : Bool) (reply : Option (Caller × Nat)) : State × Bool :=
  if !s.mirrorsOn then (s.acceptCommit es own, false)
  else
    let q := atD s.pair.txSeq 4 0
    let wait := s.peerConfirms
    let s := s.mirror 4 0x12 (commitBody es)
    if wait then
      ({ s with stg := { s.stg with await := s.stg.await ++ [⟨q, es, own, reply⟩] },
                pair := { s.pair with await := s.pair.await ++ [q] } }, true)
    else (s.acceptCommit es own, false)

/-- COMMIT by a session (R44, R45). -/
def State.commitBy (s : State) (by_ : Caller) (reply : Option (Caller × Nat)) : State × CommitOutcome :=
  let es := s.stg.entries
  if es.isEmpty then (s.recordCommit 0 0 0 0, .result 0)
  else if s.stg.owner ≠ by_.session then (s.recordCommit 6 0 0 0, .result 6)
  else match s.conflict es with
    | some (code, c1, c2) => (s.recordCommit 12 code c1 c2, .result 12)
    | none =>
      let (s, w) := (s.discardStaging).commitEntries es false reply
      (s, if w then .waits else .result 0)

/-- Entries that the device commits by itself (R367 to R377). Numbers are checked by the item that writes them. -/
def State.commitOwn (s : State) (es : List (ObjRef × StagedVal)) : State :=
  (s.commitEntries (es.map fun e => ⟨e.1, e.2, 0⟩) true none).1

/-- A write of 1 to 1100.01 COMMIT. -/
def writeCommit (s : State) (by_ : Caller) (v : Nat) : Wr :=
  s.gate by_ Obj.COMMIT fun s =>
    if v ≠ 1 then s.deny stRange
    else match s.commitBy by_ none with
      | (s, .result r) => (s, r)
      | (s, .waits) => s.ok

end Sys2Proof.Machine
end

