-- ==== Sys2Proof/Machine/Head.lean ====
section
/-! DEFINITION. The head's identity (R201, R202), the rolling gate check (R209 to R212) and the full-array image (R213). -/
namespace Sys2Proof.Machine

/-! ### Attach -/

/-- 2701 reads its defaults while no head identity has been read (R202). -/
def State.clearIdentity (s : State) : State :=
  let s := (List.range 9).foldl (fun (s : State) i => s.setN (Obj.HEAD_SERIAL + i) 0) s
  { s with head := { s.head with prevSerial := (s.head.identity.map (·.serial)) <|> s.head.prevSerial, identity := none } }

/-- The bus clock in Hz (R201). -/
def i2cClock (speed : Nat) : Nat := if speed = 0 then 100000 else if speed = 1 then 400000 else 1000000

/-- A read of the identity memory on HEAD_SCL and HEAD_SDA: device 0x50, a 3-byte memory address, least significant byte first; nothing
while the pair-gated outputs are disabled (R201, R242). -/
def State.i2cRead (s : State) (address count : Nat) : State :=
  if s.outputsOn then s.emit (.i2cRead 0x50 s.head.attachHz (leBytes 3 address) count) else s

/-- Sequential reads of up to 65,536 bytes each (R202). -/
def State.i2cReads (s : State) (address count : Nat) : State :=
  foldN (ceilDiv count 65536) (fun s i => s.i2cRead (address + 65536 * i) (min 65536 (count - 65536 * i))) s

/-- An attach starts reading, with the header (R202). -/
def State.startAttach (s : State) (v : Nat) : State :=
  let s := (((s.clearIdentity).setN Obj.HEAD_STATE 1).setN Obj.HEAD_ATTACH_ERROR 0).setN Obj.HEAD_ATTACH_PERMILLE 0
  let hz := i2cClock (s.getN Obj.HEAD_I2C_SPEED)
  ({ s with head := { s.head with attaching := v, attachFrom := s.clk.cycle, attachHz := hz } }).i2cRead 0 64

/-- Bytes of the identity memory at most (R202). -/
abbrev identityBytes : Nat := 449608

/-- HEAD_ATTACH_PERMILLE while an attach reads, in the form of R55. DESIGN CHOICE: the share of 449,608 bytes that the bus has brought since
the start, at nine clocks a byte. -/
def State.attachPermille (s : State) : Nat :=
  min 999 (1000 * ((s.clk.cycle - s.head.attachFrom) * s.head.attachHz / (9 * secCycles)) / identityBytes)

/-- The device may not start an attach now (R202); it needs the core domain. -/
def State.attachRefused (s : State) : Bool :=
  s.jobState ∈ [2, 3, 4, 6] || (s.jobState = 1 && !s.lay.stripes.isEmpty) || s.getN Obj.HEAD_STATE = 1 || s.gateRuns || s.imageRuns ||
  s.isStandby || !s.coreOn

/-- A write of 1 or 2 to HEAD_ATTACH. -/
def writeHeadAttach (s : State) (by_ : Caller) (v : Nat) : Wr :=
  s.gate by_ Obj.HEAD_ATTACH fun s =>
    if v ≠ 1 ∧ v ≠ 2 then s.deny stRange else if s.attachRefused then s.deny stState else (s.startAttach v).ok

/-- HEAD_ATTACH_FACTORY: value 1. -/
def execHeadAttachFactory (by_ : Caller) (s : State) : Out := .next (writeHeadAttach s by_ 1).1

/-- HEAD_ATTACH_KEEP: value 2. -/
def execHeadAttachKeep (by_ : Caller) (s : State) : Out := .next (writeHeadAttach s by_ 2).1

/-- An attach fails a check of Table 08-8. -/
def State.attachFail (s : State) (code : Nat) : State :=
  { (s.setN Obj.HEAD_STATE 3).setN Obj.HEAD_ATTACH_ERROR code with head := { s.head with attaching := 0, identity := none } }

/-- The header, the efficiency table and the dead list of an identity memory, each with its CRC (Table 08-7). DESIGN CHOICE: of EFF_OFFSET
and DEAD_OFFSET the 24 bits count that a memory address has. -/
def memHeader (m : HeadMemory) : Bytes := slice m.bytes 0 64
def effAt (m : HeadMemory) : Nat := leAt m.bytes 52 4 % 2 ^ 24
def effTable (m : HeadMemory) : Bytes := slice m.bytes (effAt m) 384004
def deadAt (m : HeadMemory) : Nat := leAt m.bytes 56 4 % 2 ^ 24
def deadBytes (m : HeadMemory) : Nat := 4 * min 16384 (leAt m.bytes 48 4) + 4
def deadTable (m : HeadMemory) : Bytes := slice m.bytes (deadAt m) (deadBytes m)

/-- The identity that a header gives (Table 08-7). -/
def identityOf (h : Bytes) : HeadIdentity where
  model := slice h 24 16
  serial := leAt h 40 8
  rank := leAt h 5 1
  pitch := leAt h 6 1
  tsettle := leAt h 12 2
  tempWarn := leAtI h 14 2
  tempLimit := leAtI h 16 2
  tempHyst := leAt h 18 2
  minSyncDelay := leAt h 20 2
  deadCount := leAt h 48 4

/-- The dead list: beam and 0 OFF or 1 KILLED; none for an entry with a beam or a code that does not exist (Table 08-7). -/
def deadList : Nat → Bytes → Option (List (Nat × Nat))
  | 0, _ => some []
  | n + 1, bs =>
    let e := leAt bs 0 4
    if beamCount ≤ bitsOf e 18 0 ∨ 1 < bitsOf e 20 19 ∨ bitsOf e 31 21 ≠ 0 then none
    else (deadList n (bs.drop 4)).map fun r => (bitsOf e 18 0, bitsOf e 20 19) :: r

/-- Data followed by its CRC-32C. -/
def crcHolds (bs : Bytes) (n : Nat) : Bool := bs.length = n + 4 && (crc32c (bs.take n)).toNat = leAt bs n 4

/-- The first check of Table 08-8 that fails, 0 for none. -/
def attachCheck (m : HeadMemory) : Nat :=
  let h := memHeader m
  let i := identityOf h
  if !m.ack then 1
  else if h.length < 64 ∨ (crc32c (h.take 60)).toNat ≠ leAt h 60 4 then 2
  else if slice h 0 4 ≠ [0x53, 0x56, 0x48, 0x44] ∨ leAt h 4 1 ≠ 1 then 3
  else if leAt h 8 2 ≠ 480 ∨ leAt h 10 2 ≠ 640 ∨ ¬(i.pitch ∈ [16, 20, 24, 30, 32]) then 4
  else if ¬(i.rank ∈ [1, 2, 3]) ∨ i.tsettle < 3 ∨ 5000 < i.tsettle then 5
  else if i.tempLimit ≤ i.tempWarn ∨ i.tempHyst < 16 then 6
  else if !crcHolds (effTable m) 384000 then 7
  else if 16384 < i.deadCount ∨ !crcHolds (deadTable m) (4 * i.deadCount) ∨ (deadList i.deadCount (deadTable m)).isNone then 8
  else 0

/-- The 10-bit ecodes of a byte stream: four in five bytes. -/
def ecodes : Nat → Bytes → List Nat
  | 0, _ => []
  | n + 1, bs =>
    let v := leAt bs 0 5
    [bitsOf v 9 0, bitsOf v 19 10, bitsOf v 29 20, bitsOf v 39 30] ++ ecodes n (bs.drop 5)

/-- Per-beam table entry: ecode, state, no faults, not checked (Table 08-9). -/
def freshEntry (weak e : Nat) : Nat := 4 * e + (if e < weak then 1 else 0)

/-- Rows of the table of an attach with value 1, entries of 0 left out. -/
def freshRows (weak : Nat) : Nat → List Nat → List (List (Nat × Nat))
  | 0, _ => []
  | n + 1, es =>
    ((List.range 640).zip ((es.take 640).map (freshEntry weak))).filter (·.2 ≠ 0) :: freshRows weak n (es.drop 640)

/-- An entry of a table of rows. -/
def entryOf (t : List (List (Nat × Nat))) (b : Nat) : Nat := (kvGet (atD t (b / 640) []) (b % 640)).getD 0

/-- The table of an attach with value 1: the factory ecodes, then the dead list (R202). -/
def factoryTable (weak : Nat) (eff : Bytes) (dead : List (Nat × Nat)) : List (List (Nat × Nat)) :=
  dead.foldl (fun t d => putEntryOf t d.1 (entryOf t d.1 / 4 * 4 + 2 + d.2)) (freshRows weak 480 (ecodes 76800 eff))

/-- Entries of a table other than 0, with their beams. -/
def tableEntries (t : List (List (Nat × Nat))) : List (Nat × Nat) :=
  (t.mapIdx fun r row => row.map fun p => (640 * r + p.1, p.2)).flatten

/-- The fields of an identity appear in 2701. -/
def State.showIdentity (s : State) (i : HeadIdentity) : State :=
  let s := (((s.setN Obj.HEAD_SERIAL i.serial).setN Obj.HEAD_RANK i.rank).setN Obj.HEAD_PITCH i.pitch).setN Obj.HEAD_TSETTLE i.tsettle
  let s := ((s.set Obj.HEAD_TEMP_WARN i.tempWarn).set Obj.HEAD_TEMP_LIMIT i.tempLimit).setN Obj.HEAD_TEMP_HYST i.tempHyst
  (s.setN Obj.HEAD_MIN_SYNC_DELAY i.minSyncDelay).setN Obj.HEAD_DEAD_COUNT i.deadCount

/-- An attach passes every check (R202). -/
def State.attachPass (s : State) (m : HeadMemory) : State :=
  let i := identityOf (memHeader m)
  let dead := (deadList i.deadCount (deadTable m)).getD []
  let same := s.head.attaching = 2 ∧ s.head.prevSerial = some i.serial
  let s := (((s.setN Obj.HEAD_STATE 2).setN Obj.HEAD_ATTACH_ERROR 0).setN Obj.HEAD_ATTACH_PERMILLE 1000).showIdentity i
  let s : State := { s with head := { s.head with identity := some i, dead := dead, attaching := 0 } }
  let s := if same then
      let (s, _) := s.sendBeams [] true
      let killed := (tableEntries (s.head.attachTable.getD s.head.table)).filter fun e => beamState e.2 = 3 && !dead.any (·.1 = e.1)
      killed.foldl (fun (s : State) e => s.queueDisable e.1) s
    else
      let t := factoryTable (s.getN Obj.GATE_WEAK_LEVEL) (effTable m) dead
      let (s, q) := s.sendBeams (tableEntries t) true
      let s : State := { s with head := { s.head with attachTable := some t, attachAwait := q, results := [] } }
      s.setEdits []
  s.takeHeld

/-- The reads that follow the header (R202). -/
def State.readMemory (s : State) (m : HeadMemory) : State :=
  if m.ack then (s.i2cReads (effAt m) 384004).i2cReads (deadAt m) (deadBytes m) else s

/-- HEAD_ATTACH_COMPLETE: the memory has been read (R202, Tables 08-7 and 08-8). With HEAD_SCL and HEAD_SDA released nothing answers
(R242). -/
def execHeadAttachComplete (mem : HeadMemory) (s : State) : Out :=
  if s.head.attaching = 0 then .next s
  else
    let m : HeadMemory := { mem with ack := mem.ack && s.outputsOn }
    let s := s.readMemory m
    match attachCheck m with
    | 0 => .next (s.attachPass m)
    | code => .next (s.attachFail code)

/-- I2C_STRETCH_TIMEOUT: a clock stretch of more than 25 ms ends the attach (R201). -/
def execI2cStretchTimeout (s : State) : Out := .next (if s.head.attaching = 0 then s else s.attachFail 1)

/-! ### Gate check -/

/-- Conditions that refuse a gate check and an image (R210, R213); both need the core domain. -/
def State.testRefused (s : State) : Bool :=
  s.getN Obj.SWEEP_STATE ∈ [1, 2, 3] || !s.on Obj.POS_ENABLE || s.getN Obj.GATE_RX_STATE = 0 || s.getN Obj.HEAD_STATE ≠ 2 ||
  s.gateRuns || s.imageRuns || s.isStandby || !s.coreOn

/-- A write of 1 to GATE_CHECK_START (R210); refused also while GATE_GAIN is 0 (R366). -/
def writeGateCheckStart (s : State) (by_ : Caller) (v : Nat) : Wr :=
  s.gate by_ Obj.GATE_CHECK_START fun s =>
    if v ≠ 1 then s.deny stRange
    else if s.testRefused ∨ f32Val (s.getN Obj.GATE_GAIN) = 0 then s.deny stState
    else
      let s := ((s.setN Obj.GATE_STATE 1).setN Obj.GATE_PERMILLE 0).setN Obj.GATE_BEAMS_DONE 0
      ({ s with head := { s.head with gate := some { cursor := s.getN Obj.GATE_CURSOR } } }).ok

/-- GATE_CHECK_START. -/
def execGateCheckStart (by_ : Caller) (s : State) : Out := .next (writeGateCheckStart s by_ 1).1

/-- The gate check ends with GATE_STATE `v`, and a release that waited for it takes effect (R161, R210). -/
def State.gateEnd (s : State) (v : Nat) : State := if s.getN Obj.GATE_STATE ∈ [1, 2] then (s.gateStop v).lateRelease else s

/-- A write of 1 to GATE_CHECK_STOP. -/
def writeGateCheckStop (s : State) (by_ : Caller) (v : Nat) : Wr :=
  s.gate by_ Obj.GATE_CHECK_STOP fun s => if v ≠ 1 then s.deny stRange else (s.gateEnd 4).ok

/-- GATE_CHECK_STOP. -/
def execGateCheckStop (by_ : Caller) (s : State) : Out := .next (writeGateCheckStop s by_ 1).1

/-- O·shots·span in binary64 (R211, R212). -/
def State.offsetSum (s : State) : Rat :=
  f64Mul (f64Mul (f32Val (s.getN Obj.GATE_OFFSET)) (s.getN Obj.GATE_SHOTS)) (s.getN Obj.GATE_SPAN)

/-- The net dark sum exceeds GATE_DARK_LIMIT (R211). -/
def State.darkStuck (s : State) (sum : Int) : Bool :=
  let d := f64Sub (sum : Rat) s.offsetSum
  (s.getN Obj.GATE_DARK_LIMIT : Rat) < (if d < 0 then -d else d)

/-- A beam is suspected to be stuck on: the event is entered and, in RUNNING, a hold is set (R211). -/
def State.stuckSuspect (s : State) : State :=
  let s := s.logEvent ⟨4, 7, 255, 255, Obj.GATE_STATE, 5, 0⟩
  if s.jobState = jobRunning then s.setHold else s

/-- The sum of one shot: GATE_SPAN samples from GATE_DELAY samples after FRAME_SYNC on (R211). -/
def State.shotSum (s : State) (xs : List (BitVec 16)) : Int :=
  ((xs.drop (s.getN Obj.GATE_DELAY)).take (s.getN Obj.GATE_SPAN)).foldl (fun a x => a + x.toInt) 0

/-- The sum of a measurement: GATE_SHOTS shots, each with all of its samples received on a gate ADC link in its data phase; none before
that (R209, R211). -/
def State.gateSum (s : State) (shots : Shots) : Option Int :=
  if s.getN Obj.GATE_RX_STATE = 1 ∧ shots.length = s.getN Obj.GATE_SHOTS ∧
     shots.all (fun xs => decide (s.getN Obj.GATE_DELAY + s.getN Obj.GATE_SPAN ≤ xs.length)) then
    some (shots.foldl (fun a xs => a + s.shotSum xs) 0)
  else none

/-- GATE_DARK_DONE: the dark measurement is complete (R211). -/
def execGateDarkDone (shots : Shots) (s : State) : Out :=
  match s.head.gate, s.gateSum shots with
  | some g, some sum =>
    if s.getN Obj.GATE_STATE ≠ 1 ∨ g.sent < s.getN Obj.GATE_SHOTS then .next s
    else if s.darkStuck sum then .next (s.gateEnd 5).stuckSuspect
    else .next { s.setN Obj.GATE_STATE 2 with head := { s.head with gate := some { g with sent := 0 } } }
  | _, _ => .next s

/-- The newest periods up to the one that carries shot 0. -/
def toShotZero : List Period → List Period
  | [] => []
  | p :: r => if p.shot = some 0 then [p] else p :: toShotZero r

/-- The periods of the latest measurement of a beam, or of all, newest first. -/
def State.runOf (s : State) (beam : Option Nat) : List Period :=
  toShotZero (s.hs.periods.filter fun p => p.kind = some 3 && p.beam = beam && p.shot.isSome)

/-- Whether every frame of a measurement of `n` shots that `lanes` selects was decided fired; none while a decision is outstanding (R199,
R212, R213). -/
def State.shotsFired (s : State) (beam : Option Nat) (n : Nat) (lanes : Period → List Nat) : Option Bool :=
  let run := s.runOf beam
  if run.length ≠ n ∨ run.any (·.decided.isNone) then none
  else some (run.all fun p => (lanes p).all fun l => p.decided.any (·.getLsbD l))

/-- ecode of a net gate sum (R212), in binary64; none while the gain is 0. -/
def State.ecodeOf (s : State) (sum : Int) : Option Int :=
  let g := f32Val (s.getN Obj.GATE_GAIN)
  if g = 0 then none
  else
    let e := f64Div (f64Sub (sum : Rat) s.offsetSum) (f64Mul (f64Mul g (s.getN Obj.GATE_CODE)) (s.getN Obj.GATE_SHOTS))
    some (rneQ (f64Mul 1024 e) - 512)

/-- An entry after a gate measurement, steps 1 to 4 of R212. A beam that has meanwhile become OFF or KILLED keeps its state (R206). -/
def measuredEntry (old : Nat) (ecode : Option Int) (tol weak limit turn : Nat) : Nat :=
  let faults := bitsOf old 27 24
  let (st, ec, f) : Nat × Nat × Nat := match ecode with
    | some e =>
      if e < 0 ∨ 1023 < e then (2, beamEcode old, min 15 (faults + 1))
      else (if e < (weak : Int) then 1 else 0, e.toNat, if (tol : Int) < ((e - beamEcode old).natAbs : Int) then min 15 (faults + 1) else faults)
    | none => (2, beamEcode old, min 15 (faults + 1))
  f * 2 ^ 24 + turn % 4096 * 2 ^ 12 + 4 * ec + (if 2 ≤ beamState old then beamState old else if limit ≤ f then 2 else st)

/-- GATE_LAST_ECODE; an ecode outside I16 has no value that the spec gives. -/
def State.showEcode (s : State) (ecode : Option Int) : State :=
  match ecode with
  | some e =>
    if -32768 ≤ e ∧ e ≤ 32767 then s.set Obj.GATE_LAST_ECODE e
    else let (v, s) := s.freeNat; s.set Obj.GATE_LAST_ECODE (toSigned 16 v)
  | none => let (v, s) := s.freeNat; s.set Obj.GATE_LAST_ECODE (toSigned 16 v)

/-- A beam is measured: its entry is updated at the next epoch boundary, the cursor advances (R212). -/
def State.gateMeasured (s : State) (g : Gate) (b : Nat) (sum : Int) : State :=
  let ec := s.ecodeOf sum
  let e := measuredEntry (s.beamThen b) ec (s.getN Obj.GATE_EFF_TOLERANCE) (s.getN Obj.GATE_WEAK_LEVEL) (s.getN Obj.GATE_FAULT_LIMIT)
    (s.getN Obj.TURNAROUND_COUNT)
  let g := { g with done := g.done + 1 }
  let n := s.getN Obj.GATE_BEAMS
  let s := (((s.addResults [(b, e)]).showEcode ec).setN Obj.GATE_LAST_BEAM b).setN Obj.GATE_BEAMS_DONE g.done
  let s := (s.setN Obj.GATE_CURSOR g.at).setN Obj.GATE_PERMILLE (if n ≤ g.done then 1000 else 1000 * g.done / n)
  let s : State := { s with head := { s.head with gate := some g } }
  if n ≤ g.done then s.gateEnd 3 else s

/-- The oldest beam measured whole has its sum, and its shots their decisions (R212). -/
def State.gateResult (s : State) (g : Gate) (b : Nat) (rest : List Nat) (sum : Int) (fired : Bool) : State :=
  let again := g.failed.contains b
  let g : Gate := { g with waiting := rest, failed := g.failed.filter (· ≠ b) }
  if fired then s.gateMeasured g b sum
  else if again then s.gateEnd 4
  else { s with head := { s.head with gate := some { g with redo := g.redo ++ [b], failed := g.failed ++ [b] } } }

/-- GATE_BEAM_MEASURED: the samples of the oldest beam measured whole, at core cycle `t` (R212). The result waits until every shot is
decided. -/
def execGateBeamMeasured (t : Nat) (shots : Shots) (s : State) : Out :=
  let s := s.at t
  match s.head.gate, s.gateSum shots with
  | some g, some sum =>
    match g.waiting with
    | [] => .next s
    | b :: rest =>
      match s.shotsFired (some b) (s.getN Obj.GATE_SHOTS) fun _ => [laneOf b] with
      | some fired => .next (if s.getN Obj.GATE_STATE = 2 then s.gateResult g b rest sum fired else s)
      | none => .next s
  | _, _ => .next s

/-! ### Full-array image -/

/-- A write of 1 to IMAGE_START (R213). -/
def writeImageStart (s : State) (by_ : Caller) (v : Nat) : Wr :=
  s.gate by_ Obj.IMAGE_START fun s =>
    if v ≠ 1 then s.deny stRange
    else if s.testRefused ∨ s.jobState ∈ [1, 2, 4, 6] then s.deny stState
    else
      let s := ((((s.setN Obj.IMAGE_STATE 1).setN Obj.IMAGE_PERMILLE 0).setN Obj.IMAGE_STUCK_FOUND 0).setN Obj.IMAGE_OFF_FOUND 0).setN
        Obj.SPOT_FAILURE 0
      ({ s.modSpot fun _ => {} with head := { s.head with image := some {} } }).ok

/-- IMAGE_START. -/
def execImageStart (by_ : Caller) (s : State) : Out := .next (writeImageStart s by_ 1).1

/-- The image ends with IMAGE_STATE `v`. -/
def State.imageEnd (s : State) (v : Nat) : State :=
  if s.imageRuns then { s.setN Obj.IMAGE_STATE v with head := { s.head with image := none } } else s

/-- Beams that the image finds stuck on, then those that it finds missing (R213). A box outside the image shows nothing. -/
def State.imageFound (s : State) : List Nat × List Nat :=
  let m := s.getN Obj.SPOT_MEDIAN
  let live := ((List.range beamCount).zip (s.cams.spot.dark.zip s.cams.spot.lit)).filter fun p => beamState (s.beamThen p.1) ≠ 3
  let stuck := live.filter fun p => p.2.1 ≠ 0xFFFFFFFF && decide (m * s.getN Obj.IMAGE_STUCK_LEVEL ≤ 65536 * p.2.1)
  let off := live.filter fun p => !(p.2.1 ≠ 0xFFFFFFFF && decide (m * s.getN Obj.IMAGE_STUCK_LEVEL ≤ 65536 * p.2.1)) &&
    decide (beamState (s.beamThen p.1) < 2) && (p.2.2 = 0xFFFFFFFF || decide (65536 * p.2.2 < m * s.getN Obj.IMAGE_OFF_LEVEL))
  (stuck.map (·.1), off.map (·.1))

/-- The image is done: its results take effect at the next epoch boundary, KILLED beams are disabled. -/
def State.imageDone (s : State) : State :=
  let (stuck, off) := s.imageFound
  let s := ((s.imageEnd 3).setN Obj.IMAGE_PERMILLE 1000).setN Obj.IMAGE_STUCK_FOUND stuck.length
  let s := s.setN Obj.IMAGE_OFF_FOUND off.length
  let set (v b : Nat) : Nat × Nat := (b, s.beamThen b / 4 * 4 + v)
  stuck.foldl State.queueDisable (s.addResults (stuck.map (set 3) ++ off.map (set 2)))

/-- IMAGE_PHASE_DONE: at core cycle `t` the periods of a phase have been decided and its spots measured (R213). -/
def execImagePhaseDone (t : Nat) (s : State) : Out :=
  let s := s.at t
  match s.head.image, s.shotsFired none (s.getN Obj.IMAGE_SHOTS) Period.sentLanes with
  | none, _ => .next s
  | _, none => .next s
  | some g, some fired =>
    if !s.imageRuns ∨ g.sent < s.getN Obj.IMAGE_SHOTS then .next s
    else if !fired then
      if g.repeated then .next (s.imageEnd 4)
      else
        let dark := s.getN Obj.IMAGE_STATE = 1
        .next { s.modSpot fun (x : Spot) => { x with strobeAt := none, frame := none, dark := if dark then [] else x.dark, lit := [] } with
                head := { s.head with image := some { repeated := true } } }
    else if s.getN Obj.IMAGE_STATE = 1 then
      if s.cams.spot.dark.isEmpty then .next s
      else .next { (s.setN Obj.IMAGE_STATE 2).setN Obj.IMAGE_PERMILLE 500 with head := { s.head with image := some {} } }
    else if s.cams.spot.lit.isEmpty then .next s
    else .next s.imageDone

end Sys2Proof.Machine
end

