-- ==== Sys2Proof/Machine/Calib.lean ====
section
/-! DEFINITION. Calibration and trimming (R363 to R378). Sums, edges, positions and frames reach an item from the gate ADC, the
time-to-digital converters, the position port and the camera port. -/
namespace Sys2Proof.Machine

/-! ### The queue and the running item -/

/-- Items join the queue (R365, R376). -/
def State.queueItems (s : State) (mask : Nat) : State :=
  let q := (List.range 9).foldl (fun q i => if bitOf mask i then setBit q i else q) (s.getN Obj.CAL_QUEUE)
  let s := s.setN Obj.CAL_QUEUE q
  if s.getN Obj.CAL_STATE = 0 ∧ q ≠ 0 then s.setN Obj.CAL_STATE 1 else s

/-- A write of a mask to CAL_START (R365); calibration needs the core domain. -/
def writeCalStart (s : State) (by_ : Caller) (mask : Nat) : Wr :=
  s.gate by_ Obj.CAL_START fun s =>
    if mask = 0 ∨ 0x1FF < mask then s.deny stRange else if !s.coreOn then s.deny stState else (s.queueItems mask).ok

/-- CAL_START. -/
def execCalStart (by_ : Caller) (mask : Nat) (s : State) : Out := .next (writeCalStart s by_ mask).1

/-- The running item ends, and a release that waited for it takes effect (R161, R365). -/
def State.calFinish (s : State) (status : Nat) : State := (s.calEnd status).lateRelease

/-- Item `i` runs. -/
def State.calRuns (s : State) (i : Nat) : Bool := s.getN Obj.CAL_STATE = 2 && s.getN Obj.CAL_ITEM = i

/-- The item whose turn it is: the one abandoned at the head of the queue, else the lowest queued (R365, R367). -/
def State.calNext (s : State) : Option Nat :=
  let q := s.getN Obj.CAL_QUEUE
  match s.cal.first with
  | some i => if bitOf q i then some i else (List.range 9).find? (bitOf q)
  | none => (List.range 9).find? (bitOf q)

/-- An item that needs a gap may start (R366). -/
def State.calMayGap (s : State) : Bool :=
  s.getN Obj.SWEEP_STATE ∈ [0, 4] && s.jobState ≠ jobAborting && !s.gateRuns && !s.imageRuns

/-- The prerequisites of an item hold (R366). -/
def State.calReady (s : State) (i : Nat) : Bool :=
  let head := s.getN Obj.HEAD_STATE = 2 && !s.isStandby
  let gate := head && s.on Obj.POS_ENABLE && s.getN Obj.GATE_RX_STATE = 1 && s.getN Obj.DEFL_LINK_STATE = 1
  let gain := decide (0 < f32Val (s.getN Obj.GATE_GAIN))
  let dose := s.getN Obj.GATE_REF_DOSE
  let cam := s.camState (s.getN Obj.CAM_CAL_PORT)
  match i with
  | 0 => s.on Obj.REFCAL_PRESENT
  | 1 => head
  | 2 => gate
  | 3 => gate && decide (32768 ≤ dose ∧ dose ≤ 98240)
  | 4 | 5 => gate && gain
  | 6 => true
  | _ => cam = 1 || cam = 2

/-- CAL_ITEM_START: the turn of the next item (R365, R366). -/
def execCalItemStart (s : State) : Out :=
  match s.calNext with
  | none => .next s
  | some i =>
    if s.getN Obj.CAL_STATE = 2 ∨ !s.coreOn ∨ (i ∈ [1, 2, 3, 4, 5] ∧ !s.calMayGap) then .next s
    else
      let ready := s.calReady i
      let s := ((s.setN Obj.CAL_QUEUE (clearBit (s.getN Obj.CAL_QUEUE) i)).setN Obj.CAL_ITEM i).setN Obj.CAL_PERMILLE 0
      let s : State := { s with cal := { s.cal with first := none, begun := s.hs.k, cycle := s.clk.cycle, sent := 0, redo := [], tried := [], missed := false } }
      .next (if ready then s.setN Obj.CAL_STATE 2 else s.calFinish 4)

/-! ### Items 0 and 1 -/

/-- CAL_REFCLK_DONE (R369): `cycles` core cycles over N REFCAL periods; `refcalOk` false where a period was outside ±100 ppm. -/
def execCalRefclkDone (cycles : Nat) (refcalOk : Bool) (s : State) : Out :=
  if !s.calRuns 0 then .next s
  else if !refcalOk ∨ cycles = 0 then .next (s.calFinish 3)
  else
    let e := 40 * (10000000 * s.getN Obj.CAL_REF_SECONDS)
    let err := rneDiv (1000000000 * ((cycles : Int) - e)) e
    if 100000 < err.natAbs then .next (s.calFinish 2)
    else .next (((s.set Obj.REFCLK_ERROR err).setN Obj.SUGGESTED_INCREMENT (rneDivN (171798691840 * e) cycles)).calFinish 1)

/-- The mean of integers. -/
def meanI (l : List Int) : Rat := if l.isEmpty then 0 else (l.foldl (· + ·) 0 : Int) / (l.length : Rat)

/-- The mean square deviation. -/
def varianceI (l : List Int) : Rat :=
  let m := meanI l
  if l.isEmpty then 0 else (l.foldl (fun (a : Rat) (x : Int) => a + ((x : Rat) - m) * ((x : Rat) - m)) 0) / (l.length : Rat)

/-- |r|. -/
def absQ (r : Rat) : Rat := if r < 0 then -r else r

/-- CAL_STROBE_SKEW_DONE (R370): the rising edges of the eight groups in 64 periods, in ps. -/
def execCalStrobeSkewDone (edges : List (List Int)) (refcalOk : Bool) (s : State) : Out :=
  if !s.calRuns 1 ∨ edges.length ≠ 8 ∨ edges.any (·.length ≠ 64) then .next s
  else if !refcalOk then .next (s.calFinish 3)
  else
    let means := edges.map meanI
    let all := means.foldl (· + ·) 0 / 8
    let m := means.map (· - all)
    let off := m.mapIdx fun k x => (s.get (Obj.FIRE_SKEW_TARGET + k) : Rat) - x
    if off.any (fun x => 1250 < absQ x) ∨ edges.any (fun l => 2500 < varianceI l) then .next (s.calFinish 2)
    else
      let s := (m.mapIdx fun k x => (k, x)).foldl (fun (s : State) p => s.set (Obj.FIRE_SKEW_MEASURED + p.1) (rneQ p.2)) s
      let trims := off.mapIdx fun k x => (Obj.FIRE_TRIM + k, StagedVal.scalar (rneQ (x * 8 / 625)))
      .next ((s.commitOwn trims).calFinish 1)

/-! ### Items 2 to 4 -/

/-- Every shot of the running item has been sent and decided, and none is to be repeated (R371). -/
def State.calShotsDone (s : State) : Bool :=
  decide (s.calTotal ≤ s.cal.sent) && s.cal.redo.isEmpty &&
  !s.hs.periods.any fun p => decide (s.cal.begun ≤ p.k) && p.shot.isSome && p.outstanding

/-- CAL_GATE_OFFSET_DONE (R371). -/
def execCalGateOffsetDone (shots : Shots) (s : State) : Out :=
  match s.gateSum shots with
  | none => .next s
  | some sum =>
  if !s.calRuns 2 ∨ !s.calShotsDone then .next s
  else
    let o := f64Div (sum : Rat) (f64Mul (s.getN Obj.GATE_SHOTS) (s.getN Obj.GATE_SPAN))
    match f32Bits o with
    | some b =>
      if f32Val (s.getN Obj.GATE_OFFSET_LIMIT) < absQ o then .next (s.calFinish 2)
      else .next ((s.commitOwn [(Obj.GATE_OFFSET, .scalar b)]).calFinish 1)
    | none => .next (s.calFinish 2)

/-- Items 3 to 5 end or go on: nothing yet while shots or samples are outstanding; a shot not fired twice, or a dark sum above the limit,
ends the item with status 3, and the latter also acts as R211 gives (R371); otherwise `f` has the sums. -/
def State.calMeasured (s : State) (dark : Shots) (lit : Option α) (f : α → State) : State :=
  if s.cal.missed then s.calFinish 3
  else match s.gateSum dark, lit with
    | some d, some x =>
      if !s.calShotsDone then s else if s.darkStuck d then (s.calFinish 3).stuckSuspect else f x
    | _, _ => s

/-- The sums of several measurements, none while one lacks samples. -/
def State.gateSums (s : State) : List Shots → Option (List Int)
  | [] => some []
  | x :: r => match s.gateSum x, s.gateSums r with
    | some v, some vs => some (v :: vs)
    | _, _ => none

/-- The gate gain of item 3 (R371), in binary64. -/
def State.gainOf (s : State) (sum : Int) : Rat :=
  let d := f64Div (s.getN Obj.GATE_REF_DOSE) 65536
  f64Div (f64Sub (sum : Rat) s.offsetSum) (f64Mul (f64Mul d (s.getN Obj.GATE_CODE)) (s.getN Obj.GATE_SHOTS))

/-- The gain of item 3 is judged and applied (R368, R371). -/
def State.calGain (s : State) (sum : Int) : State :=
  let g := s.gainOf sum
  let old := f32Val (s.getN Obj.GATE_GAIN)
  if g ≤ 0 ∨ (old ≠ 0 ∧ (s.getN Obj.GATE_GAIN_CHANGE : Rat) * absQ old < 100 * absQ (g - old)) then s.calFinish 2
  else match f32Bits g with
    | some b => (s.commitOwn [(Obj.GATE_GAIN, .scalar b)]).calFinish 1
    | none => s.calFinish 2

/-- CAL_GATE_GAIN_DONE, at core cycle `t` (R371). -/
def execCalGateGainDone (t : Nat) (dark shots : Shots) (s : State) : Out :=
  let s := s.at t
  if !s.calRuns 3 then .next s else .next (s.calMeasured dark (s.gateSum shots) s.calGain)

/-- Step 1 of R212 sets the beam OFF. -/
def outOfRange (e : Option Int) : Bool :=
  match e with
  | some e => e < 0 || 1023 < e
  | none => true

/-- The results of item 4 are judged and all take effect at one epoch boundary (R372). -/
def State.calBeamResults (s : State) (sums : List (Nat × Int)) : State :=
  let tol := s.getN Obj.GATE_EFF_TOLERANCE
  let res := (sums.filter fun p => s.measurable p.1).map fun p => (p.1, s.beamThen p.1, s.ecodeOf p.2)
  if s.getN Obj.BEAM_OFF_LIMIT * res.length < 1000 * (res.filter fun r => outOfRange r.2.2).length then s.calFinish 2
  else
    let new := res.map fun r => (r.1, measuredEntry r.2.1 r.2.2 tol (s.getN Obj.GATE_WEAK_LEVEL) (s.getN Obj.GATE_FAULT_LIMIT)
      (s.getN Obj.TURNAROUND_COUNT))
    let changed := res.filter fun r => match r.2.2 with
      | some e => !outOfRange (some e) && decide (tol < (e - beamEcode r.2.1).natAbs)
      | none => false
    let s := (s.setN Obj.BEAM_RESULTS_OFF (new.filter fun e => beamState e.2 = 2).length).setN Obj.BEAM_RESULTS_CHANGED changed.length
    (s.addResults new).calFinish 1

/-- CAL_BEAM_EFFICIENCY_DONE (R372): at core cycle `t` the samples of the beams measured, in ascending index. -/
def execCalBeamEfficiencyDone (t : Nat) (dark : Shots) (beams : List (Nat × Shots)) (s : State) : Out :=
  let s := s.at t
  if !s.calRuns 4 then .next s
  else .next (s.calMeasured dark ((s.gateSums (beams.map (·.2))).map fun v => (beams.map (·.1)).zip v) s.calBeamResults)

/-! ### Items 5 and 6 -/

/-- Steps between which the net sums cross mid (R373). -/
def crossings (s : List Rat) (mid : Rat) : List Nat :=
  (List.range (s.length - 1)).filter fun j => decide (atD s j 0 < mid) != decide (atD s (j + 1) 0 < mid)

/-- 16 times the edge word, where exactly one crossing exists (R373). -/
def edgeWord (s : List Rat) : Option Int :=
  let hi := s.foldl max (s.headD 0)
  let lo := s.foldl min (s.headD 0)
  let mid := f64Div (f64Add hi lo) 2
  match crossings s mid with
  | [j] =>
    let a := atD s j 0
    let b := atD s (j + 1) 0
    let w := (scanWord s.length j : Rat)
    let step := (scanWord s.length (j + 1) : Rat) - w
    some (rneQ (f64Mul 16 (f64Add w (f64Div (f64Mul (f64Sub mid a) step) (f64Sub b a)))))
  | _ => none

/-- An integer as I32; one outside it has no value that the spec gives. -/
def State.i32OrFree (s : State) (v : Int) : Int × State :=
  if -2147483648 ≤ v ∧ v ≤ 2147483647 then (v, s) else let (f, s) := s.freeNat; (toSigned 32 f, s)

/-- The point of item 5 from the sums of its steps and the values of P, or Yc for axis 1, during the scan (R373). -/
def State.calPoint (s : State) (positions sums : List Int) : State :=
  let axis := s.getN Obj.DEFL_SCAN_AXIS
  let hi := positions.foldl max (positions.headD 0)
  let lo := positions.foldl min (positions.headD 0)
  let p := rneDiv (positions.foldl (· + ·) 0) positions.length
  match edgeWord (sums.map fun (x : Int) => f64Sub (x : Rat) s.offsetSum) with
  | none => s.calFinish 3
  | some w =>
    if (s.getN Obj.DEFL_STILL_LIMIT : Int) < hi - lo ∨ 16 ≤ s.cal.points.length then s.calFinish 3
    else
      let u : Int := if axis = 1 then s.get Obj.DEFL_EDGE_Y - p
        else if s.getN Obj.SWEEP_DIRECTION = 1 then p - s.get Obj.DEFL_EDGE_X else s.get Obj.DEFL_EDGE_X - p
      let (u, s) := s.i32OrFree u
      ({ s with cal := { s.cal with points := s.cal.points ++ [({ axis := axis, u := u, w16 := w } : DeflPoint)] } }).calFinish 1

/-- CAL_DEFL_SCAN_DONE (R373): at core cycle `t` the samples of the dark measurement and of the steps, and the positions during the
scan. -/
def execCalDeflScanDone (t : Nat) (dark : Shots) (steps : List Shots) (positions : List Int) (s : State) : Out :=
  let s := s.at t
  if !s.calRuns 5 ∨ steps.length ≠ s.getN Obj.DEFL_SCAN_STEPS ∨ positions.isEmpty then .next s
  else .next (s.calMeasured dark (s.gateSums steps) (s.calPoint positions))

/-- The bytes of DEFL_POINTS (R373). -/
def DeflPoint.toBytes (p : DeflPoint) : Bytes := byte p.axis :: zeros 3 ++ leBytesI 4 p.u ++ leBytesI 4 p.w16 ++ zeros 4

/-- A fit w = o + k·u: gain, offset, RMS residual (R374). -/
structure Fit1 where
  gain : Int
  offset : Int
  rms  : Rat
  ok   : Bool
  deriving DecidableEq, Repr

/-- The least-squares fit of the points of an axis (R374), against the effective gain and the fit limit. -/
def fitAxis (ps : List DeflPoint) (gain : Int) (limit : Nat) : Fit1 :=
  let n : Rat := ps.length
  let pts : List (Rat × Rat) := ps.map fun p => ((p.u : Rat), (p.w16 : Rat) / 16)
  let sx := pts.foldl (fun a p => a + p.1) 0
  let sy := pts.foldl (fun a p => a + p.2) 0
  let sxx := pts.foldl (fun a p => a + p.1 * p.1) 0
  let sxy := pts.foldl (fun a p => a + p.1 * p.2) 0
  let d := n * sxx - sx * sx
  let k := f64 ((n * sxy - sx * sy) / d)
  let o := f64 ((sy * sxx - sx * sxy) / d)
  let rms := f64Sqrt (f64 (pts.foldl (fun a p => a + (p.2 - o - k * p.1) * (p.2 - o - k * p.1)) 0 / n))
  let g := rneQ (f64Mul 65536 k)
  let b := rneQ o
  let us := ps.map (·.u)
  let span := us.foldl max (us.headD 0) - us.foldl min (us.headD 0)
  { gain := g, offset := b, rms := rms,
    ok := decide (4096 ≤ span) && decide (4 * (g - gain).natAbs ≤ gain.natAbs) && decide (b.natAbs ≤ 8192) && decide (rms ≤ (limit : Rat)) }

/-- The points of an axis. -/
def State.axisPoints (s : State) (a : Nat) : List DeflPoint := s.cal.points.filter (·.axis = a)

/-- CAL_DEFL_SOLVE_DONE (R374). -/
def execCalDeflSolveDone (s : State) : Out :=
  if !s.calRuns 6 then .next s
  else
    let fits := (([0, 1].filter fun a => 2 ≤ (s.axisPoints a).length).map fun a =>
      (a, fitAxis (s.axisPoints a) (s.get (Obj.DEFL_GAIN_X + a)) (s.getN Obj.DEFL_FIT_LIMIT)))
    if fits.isEmpty then .next (s.calFinish 4)
    else if fits.any fun f => !f.2.ok then .next (s.calFinish 2)
    else
      let s := fits.foldl (fun (s : State) f => s.set (Obj.DEFL_FIT_RMS + f.1) (rneQ (f64Mul 16 f.2.rms))) s
      let s := s.commitOwn (fits.flatMap fun f => [(Obj.DEFL_GAIN_X + f.1, .scalar f.2.gain), (Obj.DEFL_OFFSET_X + f.1, .scalar f.2.offset)])
      .next (({ s with cal := { s.cal with points := [] } }).calFinish 1)

/-- A write of 1 to DEFL_POINTS_CLEAR (R374). -/
def writeDeflPointsClear (s : State) (by_ : Caller) (v : Nat) : Wr :=
  s.gate by_ Obj.DEFL_POINTS_CLEAR fun s => if v ≠ 1 then s.deny stRange else ({ s with cal := { s.cal with points := [] } }).ok

/-- DEFL_POINTS_CLEAR. -/
def execDeflPointsClear (by_ : Caller) (s : State) : Out := .next (writeDeflPointsClear s by_ 1).1

/-! ### Items 7 and 8 -/

/-- Pixels of a phase inside a window of the image, with their values in a frame: their sum and count. -/
def phaseSum (frame : List (List Nat)) (k : Nat) (inside : Nat → Nat → Bool) : Nat × Nat :=
  let vs := (frame.mapIdx fun y row => (row.mapIdx fun x v => (x, v)).filterMap fun p =>
    if phaseOf p.1 y = k && inside p.1 y then some p.2 else none).flatten
  (vs.foldl (· + ·) 0, vs.length)

/-- The mean of a phase over frames; none where it has no pixel. -/
def phaseMean (frames : List (List (List Nat))) (k : Nat) (inside : Nat → Nat → Bool) : Option Rat :=
  let s := frames.map fun f => phaseSum f k inside
  let n := sumMap (·.2) s
  if n = 0 then none else some ((sumMap (·.1) s : Rat) / (n : Rat))

/-- Item `i` runs and has its frames (R375). -/
def State.calFrames (s : State) (i : Nat) (frames : List (List (List Nat))) : Bool :=
  s.calRuns i && frames.length = s.getN Obj.CAM_CAL_FRAMES

/-- CAL_CAM_DARK_DONE (R375): the complete frames of CAM_CAL_PORT, as 16-bit input values. -/
def execCalCamDarkDone (frames : List (List (List Nat))) (s : State) : Out :=
  if !s.calFrames 7 frames then .next s
  else
    let p := s.getN Obj.CAM_CAL_PORT
    let bs := (List.range 4).map fun k => rneQ ((phaseMean frames k fun _ _ => true).getD 0)
    if bs.any fun b => (s.getN Obj.CAM_BLACK_LIMIT : Int) < b then .next (s.calFinish 2)
    else .next ((s.commitOwn (bs.mapIdx fun k b => (Obj.BLACK_LEVEL + 4 * p + k, .scalar b))).calFinish 1)

/-- A pixel coordinate lies within ±(n - 1) / 32 of grid line i, which stands at i (n - 1) / 16 (R336, R375). -/
def nearGrid (n i x : Nat) : Bool :=
  let d := if 16 * x ≤ i * (n - 1) then i * (n - 1) - 16 * x else 16 * x - i * (n - 1)
  2 * d ≤ n - 1

/-- F(i, j) of a phase: the mean about a grid point less the black level (R375). -/
def State.flatMean (s : State) (p k : Nat) (frames : List (List (List Nat))) (i j : Nat) : Option Rat :=
  let w := s.getN (Obj.CAM_WIDTH + p)
  let h := s.getN (Obj.CAM_HEIGHT + p)
  (phaseMean frames k fun x y => nearGrid w i x && nearGrid h j y).map (· - (s.getN (Obj.BLACK_LEVEL + 4 * p + k) : Rat))

/-- The gain at a grid point from F(8, 8) and F there; 0, which no limit allows, where F has no pixel or is not positive (R375). -/
def gridGain (c : Rat) (f : Option Rat) : Int :=
  match f with
  | some f => if f ≤ 0 then 0 else rneQ (4096 * c / f)
  | none => 0

/-- The gains of a phase, row by row; none where a limit fails (R375). -/
def State.flatGains (s : State) (p : Nat) (frames : List (List (List Nat))) (k : Nat) : Option (List Nat) :=
  match s.flatMean p k frames 8 8 with
  | none => none
  | some c =>
    if c < 1024 then none
    else
      let gs := (List.range 17).flatMap fun j => (List.range 17).map fun i => gridGain c (s.flatMean p k frames i j)
      if gs.any fun g => g < 2048 || 16384 < g then none else some (gs.map Int.toNat)

/-- CAL_CAM_FLAT_DONE (R375). -/
def execCalCamFlatDone (frames : List (List (List Nat))) (s : State) : Out :=
  if !s.calFrames 8 frames then .next s
  else
    let p := s.getN Obj.CAM_CAL_PORT
    let gs := (List.range 4).map (s.flatGains p frames)
    if gs.any Option.isNone then .next (s.calFinish 2)
    else
      let img := gs.flatMap fun g => (g.getD []).flatMap (leBytes 2)
      .next ((s.commitOwn [(Obj.SHADING_GRID + p, .image img), (Obj.SHADING_ENABLE + p, .scalar 1)]).calFinish 1)

/-- CAL_CAM_TIMEOUT: 10 s without enough complete frames (R375). -/
def execCalCamTimeout (s : State) : Out :=
  if s.calRuns 7 || s.calRuns 8 then .next ((s.at (s.cal.cycle + 10 * secCycles)).calFinish 3) else .next s

/-! ### Aborts -/

/-- The running item ends with status 6; with `all` the queue is emptied (R377). -/
def State.endCalibration (s : State) (all : Bool) : State :=
  let s := if all then { s.setN Obj.CAL_QUEUE 0 with cal := { s.cal with first := none } } else s
  if s.getN Obj.CAL_STATE = 2 then s.calFinish 6
  else if all then s.setN Obj.CAL_STATE 0 else s

/-- Calibration, a gate check or an image runs or waits: what ABORT function 5 acts on (R210, R213, R377). -/
def State.calActive (s : State) : Bool := s.getN Obj.CAL_STATE ≠ 0 || s.gateRuns || s.imageRuns

/-- ABORT_CALIBRATION (R377, Table 17-2): complete at once, within its 100 us. -/
def State.abortCalibration (s : State) : State :=
  if !s.calActive then s else (((s.endCalibration true).gateEnd 4).imageEnd 4).setN (Obj.ABORT_STATE + 4) 2

/-- A port abort also ends an item that takes its frames (R341, R375). -/
def State.abortCamera (s : State) (selector : Nat) : State :=
  let p := s.getN Obj.CAM_CAL_PORT
  let hit := (s.calRuns 7 || s.calRuns 8) && bitOf selector p && s.camState p ≠ 0 && s.camState p ≠ 4
  let s := s.abortCams selector
  if hit then s.calFinish 3 else s

/-- REFCAL_PRESENT_CHANGE (R363). -/
def execRefcalPresentChange (present : Bool) (s : State) : Out :=
  .next (s.setN Obj.REFCAL_PRESENT (b2n present))

end Sys2Proof.Machine
end

