-- ==== Sys2Proof/Machine/Fit.lean ====
section
/-! DEFINITION. The fit of a placement field to the marks found (R137 to R139). -/
namespace Sys2Proof.Machine

/-! ### Least squares by Householder QR in binary64 (R137) -/

/-- A sum of products in binary64, in the order of the rows. -/
def f64Dot (a b : List Rat) : Rat := (a.zip b).foldl (fun s p => f64Add s (f64Mul p.1 p.2)) 0

/-- The Householder vector of a column with its diagonal of R and 2 / v·v; none where the column is 0. -/
def reflector (x : List Rat) : Option (List Rat × Rat × Rat) :=
  match x with
  | [] => none
  | a :: r =>
    let norm := f64Sqrt (f64Dot x x)
    if norm = 0 then none
    else
      let d : Rat := if a < 0 then norm else -norm
      let v := f64Sub a d :: r
      some (v, d, f64Div 2 (f64Dot v v))

/-- Reflect a column. -/
def reflect (v : List Rat) (beta : Rat) (c : List Rat) : List Rat :=
  let t := f64Mul beta (f64Dot v c)
  (c.zip v).map fun p => f64Sub p.1 (f64Mul t p.2)

/-- A row of the triangular system: diagonal, the entries right of it, the right-hand sides. -/
structure QrRow where
  diag : Rat
  right : List Rat
  rhs  : List Rat
  deriving DecidableEq, Repr

/-- Reduce the columns and right-hand sides, one row a step. -/
def qrRows : Nat → List (List Rat) → List (List Rat) → List QrRow
  | n + 1, c :: cols, rhs =>
    match reflector c with
    | none => ⟨0, cols.map (·.headD 0), rhs.map (·.headD 0)⟩ :: qrRows n (cols.map (·.drop 1)) (rhs.map (·.drop 1))
    | some (v, d, beta) =>
      let cs := cols.map (reflect v beta)
      let bs := rhs.map (reflect v beta)
      ⟨d, cs.map (·.headD 0), bs.map (·.headD 0)⟩ :: qrRows n (cs.map (·.drop 1)) (bs.map (·.drop 1))
  | _, _, _ => []

/-- The unknowns for right-hand side `i`, by back substitution; no diagonal may be 0. -/
def backSolve (i : Nat) (rows : List QrRow) : List Rat :=
  rows.foldr (fun r xs => f64Div (f64Sub (atD r.rhs i 0) (f64Dot r.right xs)) r.diag :: xs) []

/-- The ten monomials in binary64, in the order of R117 (R137). -/
def fitMonomials (f : Field) (x y : Int) : List Rat :=
  let scale : Rat := ((2 ^ f.shift : Nat) : Rat)
  let u := f64Div (f64Sub ((x : Rat) / 256) f.xc) scale
  let v := f64Div (f64Sub ((y : Rat) / 256) f.yc) scale
  let m3 := f64Mul u u
  let m4 := f64Mul u v
  let m5 := f64Mul v v
  [1, u, v, m3, m4, m5, f64Mul m3 u, f64Mul m3 v, f64Mul u m5, f64Mul m5 v]

/-! ### The fit -/

/-- Coefficients per axis of a FIT_ORDER. -/
def fitTerms (order : Nat) : Nat := match order with
  | 1 => 3
  | 2 => 6
  | _ => 10

/-- The smallest magnitude on the diagonal is less than 10^-4 times the largest (R138). -/
def rankPoor (rows : List QrRow) : Bool :=
  let ds := rows.map fun r => if r.diag < 0 then -r.diag else r.diag
  let hi := ds.foldl max 0
  let lo := ds.foldl min hi
  decide (10000 * lo < hi) || decide (hi = 0)

/-- Squared residuals of the points with a field's coefficients, in 1/256 pixel (R138). -/
def fitResiduals (f : Field) (ps : List FitPoint) : List Nat :=
  ps.map fun p =>
    let d := displacement f p.x p.y
    let ex := p.dx - d.1
    let ey := p.dy - d.2.1
    (ex * ex + ey * ey).toNat

/-- The square root of a rational to the nearest integer. -/
def rootRound (q : Rat) : Nat := (rneQ (f64Sqrt q)).toNat

/-- The marks of the fit: FOUND, their nominal position in the field's rectangle (R137, R344). -/
def State.fitPoints (s : State) (f : Field) : List FitPoint :=
  s.lay.marks.filterMap fun m =>
    if (fieldOf [f] m.x m.y).isNone then none
    else match s.cams.marks.find? fun r => r.id = m.id && r.status = 1 with
      | some r => some ⟨m.x, m.y, r.x - m.x, r.y - m.y⟩
      | none => none

/-- The effective values of field `f`, whether it is enabled or not. -/
def State.fitField (s : State) (f : Nat) : Field :=
  let g (o : ObjRef) : Int := s.get (o + 256 * f)
  { index := f, xLo := g Obj.X_LO, xHi := g Obj.X_HI, yLo := g Obj.Y_LO, yHi := g Obj.Y_HI, xc := g Obj.FIELD_XC, yc := g Obj.FIELD_YC,
    shift := (g Obj.FIELD_SHIFT).toNat, a := [], b := [] }

/-- A write of FIT_FIELD starts a fit with what holds now (R137). -/
def writeFitField (s : State) (by_ : Caller) (f : Nat) : Wr :=
  s.gate by_ Obj.FIT_FIELD fun s =>
    if 63 < f then s.deny stRange
    else if s.getN Obj.FIT_STATUS = 1 then s.deny stState
    else
      let x := s.fitField f
      ({ (s.setN Obj.FIT_STATUS 1).setN Obj.FIT_FIELD_LAST f with fit := some ⟨x, s.getN Obj.FIT_ORDER, s.fitPoints x⟩ }).ok

/-- FIT_FIELD. -/
def execFitField (by_ : Caller) (f : Nat) (s : State) : Out := .next (writeFitField s by_ f).1

/-- A value that fits I32, or a free one where the spec gives none. -/
def State.showI32 (s : State) (o : ObjRef) (v : Option Int) : State :=
  match v with
  | some x => if -2 ^ 31 ≤ x ∧ x < 2 ^ 31 then s.set o x else let (f, s) := s.freeNat; s.set o (toSigned 32 f)
  | none => let (f, s) := s.freeNat; s.set o (toSigned 32 f)

/-- Show the coefficients of an axis; none: the fit has no solution. -/
def State.showFit (s : State) (o : ObjRef) (cs : Option (List Int)) : State :=
  foldN 10 (fun s i => s.showI32 (o + i) (cs.map fun l => atD l i 0)) s

/-- Show the residual figures. -/
def State.showResiduals (s : State) (rs : Option (List Nat)) : State :=
  match rs with
  | none =>
    let (a, s) := s.freeNat
    let (b, s) := s.freeNat
    (s.setN Obj.FIT_RMS (a % 2 ^ 32)).setN Obj.FIT_MAX (b % 2 ^ 32)
  | some l =>
    let n := l.length
    (s.setN Obj.FIT_RMS (rootRound ((l.sum : Rat) / (n : Rat)))).setN Obj.FIT_MAX (rootRound ((l.foldl max 0 : Nat) : Rat))

/-- The result of a fit: status, coefficients, squared residuals (R137, R138). Without a solution the figures have no value that the
spec gives. -/
def fitResult (j : FitJob) (limit : Nat) : Nat × Option (List Int × List Int) × Option (List Nat) :=
  let n := fitTerms j.order
  if j.points.length < n then (3, none, none)
  else
    let ms := j.points.map fun p => fitMonomials j.field p.x p.y
    let cols := (List.range n).map fun i => ms.map fun m => atD m i 0
    let rhs := [j.points.map fun p => ((256 * p.dx : Int) : Rat), j.points.map fun p => ((256 * p.dy : Int) : Rat)]
    let rows := qrRows n cols rhs
    if rows.any (·.diag = 0) then (4, none, none)
    else
      let a := (backSolve 0 rows).map rneQ
      let b := (backSolve 1 rows).map rneQ
      let f := { j.field with a := a, b := b }
      let rs := fitResiduals f j.points
      let st := if rankPoor rows then 4
        else if (a ++ b).any fun c => 8388608 < c.natAbs then 5
        else if limit * limit < rs.foldl max 0 then 6 else 2
      (st, some (a, b), some rs)

/-- FIT_COMPLETE (R138). -/
def execFitComplete (s : State) : Out :=
  match s.fit with
  | none => .next s
  | some j =>
    let (st, cs, rs) := fitResult j (s.getN Obj.FIT_MAX_RESIDUAL)
    let s : State := { s with fit := none }
    let s := (s.setN Obj.FIT_STATUS st).setN Obj.FIT_MARKS_USED j.points.length
    .next (((s.showFit Obj.FIT_A (cs.map (·.1))).showFit Obj.FIT_B (cs.map (·.2))).showResiduals rs)

/-- A write of 1 to FIT_STAGE: the coefficients of the last fit join the staging set together (R139). -/
def writeFitStage (s : State) (by_ : Caller) (v : Nat) : Wr :=
  s.gate by_ Obj.FIT_STAGE fun s =>
    let base := 256 * s.getN Obj.FIT_FIELD_LAST
    let es := (List.range 10).map (fun i => (Obj.FIELD_A + base + i, s.get (Obj.FIT_A + i))) ++
      (List.range 10).map fun i => (Obj.FIELD_B + base + i, s.get (Obj.FIT_B + i))
    let fresh := (es.filter fun e => !s.stg.entries.any (·.obj = e.1)).length
    if v ≠ 1 then s.deny stRange
    else if s.getN Obj.FIT_STATUS ≠ 2 then s.deny stState
    else if !s.stg.entries.isEmpty ∧ s.stg.owner ≠ by_.session then s.deny stStagingOwned
    else if stagingMax < s.stg.entries.length + fresh then s.deny stLimit
    else (es.foldl (fun (s : State) e => (s.stage by_.session e.1 (.scalar e.2)).1) s).ok

/-- FIT_STAGE. -/
def execFitStage (by_ : Caller) (s : State) : Out := .next (writeFitStage s by_ 1).1

end Sys2Proof.Machine
end

