-- ==== Sys2Proof/Machine/Jobs.lean ====
section
/-! DEFINITION. Job control, progress and the job abort (R48 to R57). -/
namespace Sys2Proof.Machine

/-- Job control and the job abort are refused on the standby of a pair, on a released device, and on one that is releasing (R52,
Table 10-10). -/
def State.jobRefused (s : State) : Bool := s.getN Obj.PAIR_STATE ≠ 1 || s.pair.releasing

/-- START is checked against rules 13, 4 and 5; the outcome stands in START_REFUSAL (R50). -/
def State.startJob (s : State) : Wr :=
  match s.startConflict with
  | some c => (s.setN Obj.START_REFUSAL c).deny stConflict
  | none => (((s.setN Obj.START_REFUSAL 0).setJobState jobRunning).tellJob).ok

/-- HOLD in RUNNING (R49). -/
def State.holdJob (s : State) : State := ({ s with job := { s.job with hold := true } }).tellJob

/-- A write of JOB_CONTROL (R49, R50, R52). -/
def writeJobControl (s : State) (by_ : Caller) (v : Nat) : Wr :=
  s.gate by_ Obj.JOB_CONTROL fun s =>
    if v < 1 ∨ 3 < v then s.deny stRange
    else if s.jobRefused then s.deny stState
    else match v with
      | 1 => if s.jobState = jobPreparing then s.startJob else s.deny stState
      | 2 => if s.jobState = jobRunning then s.holdJob.ok else s.deny stState
      | _ =>
        if s.jobState = jobHeld then ((s.setJobState jobRunning).tellJob).ok
        else if s.jobState = jobRunning ∧ s.job.hold then (({ s with job := { s.job with hold := false } }).tellJob).ok
        else s.deny stState

/-- START. -/
def execStart (by_ : Caller) (s : State) : Out := .next (writeJobControl s by_ 1).1
/-- HOLD. -/
def execHold (by_ : Caller) (s : State) : Out := .next (writeJobControl s by_ 2).1
/-- RESUME. -/
def execResume (by_ : Caller) (s : State) : Out := .next (writeJobControl s by_ 3).1

/-- Every tile within the run-ahead depth has been spooled (R50, R298). -/
def State.depthReached (s : State) : Bool :=
  regions.all fun r => s.lost r || decide ((s.getN Obj.RUN_AHEAD_DEPTH : Int) < let p := s.frontPos r; s.distance p.1 p.2)

/-- JOB_AUTO_START: the device issues START itself, once (R50). -/
def execJobAutoStart (s : State) : Out :=
  if s.jobState = jobPreparing ∧ s.on Obj.JOB_AUTO_START ∧ !s.job.autoTried ∧ !s.jobRefused ∧ (s.depthReached ∨ s.allSpooled) then
    .next ({ s with job := { s.job with autoTried := true } }).startJob.1
  else .next s

/-- PROGRESS_SNAPSHOT: the snapshot of every millisecond while the job writes (R53). -/
def execProgressSnapshot (s : State) : Out :=
  .next (if s.jobState = jobRunning ∨ s.jobState = jobBurnishing then
    ({ s with job := { s.job with permille := s.livePermille } }).snapshot else s)

/-- A job abort is accepted: t = 0 of Table 02-11 (R51, R57, R161). -/
def State.abortJobNow (s : State) : State :=
  if s.jobState ∈ [1, 2, 3, 4] then
    let s := (((s.beginQuiet).setN (Obj.ABORT_STATE + 0) 1).endTurnaround).setJobState jobAborting
    { s with job := { s.job with abortTold := false } }
  else s

/-- A write of 1 to ABORT_JOB, or ABORT function 1 (R52, R56). -/
def writeAbortJob (s : State) (by_ : Caller) (v : Nat) : Wr :=
  s.gate by_ Obj.ABORT_JOB fun s =>
    if v ≠ 1 then s.deny stRange else if s.jobRefused then s.deny stState else s.abortJobNow.ok

/-- A STRIPE block that waited for a head identity is discarded with its job (R87). -/
def State.dropWaiting (s : State) : State :=
  match s.st.waitHead with
  | some f => (({ s with st := { s.st with waitHead := none } }).writeStatus .stream f.desc.index 10 s.st.lastFetches 0xFFFFFFFF).passConsumer .stream
  | none => s

/-- Quiet after an abort or HALT: the units of the job stop, the rings' release indexes follow the consumer indexes, no stall and no
wait for repair remains (Table 02-11, R79, R86, R87). The ledger stays (R57). -/
def State.quiet (s : State) : State :=
  let keep (u : Option LaneUnit) : Option LaneUnit := u.filter LaneUnit.isHost
  let s := s.dropWaiting
  let s := (((s.setN Obj.SWEEP_STATE 0).setN Obj.BURNISH_STATE 0).setN Obj.OVERSPEED_SKIPS_WINDOW 0).endTurnaround
  let s : State := { s with
    sweep := {}
    hist := []
    flow := {}
    ras := { s.ras with tiles := [], again := [] }
    spool := { s.spool with waiting := [], resWait := [], redo := s.spool.redo.filter (·.2.isHost), lanes := s.spool.lanes.map fun (l : Lane) => { l with unit := keep l.unit } }
    st := { s.st with unreleased := [], reload := [], stalled := false, inflating := none, reading := false, pending := s.st.pending.map fun (p : Pend) => { p with waits := false } } }
  let s := if s.getN (Obj.ABORT_STATE + 0) = 1 then s.setN (Obj.ABORT_STATE + 0) 2 else s
  s.refreshSleep.advanceRelease

/-- ABORT_QUIET: the bound of Table 02-11 ends with the device quiet. -/
def execAbortQuiet (s : State) : Out :=
  if s.job.abortAt.isNone then .next s
  else if s.jobState = jobAborting then .next ((s.quiet.setJobState jobAborted).refreshStream).takeHeld
  else if s.jobState = jobFailed then .next (s.quiet).refreshStream
  else .next s

end Sys2Proof.Machine
end

