-- ==== Sys2Proof/Machine/Operands.lean ====
section
/-! DEFINITION. The entries that the payloads of Faceplate messages carry (Tables 02-4 and 02-5): object references, value entries,
block references, subscriptions, result entries. A payload that does not parse gives none. -/
namespace Sys2Proof.Machine

/-- A value entry (Table 02-5). -/
structure ValueEntry where
  obj   : ObjRef
  type  : Nat
  value : Bytes
  deriving DecidableEq, Repr

/-- A block reference (Table 02-5). -/
structure BlockRef where
  obj    : ObjRef
  offset : Nat
  length : Nat
  deriving DecidableEq, Repr

/-- A subscription entry (Table 02-5). -/
structure SubEntry where
  obj    : ObjRef
  mode   : Nat
  period : Nat
  deriving DecidableEq, Repr

/-- INDEX and SUB at the head of an entry. -/
def entryObj (bs : Bytes) : ObjRef := 256 * leAt bs 0 2 + leAt bs 2 1

/-- Bytes with zeros up to a multiple of 4. -/
def pad4 (bs : Bytes) : Bytes := bs ++ zeros ((4 - bs.length % 4) % 4)

/-- The least multiple of 4 that is not below `n`. -/
def roundUp4 (n : Nat) : Nat := (n + 3) / 4 * 4

/-- `n` object references that fill the bytes. -/
def takeRefs : Nat → Bytes → Option (List ObjRef)
  | 0, bs => if bs.isEmpty then some [] else none
  | n + 1, bs => if bs.length < 4 then none else (takeRefs n (bs.drop 4)).map (entryObj bs :: ·)

/-- `n` value entries that fill the bytes. -/
def takeValues : Nat → Bytes → Option (List ValueEntry)
  | 0, bs => if bs.isEmpty then some [] else none
  | n + 1, bs =>
    let len := leAt bs 4 2
    if bs.length < 8 + roundUp4 len then none
    else (takeValues n (bs.drop (8 + roundUp4 len))).map (⟨entryObj bs, leAt bs 3 1, slice bs 8 len⟩ :: ·)

/-- `n` subscriptions that fill the bytes. -/
def takeSubs : Nat → Bytes → Option (List SubEntry)
  | 0, bs => if bs.isEmpty then some [] else none
  | n + 1, bs => if bs.length < 8 then none else (takeSubs n (bs.drop 8)).map (⟨entryObj bs, leAt bs 3 1, leAt bs 4 2⟩ :: ·)

/-- A list payload: N from 1 to 64, three reserved bytes, N entries. -/
def parseList (f : Nat → Bytes → Option (List α)) (p : Bytes) : Option (List α) :=
  let n := leAt p 0 1
  if p.length < 4 ∨ n < 1 ∨ 64 < n then none else f n (p.drop 4)

/-- The payload of READ. -/
def parseRefs (p : Bytes) : Option (List ObjRef) := parseList takeRefs p
/-- The payload of WRITE. -/
def parseValues (p : Bytes) : Option (List ValueEntry) := parseList takeValues p
/-- The payload of SUBSCRIBE. -/
def parseSubs (p : Bytes) : Option (List SubEntry) := parseList takeSubs p

/-- The payload of READ_BLOCK. -/
def parseBlock (p : Bytes) : Option BlockRef :=
  if p.length ≠ 12 then none else some ⟨entryObj p, leAt p 4 4, leAt p 8 2⟩

/-- The payload of WRITE_BLOCK: a reference and its data. -/
def parseWriteBlock (p : Bytes) : Option (BlockRef × Bytes) :=
  match parseBlock (p.take 12) with
  | none => none
  | some r => if p.length ≠ 12 + roundUp4 r.length then none else some (r, slice p 12 r.length)

/-- A result entry (Table 02-5). -/
def resultEntry (o : ObjRef) (status : Nat) (value : Bytes) : Bytes :=
  leBytes 2 (o / 256) ++ [byte (o % 256), byte status] ++ leBytes 2 value.length ++ [0, 0] ++ pad4 value

/-- A list of result entries with its count (Table 02-4). -/
def resultList (es : List Bytes) : Bytes := byte es.length :: zeros 3 ++ es.flatten

end Sys2Proof.Machine
end

