-- ==== Sys2Proof/Machine/Message.lean ====
section
/-! DEFINITION. The messages that the device sends on its control and service ports: layout, tags, the stored response of a session
(R35, R40, R41), and the result of a commit (Table 02-5). -/
namespace Sys2Proof.Machine

/-- A message (Table 02-3): header and payload, the tag of a key, the CRC. -/
def fpBytes (key : Option Bytes) (type flags status session seq : Nat) (payload : Bytes) : Bytes :=
  let h := leBytes 2 0x5046 ++ [1, byte type, byte (flags + if key.isSome then 2 else 0), byte status] ++ leBytes 2 session ++ leBytes 4 seq ++
    leBytes 2 payload.length ++ [0, 0] ++ payload
  let m := match key with
    | some k => h ++ (hmacSha256 k h).take 16
    | none => h
  m ++ leBytes 4 (crc32c m).toNat

/-- The session ID of the SPI port (R43). -/
abbrev spiSession : Nat := 0xFFFF

/-- An open session of the control ports. -/
def State.session (s : State) (id : Nat) : Option Session := s.fp.sessions.find? (·.id = id)

/-- Change a session. -/
def State.modSession (s : State) (id : Nat) (f : Session → Session) : State :=
  { s with fp := { s.fp with sessions := s.fp.sessions.map fun (x : Session) => if x.id = id then f x else x } }

/-- The key that tags what a session sends: none where it is not authenticated (R41). -/
def State.tagKey (s : State) (id : Nat) : Option Bytes := (s.session id).bind fun x => if x.auth then some x.key else none

/-- A message leaves the device. On the SPI port the host clocks it out behind a byte 0xA5 (R43). -/
def State.sendBytes (s : State) (via : Via) (dst : Source) (sport : Nat) (bs : Bytes) : State :=
  match via with
  | .spi => { s with fp := { s.fp with spiOut := 0xA5 :: bs } }.emit (.message .spi dst sport (0xA5 :: bs))
  | _ => s.emit (.message via dst sport bs)

/-- The `n` bytes that the SPI port returns when the host collects a response: 0x00 while none is ready, then 0xA5 and the response
(R43). -/
def State.spiCollect (s : State) (n : Nat) : Bytes := if s.fp.spiOut.isEmpty then zeros n else s.fp.spiOut.take n

/-- The response to the last request executed or accepted in a session is kept for a resend (R40, R43); one to an earlier request is
not. -/
def State.keepResponse (s : State) (via : Via) (session seq : Nat) (bs : Bytes) : State :=
  match via with
  | .spi => if s.fp.spiSeq = seq then { s with fp := { s.fp with spiStored := bs } } else s
  | _ => s.modSession session fun x => if x.lastSeq = seq then { x with stored := bs } else x

/-- A response to an executed request: it is sent and kept. `sport` is the port that it leaves from: FACEPLATE_PORT before a commit. -/
def State.answer (s : State) (via : Via) (dst : Source) (sport session seq type status : Nat) (payload : Bytes) : State :=
  let bs := fpBytes (if via = .spi then none else s.tagKey session) type 1 status session seq payload
  (s.keepResponse via session seq bs).sendBytes via dst sport bs

/-- A commit result (Table 02-5). -/
def State.commitPayload (s : State) (result : Nat) : Bytes :=
  [byte result, byte (if result = stConflict then s.getN Obj.LAST_CONFLICT else 0), 0, 0] ++ leBytes 4 (s.getN Obj.LAST_CLAIMANT_1) ++
  leBytes 4 (s.getN Obj.LAST_CLAIMANT_2) ++ leBytes 4 (s.getN Obj.COMMITS_ACCEPTED)

/-- TYPE of a COMMIT message (Table 02-4). -/
abbrev typeCommit : Nat := 5

/-- The answer to a COMMIT message that waited for the standby: its result, or REFUSED for the whole message (R250, Table 10-10). The
session may have ended. -/
def State.lateReply (s : State) (sport : Nat) (reply : Option (Caller × Nat)) (refused : Bool) : State :=
  match reply with
  | none => s
  | some (c, seq) =>
    let status := if refused then stRefused else 0
    let payload := if refused then [] else s.commitPayload 0
    match c.via with
    | .spi => s.answer .spi ⟨0, 0⟩ sport c.session seq typeCommit status payload
    | _ => match s.session c.session with
      | some x => s.answer x.via x.src sport c.session seq typeCommit status payload
      | none => s

end Sys2Proof.Machine
end

