-- ==== Sys2Proof/Machine/Checkpoint.lean ====
section
/-! DEFINITION. The checkpoint that an active sends (R262, Table 10-7): its nine items, each in a coding of the model's own, since the
spec gives the content of CHECKPOINT messages and not their layout. -/
namespace Sys2Proof.Machine

/-- Coordinates, 4 bytes each. -/
def coordBytes (cs : List Int) : Bytes := cs.flatMap (leBytesI 4)

/-- A point. -/
def ptBytes (p : Pt) : Bytes := coordBytes [p.1, p.2]

/-- A record. -/
def recBytes : Rec → Bytes
  | .rect c x0 y0 x1 y1 => [0, byte c] ++ coordBytes [x0, y0, x1, y1]
  | .trap c ax a0 a1 l0 h0 l1 h1 => [1, byte c, byte (b2n ax)] ++ coordBytes [a0, a1, l0, h0, l1, h1]
  | .poly c ps => [2, byte c] ++ leBytes 2 ps.length ++ ps.flatMap ptBytes
  | .path c p ss => [3, byte c] ++ ptBytes p ++ leBytes 2 ss.length ++ ss.flatMap fun
    | .line p => 0 :: ptBytes p
    | .quad c p => 1 :: ptBytes c ++ ptBytes p
  | .place c o ov cell x y nx ny px py =>
    [4, byte c, byte o, byte (b2n ov)] ++ leBytes 4 cell ++ coordBytes [x, y] ++ leBytes 4 nx ++ leBytes 4 ny ++ coordBytes [px, py]

/-- Records with their number. -/
def recsBytes (rs : List Rec) : Bytes := leBytes 4 rs.length ++ rs.flatMap recBytes

/-- A box. -/
def boxBytes (b : Box) : Bytes := coordBytes [b.xMin, b.yMin, b.xMax, b.yMax]

/-- An entry of the cell store. -/
def cellBytes (c : Cell) : Bytes := leBytes 4 c.id ++ [byte (b2n c.pending)] ++ leBytes 4 c.seq ++ leBytes 4 c.bytes ++ boxBytes c.bbox ++ recsBytes c.recs

/-- An entry of the mark table. -/
def markEntryBytes (m : Mark) : Bytes := leBytes 4 m.id ++ [byte m.shape] ++ leBytes 4 m.size ++ coordBytes [m.x, m.y]

/-- An accepted block. -/
def blockBytes (b : LBlock) : Bytes :=
  [byte (b2n b.halo), byte (b2n b.late)] ++ leBytes 4 b.stripe ++ leBytes 2 b.band ++ leBytes 4 b.seq ++ leBytes 4 b.bytes ++ boxBytes b.bbox ++ recsBytes b.recs

/-- Coarse cells within the kernel radius of a tile of the stripe that is not spooled (item 6). A tile holds two by two cells. -/
def State.openCells (s : State) (st : Stripe) : List (Int × Int) :=
  let r : Int := s.kernelR
  let tiles := (List.range st.cols).flatMap fun u => ((List.range (4 * s.tileRows)).map fun t => (u, t)).filter fun p =>
    !s.spooled ⟨st.number, p.1, p.2⟩
  (rangeI (-r) (2 * (st.cols : Int) + r)).flatMap fun i => ((rangeI (-r) (2 * (4 * s.tileRows : Nat) + r)).map fun j => (i, j)).filter fun c =>
    tiles.any fun p => decide (2 * (p.1 : Int) - r ≤ c.1) && decide (c.1 ≤ 2 * (p.1 : Int) + 1 + r) &&
      decide (2 * (p.2 : Int) - r ≤ c.2) && decide (c.2 ≤ 2 * (p.2 : Int) + 1 + r)

/-- The coarse densities of item 6. -/
def State.densityBytes (s : State) : Bytes :=
  s.lay.stripes.flatMap fun st => (s.openCells st).flatMap fun c =>
    let d := s.cellDensity st s.lines c.1 c.2
    leBytes 4 st.number ++ coordBytes [c.1, c.2] ++ leBytes 2 d.1 ++ leBytes 2 d.2

/-- Objects with their values. -/
def objBytes (es : List (ObjRef × Int)) : Bytes := es.flatMap fun p => leBytes 4 p.1 ++ leBytesI 8 p.2

/-- Objects of item 9: counts marked "this job" and the progress objects. -/
def countObj (o : ObjRef) : Bool := isMirrored o && ((objRow o).any (·.thisJob) || o / 256 = 0x2101)

/-- The nine items in order (Table 10-7). -/
def State.checkpointItems (s : State) : List Bytes :=
  let objs := s.od.filter fun p => isMirrored p.1 && !countObj p.1
  let doms := (s.dom.filter fun p => isMirrored p.1).flatMap fun p => leBytes 4 p.1 ++ leBytes 4 p.2.length ++ p.2
  let tiles := s.spool.tiles.flatMap fun t => leBytes 4 t.key.stripe ++ leBytes 4 t.key.u ++ leBytes 4 t.key.t ++ [byte t.flags] ++ t.vals
  let entries := s.ledger.entries.flatMap fun e => e.toBytes ++ e.vals.flatMap fun v => leBytes 2 v.1 ++ leBytes 2 v.2
  [objBytes objs ++ doms ++ [byte s.jobState, byte (b2n s.job.hold)],
   (s.head.identity.map fun i => i.model ++ leBytes 8 i.serial).getD [] ++ [byte (s.getN Obj.THERMAL_STATE)] ++
     s.head.cmds.flatMap (fun c => leBytes 4 c.beam ++ leBytes 4 c.periods),
   leBytes 4 (s.getN Obj.BEAM_EPOCH) ++ (s.head.table.mapIdx fun r row => row.flatMap fun p => leBytes 4 (640 * r + p.1) ++ leBytes 4 p.2).flatten,
   leBytes 4 (s.getN Obj.STREAM_CONSUMER) ++ leBytes 4 (s.getN Obj.STREAM_RELEASE) ++ leBytes 4 s.st.repairConsumer ++
     leBytes 4 s.st.repairRelease ++ leBytes 4 (s.getN Obj.EXPECTED_SEQ) ++ s.pendingList ++ s.lay.cells.flatMap cellBytes ++
     s.lay.marks.flatMap markEntryBytes,
   (s.lay.blocks.filter (·.held)).flatMap blockBytes,
   s.densityBytes, tiles, entries ++ s.defectBytes, objBytes (s.od.filter fun p => countObj p.1) ++ leBytes 8 s.job.retired]

/-- The active begins a transfer when the standby reports SYNCING (R262). -/
def State.sendCheckpoint (s : State) : State :=
  (s.checkpointItems.zipIdx 1).foldl (fun (s : State) x => s.mirror 4 0x20 (byte x.2 :: x.1)) s

end Sys2Proof.Machine
end

