-- ==== Sys2Proof/Machine/Pair.lean ====
section
/-! DEFINITION. The pair beside its decision points (R241 to R263): the claim, release and takeover, the standby's work on flash
records, mirror messages, confirmations, health records, the mirror link. What the spec leaves to the messages' coding comes as
operands in the forms the model holds it in. -/
namespace Sys2Proof.Machine

/-! ### Reception on PLK4 to PLK7 (R246) -/

/-- A NAK for a lane leaves on it: the lane, and the SEQ from which to replay. The layout is the model's own. -/
def State.sendNak (s : State) (lane : Nat) : State := s.mirror lane 0x31 ([byte lane, 0, 0, 0] ++ leBytes 4 (atD s.pair.rxSeq lane 0))

/-- A message arrives on a PLK lane (R246): with a bad CRC or a SEQ beyond the next it is answered with NAK; one taken before is passed
over; the next one is taken, and its effect is `f`. -/
def State.received (s : State) (x : Receipt) (f : State → State) : State :=
  let want := atD s.pair.rxSeq x.lane 0
  if !s.coreOn then s
  else if !x.crcOk then s.sendNak x.lane
  else if x.seq = want then
    f { s with pair := { s.pair with rxSeq := setAt s.pair.rxSeq x.lane ((want + 1) % 2 ^ 32) } }
  else if (want + 2 ^ 32 - x.seq) % 2 ^ 32 < 2 ^ 31 then s
  else s.sendNak x.lane

/-! ### Confirmations (R250) -/

/-- An accepted commit that waited takes effect and is answered. -/
def State.finishCommit (s : State) (a : AwaitCommit) : State :=
  let port := s.getN Obj.FACEPLATE_PORT
  let s : State := { s with stg := { s.stg with await := s.stg.await.filter (·.seq ≠ a.seq) } }
  (s.acceptCommit a.entries a.own).lateReply port a.reply false

/-- Changes to the per-beam table wait no longer. -/
def clearAwait (seq : Nat) (rs : List BeamResult) : List BeamResult :=
  rs.map fun (r : BeamResult) => if r.await = some seq then { r with await := none } else r

/-- The mirror message `seq` is confirmed: its commit is accepted, or its table changes are free for the next epoch. -/
def State.confirmed (s : State) (seq : Nat) : State :=
  let s : State := { s with pair := { s.pair with await := s.pair.await.filter (· ≠ seq) } }
  match s.stg.await.find? (·.seq = seq) with
  | some a => s.finishCommit a
  | none =>
    { s with head := { s.head with
        results := clearAwait seq s.head.results
        edits := clearAwait seq s.head.edits
        attachAwait := if s.head.attachAwait = some seq then none else s.head.attachAwait } }

/-- Nothing is confirmed any more: every commit and change that waits proceeds on the active alone (R250). -/
def State.proceedAlone (s : State) : State := s.pair.await.foldl State.confirmed s

/-- A confirmation is taken. After a trigger nothing more is confirmed (Table 10-10). -/
def State.takeConfirm (s : State) (seq : Nat) : State :=
  if s.getN Obj.PAIR_STATE = 1 ∧ !s.pair.releasing ∧ s.pair.await.any (· = seq) then s.confirmed seq else s

/-- No confirmation within 500 us: on the active the standby counts as desynchronised and the change proceeds alone; on the standby,
cause 5 (R250, Table 10-5). -/
def State.confirmLate (s : State) : State :=
  if s.isStandby then s.desync 5
  else if s.getN Obj.PAIR_STATE = 1 ∧ !s.pair.await.isEmpty ∧ !s.pair.releasing then (s.setN Obj.PEER_STATE 0).proceedAlone
  else s

/-! ### The mirror link and health records -/

/-- PEER_STATE has left SYNCED and ELIGIBLE: the active waits for no confirmation (R250). -/
def State.peerLapse (s : State) : State :=
  if s.getN Obj.PAIR_STATE = 1 ∧ !(s.getN Obj.PEER_STATE ∈ [3, 4] && s.getN Obj.MIRROR_LINK_STATE = 1) ∧ !s.pair.releasing then
    s.proceedAlone
  else s

/-- MIRROR_LINK_STATE: all eight lanes locked and a health record within the last 1 ms (R246); its fall is cause 8 (Table 10-5). -/
def State.refreshLink (s : State) : State :=
  let up := s.getN Obj.PLK_LANES_UP = 255 && s.pair.peerAt.isSome
  let s' := s.setN Obj.MIRROR_LINK_STATE (b2n up)
  let s' := if s.getN Obj.MIRROR_LINK_STATE = 1 ∧ !up then s'.desync 8 else s'
  (s'.peerLapse).refreshEligible

/-- The PLK lanes that are locked (R246); they run with the core domain. DESIGN CHOICE: on a lane that locks anew both directions count
SEQ from 0 and the replay buffer is empty. -/
def State.lanesLocked (s : State) (lanes : Nat) : State :=
  let new (i : Nat) : Bool := bitOf lanes i && !bitOf (s.getN Obj.PLK_LANES_UP) i
  let s : State := { s with pair := { s.pair with
    txSeq := s.pair.txSeq.mapIdx fun i (q : Nat) => if new i then 0 else q
    rxSeq := s.pair.rxSeq.mapIdx fun i (q : Nat) => if new i then 0 else q
    replay := s.pair.replay.mapIdx fun i (l : List Sent) => if new i then [] else l } }
  (s.setN Obj.PLK_LANES_UP lanes).refreshLink

/-- The health record (Table 10-6). -/
def State.healthRecord (s : State) : Bytes :=
  [byte (s.getN Obj.PAIR_STATE), byte (s.getN Obj.BEHAVIOUR_LEVEL), byte (s.getN Obj.STEPPING), byte (s.getN Obj.LAST_DESYNC_CAUSE)] ++
  leBytes 4 (s.getN Obj.JOB_ID) ++ leBytes 4 (s.pair.lastRecord % 2 ^ 32) ++
  (regions.map fun r => byte (s.getN (Obj.REGION_STATE + r))) ++ (regions.map fun r => byte (s.cellsIn r).length) ++
  [byte (sumMap (fun i => if s.getN (Obj.MC_STATE + i) = 1 then 2 ^ i else 0) regions),
   byte (b2n (s.getN Obj.HST_LANE_STATE = 1) + 2 * b2n (s.getN (Obj.HST_LANE_STATE + 1) = 1) + 4 * b2n (s.getN Obj.POS_STATE = 2) +
     8 * b2n (s.getN Obj.DEFL_LINK_STATE = 1)), 0, 0] ++
  ((List.range 16).map fun j => byte (s.getN (Obj.HEALTH_INDEX + j))) ++ zeros 24

/-- HEALTH_SEND: every 1 ms (R252). -/
def execHealthSend (s : State) : Out := if s.coreOn then .next (s.mirror 4 0x30 s.healthRecord) else .next s

/-- The peer's health record is held; its level is checked (R252, Table 10-5 cause 6). -/
def State.takeHealth (s : State) (record : Bytes) : State :=
  let was := s.getN Obj.PEER_STATE
  let v := leAt record 0 1
  let s : State := { s.setN Obj.PEER_STATE v with
    pair := { s.pair with peerHealth := record, peerAt := some s.clk.cycle, peerStays := false } }
  let s := if leAt record 1 1 ≠ s.getN Obj.BEHAVIOUR_LEVEL then s.desync 6 else s
  let s := s.refreshLink
  if s.getN Obj.PAIR_STATE = 1 ∧ v = 2 ∧ was ≠ 2 ∧ !s.pair.releasing then s.sendCheckpoint else s

/-- No HEALTH message within 1 ms (R252). -/
def State.healthLate (s : State) : State :=
  if s.pair.peerAt.isNone then s
  else ({ s.setN Obj.PEER_STATE 0xFF with pair := { s.pair with peerAt := none, peerStays := false } }).refreshLink

/-- The sender replays the lane from the SEQ named, out of its buffer (R246). A standby that no longer holds what is asked for
desynchronises (Table 10-5 cause 1). -/
def State.replayFrom (s : State) (lane seq : Nat) : State :=
  let buffer := atD s.pair.replay lane []
  match buffer.findIdx? (·.seq = seq) with
  | some i => ((buffer.take (i + 1)).reverse).foldl (fun (s : State) m => s.transmit lane m) s
  | none => if s.isStandby ∧ s.getN Obj.PAIR_STATE ≠ 0 then (s.inc Obj.RECORD_GAPS).desync 1 else s

/-- NAK, with the lane and the SEQ from which to replay (R246). -/
def execNak (rx : Receipt) (ask : Nat × Nat) (s : State) : Out := .next (s.received rx fun s => s.replayFrom ask.1 ask.2)

/-- A frame that is being sent when its lane loses lock is cut off (R193). A frame takes 824 core cycles from the start of its transmit
window (R190). -/
def State.cutFrame (s : State) (l : Nat) : State :=
  let tf := s.getN Obj.FLASH_PERIOD
  match s.hs.periods.find? fun p => bitOf p.sent l && decide (p.d + tf ≤ s.clk.cycle) && decide (s.clk.cycle < p.d + tf + 824) with
  | some p => if s.outputsOn then s.emit (.frameCut l p.k) else s
  | none => s

/-- A retired group's lock losses do not count again (R193). -/
def State.blkLost (s : State) (l : Nat) : State :=
  let r := l / 6
  let s : State := { s with pwr := { s.pwr with locking := if s.pwr.locking.contains (.lane .blk l) then s.pwr.locking else s.pwr.locking ++ [.lane .blk l] } }
  let s := (s.cutFrame l).refreshBlk
  if !s.jobActive then s
  else
    let again := s.units.lockLosses.any (·.1 = r)
    let s : State := { s with units := { s.units with lockLosses := (r, s.clk.cycle) :: s.units.lockLosses } }
    if again then s.retireLinks r else s

/-- A lane PLL loses lock (R193, R198, R246). -/
def State.laneLost (s : State) (port : LanePort) (lane : Nat) : State :=
  if !(s.power = 2 ∨ s.power = 3) then s
  else match port with
    | .blk => s.blkLost lane
    | .hst => if lane < 2 then (s.setN (Obj.HST_LANE_STATE + lane) 0).refreshEligible else s
    | .plk => (s.setN Obj.PLK_LANES_UP (clearBit (s.getN Obj.PLK_LANES_UP) lane)).refreshLink

/-! ### OWN_ACT and PEER_ACT -/

/-- PEER_ACT_FALL (R257): a standby that is eligible begins to wait 1 us. -/
def execPeerActFall (s : State) : Out :=
  if !s.pins.peerAct then .next s
  else
    let s : State := { s with pins := { s.pins with peerAct := false } }
    .next ({ s with pair := { s.pair with peerFellAt := if s.getN Obj.PAIR_STATE = 4 then some s.clk.cycle else s.pair.peerFellAt } }).refreshBlk

/-- The number of periods whose records were due, by R247, before core cycle `t`: the next decision point's number, less those whose
last bit was still to leave. -/
def State.recordsDue (s : State) (t : Nat) : Nat := s.hs.k - (s.hs.nextD + 140 - t) / s.getN Obj.FLASH_PERIOD - 1

/-- The standby holds whole records of every period up to k_r (R257). -/
def State.holdsRecords (s : State) : Bool :=
  match s.pair.release, s.pair.peerFellAt with
  | some r, _ => decide (r.2 ≤ s.pair.lastRecord)
  | none, some t => decide (s.recordsDue t ≤ s.pair.lastRecord + 1)
  | none, none => false

/-- TAKEOVER_CHECK: the standby that was eligible when PEER_ACT fell claims at the next decision point, or meets a double fault (R257, R403
cause 4), also where it has desynchronised since, as it does when the mirror link falls with the peer. -/
def execTakeoverCheck (s : State) : Out :=
  if s.pair.peerFellAt.isNone ∨ s.pins.peerAct ∨ !s.isStandby then .next s
  else if s.holdsRecords then .next { s with pair := { s.pair with claim := true } }
  else .next ((({ s with pair := { s.pair with peerFellAt := none } }).logEvent ⟨6, 12, 255, 255, Obj.HALT_CAUSE, 4, 0⟩).halt 4 0 12)

/-- PEER_ACT_RISE: of two devices that assert OWN_ACT, the one of ROLE B deasserts (R244); outputs follow (R242). -/
def execPeerActRise (s : State) : Out :=
  if s.pins.peerAct then .next s
  else
    let s : State := { s with pins := { s.pins with peerAct := true }, pair := { s.pair with claim := false, peerFellAt := none } }
    let s := if s.pins.ownAct ∧ s.getN Obj.PAIR_ROLE = 1 then
        { s.setN Obj.PAIR_STATE 0 with pins := { s.pins with ownAct := false } }
      else s
    .next s.refreshBlk

/-- CLAIM_DELAY: the 10 us of a ROLE B device have passed (R244). -/
def execClaimDelay (s : State) : Out :=
  if !s.pair.claimWait ∨ !s.pins.porstN then .next s
  else
    let s : State := { s with pair := { s.pair with claimWait := false } }
    if s.pins.peerAct then .next s
    else .next ({ s.setN Obj.PAIR_STATE 1 with pins := { s.pins with ownAct := true } }).refreshBlk

/-- What waits for a confirmation at a release: commits are answered REFUSED and stay staged, table changes are lost (Table 10-10). -/
def State.dropAwait (s : State) : State :=
  let port := s.getN Obj.FACEPLATE_PORT
  let s := s.stg.await.foldl (fun (s : State) a =>
    let s := s.lateReply port a.reply true
    match a.own, a.reply, s.stg.entries with
    | false, some (c, _), [] => s.setStaging c.session a.entries
    | _, _, _ => s) s
  let s : State := { s with
    stg := { s.stg with await := [] }
    pair := { s.pair with await := [] }
    head := { s.head with results := s.head.results.filter (·.await.isNone), attachAwait := none
                          attachTable := if s.head.attachAwait.isSome then none else s.head.attachTable } }
  s.setEdits (s.head.edits.filter (·.await.isNone))

/-- The firing window in progress ends (R256 steps 3 and 4, Table 10-2, Table 10-10). -/
def State.releaseAct (s : State) : State :=
  match s.pair.release with
  | none => s
  | some (code, _) =>
    if !s.pair.releasing then s
    else
      let s := (((s.gateEnd 4).imageEnd 4).endCalibration false).dropAwait
      let s : State := { s with
        pins := { s.pins with ownAct := false }
        pair := { s.pair with releasing := false, release := none, armedSinceSync := false, claim := false } }
      let s := (s.setN Obj.PAIR_STATE (if code = 8 then 3 else 5)).inc Obj.RELEASES
      (s.refreshBlk).refreshEligible

/-- A write of HANDOVER_REQUEST (Table 10-8): refused with STATE unless PEER_STATE is 4. -/
def writeHandoverRequest (s : State) (by_ : Caller) (v : Nat) : Wr :=
  s.gate by_ Obj.HANDOVER_REQUEST fun s =>
    if v ≠ 1 then s.deny stRange
    else if s.getN Obj.PAIR_STATE ≠ 1 ∨ s.getN Obj.PEER_STATE ≠ 4 then s.deny stState
    else (s.raise ⟨8, 12, 255, 255, 0⟩).ok

/-- HANDOVER_REQUEST. -/
def execHandoverRequest (by_ : Caller) (s : State) : Out := .next (writeHandoverRequest s by_ 1).1

/-- RELEASE_MESSAGE, with the trigger code and k_r (R257). -/
def execReleaseMessage (rx : Receipt) (body : Nat × Nat) (s : State) : Out :=
  .next (s.received rx fun s => if s.isStandby then { s with pair := { s.pair with release := some body } } else s)

/-! ### Flash records (R249) -/

/-- A standby that follows the active: SYNCING, SYNCED, ELIGIBLE. -/
def State.follows (s : State) : Bool := s.getN Obj.PAIR_STATE ∈ [2, 3, 4] && s.coreOn

/-- The oldest mirrored commit takes effect; its entries for a stripe wait for one (R46, R249). -/
def State.standbyCommit (s : State) : State :=
  match s.pair.pendCommits with
  | [] => s
  | es :: r =>
    let s : State := { s with pair := { s.pair with pendCommits := r } }
    let es : List StagedEntry := es.map fun e => ⟨e.1, .scalar e.2, 0⟩
    let (late, now) := es.partition fun e => stripeObj e.obj && s.jobActive
    (late.foldl State.awaitStripe s).applyEntries now

/-- The epoch boundary of a record: the mirrored table changes named for it, or for an earlier one, are made; after an attach the
table is the one sent (R202, R204, R249). -/
def State.standbyEpoch (s : State) : State :=
  let s := s.inc Obj.BEAM_EPOCH
  let e := s.getN Obj.BEAM_EPOCH
  let (go, wait) := s.pair.pendBeams.partition fun x => x.2.1 ≤ e
  let s : State := { s with pair := { s.pair with pendBeams := wait } }
  let s := go.foldl (fun (s : State) x =>
    let s : State := if x.2.2.isSome && !x.1.isEmpty then
        { s with head := { s.head with table := List.replicate 480 [] }, sram := { s.sram with tableUe := [] } } else s
    x.1.foldl (fun (s : State) c => s.setBeam c.1 c.2.toNat) s) s
  s.dropKilled.recountBeams

/-- The standby's sweep work for a record's boundary: a hold is taken only as the record says. -/
def State.standbySweep (s : State) : State :=
  let s := (((s.retireDue).retirePixels).closeColumns).effectLoads
  let h := s.job.hold
  let s := (({ s with job := { s.job with hold := false } }).endSweep).settle
  { s with job := { s.job with hold := (h || s.job.hold) && s.jobState ≠ 3 } }

/-- The hold of a record. -/
def State.standbyHold (s : State) : State := if s.jobState = jobHeld then s else s.takeHold

/-- The park of a record; of a sweep that is not followed here, only where it stands (R226). -/
def State.standbyPark (s : State) : State :=
  if s.pair.foreign then { s with flow := { s.flow with parked := some (s.getN Obj.PROG_STRIPE, s.get Obj.PROG_FLASH_INDEX) } }
  else if s.sweepArmed && !s.sweep.parked then s.park else s

/-- The arming of a record. What comes after a sweep that was not followed here is drawn first. -/
def State.standbyArm (s : State) : State :=
  let s := if s.pair.foreign then ({ s with pair := { s.pair with foreign := false } }).drawEnd else s
  let s := if s.jobState = jobPreparing ∨ s.jobState = jobHeld then s.setJobState jobRunning else s
  let s : State := { s.setN Obj.TURNAROUND_HELD 0 with flow := { s.flow with burn := s.flow.burn.map fun b => { b with waiting := false, waited := true } } }
  s.tryArm

/-- The boundary of a record, in the order of the active's own (R249). -/
def State.standbyBoundary (s : State) (r : FlashRecord) : State :=
  let e := r.events.toNat
  let s := s.effectDecisions []
  let s := ({ s with head := { s.head with thermal := some r.thermal } }).thermalEffect
  let s := if bitOf e 4 then s.standbyCommit else s
  let s := (if bitOf e 5 then s.standbyEpoch else s).countCommand
  let s := s.standbySweep
  let s := if bitOf e 1 then s.standbyPark else s
  let s := if bitOf e 0 then s.standbyArm else s
  let s := if bitOf e 2 then s.standbyHold else s
  ((if bitOf e 3 then s.abortJobNow else s).wakeCheck)

/-- The indexes that a record passes become skips, and its own is issued (R173, R174, R249). -/
def State.standbyIndex (s : State) (r : FlashRecord) : State :=
  let prev := s.sweep.nPrev
  let n := r.flashIndex
  if !s.sweepArmed ∨ n ≤ prev then (if r.decision = 2 then (s.inc Obj.REPEATS_BLANKED).inc Obj.FLASHES_ISSUED else s)
  else
    let s := (s.passTo (prev + 1) (if r.decision = 0 then n else n - 1)).1
    let s : State := { s with sweep := { s.sweep with nPrev := n, blankRest := s.sweep.blankRest || r.decision = 2 } }
    if r.decision = 0 then s else s.issue n

/-- KIND of the frames of a record's period. -/
def State.standbyKind (s : State) (r : FlashRecord) : Option Nat :=
  match r.decision with
  | 1 => some 1
  | 2 => some 2
  | 0 => if r.laneCrc.all (· = 0) then none else if s.sweepArmed || s.pair.foreign then some 0 else some 3
  | _ => none

/-- The period of a record, as the standby's grid places it. Flashes, blanked flashes and tests have had their FRAME_SYNC from the active
(R194). -/
def State.standbyPeriod (s : State) (r : FlashRecord) : Period :=
  let d := s.hs.nextD - (s.hs.k - r.frame) * s.getN Obj.FLASH_PERIOD
  { k := r.frame, d := d, fire := d + s.horizon, dec := r.decision, n := r.flashIndex, kind := s.standbyKind r,
    due := d + 8 * s.getN Obj.FLASH_PERIOD - 8, again := r.decision = 2 && decide (r.flashIndex ≤ s.sweep.nPrev), cap := r.cap, thermal := r.thermal,
    events := r.events.toNat, computed := true, sync := r.decision = 1 || r.decision = 2 || s.standbyKind r = some 3,
    sent := sumMap (fun l => if atD r.laneCrc l 0 = 0 then 0 else 2 ^ l) (List.range 24), crcs := r.laneCrc, flip := r.crcRail.toNat, told := true }

/-- The checks of a standby on one of its results (Table 10-5 causes 2 to 4): rails and stores of its own, words late, frame CRCs. -/
def State.standbyChecks (s : State) (p : Period) (a : FlashAcc) (faults : FlashFaults) (own : List (Nat × BitVec 32)) : State :=
  let s := if a.railOwn || !faults.crcRail.isEmpty then
      let s := s.desync 4
      let mine := { a with rails := a.rails.filter faults.rails.contains }
      let s := mine.badWords.foldl (fun s w => s.windowUe w.1 w.2.1 w.2.2) s
      let s := (s.tableUe (faults.table.filter fun w => a.rails.any (· / 2 = w)))
      let s := mine.rails.foldl (fun s b => s.inc (Obj.RAIL_MISMATCHES + b % 640 / 160)) s
      faults.crcRail.foldl (fun s l => s.linkHit p.k l) (mine.lanes.foldl State.laneHit s)
    else s
  let s := if a.lateOwn then s.desync 3 else s
  let wrong := own.filter fun x => bitOf p.sent x.1 && !bitOf p.flip x.1 && atD p.crcs x.1 0 ≠ x.2
  if wrong.isEmpty then s else (s.add Obj.FRAME_DIVERGENCES wrong.length).desync 2

/-- The standby computes the flash of a record under the runs that bind it, and checks itself (R248, R249, R251). -/
def State.standbyFlash (s : State) (r : FlashRecord) (faults : FlashFaults) : State :=
  let p := s.standbyPeriod r
  let s := (s.standbyIndex r).noteReads faults
  let (s, a) := s.visitsOf p faults r.lateRuns r.railRuns true
  let s := s.reachOf p
  let codes := (a.codes.reverse).map fun q => (q.1, q.2.1)
  let frames := if s.sweepArmed && p.kind ≠ some 3 then (s.makeFrames p codes []).map fun f => (f.1, f.2.2) else []
  let p := { p with lit := !codes.isEmpty, ownCrcs := if frames.isEmpty then [] else (List.range 24).map fun l => ((frames.find? (·.1 = l)).map (·.2)).getD 0 }
  let s := (s.pushHist p a).pushPeriod p
  if s.sweepArmed then s.standbyChecks p a faults frames else s

/-- A frame decision of the active, which takes effect at the next decision point (R249). -/
def State.takeDecision (s : State) (k : Nat) (fired : BitVec 24) : State :=
  match s.hs.periods.find? fun p => p.k = k && p.decided.isNone with
  | none => s
  | some p =>
    let s := s.putPeriod { p with decided := some fired }
    let s := s.add Obj.FRAMES_NOT_FIRED (p.sentLanes.filter fun l => !fired.getLsbD l).length
    let s : State := { s with hist := s.hist.map fun (h : HistFlash) => if h.period = k then { h with fired := some fired } else h }
    s.compareOwn k

/-- The decision points follow the active's (R249): record k arrives between D(k + 1) and 350 ns later (R247), and how the standby finds
the point in that window to within 5 ns the spec leaves open: a free value. -/
def State.alignGrid (s : State) (k : Nat) : State :=
  let (f, s) := s.freeNat
  { s with hs := { s.hs with k := k + 2, nextD := s.clk.cycle + s.getN Obj.FLASH_PERIOD - f % 141 } }

/-- A record is applied (R249). The first one aligns the decision points. -/
def State.applyRecord (s : State) (r : FlashRecord) : State :=
  let s := if s.pair.anyRecord then s else s.alignGrid r.frame
  let faults := s.pair.ownFaults.getD {}
  let s := ((s.standbyBoundary r).setN Obj.CAP_IN_EFFECT r.cap).standbyFlash r faults
  let s := r.decisions.foldl (fun (s : State) d => s.takeDecision d.1 d.2) s
  let s : State := { s with pair := { s.pair with
    lastRecord := r.frame, anyRecord := true, ownFaults := none
    rxSeq := s.pair.rxSeq.mapIdx fun i (q : Nat) => if i < 4 then (q + 1) % 2 ^ 32 else q } }
  (s.inc Obj.RECORDS_RECEIVED).refreshEligible

/-- FLASH_RECORD: lanes in `bad` carried their part with a bad CRC or a gap; the standby asks for it again (R246). A number beyond the
next is a gap (Table 10-5 cause 1), an earlier one a replay of what is held. -/
def execFlashRecord (r : FlashRecord) (bad : List Nat) (s : State) : Out :=
  if !s.follows then .next s
  else if !bad.isEmpty then .next (bad.foldl State.sendNak s)
  else if s.pair.anyRecord ∧ r.frame ≤ s.pair.lastRecord then .next s
  else if s.pair.anyRecord ∧ r.frame ≠ s.pair.lastRecord + 1 then .next ((s.inc Obj.RECORD_GAPS).desync 1)
  else .next (s.applyRecord r)

/-- RECORD_DEADLINE: D(k + 2) has passed without record k (Table 10-5 cause 1). -/
def execRecordDeadline (s : State) : Out :=
  if s.follows ∧ s.pair.anyRecord ∧ s.pair.lastRecord + 3 ≤ s.hs.k then .next ((s.inc Obj.RECORD_GAPS).desync 1) else .next s

/-! ### Mirror messages -/

/-- The first stripe that a transfer brings: tiles before it are spooled and written (R262). -/
def State.firstStripe (s : State) (n : Nat) : State :=
  { s with ras := { s.ras with cursor := List.replicate 4 (n, 0, 0), front := List.replicate 4 (n, 0) } }

/-- A block that came by mirror or checkpoint is used as an accepted one (R249). -/
def State.useBlock (s : State) (t : BlockType) (ring : Ring) (index tag : Nat) (b : BlockImage) : State :=
  let f : Fetch := { desc := ⟨ring, index, 0, 64 + b.payloadLength, 0, tag⟩, error := false, image := b }
  let s := if t = .stripe ∧ s.lay.stripes.isEmpty then s.firstStripe b.stripe else s
  match payloadOf b with
  | .error _ => s
  | .ok p =>
    let owner : Option Pend := if ring = Ring.repair then s.matching t b else none
    match s.content f t p (owner.any fun (x : Pend) => !x.waits) (owner.any fun (x : Pend) => !x.gaveUp.isEmpty) with
    | .error _ => s
    | .ok s =>
      let s := match owner with
        | some x => (s.repairAccepted x).afterRepair x t b.aux
        | none => if ring = Ring.stream then s.setN Obj.EXPECTED_SEQ ((b.seq + 1) % 2 ^ 32) else s
      let s := ((s.noteSlot f.desc t b).inc Obj.BLOCKS_ACCEPTED).add Obj.BYTES_ACCEPTED (64 + b.payloadLength)
      let s := if t = .band ∨ t = .halo then { s with st := { s.st with unreleased := s.st.unreleased ++ [({ ring := ring, index := index, stripe := b.stripe, band := b.band, tiles := true } : Unreleased)] } } else s
      s.refreshStream

/-- MIRROR_BLOCK, with the index and the tag of the block's descriptor. -/
def execMirrorBlock (rx : Receipt) (type : BlockType) (ring : Ring) (slot : Nat × Nat) (image : BlockImage) (s : State) : Out :=
  .next (s.received rx fun s => if s.follows then s.useBlock type ring slot.1 slot.2 image else s)

/-- A producer index moves forward only: the host writes it to both devices (R261). -/
def State.forwardIndex (s : State) (o : ObjRef) (v : Nat) : State :=
  if (v + 2 ^ 32 - s.getN o) % 2 ^ 32 < 2 ^ 31 then s.setN o v else s

/-- A block accepted before has been rejected by the active (R84, R90): what this device stores of it goes, but where a tile alone is
affected (R282). -/
def State.unstore (s : State) (p : Pend) : State :=
  if p.tile.isSome then s
  else if p.type = blockCode .celldef then
    { s with lay := { s.lay with cells := s.lay.cells.map fun (x : Cell) => if x.id = p.aux then { x with recs := [], pending := true } else x } }
  else { s with lay := { s.lay with blocks := s.lay.blocks.filter (·.seq ≠ p.seq) } }

/-- An event of the stream (R249, Table 10-3). -/
def State.useEvent (s : State) : StreamEvent → State
  | .producers a b => (s.forwardIndex Obj.STREAM_PRODUCER a).forwardIndex Obj.REPAIR_PRODUCER b
  | .consumers c r rc rr =>
    let s := (s.setN Obj.STREAM_CONSUMER c).setN Obj.STREAM_RELEASE r
    { s with st := { s.st with repairConsumer := rc, repairRelease := rr } }
  | .rejection known waits type job stripe band seq due aux status box tile =>
    let p : Pend := { seq := seq, jobId := job, stripe := stripe, band := band, type := type, status := status, aux := aux, known := known,
                      waits := waits, bbox := box, gaveUp := [], tile := tile, noted := false, due := due }
    let s := if type = blockCode .celldef ∧ known ∧ !waits then s.addPendingCell aux seq else s
    let s := s.noteRejected p
    let s := if due = s.getN Obj.EXPECTED_SEQ then s.setN Obj.EXPECTED_SEQ ((due + 1) % 2 ^ 32) else s.unstore p
    { s.setN Obj.PENDING_REJECTIONS (s.st.pending.length + 1) with st := { s.st with pending := s.st.pending ++ [p] } }
  | .repaired seq =>
    let s : State := { s with st := { s.st with pending := s.st.pending.filter (·.seq ≠ seq) } }
    s.setN Obj.PENDING_REJECTIONS s.st.pending.length
  | .giveUp block r =>
    match s.areas.find? fun a => a.block = block && !s.gaveUp a r with
    | some a => s.giveUpArea r a
    | none => s

/-- STREAM_EVENT. -/
def execStreamEvent (m : Receipt × StreamEvent) (s : State) : Out :=
  .next (s.received m.1 fun s => if s.follows then (s.useEvent m.2).refreshStream else s)

/-- Return CONFIRM for a message received whole (R250). -/
def State.sendConfirm (s : State) (seq : Nat) : State := s.mirror 4 0x32 (leBytes 4 seq)

/-- MIRROR_COMMIT: the entries wait for the record that announces them; CONFIRM is returned (R250). -/
def execMirrorCommit (rx : Receipt) (entries : List (ObjRef × Int)) (s : State) : Out :=
  .next (s.received rx fun s =>
    if s.follows then ({ s with pair := { s.pair with pendCommits := s.pair.pendCommits ++ [entries] } }).sendConfirm rx.seq else s)

/-- Table changes wait for their epoch; beams that become KILLED are disabled, an identity holds at once (R202, R250). -/
def State.takeBeams (s : State) (seq : Nat) (changes : List BeamChange) (epoch : Nat) (identity : Option HeadIdentity) : State :=
  if !s.follows then s
  else
    let s : State := { s with pair := { s.pair with pendBeams := s.pair.pendBeams ++ [(changes, epoch, identity)] } }
    let s := match identity with
      | some i => ({ s.setN Obj.HEAD_STATE 2 with head := { s.head with identity := some i } }).showIdentity i
      | none => (changes.filter fun (c : Nat × BitVec 32) => beamState c.2.toNat = 3).foldl (fun (s : State) (c : Nat × BitVec 32) => s.queueDisable c.1) s
    s.sendConfirm seq

/-- BEAM_CHANGES. -/
def execBeamChanges (rx : Receipt) (changes : List BeamChange) (epoch : Nat) (identity : Option HeadIdentity) (s : State) : Out :=
  .next (s.received rx fun s => s.takeBeams rx.seq changes epoch identity)

/-! ### The checkpoint (R262) -/

/-- The standby may start a transfer: UNSYNCED, the link up, the levels equal. -/
def State.maySync (s : State) : Bool :=
  s.getN Obj.PAIR_STATE = 0 && s.getN Obj.MIRROR_LINK_STATE = 1 && (s.pair.peerHealth[1]?).any (fun v => v.toNat = s.getN Obj.BEHAVIOUR_LEVEL) && s.coreOn

/-- The transfer starts: what it brings begins empty (R262). -/
def State.startSync (s : State) : State :=
  let s := s.clearJob
  let s := ((((s.setN Obj.PAIR_STATE 2).setN Obj.SYNC_PERMILLE 0).setN Obj.SYNC_ITEM 1).setN Obj.SYNC_BYTES 0).setN Obj.SWEEP_STATE 0
  let s := s.setN Obj.PENDING_REJECTIONS 0
  { s with
    lay := {}
    sram := { s.sram with tableUe := [] }
    head := { s.head with table := List.replicate 480 [], results := [], edits := [], attachTable := none, attachAwait := none, thermal := none }
    hs := { s.hs with periods := [] }
    pair := { s.pair with anyRecord := false, pendCommits := [], pendBeams := [], release := none, foreign := false, armedSinceSync := false, ownFaults := none } }

/-- A write of 1 to SYNC_START; AUTO_SYNC starts by itself (R262). -/
def writeSyncStart (s : State) (by_ : Caller) (v : Nat) : Wr :=
  s.gate by_ Obj.SYNC_START fun s => if v ≠ 1 then s.deny stRange else if !s.maySync then s.deny stState else s.startSync.ok

/-- SYNC_START. -/
def execSyncStart (by_ : Option Caller) (s : State) : Out :=
  match by_ with
  | some c => .next (writeSyncStart s c 1).1
  | none => .next (if s.on Obj.AUTO_SYNC ∧ s.maySync then s.startSync else s)

/-- Objects that item 1 brings: those configured, and the state of the job (Table 10-7). -/
def itemOneObj (o : ObjRef) : Bool :=
  isMirrored o && ((objRow o).any (fun r => decide (r.access = .rs)) || o ∈ [Obj.JOB_STATE, Obj.JOB_ID, Obj.JOB_STRIPES, Obj.JOB_AREA, Obj.JOB_PIXEL_SIZE, Obj.BEAM_PITCH,
    Obj.ROWS_PER_GROUP, Obj.LOAD_REACH, Obj.DELIVERABLE_CEILING, Obj.HEAD_STATE])

/-- The ledger entry that an item brings. -/
def entryOfItem (e : LedgerItem) : Entry :=
  { key := ⟨e.stripe, e.u, e.t⟩, region := e.region, cause := e.cause, flags := e.flags, state := e.state, pixels := e.pixels, pass := e.pass,
    sum := e.sum, vals := e.vals, length := e.length, addr := e.addr, owner := e.owner, left := e.left }

/-- The job's state as item 1 brings it: during a transfer it is adopted, with the power state that goes with it; afterwards it changes
as on the active (R48, R53, Table 18-4). -/
def State.adoptJob (s : State) (v : Nat) : State :=
  if s.getN Obj.PAIR_STATE ≠ 2 then (if s.jobState = v then s else s.setJobState v)
  else
    let s := s.setN Obj.JOB_STATE v
    if v ∈ [2, 3, 4, 6] ∧ s.power = 2 then s.setN Obj.POWER_STATE 3
    else if ¬v ∈ [2, 3, 4, 6] ∧ s.power = 3 then s.setN Obj.POWER_STATE 2 else s

/-- The progress that item 9 brings goes on here (R53, R54). -/
def State.adoptProgress (s : State) (retired : Nat) : State :=
  { s with job := { s.job with
      liveStripe := s.getN Obj.PROG_STRIPE, liveBand := s.getN Obj.PROG_BAND, liveIndex := s.get Obj.PROG_FLASH_INDEX
      livePass := s.getN Obj.PROG_PASS, permille := s.getN Obj.PROG_PERMILLE, retired := retired } }

/-- Checkpoint data takes its place (R262, Table 10-7); the number of its item. -/
def State.storeItem (s : State) : CheckpointData → State × Nat
  | .objects es hold =>
    let s := (es.filter fun e => itemOneObj e.1 && e.1 ≠ Obj.JOB_STATE).foldl (fun (s : State) e => s.set e.1 e.2) s
    let s := match es.find? fun e => e.1 = Obj.JOB_STATE with
      | some e => s.adoptJob e.2.toNat
      | none => s
    let sw := (es.find? fun e => e.1 = Obj.SWEEP_STATE).map (·.2)
    let foreign := match sw with
      | some v => (v = 1 || v = 2 || v = 3) && !s.sweepArmed
      | none => s.pair.foreign
    let s : State := { s with job := { s.job with hold := hold }, pair := { s.pair with foreign := foreign }, st := { s.st with jobId := s.getN Obj.JOB_ID } }
    (s.afterEntries (es.map (·.1)), 1)
  | .head i th cs =>
    let s : State := { s.setN Obj.THERMAL_STATE th with head := { s.head with identity := i } }
    let s := match i with
      | some x => s.showIdentity x
      | none => s
    (s.setCmds (cs.map fun (c : Nat × Nat) => ({ beam := c.1, periods := c.2 } : HeadCmd)), 2)
  | .beamTable es epoch => (((es.foldl (fun (s : State) e => s.setBeam e.1 e.2.toNat) s).setN Obj.BEAM_EPOCH epoch).recountBeams, 3)
  | .stream c r rc rr q pend =>
    let s := pend.foldl State.useEvent (s.useEvent (.consumers c r rc rr))
    ({ s.setN Obj.EXPECTED_SEQ q with st := { s.st with reading := true } }, 4)
  | .block t ring i b =>
    let q := s.getN Obj.EXPECTED_SEQ
    ((s.useBlock t ring i 0 b).setN Obj.EXPECTED_SEQ q, if t = .celldef ∨ t = .marks then 4 else 5)
  | .density st cs =>
    ({ s with lay := { s.lay with copied := cs.map (fun (c : Int × Int × Nat × Nat) => (⟨st, c.1, c.2.1, c.2.2.1, c.2.2.2⟩ : CopiedDensity)) ++ s.lay.copied } }, 6)
  | .spoolTile st u t vals freed poisoned =>
    let k : TileKey := ⟨st, u, t⟩
    let tile : SpoolTile := { key := k, region := s.regionOf t, vals := vals, bad := poisoned }
    let s := s.storeTile (if vals.all (· = 0) then { emptyTile k tile.region false with bad := poisoned } else tile.raw)
    (if freed then { s with spool := { s.spool with tiles := s.spool.tiles.filter (·.key ≠ k) } } else s, 7)
  | .ledger es ds =>
    ({ s with ledger := { entries := es.map entryOfItem
                          defects := ds.map fun (d : DefectItem) => ⟨d.x, d.y, d.missing, d.stripe, d.cause, d.flags, d.entry, false⟩ } }, 8)
  | .counts es retired =>
    (((es.filter fun e => isMirrored e.1 && !itemOneObj e.1).foldl (fun (s : State) e => s.set e.1 e.2) s).adoptProgress retired, 9)

/-- SYNC_PERMILLE: the item reached, by equal parts of the nine; it never falls (R55). -/
def State.syncPermille (s : State) (item : Nat) : Nat := max (s.getN Obj.SYNC_PERMILLE) (min 999 (1000 * (item - 1) / 9))

/-- A checkpoint message is taken. -/
def State.takeItem (s : State) (data : CheckpointData) (bytes : Nat) : State :=
  if !s.follows then s
  else
    let (s', item) := s.storeItem data
    if s.getN Obj.PAIR_STATE = 2 then
      ((s'.setN Obj.SYNC_ITEM (max (s.getN Obj.SYNC_ITEM) item)).add Obj.SYNC_BYTES bytes).setN Obj.SYNC_PERMILLE (s.syncPermille item)
    else s'

/-- CHECKPOINT: data of Table 10-7 with its size, and every later change to its items (R262). -/
def execCheckpoint (rx : Receipt) (chunk : CheckpointData × Nat) (s : State) : Out :=
  .next (s.received rx fun s => s.takeItem chunk.1 chunk.2)

/-- Where the order of sweeps stands after a transfer: the next stripe, and a Burnish pass under way (R262). -/
def State.restoreFlow (s : State) : State :=
  let begun := s.getN Obj.FLASHES_ISSUED ≠ 0
  let next := if begun then s.getN Obj.PROG_STRIPE + 1 else 0
  let burn : Option Burn :=
    if s.getN Obj.BURNISH_STATE = 0 then none
    else some { stripes := s.openStripes fun n => s.getN Obj.BURNISH_STRIPE ≤ n, attempt := s.getN Obj.BURNISH_ATTEMPT
                after := if s.jobState = jobBurnishing then .jobEnd else if s.getN Obj.BURNISH_MODE = 1 then .stripeEnd else .nextStripe }
  { s with flow := { s.flow with next := next, stripeDone := begun && !s.pair.foreign, burn := burn } }

/-- SYNC_COMPLETE: SYNCED (Table 10-2). -/
def execSyncComplete (s : State) : Out :=
  if s.getN Obj.PAIR_STATE ≠ 2 then .next s
  else
    let s := (s.restoreFlow.setN Obj.PAIR_STATE 3).setN Obj.SYNC_PERMILLE 1000
    .next ({ s with pair := { s.pair with armedSinceSync := false } }).refreshEligible

end Sys2Proof.Machine
end

