-- ==== Sys2Proof/Machine/Quiesce.lean ====
section
/-! DEFINITION. What the units do as the core domain stops and starts (R202, R319, R329, R341, R377, R386 to R390): aborts
toward CONTROL, links that fall with the PLLs, on-chip state that DEEP loses, the entry to READY. -/
namespace Sys2Proof.Machine

/-- Every DMA channel in state 1 or 2 is aborted (R319). -/
def State.abortAllDma (s : State) : State := s.abortDma (2 ^ 32 - 1)

/-- Both camera ports are aborted (R341); ABORT_STATE belongs to requests. -/
def State.abortAllCameras (s : State) : State := (s.abortCamera 3).setN (Obj.ABORT_STATE + 3) (s.getN (Obj.ABORT_STATE + 3))

/-- Calibration ends as by ABORT function 5 (R377), with the gate check and the image that use the same units. -/
def State.stopCalibration (s : State) : State := ((s.endCalibration true).gateEnd 4).imageEnd 4

/-- The links of the core domain fall with its PLLs: deflector, gate ADC, head acknowledgement, mirror and beam links. -/
def State.linksDown (s : State) : State :=
  let s := ((((s.setN Obj.DEFL_LINK_STATE 0).driveSysref).setN Obj.GATE_RX_STATE 0).setN Obj.HST_LANE_STATE 0).setN (Obj.HST_LANE_STATE + 1) 0
  let s := foldN 24 (fun s l => if s.getN (Obj.BLK_LANE_STATE + l) = 3 then s else s.setN (Obj.BLK_LANE_STATE + l) 0) s
  (s.setN Obj.PLK_LANES_UP 0).refreshLink

/-- The objects of the check-value units take their defaults (R329). -/
def State.clearUnits (s : State) : State :=
  { s with od := s.od.filter fun p => !(0x3300 ≤ p.1 / 256 && p.1 / 256 ≤ 0x33FF), cus := List.replicate 4 {} }

/-- What DEEP does not keep (R390): the window, the code history, the DMA channels, the check-value units. -/
def State.clearOnChip (s : State) : State :=
  let s := foldN 32 (fun s c => s.setN (Obj.CH_STATE + c) 0) s.clearUnits
  { s with
    dma := List.replicate 32 {}
    sweep := { s.sweep with win := List.replicate 640 [], loads := [] }
    hist := []
    sram := { s.sram with tableUe := [] } }

/-- After the restore of a wake, the next entry to READY attaches the head with value 2 (R202). -/
def State.attachAfterWake (s : State) : State := { s with pwr := { s.pwr with attachDue := 2 } }

/-- After start-up, the first entry to READY attaches the head with value 1 (R202). -/
def State.attachAtStart (s : State) : State := { s with pwr := { s.pwr with attachDue := 1 } }

/-- READY is entered: units start, and a head attach that is due begins, unless the device is a standby (R202). -/
def State.readyEntered (s : State) : State :=
  let s := s.enterReady
  let v := s.pwr.attachDue
  let s : State := { s with pwr := { s.pwr with attachDue := 0 } }
  if v ≠ 0 ∧ s.on Obj.HEAD_AUTO_ATTACH ∧ !s.isStandby ∧ s.getN Obj.HEAD_STATE ≠ 1 then s.startAttach v else s

/-- The grid of flash periods runs from the lock of the core PLL (R165): the next decision point falls there; periods under way
when it stopped are gone. -/
def State.startGrid (s : State) : State :=
  { s with
    hs := { s.hs with k := 0, nextD := s.clk.cycle, periods := [], looks := [], skips := [] }
    head := { s.head with epochDone := none }
    units := { s.units with linkHits := [] }
    pair := { s.pair with railPeriods := [], frameSyncs := [], k1 := 0, anyRecord := false } }

end Sys2Proof.Machine
end

