-- ==== Sys2Proof/Machine/Power.lean ====
section
/-! DEFINITION. Reset, supplies, clocks, power states and junction temperature (R380 to R391, R397, R398, R419): the
commands of chapter 18 beside the boot images. -/
namespace Sys2Proof.Machine

/-- Reset of every domain (R398): one-time-programmable memory, the boot flash, the waiting commands and the levels that
come from outside stay. -/
def State.resetAll (s : State) : State :=
  let b := State.blank s.otp s.boot.flashA s.boot.flashB s.boot.netRecord
  { b with
    pins := { b.pins with peerAct := s.pins.peerAct, pwrEn := s.pins.pwrEn, pwrEnDdq := s.pins.pwrEnDdq,
                          pswM := s.pins.pswM, pswB := s.pins.pswB }
    pwr := { b.pwr with mainGood := s.pwr.mainGood, backupGood := s.pwr.backupGood }
    out := s.out
    free := s.free
    pending := s.pending }

/-- PORST_N is asserted: every domain resets, OWN_ACT falls, no RELEASE message is sent (R398). -/
def execPorstNAssert (s : State) : Out := .next s.resetAll

/-- PSW outputs while PORST_N is low (R419): MAIN where the main source is good, else BACKUP where that is good. -/
def execVaonGood (mainGood backupGood : BitVec 5) (s : State) : Out :=
  let s := { s with pwr := { s.pwr with mainGood := mainGood, backupGood := backupGood },
                    pins := { s.pins with pwrEn := true, pwrEnDdq := true } }
  if s.pins.porstN then .next s
  else .next { s with pins := { s.pins with pswM := mainGood, pswB := ~~~mainGood &&& backupGood } }

/-- Both VAON inputs are lost: the always-on island loses power and with it all state; OWN_ACT falls without a RELEASE
message (R381). -/
def execVaonLoss (s : State) : Out :=
  let s := s.resetAll
  .next { s with pins := { s.pins with pwrEn := false, pwrEnDdq := false, pswM := 0, pswB := 0 },
                 pwr := { s.pwr with mainGood := 0, backupGood := 0 } }

/-- The PLLs that start with the core domain (R386). -/
def corePlls : List Pll := [.core, .dram 0, .dram 1, .dram 2, .dram 3]

/-- The lane PLLs and the PCIe PLL, which start when READY is entered (R386). -/
def lanePlls : List Pll :=
  (List.range 24).map (.lane .blk) ++ (List.range 2).map (.lane .hst) ++ (List.range 8).map (.lane .plk) ++ [.pcie]

/-- The claim at power-up (R244): ROLE A claims at once if PEER_ACT is deasserted, ROLE B waits 10 us. -/
def State.claimAtStart (s : State) : State :=
  if s.straps.roleB then { s.setN Obj.PAIR_STATE 0 with pair := { s.pair with claimWait := true } }
  else if s.pins.peerAct then s.setN Obj.PAIR_STATE 0
  else { s.setN Obj.PAIR_STATE 1 with pins := { s.pins with ownAct := true } }

/-- PORST_N deasserts (R391, R393): straps sampled, device time starts at 0, PSW of the main sources asserted (R382), the
claim runs, POWER_STATE 4, phase 0. -/
def execPorstNDeassert (straps : Straps) (peerAct : Bool) (mainGood backupGood : BitVec 5) (s : State) : Out :=
  if s.pins.porstN then .next s
  else
    let s := s.resetAll
    let s := { s with
      straps := straps
      pins := { s.pins with porstN := true, peerAct := peerAct, pwrEn := true, pwrEnDdq := true, pswM := 0x1F, pswB := 0 }
      pwr := { s.pwr with mainGood := mainGood, backupGood := backupGood, locking := .control :: corePlls } }
    .next s.claimAtStart

/-- A PLL locks (R386). With the control, core and DRAM PLLs locked, start-up enters phase 1 (Table 18-7). -/
def execPllLock (pll : Pll) (s : State) : Out :=
  if !s.pwr.locking.contains pll then .next s
  else
    let s := { s with pwr := { s.pwr with locking := s.pwr.locking.filter (· ≠ pll) } }
    let s : State := match pll with
      | .core => ({ s with clk := { s.clk with coreLocked := true }, pwr := { s.pwr with coreLossSeen := false } }).startGrid
      | .lane .blk _ => s.refreshBlk
      | _ => s
    let waiting := s.pwr.locking.any fun p => (Pll.control :: corePlls).contains p
    if s.power = 4 ∧ s.getN Obj.STARTUP_PHASE = 0 ∧ !waiting then .next (s.enterPhase 1) else .next s

/-- A supply fault (R384): counted, release trigger 4 at detection. `rail` is the sub-index of Table 18-11, 0 for none. -/
def State.supplyFault (s : State) (rail : Nat) : State :=
  (s.inc Obj.SUPPLY_FAULTS).raise ⟨4, 13, 255, if rail = 0 then 255 else rail, rail⟩

/-- The core PLL loses lock in READY or WRITING: every unit of the core domain stops, handled as a supply fault; the PLL
then locks again (R386). -/
def execCorePllLoss (s : State) : Out :=
  if ¬s.coreOn then .next s
  else
    let s := s.inc Obj.CORE_PLL_LOSSES
    let s := { s with clk := { s.clk with coreLocked := false },
                      pwr := { s.pwr with locking := .core :: s.pwr.locking, coreLossSeen := true } }
    .next (s.refreshDefl.supplyFault 0)

/-- A supply fault is detected on a rail (0 to 6); a core PLL loss that CORE_PLL_LOSS has handled is not counted again. -/
def execSupplyFault (rail : Nat) (cause : SupplyCause) (s : State) : Out :=
  if s.power = 5 ∨ ¬s.pins.porstN then .next s
  else match cause with
    | .corePll => if s.pwr.coreLossSeen ∨ s.clk.coreLocked then .next s else .next (s.supplyFault 0)
    | .noSource =>
      let s := s.setN (Obj.RAIL_SOURCE + rail) 2
      .next (s.supplyFault (rail + 1))
    | _ => .next (s.supplyFault (rail + 1))

/-- The always-on island trips (R384): OWN_ACT low, every other domain in reset, PWR_EN deasserted, POWER_STATE 5. -/
def State.trip (s : State) : State :=
  ({ s.setN Obj.POWER_STATE 5 with
    pins := { s.pins with ownAct := false, pwrEn := false, pwrEnDdq := false, ttoEnd := [], strobeEnd := [] }
    clk := { s.clk with coreLocked := false }
    boot := { s.boot with released := false }
    fp := {}
    pwr := { s.pwr with target := none, locking := [], engage := [] } }).refreshDefl.refreshBlk

/-- The load point stays below its fault threshold for 2 us (R384). -/
def execSupplyTrip (_rail : Nat) (s : State) : Out := if s.pins.porstN then .next s.trip else .next s

/-- Junction sensors, in 1/16 degree (R397): warning, trigger 5 at 150 degrees once per rise, trip at 160 degrees. -/
def execTjSample (temps : List Int) (s : State) : Out :=
  if s.power = 5 ∨ ¬s.pins.porstN then .next s
  else match temps with
    | [] => .next s
    | t0 :: ts =>
      let tj := ts.foldl max t0
      let s := (s.set Obj.TJ tj).set Obj.TJ_PEAK (if s.pwr.tjSeen then max (s.get Obj.TJ_PEAK) tj else tj)
      let warn := decide (tj ≥ s.get Obj.TJ_WARN)
      let hot := decide (tj ≥ 2400)
      let s := if warn && !s.pwr.tjWarned then s.logEvent ⟨2, 14, 255, 255, Obj.TJ, toUnsigned 64 tj, 0⟩ else s
      let s := if hot && !s.pwr.tjHot then s.raise ⟨5, 14, 255, 255, 0⟩ else s
      let s := { s with pwr := { s.pwr with tjSeen := true, tjWarned := warn, tjHot := hot } }
      if tj ≥ 2560 then .next (s.inc Obj.THERMAL_TRIPS).trip else .next s

/-! ### Switch-over -/

/-- Deassert the selected source of a rail; the other is asserted 100 ns later (R382). -/
def State.beginSwitch (s : State) (rail src : Nat) : State :=
  let clear (b : BitVec 5) : BitVec 5 := b &&& ~~~(BitVec.ofNat 5 (2 ^ rail))
  { s with
    pins := { s.pins with pswM := clear s.pins.pswM, pswB := clear s.pins.pswB }
    pwr := { s.pwr with engage := kvSet s.pwr.engage rail src } }

/-- The selected source of a rail leaves its range while the other source is good (R382). -/
def execRailSourceFault (rail : Nat) (s : State) : Out :=
  let src := s.getN (Obj.RAIL_SOURCE + rail)
  let bit := BitVec.ofNat 5 (2 ^ rail)
  if rail ≥ 5 ∨ ¬s.pins.porstN ∨ src ≥ 2 ∨ (kvGet s.pwr.engage rail).isSome then .next s
  else if src = 0 then
    if s.pwr.backupGood.getLsbD rail then
      .next ({ s with pwr := { s.pwr with mainGood := s.pwr.mainGood &&& ~~~bit } }.beginSwitch rail 1)
    else .next s
  else if s.pwr.mainGood.getLsbD rail then
    .next ({ s with pwr := { s.pwr with backupGood := s.pwr.backupGood &&& ~~~bit } }.beginSwitch rail 0)
  else .next s

/-- The other source's PSW is asserted; the switch-over counts and is entered in the error log (R382). -/
def execSwitchoverEngage (rail : Nat) (s : State) : Out :=
  match kvGet s.pwr.engage rail with
  | none => .next s
  | some src =>
    let bit := BitVec.ofNat 5 (2 ^ rail)
    let s := { s with
      pins := if src = 0 then { s.pins with pswM := s.pins.pswM ||| bit } else { s.pins with pswB := s.pins.pswB ||| bit }
      pwr := { s.pwr with engage := kvDel s.pwr.engage rail } }
    .next (((s.setN (Obj.RAIL_SOURCE + rail) src).inc (Obj.SWITCHOVERS + rail)).logEvent
      ⟨1, 13, 255, rail + 1, Obj.SWITCHOVERS + rail, src, 0⟩)

/-- The main source of a rail on BACKUP has been good for 1 s with SUPPLY_RETURN = 1 (R382). -/
def execSupplyReturn (rail : Nat) (s : State) : Out :=
  if rail ≥ 5 ∨ s.getN (Obj.RAIL_SOURCE + rail) ≠ 1 ∨ s.getN Obj.SUPPLY_RETURN ≠ 1 ∨ (kvGet s.pwr.engage rail).isSome then .next s
  else .next ({ s with pwr := { s.pwr with mainGood := s.pwr.mainGood ||| BitVec.ofNat 5 (2 ^ rail) } }.beginSwitch rail 0)

/-- A write of SUPPLY_RETURN_NOW: the rails on BACKUP whose main source is good switch back; refused with STATE where
none of those on BACKUP has a good main source (R382). -/
def writeSupplyReturnNow (s : State) (by_ : Caller) (mainGood : BitVec 5) : Wr :=
  s.gate by_ Obj.SUPPLY_RETURN_NOW fun s =>
    let s1 := { s with pwr := { s.pwr with mainGood := mainGood } }
    let onBackup := (List.range 5).filter fun r => s.getN (Obj.RAIL_SOURCE + r) = 1
    let ready := onBackup.filter fun r => mainGood.getLsbD r && (kvGet s.pwr.engage r).isNone
    if ready.isEmpty ∧ ¬onBackup.isEmpty then s.deny stState
    else (ready.foldl (fun s r => s.beginSwitch r 0) s1).ok

/-- SUPPLY_RETURN_NOW. -/
def execSupplyReturnNow (by_ : Caller) (mainGood : BitVec 5) (s : State) : Out := .next (writeSupplyReturnNow s by_ mainGood).1

/-- VAON_MAIN falls below 3.0 V: the island switches to VAON_BACK, without reset, and counts it (R381). -/
def execVaonMainFail (s : State) : Out :=
  if s.getN (Obj.RAIL_SOURCE + 6) ≠ 0 then .next s
  else .next ((s.setN (Obj.RAIL_SOURCE + 6) 1).inc (Obj.SWITCHOVERS + 6))

/-- VAON_MAIN has been good for 1 s: the island switches back (R381). -/
def execVaonMainReturn (s : State) : Out :=
  if s.getN (Obj.RAIL_SOURCE + 6) ≠ 1 then .next s
  else .next ((s.setN (Obj.RAIL_SOURCE + 6) 0).inc (Obj.SWITCHOVERS + 6))

/-! ### Power states -/

/-- POWER_REQUEST is refused with STATE (R388): STARTING or TRIPPED, a job in states 1 to 4 or 6, target DEEP while the peer
of this active is ELIGIBLE; and while another transition runs. -/
def State.powerRefused (s : State) (target : Nat) : Bool :=
  s.power = 4 || s.power = 5 || s.jobActive || (target = 0 && s.getN Obj.PAIR_STATE = 1 && s.getN Obj.PEER_STATE = 4) ||
  (match s.pwr.target with
   | some t => t ≠ target
   | none => false)

/-- Running channels enter self refresh; the PLLs of R386 beside the control PLL stop. DESIGN CHOICE: what REGION_STATE reads while the core
domain is stopped the spec does not say (R28); the halves of the regions keep the state they were stopped in, so that a writing side that
was awake goes on reading 2. -/
def State.stopCore (s : State) : State :=
  let s := regions.foldl (fun s i => if s.getN (Obj.MC_STATE + i) = 1 then s.setN (Obj.MC_STATE + i) 2 else s) s
  { s with clk := { s.clk with coreLocked := false }, pwr := { s.pwr with locking := s.pwr.locking.filter (· = .control) } }

/-- The steps toward CONTROL (Table 18-4): DMA channels and cameras aborted, calibration ended, self refresh, PLLs stopped. -/
def State.quiesce (s : State) : State := ((((s.abortAllDma).abortAllCameras).stopCalibration).stopCore).linksDown

/-- POWER_REQUEST 1 (Table 18-4). -/
def writePowerControl (s : State) (by_ : Caller) : Wr :=
  s.gate by_ Obj.POWER_REQUEST fun s =>
    if s.powerRefused 1 then s.deny stState
    else if s.power = 1 ∨ s.pwr.target = some 1 then s.ok
    else ({ s.quiesce with pwr := { s.quiesce.pwr with target := some 1 } }).ok

/-- POWER_REQUEST 0 (Table 18-4, R390): as for CONTROL, then the save. -/
def writePowerDeep (s : State) (by_ : Caller) : Wr :=
  s.gate by_ Obj.POWER_REQUEST fun s =>
    if s.powerRefused 0 then s.deny stState
    else if s.pwr.target = some 0 then s.ok
    else
      let s := if s.power = 1 then s else s.quiesce
      ({ s with pwr := { s.pwr with target := some 0 } }).ok

/-- POWER_REQUEST 2 (Table 18-4): the PLLs start, DRAM leaves self refresh. -/
def writePowerReady (s : State) (by_ : Caller) : Wr :=
  s.gate by_ Obj.POWER_REQUEST fun s =>
    if s.powerRefused 2 then s.deny stState
    else if s.power = 2 ∨ s.power = 3 ∨ s.pwr.target = some 2 then s.ok
    else ({ s with pwr := { s.pwr with target := some 2, locking := s.pwr.locking ++ corePlls ++ lanePlls } }).ok

/-- POWER_REQUEST 0, 1 and 2. -/
def execPowerRequestDeep (by_ : Caller) (s : State) : Out := .next (writePowerDeep s by_).1
/-- POWER_REQUEST 1. -/
def execPowerRequestControl (by_ : Caller) (s : State) : Out := .next (writePowerControl s by_).1
/-- POWER_REQUEST 2. -/
def execPowerRequestReady (by_ : Caller) (s : State) : Out := .next (writePowerReady s by_).1

/-- Channels in self refresh run again at their data rate. -/
def State.leaveSelfRefresh (s : State) : State :=
  regions.foldl (fun s i => if s.getN (Obj.MC_STATE + i) = 2 then s.setN (Obj.MC_STATE + i) 1 else s) s

/-- Writes to BAR0 offsets 0x0000 and 0x0004 that came in CONTROL take effect on entry to READY (R388). -/
def State.takeKeptProducers (s : State) : State :=
  let s' := s.st.keptProducers.foldl (fun s p => s.writeProducer (if p.1 = Obj.STREAM_PRODUCER then .stream else .repair) p.2) s
  { s' with st := { s'.st with keptProducers := [] } }

/-- Start the wake (Table 18-4): PWR_EN asserted, PLLs started, DRAM retrains without a fill. -/
def State.startWake (s : State) (mask : Nat) : State :=
  let s := s.setN Obj.LAST_WAKE_SOURCE mask
  let s := regions.foldl (fun s i => if s.channelLost i then s else (s.setN (Obj.MC_STATE + i) 0).setN (Obj.MC_SPEED + i) 0) s
  { s with pins := { s.pins with pwrEn := true, wakeSeen := 0 },
           pwr := { s.pwr with target := some (s.getN Obj.WAKE_TARGET), restored := false, locking := .control :: corePlls } }

/-- What is not kept across DEEP (R390): sessions, staging set, check-value units, on-chip stores, DMA channels. -/
def State.enterDeep (s : State) : State :=
  let s := (((s.setN Obj.POWER_STATE 0).inc Obj.DEEP_ENTRIES).setN Obj.SESSIONS_OPEN 0).clearOnChip
  let s := ((s.setN Obj.STAGING_OWNER 0).setN Obj.STAGED_ENTRIES 0)
  { s with fp := { s.fp with sessions := [], spiSeq := 0, spiStored := [], waiting := [], spiOut := [] }
           stg := { s.stg with owner := 0, entries := [] }
           pins := { s.pins with pwrEn := false }
           pwr := { s.pwr with target := none, restored := false, locking := [] } }

/-- A power transition completes (R388). -/
def execPowerTransitionDone (s : State) : Out :=
  match s.pwr.target with
  | none => .next s
  | some t =>
    if t = 0 then
      let s' := s.enterDeep
      if s.pins.wakeSeen = 0 then .next s' else .next (s'.startWake s.pins.wakeSeen)
    else if s.power = 0 ∧ ¬s.pwr.restored then .next s
    else if t = 1 then
      let s := if s.power = 0 then s.stopCore else s
      .next { s.setN Obj.POWER_STATE 1 with pwr := { s.pwr with target := none } }
    else if s.pwr.locking.any corePlls.contains then .next s
    else
      let woke := s.power = 0
      let s := ((s.setN Obj.POWER_STATE 2).leaveSelfRefresh).takeKeptProducers
      let s : State := { s with pwr := { s.pwr with target := none, locking := if woke then s.pwr.locking ++ lanePlls else s.pwr.locking } }
      .next s.readyEntered

/-- An enabled wake source acts in DEEP; during entry to DEEP it is acted on once the entry has completed (R389). -/
def execWake (source : Nat) (s : State) : Out :=
  let mask := (BitVec.ofNat 2 source &&& BitVec.ofNat 2 (s.getN Obj.WAKE_SOURCES)).toNat
  if mask = 0 then .next s
  else if s.power = 0 ∧ s.pwr.target.isNone then .next (s.startWake mask)
  else if s.pwr.target = some 0 then
    .next { s with pins := { s.pins with wakeSeen := (BitVec.ofNat 2 s.pins.wakeSeen ||| BitVec.ofNat 2 mask).toNat } }
  else .next s

/-- The restore after a wake (R390). A save with an uncorrectable word is discarded whole: start-up from phase 3, with
the DRAM contents kept. -/
def execWakeRestoreDone (saveReadable : Bool) (s : State) : Out :=
  if s.power ≠ 0 ∨ s.pwr.target.isNone ∨ s.pwr.restored then .next s
  else if saveReadable then .next { s with pwr := { s.pwr with restored := true }, boot := { s.boot with released := true } }.attachAfterWake
  else
    let b := s.resetAll
    let b := { b with straps := s.straps, clk := s.clk, dram := { s.dram with channels := [{}, {}, {}, {}] },
                      pins := { s.pins with wakeSeen := 0 }, pwr := { b.pwr with locking := s.pwr.locking } }
    let b := regions.foldl (fun b i =>
      (b.setN (Obj.MC_STATE + i) (s.getN (Obj.MC_STATE + i))).setN (Obj.MC_SPEED + i) (s.getN (Obj.MC_SPEED + i))) b
    let b := (b.setN Obj.PAIR_STATE (s.getN Obj.PAIR_STATE)).setN Obj.FILL_STATE 1
    .next b.afterFill

/-- The firmware is ready (Table 18-7): CTL ports answer, addresses taken, POWER_STATE as WAKE_TARGET, head attach. -/
def execFirmwareReady (net : Option NetConfig) (s : State) : Out :=
  if s.power ≠ 4 ∨ s.getN Obj.STARTUP_PHASE ≠ 5 then .next s
  else
    let s := ((s.setN Obj.STARTUP_PHASE 6).setN Obj.STARTUP_PERMILLE 1000).setN Obj.STARTUP_TIME (s.clk.cycle / 400)
    let s := s.takeAddresses net
    let s := s.setN Obj.POWER_STATE (s.getN Obj.WAKE_TARGET)
    let s := if s.power = 1 then s.stopCore else { s with pwr := { s.pwr with locking := s.pwr.locking ++ lanePlls } }
    let s := s.attachAtStart
    .next (if s.power = 1 then s else s.readyEntered)

/-- The Ethernet link of a control port comes up or goes down (R396). -/
def execCtlLinkChange (port : Nat) (up : Bool) (s : State) : Out :=
  if port < 2 then .next (s.setN (Obj.CTL_LINK + port) (b2n up)) else .next s

end Sys2Proof.Machine
end

