-- ==== Sys2Proof/Machine/Upkeep.lean ====
section
/-! DEFINITION. What the device does by itself beside its job: the scrub of the on-chip stores (R284 to R286), a standby's
march test (R251, R279), comparator matches (R355 to R358, R339, R376) and the health index (R409). -/
namespace Sys2Proof.Machine

/-! ### On-chip scrub -/

/-- The remaining doses of a window word as the 64 bits that the store holds (R146, R284). -/
def WinWord.bits (w : WinWord) : Nat := (w.rem.mapIdx fun i v => toUnsigned 16 v * 2 ^ (16 * i)).sum % 2 ^ 64

/-- What reading a disturbed word of an on-chip store gives: the code of R270 over 2^28 times the store plus the word's index. -/
def sramOutcome (store data : Nat) (f : WordFault) : ReadOutcome :=
  let a := 2 ^ 28 * store + f.word
  (readWord (goodWord data (a ^^^ f.addrXor) ^^^ f.flips.toNat) a).1

/-- One disturbed word of a window slice, which the scrubber reads while the slice is awake. -/
def State.scrubWindow (s : State) (r : Nat) (f : WordFault) : State :=
  if atD s.units.writing r 0 ≠ 2 ∨ s.lost r then s
  else
    let at_ := s.windowAt r f.word
    let w := at_.bind fun p => colWord (atD s.sweep.win p.1 []) p.2.1 p.2.2
    if w.any (·.poison) then s
    else match sramOutcome (r + 1) ((w.map WinWord.bits).getD 0) f with
      | .good | .poisoned => s
      | .corrected => s.sramCorrected r f.word
      | o =>
        let mis := decide (o = .misdirected)
        let s := match at_ with
          | some (c, g, q) =>
            let s := s.windowUe c g q 0 mis
            { s with sweep := { s.sweep with win := modifyAt s.sweep.win c fun col => updWord col g q fun w => { w with poison := true } } }
          | none => s.windowUe (160 * r + f.word / 128 / s.B) (f.word / 128 % s.B) (f.word % 128) 0 mis
        s.desync 4

/-- One disturbed word of the per-beam table. -/
def State.scrubTable (s : State) (f : WordFault) : State :=
  if s.sram.tableUe.contains f.word then s
  else match sramOutcome 5 (s.beamEntry (2 * f.word) + 2 ^ 32 * s.beamEntry (2 * f.word + 1)) f with
    | .good | .poisoned => s
    | .corrected => s.sramCorrected 4 f.word
    | o => s.tableUe [f.word] 0 (decide (o = .misdirected))

/-- SRAM_SCRUB: the pass of a second over the window slices that are awake and the per-beam table; met are disturbed
words by store, 0 to 3 a window slice and 4 the table, and disturbed copies of valid bits and cause flags (R284). -/
def execSramScrub (met : List (Nat × WordFault) × List MarkFault) (s : State) : Out :=
  if !s.coreOn then .next s
  else
    let s := met.1.foldl (fun (s : State) p =>
      if p.1 < 4 then (if p.2.word < 160 * s.B * 128 then s.scrubWindow p.1 p.2 else s)
      else if p.1 = 4 ∧ p.2.word < beamCount / 2 then s.scrubTable p.2 else s) s
    .next (s.readMarks (met.2.filter fun m => atD s.units.writing m.region 0 = 2 && !s.lost m.region))

/-! ### March test -/

/-- MEMTEST_READ (R251): a standby tests words of DRAM outside every configured region. A word that does not read back as
written is a failing word, and its row becomes failing (R279). -/
def execMemtestRead (words : Nat) (faults : List WordFault) (s : State) : Out :=
  if !s.coreOn ∨ !s.isStandby then .next s
  else
    let bad := faults.filter fun f => f.word < dramCapacity s.straps.dpop / 8 && s.regionCode (8 * f.word) = 9 &&
      !s.channelLost (channelOf (8 * f.word)) && (s.readOutcome f.word faults).1 ≠ .good
    let s := (s.add Obj.MEMTEST_BYTES (8 * words)).add Obj.MEMTEST_FAILS bad.length
    .next (bad.foldl (fun (s : State) f => let (c, b, row) := s.rowOf f.word; s.failRow c b row 3) s)

/-! ### Comparators -/

/-- What a match does for the comparator's user, in the same cycle (Table 16-2). -/
def State.deliverMatch (s : State) (owner : Nat) : State :=
  match owner with
  | 0 => s
  | 1 | 2 | 3 | 4 => s.ttoPulse (owner - 1)
  | 5 | 6 => s.strobePulse (owner - 5) (s.getN (Obj.CAM_STROBE_WIDTH + (owner - 5)))
  | _ => if s.coreOn then s.queueItems (s.getN Obj.CAL_SCHED_ITEMS) else s

/-- The cycle at which a comparator matches in the present tick: the first at which T reaches its target, or the next one
after a target that lay in the past when it was configured (R355). -/
def State.matchCycle (s : State) (c : Nat) : Option Nat :=
  if s.trg.lateArm.contains c then some s.clk.cycle
  else if s.getN (Obj.CMP_MODE + c) = 0 then none
  else s.cycleReaching (s.getN (Obj.CMP_TARGET + c))

/-- COMPARATOR_MATCH (R355). -/
def execComparatorMatch (c : Nat) (s : State) : Out :=
  if !s.pins.porstN then .next s
  else match s.matchCycle c with
    | none => .next s
    | some t =>
      let s := s.at t
      .next ((s.comparatorStep c).deliverMatch (s.getN (Obj.CMP_OWNER + c)))

/-! ### Health -/

/-- Units in service of the regions that are not lost. -/
def State.inService (s : State) (n : Nat → Nat) : Nat := ((regions.filter (!s.lost ·)).map n).sum

/-- Q_j of Table 19-5 as a fraction; `gate` says whether the gate link counts as enabled, for which the spec names no object. -/
def State.serviceFraction (s : State) (gate : Bool) (j : Nat) : Nat × Nat :=
  match j with
  | 0 => (b2n (s.getN Obj.STREAM_STATE ≠ 5), 1)
  | 1 => (s.inService fun r => s.getN (Obj.GOUGE_CELLS_IN_SERVICE + r), 48)
  | 2 => (s.inService fun r => b2n (s.getN (Obj.CORR_BLOCK_STATE + r) ≠ 1), 4)
  | 3 => (s.inService s.slotsIn, 320)
  | 4 => (s.inService fun _ => 1, 4)
  | 5 => (s.inService fun r => ((rangeN (4 * r) (4 * r + 3)).filter (!s.laneRetired ·)).length, 16)
  | 6 => (s.inService fun r => b2n (!s.units.linkOut.contains r), 4)
  | 7 => (if s.getN Obj.HEAD_STATE = 2 then b2n (s.getN Obj.HST_LANE_STATE = 1) + b2n (s.getN (Obj.HST_LANE_STATE + 1) = 1) else 0, 2)
  | 8 => (b2n (s.getN Obj.POS_STATE = 2 || !s.sweepArmed), 1)
  | 9 =>
    let defl := s.on Obj.DEFL_LINK_ENABLE
    let n := b2n defl + b2n gate
    if n = 0 then (1, 1)
    else (b2n (defl && s.getN Obj.DEFL_LINK_STATE = 1) + b2n (gate && s.getN Obj.GATE_RX_STATE = 1), n)
  | 10 => ((regions.filter (!s.channelLost ·)).length, 4)
  | 12 => (b2n (s.getN Obj.MIRROR_LINK_STATE = 1 || s.pair.peerHealth.isEmpty), 1)
  | 13 => (([0, 1, 2, 3, 4, 6].filter fun r => s.getN (Obj.RAIL_SOURCE + r) = 0).length, 6)
  | 14 =>
    let tj := s.get Obj.TJ
    (if tj < s.get Obj.TJ_WARN then 2 else if tj ≤ 2400 then 1 else 0, 2)
  | _ => (1, 1)

/-- Events of the last 600 s of a subsystem with a class in the range given. -/
def State.recentEvents (s : State) (j lo hi : Nat) : Nat :=
  (s.log.recent.filter fun e => e.2.1 = j && lo ≤ e.2.2 && e.2.2 ≤ hi && s.clk.cycle < e.1 + 600 * secCycles).length

/-- H_j (R409): 0 after a HALT that the subsystem caused. -/
def State.healthOf (s : State) (gate : Bool) (j : Nat) : Nat :=
  let (a, b) := s.serviceFraction gate j
  if s.log.haltSub = some j then 0
  else 100 * a / b - min 50 (10 * s.recentEvents j 3 4 + s.recentEvents j 1 2 / 100)

/-- HEALTH_INDEX_UPDATE: the second's computation (R409). -/
def execHealthIndexUpdate (s : State) : Out :=
  let (x, s) := s.freeNat
  let s : State := { s with log := { s.log with recent := s.log.recent.filter fun e => s.clk.cycle < e.1 + 600 * secCycles } }
  let hs := (List.range 16).map (s.healthOf (x % 2 = 1))
  let s := foldN 16 (fun (s : State) j => s.setN (Obj.HEALTH_INDEX + j) (atD hs j 0)) s
  .next (s.setN Obj.HEALTH_MIN (hs.foldl min 100))

end Sys2Proof.Machine
end

