-- ==== Sys2Proof/Machine/View.lean ====
section
/-! DEFINITION. What a read of an object returns (R29 to R31): values held, values that follow from other state, the contents of
DOM and STR objects, the directory (R412 to R416), and the read-and-clear of RC counters. -/
namespace Sys2Proof.Machine

/-! ### Scalar objects -/

/-- Values of RO objects that follow from the state; none where the object holds its value. `j` is the sub-index less 1. DESIGN CHOICE:
BURNISH_PERMILLE holds 1,000 from a Burnish sweep's end (R234); after an abort that stops one before its end, the live value ends with the
sweep and the held one, 0 from its arming, is read (R55 says nothing of it). -/
def State.computed (s : State) (o : ObjRef) : Option Int :=
  let j := o % 256 - 1
  match o / 256 with
  | 0x2203 => if j = 4 then some (cellStoreUsed s.lay.cells) else if j = 5 then some (cellsDefined s.lay.cells) else if j = 6 then some s.lay.marks.length else none
  | 0x2307 => some (s.rasterLead j)
  | 0x2309 => some (s.cellState j)
  | 0x230A => some (s.cellFails j)
  | 0x2400 => if j = 2 then some s.kernelR else if j = 3 then some (32 * s.kernelR : Nat) else none
  | 0x2404 => some (s.corrLead j)
  | 0x250B => some (s.loadLead j)
  | 0x2600 => if j = 2 then some s.horizon else none
  | 0x2700 => if j = 5 ∧ s.getN Obj.HEAD_STATE = 1 then some s.attachPermille else none
  | 0x2901 => if j = 2 then some s.ledgerReserve else if j = 3 then some s.ledgerUsed else if j = 5 then some s.ledgerOpen else none
  | 0x2905 => if j = 3 ∧ s.getN Obj.BURNISH_STATE = 2 ∧ s.burnishing then
      some (max (s.getN Obj.BURNISH_PERMILLE) (min 999 s.burnishPermille) : Nat) else none
  | 0x2907 => if j = 1 then some s.ledger.defects.length else none
  | 0x3200 => if j = 4 then some (spoolNeed (s.getN Obj.RUN_AHEAD_DEPTH) ((s.head.identity.map (·.pitch)).getD 32)) else none
  | 0x3201 => some (s.spoolUsed j)
  | 0x3202 => some (s.spoolRetained j)
  | 0x3203 => let p := atD s.spool.packed j 0
    some (if p = 0 then 0 else min 65535 (100 * atD s.spool.raw j 0 / p) : Nat)
  | 0x3206 => some (s.laneState j)
  | 0x3207 => some (s.laneHostState j)
  | 0x3208 => some (s.laneFails j)
  | 0x3302 => some (s.cuResult j)
  | 0x3304 => some (s.cuLevel j)
  | 0x3423 => some ((s.camCfg (j / 3)).slotSize (j % 3))
  | 0x3500 => if j = 0 then some s.now else none
  | 0x2001 => if j = 4 then some s.otp.securityMin else if j = 6 then some s.otp.revoked.toNat else none
  | _ => none

/-- Objects whose reading the spec ties to something outside the model: the voltage at a load point. -/
def freeReading (o : ObjRef) : Bool := o / 256 = 0x3802

/-- The value that a read of a defined scalar object finds. -/
def State.scalar (s : State) (o : ObjRef) : State × Int :=
  if freeReading o then
    let (x, s) := s.freeNat
    (s, ((x % 2 ^ 16 : Nat) : Int))
  else (s, (s.computed o).getD (s.get o))

/-- The highest sub-index of an object whose sub-indices start at 01 (R29); none where no such object has the index. -/
def topSub (index : Nat) : Option Nat :=
  let rs := (pageRows (index / 256)).filter fun r => r.base / 256 ≤ index && index < r.base / 256 + r.span
  if rs.isEmpty ∨ rs.any (fun r => r.base % 256 = 0) then none
  else some (rs.foldl (fun m r => max m (r.base % 256 + r.count - 1)) 0)

/-- The index and sub-index are defined (R29). -/
def objKnown (o : ObjRef) : Bool := (objRow o).isSome || (o % 256 = 0 && (topSub (o / 256)).isSome)

/-! ### STR and DOM objects -/

/-- The text of a STR object. -/
def State.text (s : State) (o : ObjRef) : Bytes :=
  if o = Obj.VENDOR_NAME then asciiBytes "Haltis"
  else if o = Obj.PART_NAME then asciiBytes "TV6448"
  else (s.head.identity.map (·.model)).getD (asciiBytes " ")

/-- The Default of a configured DOM object (Table 15-9). -/
def defaultImage (o : ObjRef) : Bytes :=
  match o / 256 with
  | 0x3415 => (List.replicate 1156 4096).flatMap (leBytes 2)
  | 0x3417 => ([4096, 0, 0, 0, 4096, 0, 0, 0, 4096, 0, 0, 0] : List Nat).flatMap (leBytes 2)
  | 0x3418 => (List.range 771).flatMap fun i => leBytes 2 (min 65535 (256 * (i % 257)))
  | 0x3441 | 0x3451 => zeros 24
  | _ => []

/-- Bytes that a configured DOM object can hold, and the buffer of images (Tables 15-9, 18-11). -/
def domMax (o : ObjRef) : Nat :=
  match o / 256 with
  | 0x3412 => 16384
  | 0x2002 => 62914816
  | _ => (defaultImage o).length

/-- `n` bytes from an offset of a store made of records of `w` bytes. -/
def recordSlice (w : Nat) (f : Nat → Bytes) (off n : Nat) : Bytes :=
  if n = 0 ∨ w = 0 then []
  else slice ((rangeN (off / w) ((off + n - 1) / w)).flatMap f) (off % w) n

/-- The content of a stored DOM object other than the ones that read in place. BURNISH_PLAN holds the ranges of the Burnish sweep from
its arming on (R231); DESIGN CHOICE: it is empty before the first, and again once a main or resume sweep is armed. -/
def State.domBytes (s : State) (o : ObjRef) : Bytes :=
  if o = Obj.PENDING_LIST then s.pendingList
  else if o / 256 = 0x2403 then
    (if s.getN (Obj.TERM_ETA + (o % 256 - 1)) = 0 then [] else (termTaps (s.getN (Obj.TERM_SIGMA + (o % 256 - 1)))).flatMap (leBytes 4))
  else if o = Obj.LEDGER then s.ledgerBytes
  else if o = Obj.BURNISH_PLAN then (if s.burnishing then s.sweep.ranges else []).flatMap fun p => leBytesI 4 p.1 ++ leBytesI 4 p.2
  else if o = Obj.DEFECT_LIST then s.defectBytes
  else if o = Obj.PEER_HEALTH then (if s.pair.peerHealth.isEmpty then zeros 64 else s.pair.peerHealth)
  else if o / 256 = 0x300D then s.remapTable (o % 256 - 1)
  else if o = Obj.MF_RESULTS then s.markBytes
  else if o / 256 = 0x3533 then s.tciQueue (o % 256 - 1)
  else if o = Obj.DEFL_POINTS then s.cal.points.flatMap DeflPoint.toBytes
  else (s.image o).getD (defaultImage o)

/-! ### The directory -/

/-- References of every index and sub-index that answers, in ascending order (R414). -/
def allRefs : List ObjRef :=
  let rows := objPages.flatMap pageRows
  let refs := rows.flatMap fun r => (List.range r.span).flatMap fun i => (List.range r.count).map fun j => r.base + 256 * i + j
  let tops := rows.flatMap fun r => if r.base % 256 = 0 then [] else (List.range r.span).map fun i => (r.base / 256 + i) * 256
  (sortBy (· ≤ ·) (refs ++ tops)).eraseDups

/-- Type codes of Table 02-1. -/
def OType.code : OType → Nat
  | .bool => 0
  | .u8 => 1
  | .u16 => 2
  | .u32 => 3
  | .u64 => 4
  | .i16 => 5
  | .i32 => 6
  | .f32 => 7
  | .time => 8
  | .str => 9
  | .dom => 10
  | .i64 => Config.i64Code

/-- ACCESS of a directory entry (Table 20-4). -/
def Access.code : Access → Nat
  | .ro => 0
  | .rw => 1
  | .rs => 2
  | .wo => 3
  | .rc => 4

/-- The bounds of a type: open bounds of a Range hold them (R415). F32 bounds stand as bit patterns. -/
def OType.limits (t : OType) : Int × Int :=
  match t with
  | .bool => (0, 1)
  | .f32 => (0xFF7FFFFF, 0x7F7FFFFF)
  | .time | .str | .dom => (0, 0)
  | _ => if t.signed then (-(2 ^ (8 * t.bytes - 1)), 2 ^ (8 * t.bytes - 1) - 1) else (0, 2 ^ (8 * t.bytes) - 1)

/-- MIN and MAX of a Range: the outermost values (R415). -/
def Rng.limits (r : Rng) (t : OType) : Int × Int :=
  match t with
  | .time | .str | .dom => (0, 0)
  | _ =>
    match r with
    | .any => t.limits
    | .span lo hi | .even lo hi | .odd lo hi => (lo, hi)
    | .spanOr lo hi x => (min lo x, max hi x)
    | .oneOf vs => (vs.foldl min (vs.headD 0), vs.foldl max (vs.headD 0))
    | .mult m => (0, t.limits.2 / m * m)
    | .pow2 lo hi => (lo, hi)
    | .nonzero => (1, t.limits.2)
    | .f32NonNeg => (0, t.limits.2)
    | .f32Pos => (1, t.limits.2)

/-- DEFAULT_KIND (R415): 0 VALUE, 1 STRAP, 2 FACTORY, 3 OTP, 4 DERIVED, 5 NONE. -/
def defaultKind (r : ObjRow) (o : ObjRef) : Nat :=
  if o = Obj.BEHAVIOUR_LEVEL_MAX then 2
  else if r.access = .wo then 5
  else if r.base / 256 = 0x3423 then 4
  else if r.type = .dom ∧ r.access = .rs then 0
  else if o = Obj.VENDOR_NAME ∨ o = Obj.PART_NAME ∨ o = Obj.HEAD_MODEL then 0
  else match r.dflt with
    | .val _ | .cyc _ => 0
    | .strap => 1
    | .factory => 2
    | .otp => 3
    | .derived => 4
    | .none => 5

/-- MAX_LENGTH (Table 20-4). -/
def maxLength (r : ObjRow) (o : ObjRef) : Nat :=
  match r.type with
  | .str => if o = Obj.HEAD_MODEL then 16 else 6
  | .dom =>
    if o = Obj.SESSION_OPEN then 8 else if o = Obj.AUTH_KEY ∨ o = Obj.MF_REQUEST then 32
    else if o = Obj.BEAM_TABLE then 1228800 else if o = Obj.PEER_HEALTH then 64
    else if r.base / 256 = 0x300D then 128 else if r.base / 256 = 0x3533 then 320 else if o = Obj.DEFL_POINTS then 256
    else if o = Obj.SPOT_RESULTS then 2457600 else if o = Obj.ERROR_LOG then 67108864
    else if o = Obj.DIRECTORY then 48 * allRefs.length
    else if o / 256 = 0x2002 ∨ r.access = .rs then domMax o
    else 0xFFFFFFFF
  | t => t.bytes

/-- FLAGS of a directory entry (Table 20-4). -/
def directoryFlags (r : ObjRow) (o : ObjRef) : Nat :=
  b2n r.jobFixed + 2 * b2n r.stripe + 4 * b2n (0x1000 ≤ o / 256 && o / 256 ≤ 0x20FF) + 8 * b2n r.listed + 16 * b2n r.thisJob

/-- DEFAULT of a directory entry: 16 bytes; `crc` stands for 1400.02's own. -/
def directoryDefault (s : State) (r : ObjRow) (o : ObjRef) (crc : Nat) : Bytes :=
  let bs :=
    if o = Obj.DIRECTORY_ENTRIES then leBytes 4 allRefs.length
    else if o = Obj.DIRECTORY_CRC then leBytes 4 crc
    else if o = Obj.HEAD_MODEL then asciiBytes " "
    else if o = Obj.SECURITY_VERSION_MIN then leBytes 4 s.otp.securityMin
    else if o = Obj.KEYS_REVOKED then [byte s.otp.revoked.toNat]
    else if r.base / 256 = 0x3423 then leBytes 8 (({ State.reset with straps := s.straps }).camCfg ((o % 256 - 1) / 3) |>.slotSize ((o % 256 - 1) % 3))
    else match r.type with
      | .str => s.text o
      | .dom => defaultImage o
      | t => encodeValue t (defaultOf s.straps o)
  if defaultKind r o = 5 then zeros 16 else (bs ++ zeros 16).take 16

/-- The entry of an object (Table 20-4). -/
def State.directoryEntry (s : State) (o : ObjRef) (crc : Nat) : Bytes :=
  match objRow o with
  | some r =>
    let m := r.range.limits r.type
    leBytes 2 (o / 256) ++ [byte (o % 256), byte r.type.code, byte r.access.code, byte (directoryFlags r o), 1, byte r.chapter,
      byte (defaultKind r o), 0, 0, 0] ++ leBytes 4 (maxLength r o) ++ directoryDefault s r o crc ++ leBytesI 8 m.1 ++ leBytesI 8 m.2
  | none =>
    let chapter := ((pageRows (o / 65536)).find? fun r => r.base / 256 ≤ o / 256 && o / 256 < r.base / 256 + r.span).elim 0 (·.chapter)
    leBytes 2 (o / 256) ++ [0, 1, 0, byte (4 * b2n (0x1000 ≤ o / 256 && o / 256 ≤ 0x20FF)), 1, byte chapter, 0, 0, 0, 0] ++ leBytes 4 1 ++
    (byte ((topSub (o / 256)).getD 0) :: zeros 15) ++ zeros 8 ++ leBytes 8 255

/-- An entry as DIRECTORY_CRC takes it: DEFAULT zero where its kind is not 0 (R416). -/
def State.directoryPlain (s : State) (o : ObjRef) : Bytes :=
  let e := s.directoryEntry o 0
  if leAt e 8 1 = 0 then e else e.take 16 ++ zeros 16 ++ e.drop 32

/-- 1400.02 DIRECTORY_CRC (R416). -/
def State.directoryCrc (s : State) : Nat := (crc32c (allRefs.flatMap s.directoryPlain)).toNat

/-! ### Reading -/

/-- Bytes that a DOM object holds. -/
def State.domSize (s : State) (o : ObjRef) : Nat :=
  if o = Obj.BEAM_TABLE then 1228800
  else if o = Obj.LEDGER_TILE then 8192 * s.ledger.entries.length
  else if o = Obj.SPOT_RESULTS then 2457600
  else if o = Obj.ERROR_LOG then 64 * logRing
  else if o = Obj.DIRECTORY then 48 * allRefs.length
  else (s.domBytes o).length

/-- `n` bytes of a DOM object from an offset. -/
def State.domSlice (s : State) (o : ObjRef) (off n : Nat) : Bytes :=
  if o = Obj.BEAM_TABLE then recordSlice 4 (fun b => leBytes 4 (s.beamEntry b)) off n
  else if o = Obj.LEDGER_TILE then recordSlice 8192 (fun i => (s.ledger.entries[i]?).elim (zeros 8192) Entry.tileBytes) off n
  else if o = Obj.SPOT_RESULTS then
    recordSlice 8 (fun b => leBytes 4 (atD s.cams.spot.dark b 0) ++ leBytes 4 (atD s.cams.spot.lit b 0)) off n
  else if o = Obj.ERROR_LOG then recordSlice 64 s.logSlot off n
  else if o = Obj.DIRECTORY then recordSlice 48 (fun i => (allRefs[i]?).elim [] fun r => s.directoryEntry r s.directoryCrc) off n
  else slice (s.domBytes o) off n

/-- A range of a DOM object held in DRAM touches a word that reads as uncorrectable (R282): a residual tile, a defect record, the error log.
The other images, in the working store, are rewritten before their next use (Table 11-5 code 8). -/
def State.domUnreadable (s : State) (o : ObjRef) (off n : Nat) : Bool :=
  let of (size : Nat) (p : Nat → Bool) : Bool := (rangeN (off / size) ((off + n - 1) / size)).any p
  if o = Obj.LEDGER_TILE then of 8192 fun i => (s.ledger.entries[i]?).any (·.bad)
  else if o = Obj.DEFECT_LIST then of 16 fun i => (s.ledger.defects[i]?).any (·.bad)
  else o = Obj.ERROR_LOG && s.dram.logBad.any fun p => decide (p.1 < off + n) && decide (off < p.1 + 8) && s.logWordBad p

/-- The value of a staged scalar, for a READ with STAGED set (Table 02-2). -/
def State.stagedScalar (s : State) (o : ObjRef) : Option Int :=
  match s.stagedVal o with
  | some (.scalar v) => some v
  | _ => none

/-- The bytes of a defined scalar or STR object, which is read and, where it is an RC counter, set to 0 in one step (R31). -/
def State.readBytes (s : State) (o : ObjRef) (staged : Bool) : State × Bytes :=
  match objRow o with
  | none => (s, [byte ((topSub (o / 256)).getD 0)])
  | some r =>
    if o = Obj.DIRECTORY_ENTRIES then (s, leBytes 4 allRefs.length)
    else if o = Obj.DIRECTORY_CRC then (s, leBytes 4 s.directoryCrc)
    else match r.type with
      | .str => (s, s.text o)
      | t =>
        let held := if staged ∧ r.access = .rs then s.stagedScalar o else none
        match held with
        | some v => (s, encodeValue t v)
        | none =>
          let (s, v) := s.scalar o
          (if r.access = .rc then s.set o 0 else s, encodeValue t v)

/-- The status with which a READ or SUBSCRIBE entry is refused, 0 where it is not (R29 to R31, R43). -/
def State.readRefusal (s : State) (via : Via) (o : ObjRef) : Nat :=
  if !objKnown o then stNoObject
  else if via = .spi && !spiReadable s o then stAccess
  else match objRow o with
    | none => stOk
    | some r => if r.type = .dom then stType else if r.access = .wo then stAccess else stOk

/-- Read one object: status and value. -/
def State.readObject (s : State) (via : Via) (o : ObjRef) (staged : Bool) : State × Nat × Bytes :=
  let st := s.readRefusal via o
  if st ≠ 0 then (s, st, [])
  else
    let (s, bs) := s.readBytes o staged
    (s, 0, bs)

/-- Bytes of the value that a READ entry would return (R37). -/
def State.readLength (s : State) (via : Via) (o : ObjRef) : Nat :=
  if s.readRefusal via o ≠ 0 then 0
  else match objRow o with
    | none => 1
    | some r => if r.type = .str then (s.text o).length else r.type.bytes

/-- RC_READ (R31): the counter is returned and set to 0 in one step. -/
def execRcRead (by_ : Caller) (o : ObjRef) (s : State) : Out :=
  if !s.answers by_.via || !((objRow o).any fun r => r.access = .rc) || s.readRefusal by_.via o ≠ 0 then .next s
  else
    let (s, bs) := s.readBytes o false
    .next (s.emit (.reading o bs))

end Sys2Proof.Machine
end

