-- ==== Sys2Proof/Machine/Control.lean ====
section
/-! DEFINITION. Writing objects (R30, R31, R39, R41, R44, R56): sessions and the key, the checks of a written value, the effect of
a write to each object. -/
namespace Sys2Proof.Machine

/-! ### Sessions and the key -/

/-- SESSIONS_OPEN follows the open sessions. -/
def State.setSessions (s : State) (l : List Session) : State :=
  { s.setN Obj.SESSIONS_OPEN l.length with fp := { s.fp with sessions := l } }

/-- A session ends: its subscriptions and stored response go with it, and the staging set if it owns it (R39). -/
def State.endSession (s : State) (id : Nat) : State :=
  if (s.session id).isNone then s
  else
    let s := s.setSessions (s.fp.sessions.filter (·.id ≠ id))
    if s.stg.owner = id then s.discardStaging else s

/-- A session can write: the SPI session always, another while it is open. -/
def State.callerOpen (s : State) (c : Caller) : Bool :=
  match c.via with
  | .spi => c.session = spiSession
  | _ => (s.session c.session).isSome

/-- A write of SESSION_CLOSE (R39). -/
def writeSessionClose (s : State) (by_ : Caller) (id : Nat) : Wr :=
  s.gate by_ Obj.SESSION_CLOSE fun s =>
    if id = 0 ∨ 0xFFFF ≤ id then s.deny stRange
    else if by_.via ≠ .spi ∧ id ≠ by_.session then s.deny stAccess
    else (s.endSession id).ok

/-- SESSION_CLOSE. -/
def execSessionClose (by_ : Caller) (id : Nat) (s : State) : Out :=
  .next (if s.callerOpen by_ then (writeSessionClose s by_ id).1 else s)

/-- SESSION_TIMEOUT passes without an accepted request (R39). -/
def execSessionTimeout (id : Nat) (s : State) : Out := .next (s.endSession id)

/-- A write of AUTH_REQUIRED or AUTH_KEY is refused with AUTH (R41). -/
def State.authRefused (s : State) (by_ : Caller) : Bool :=
  by_.via ≠ .spi && s.fp.authKey.isSome && !((s.session by_.session).any (·.auth))

/-- A write of AUTH_KEY (R41). -/
def writeAuthKey (s : State) (by_ : Caller) (key : Bytes) : Wr :=
  s.gate by_ Obj.AUTH_KEY fun s =>
    if s.authRefused by_ then s.deny stAuth
    else if key.length ≠ 32 then s.deny stRange
    else ({ s with fp := { s.fp with authKey := some key } }).ok

/-- AUTH_KEY. -/
def execAuthKey (by_ : Caller) (key : Bytes) (s : State) : Out :=
  .next (if s.callerOpen by_ then (writeAuthKey s by_ key).1 else s)

/-! ### The effect of a write -/

/-- Bits of a value that its object has; the others are reserved and ignored (R9, R129). -/
def keepBits (o : ObjRef) (v : Int) : Int := if o / 256 = 0x2410 then v % 512 else v

/-- Bytes of a block as its object keeps them, from an offset: bits [15:13] and [31:29] of an entry of 3412 DEFECT_LIST are reserved, so
what is written to them is ignored and they read 0 (R9, Table 15-9). -/
def keepBytes (o off : Nat) (bs : Bytes) : Bytes :=
  if o / 256 = 0x3412 then bs.mapIdx fun i b => if (off + i) % 2 = 1 then b &&& 0x1F else b else bs

/-- A further condition on the Range of an object (Table 13-8): a bulk channel's burst is a multiple of 64. -/
def rangeMore (o : ObjRef) (v : Int) : Bool := !(o / 256 = 0x3102 && o % 256 ≤ 4) || v % 64 = 0

/-- A write of POWER_REQUEST. -/
def writePowerRequest (s : State) (by_ : Caller) (v : Nat) : Wr :=
  match v with
  | 0 => writePowerDeep s by_
  | 1 => writePowerControl s by_
  | _ => writePowerReady s by_

/-- A write of IMAGE_COMMAND. -/
def writeImageCommand (s : State) (by_ : Caller) (v : Nat) : Wr :=
  match v with
  | 1 => writeImageVerify s by_
  | 2 => writeImageBoot s by_
  | 3 => writeImageProgram s by_ 0
  | _ => writeImageProgram s by_ 1

/-- The effect of a write of a value in range to an object that several sub-indices share: `j` is the sub-index less 1. -/
def State.writeIndexed (s : State) (by_ : Caller) (o : ObjRef) (v : Nat) : Wr :=
  let j := o % 256 - 1
  match o / 256 with
  | 0x3100 => writeChStart s by_ j v []
  | 0x3300 => if o % 256 ≤ 4 then writeCuPoly s j v else writeCuInit s (o % 256 - 5)
  | 0x3301 => writeCuValue s j v
  | 0x3307 => writeCuFeed s j 1 v
  | 0x3308 => writeCuFeed s j 2 v
  | 0x3309 => writeCuFeed s j 4 v
  | 0x3409 => writeCamRestart s by_ j
  | 0x3535 => writeTciAck s by_ j v
  | _ => (s.setN o v).ok

/-- The effect of a write of a value in range to an RW or WO object (R31, R56): `v` the value, `bs` its bytes. -/
def State.writeEffect (s : State) (by_ : Caller) (o : ObjRef) (v : Int) (bs : Bytes) : Wr :=
  let n := v.toNat
  if o = Obj.SESSION_CLOSE then writeSessionClose s by_ n
  else if o = Obj.STREAM_ENABLE then (if n = 0 ∧ s.jobState ∈ [1, 2, 3, 4] then s.deny stState else ((s.set o v).refreshStream).ok)
  else if o = Obj.STREAM_PRODUCER then (s.doorbell .stream n).ok
  else if o = Obj.REPAIR_PRODUCER then (s.doorbell .repair n).ok
  else if o = Obj.COMMIT then writeCommit s by_ n
  else if o = Obj.ABORT_JOB then writeAbortJob s by_ n
  else if o = Obj.ABORT_DMA then (s.abortDmaBy n).ok
  else if o = Obj.ABORT_COMPRESSION then (s.abortHosts n).ok
  else if o = Obj.ABORT_CAMERA then (s.abortCamera n).ok
  else if o = Obj.ABORT_CALIBRATION then (s.abortCalibration).ok
  else if o = Obj.DISCARD_STAGING then (s.discardStaging).ok
  else if o = Obj.JOB_CONTROL then writeJobControl s by_ n
  else if o = Obj.FIT_FIELD then writeFitField s by_ n
  else if o = Obj.FIT_STAGE then writeFitStage s by_ n
  else if o = Obj.TURNAROUND_RELEASE then writeTurnaroundRelease s by_
  else if o = Obj.HEAD_ATTACH then writeHeadAttach s by_ n
  else if o = Obj.GATE_CHECK_START then writeGateCheckStart s by_ n
  else if o = Obj.GATE_CHECK_STOP then writeGateCheckStop s by_ n
  else if o = Obj.IMAGE_START then writeImageStart s by_ n
  else if o = Obj.BEAM_EDIT then writeBeamEdit s by_ n
  else if o = Obj.DEFECT_ACK then writeDefectAck s by_ n
  else if o = Obj.SYNC_START then writeSyncStart s by_ n
  else if o = Obj.HANDOVER_REQUEST then writeHandoverRequest s by_ n
  else if o = Obj.REMAP_ADD then writeRemapAdd s by_ n
  else if o = Obj.HJ_PRODUCER then (s.setN o n).ok
  else if o = Obj.HJ_RESUME then writeHjResume s by_ (BitVec.ofNat 16 n)
  else if o = Obj.TIME_INCREMENT then writeTimeIncrement s by_ n
  else if o = Obj.TIME_SET then writeTimeSet s by_ bs
  else if o = Obj.TIME_STEP then writeTimeStep s by_ v
  else if o = Obj.CAL_START then writeCalStart s by_ n
  else if o = Obj.DEFL_POINTS_CLEAR then writeDeflPointsClear s by_ n
  else if o = Obj.ROLLBACK_RAISE then writeRollbackRaise s by_
  else if o = Obj.KEY_REVOKE then writeKeyRevoke s by_ n
  else if o = Obj.IMAGE_COMMAND then writeImageCommand s by_ n
  else if o = Obj.NET_SAVE then writeNetSave s by_
  else if o = Obj.POWER_REQUEST then writePowerRequest s by_ n
  else if o = Obj.SUPPLY_RETURN_NOW then writeSupplyReturnNow s by_ s.pwr.mainGood
  else s.writeIndexed by_ o n

/-! ### The checks of a write -/

/-- What a write meets before its value counts, 0 for nothing: the object, the port, the access code (R29, R31, R39, R43). -/
def State.writeRefusal (s : State) (via : Via) (o : ObjRef) : Nat :=
  if !objKnown o then stNoObject
  else if via = .spi && !spiWritable s o then stAccess
  else match objRow o with
    | none => stAccess
    | some r => if r.access = .ro ∨ r.access = .rc ∨ o = Obj.SESSION_OPEN then stAccess else stOk

/-- A value entry of a WRITE (R30, R31, R41, R44). -/
def State.writeEntry (s : State) (by_ : Caller) (o : ObjRef) (type : Nat) (bs : Bytes) : Wr :=
  let st := s.writeRefusal by_.via o
  if st ≠ 0 then s.deny st
  else match objRow o with
    | none => s.deny stAccess
    | some r =>
      if r.type = .dom ∧ o ≠ Obj.AUTH_KEY then s.deny stType
      else if type ≠ r.type.code then s.deny stType
      else if o = Obj.AUTH_KEY then writeAuthKey s by_ bs
      else if bs.length ≠ r.type.bytes then s.deny stType
      else if o = Obj.AUTH_REQUIRED ∧ s.authRefused by_ then s.deny stAuth
      else match decodeValue r.type bs with
        | none => s.deny stRange
        | some v =>
          let v := keepBits o v
          if !r.range.ok v || !rangeMore o v then s.deny stRange
          else if r.access = .rs then s.stage by_.session o (.scalar v)
          else s.writeEffect by_ o v bs

/-- Bytes laid over an image from an offset. -/
def overlay (old : Bytes) (off : Nat) (bs : Bytes) : Bytes :=
  (old ++ zeros (off - old.length)).take off ++ bs ++ old.drop (off + bs.length)

/-- The image of a configured DOM object that a WRITE_BLOCK adds to: the staged one, else the effective one (R44). -/
def State.imageUnder (s : State) (o : ObjRef) : Bytes :=
  match s.stagedVal o with
  | some (.image bs) => bs
  | _ => (s.image o).getD (defaultImage o)

/-- A WRITE_BLOCK (R30, R44, R343, R394). -/
def State.writeBlockAt (s : State) (by_ : Caller) (o off : Nat) (bs : Bytes) : Wr :=
  if !objKnown o then s.deny stNoObject
  else if by_.via = .spi && !spiWritable s o then s.deny stAccess
  else match objRow o with
    | none => s.deny stType
    | some r =>
      if r.type ≠ .dom ∨ o = Obj.SESSION_OPEN ∨ o = Obj.AUTH_KEY then s.deny stType
      else if r.access = .ro then s.deny stAccess
      else if bs.length = 0 ∨ 1024 < bs.length then s.deny stRange
      else if o = Obj.MF_REQUEST then writeMfRequest s by_ off bs
      else if domMax o < off + bs.length then s.deny stRange
      else if o = Obj.IMAGE_BUFFER then ({ s with boot := { s.boot with buffer := overlay s.boot.buffer off bs } }).ok
      else s.stage by_.session o (.image (overlay (s.imageUnder o) off (keepBytes o off bs)))

/-- OBJECT_WRITE (R30, R31): a session writes an object; an RS value is staged, any other takes effect. -/
def execObjectWrite (by_ : Caller) (o type : Nat) (value : Bytes) (s : State) : Out :=
  .next (if s.answers by_.via && s.callerOpen by_ then (s.writeEntry by_ o type value).1 else s)

/-! ### Aborts (R56, Table 02-10) -/

/-- A function is aborted by its object in 1200: `bits` is the width of the selector's Range. -/
def State.writeAbort (s : State) (by_ : Caller) (o : ObjRef) (v : Nat) : State :=
  if s.answers by_.via && s.callerOpen by_ then
    match objRow o with
    | some r => if r.range.ok v ∧ s.writeRefusal by_.via o = 0 ∧ v < 2 ^ (8 * r.type.bytes) then (s.writeEffect by_ o v []).1 else s
    | none => s
  else s

/-- The function of an ABORT message with its selector: the status that answers it (R44, R56). -/
def State.abortFunction (s : State) (fn sel : Nat) : Wr :=
  if fn = 0 ∨ 7 < fn then s.deny stRange
  else if sel = 0 ∧ fn ∈ [2, 3, 4] then s.deny stRange
  else if sel ≠ 0 ∧ fn ∈ [1, 5, 6, 7] then s.deny stRange
  else match fn with
    | 1 => if s.jobRefused then s.deny stState else s.abortJobNow.ok
    | 2 => (s.abortDmaBy sel).ok
    | 3 => (s.abortHosts sel).ok
    | 4 => (s.abortCamera sel).ok
    | 5 => (s.abortCalibration).ok
    | 6 => (s.discardStaging).ok
    | _ => s.deny stRefused

end Sys2Proof.Machine
end

