-- ==== Sys2Proof/Machine/Faceplate.lean ====
section
/-! DEFINITION. The Faceplate protocol (R34 to R43, R45, R56): the checks of a datagram, sessions and sequence numbers, the
execution of each message, notifications, and the commits and aborts that reach the device as a message or as a write. -/
namespace Sys2Proof.Machine

/-! ### Checks of a datagram -/

/-- Bytes of a datagram that its tag covers: header and payload (R41). -/
def dgCovered (d : Datagram) (type : Nat) : Bytes :=
  leBytes 2 d.magic ++ [byte d.version, byte type, d.flags, d.status] ++ leBytes 2 d.session ++ leBytes 4 d.seq ++ leBytes 2 d.length ++
  leBytes 2 d.reserved ++ d.payload

/-- Step 1 of R36: the size is the one that LENGTH and FLAGS[1] give. -/
def dgSizeOk (d : Datagram) : Bool :=
  d.length ≤ 1400 && d.size = (if flagAuth d.flags then 36 else 20) + d.length && d.payload.length = d.length &&
  d.tag.length = (if flagAuth d.flags then 16 else 0)

/-- Step 2 of R36. -/
def dgHeaderOk (d : Datagram) : Bool := d.magic = 0x5046 && d.version = 1 && !flagResponse d.flags

/-- Step 3 of R36. -/
def dgCrcOk (d : Datagram) (type : Nat) : Bool := crc32c (dgCovered d type ++ d.tag) = d.crc

/-- A tag is the one of a key. -/
def dgTagOk (d : Datagram) (type : Nat) (key : Option Bytes) : Bool :=
  flagAuth d.flags && key.any fun k => (hmacSha256 k (dgCovered d type)).take 16 = d.tag

/-- The one value entry of an opening request (R39). -/
def dgOpening (d : Datagram) (type : Nat) : Option ValueEntry :=
  if type ≠ 2 ∨ d.seq ≠ 0 then none
  else match parseValues d.payload with
    | some [e] => if e.obj = Obj.SESSION_OPEN then some e else none
    | _ => none

/-- Step 4 of R36: a tag stands, and is right, where R41 requires one. An opening that carries a tag is held to it too. -/
def State.tagHolds (s : State) (via : Via) (type : Nat) (d : Datagram) : Bool :=
  if via = .spi then true
  else if d.session = 0 then
    !(s.on Obj.AUTH_REQUIRED || (flagAuth d.flags && (dgOpening d type).isSome)) || dgTagOk d type s.fp.authKey
  else match s.session d.session with
    | some x => !(s.on Obj.AUTH_REQUIRED || x.auth) || (!x.key.isEmpty && dgTagOk d type (some x.key))
    | none => !s.on Obj.AUTH_REQUIRED

/-- The checks of R36 in their order: none where the datagram passes, otherwise the state after the discard. -/
def State.discards (s : State) (via : Via) (type : Nat) (d : Datagram) : Option State :=
  if via ≠ .spi && (d.dport ≠ s.getN Obj.FACEPLATE_PORT || d.fragment) then some s
  else if !dgSizeOk d || !dgHeaderOk d then some s
  else if !dgCrcOk d type then some (s.inc Obj.FP_CRC_DISCARDS)
  else if !s.tagHolds via type d then some (s.inc Obj.FP_AUTH_DISCARDS)
  else none

/-! ### Opening a session -/

/-- A session ID that names no open session: which one is the device's own choice (R39). -/
def State.newId (s : State) : Nat × State :=
  let (x, s) := s.freeNat
  (((List.range 9).map fun i => (x + i) % 65534 + 1).find? (fun n => (s.session n).isNone) |>.getD 1, s)

/-- A message sent that is not kept: FP_MESSAGES_ACCEPTED counts the request (R39, R43). -/
def State.replyPlain (s : State) (via : Via) (dst : Source) (session seq type status : Nat) (payload : Bytes) : State :=
  (s.inc Obj.FP_MESSAGES_ACCEPTED).sendBytes via dst (s.getN Obj.FACEPLATE_PORT) (fpBytes none type 1 status session seq payload)

/-- An opening request whose entry holds a nonce (R39, R41): the stored response of a repeated opening, LIMIT for a ninth session, or a
new session with its 12 bytes. -/
def State.openSession (s : State) (via : Via) (src : Source) (nonce : Bytes) (tagged : Bool) : State :=
  let same (x : Session) : Bool := x.src = src && x.hostNonce = nonce && !x.executed
  match s.fp.sessions.find? same with
  | some x => (s.inc Obj.FP_MESSAGES_ACCEPTED).sendBytes via src (s.getN Obj.FACEPLATE_PORT) x.stored
  | none =>
    if 8 ≤ s.fp.sessions.length then
      (s.inc Obj.FP_SESSION_REFUSALS).replyPlain via src 0 0 2 0 (resultList [resultEntry Obj.SESSION_OPEN stLimit []])
    else
      let (id, s) := s.newId
      let (dev, s) := s.freeBytes 8
      let key := match s.fp.authKey with
        | some k => hmacSha256 k ([0x46, 0x50, 0x53, 0x4B] ++ nonce ++ dev ++ leBytes 2 id)
        | none => []
      let value := leBytes 2 id ++ [0, 0] ++ dev
      let bs := fpBytes (if tagged then some key else none) 2 1 0 id 0 (resultList [resultEntry Obj.SESSION_OPEN 0 value])
      let x : Session := { id := id, via := via, src := src, hostNonce := nonce, devNonce := dev, lastSeq := 0, stored := bs,
                           executed := false, auth := tagged, key := key, subs := [], notif := 1 }
      ((s.setSessions (s.fp.sessions ++ [x])).inc Obj.FP_MESSAGES_ACCEPTED).sendBytes via src (s.getN Obj.FACEPLATE_PORT) bs

/-- SESSION_OPEN (R39): a well-formed opening with a nonce reaches a control port, with a right tag or with none. -/
def execSessionOpen (via : Via) (src : Source) (nonce : Bytes) (tagged : Bool) (s : State) : Out :=
  if !s.answers via || via = .spi then .next s
  else if (s.on Obj.AUTH_REQUIRED && !tagged) || (tagged && s.fp.authKey.isNone) then .next (s.inc Obj.FP_AUTH_DISCARDS)
  else .next (s.openSession via src nonce tagged)

/-! ### Execution of a message -/

/-- What the execution of a message leaves: the whole-message status, the payload, and whether the answer waits for the standby. -/
structure Executed where
  status  : Nat := 0
  payload : Bytes := []
  waits   : Bool := false
  deriving DecidableEq, Repr

/-- A message as it is executed: its session and SEQ, its FLAGS and payload. -/
structure Message where
  by_     : Caller
  seq     : Nat
  flags   : Byte
  payload : Bytes
  deriving DecidableEq, Repr

/-- How a TYPE is executed. -/
abbrev Runner := State → Message → State × Executed

/-- An answer with a status for the whole message and LENGTH 0. -/
def whole (status : Nat) : Executed := { status := status }

/-- Largest payload of a response (R37). -/
abbrev payloadMax : Nat := 1400

/-- Length of a list of result entries for values of the lengths given. -/
def resultLength (ls : List Nat) : Nat := 4 + sumMap (fun n => 8 + roundUp4 n) ls

/-- Read objects in order. -/
def State.readList (s : State) (via : Via) (staged : Bool) : List ObjRef → State × List Bytes
  | [] => (s, [])
  | o :: r =>
    let (s, st, v) := s.readObject via o staged
    let (s, es) := State.readList s via staged r
    (s, resultEntry o st v :: es)

/-- READ (Table 02-4, R37). -/
def runRead : Runner := fun s m =>
  match parseRefs m.payload with
  | none => (s, whole stMalformed)
  | some os =>
    if payloadMax < resultLength (os.map (s.readLength m.by_.via)) then (s, whole stTooBig)
    else
      let (s, es) := s.readList m.by_.via (flagStaged m.flags) os
      (s, { payload := resultList es })

/-- Write entries in order; a failed entry does not stop the next (R37). -/
def State.writeList (s : State) (by_ : Caller) : List ValueEntry → State × List Bytes
  | [] => (s, [])
  | e :: r =>
    let (s, st) := s.writeEntry by_ e.obj e.type e.value
    let (s, es) := State.writeList s by_ r
    (s, resultEntry e.obj st [] :: es)

/-- WRITE (Table 02-4). -/
def runWrite : Runner := fun s m =>
  match parseValues m.payload with
  | none => (s, whole stMalformed)
  | some es =>
    let (s, rs) := s.writeList m.by_ es
    (s, { payload := resultList rs })

/-- The outcome of a READ_BLOCK: status and data (R30, R282, Table 02-5). -/
def State.readBlock (s : State) (via : Via) (r : BlockRef) : Nat × Bytes :=
  if !objKnown r.obj then (stNoObject, [])
  else if via = .spi && !spiReadable s r.obj then (stAccess, [])
  else match objRow r.obj with
    | none => (stType, [])
    | some row =>
      if row.type ≠ .dom then (stType, [])
      else if row.access = .wo then (stAccess, [])
      else if r.length = 0 ∨ 1024 < r.length ∨ s.domSize r.obj < r.offset + r.length then (stRange, [])
      else if s.domUnreadable r.obj r.offset r.length then (stRefused, [])
      else (0, s.domSlice r.obj r.offset r.length)

/-- READ_BLOCK (Table 02-4). -/
def runReadBlock : Runner := fun s m =>
  match parseBlock m.payload with
  | none => (s, whole stMalformed)
  | some r =>
    let (st, bs) := s.readBlock m.by_.via r
    (s, { payload := resultEntry r.obj st bs })

/-- WRITE_BLOCK (Table 02-4). -/
def runWriteBlock : Runner := fun s m =>
  match parseWriteBlock m.payload with
  | none => (s, whole stMalformed)
  | some (r, bs) =>
    let (s, st) := s.writeBlockAt m.by_ r.obj r.offset bs
    (s, { payload := resultEntry r.obj st [] })

/-- COMMIT (R45, R250). -/
def runCommit : Runner := fun s m =>
  if !m.payload.isEmpty then (s, whole stMalformed)
  else match s.commitBy m.by_ (some (m.by_, m.seq)) with
    | (s, .result r) => (s, { payload := s.commitPayload r })
    | (s, .waits) => (s, { waits := true })

/-- ABORT (R56, Table 02-10). -/
def runAbort : Runner := fun s m =>
  if m.payload.length ≠ 8 then (s, whole stMalformed)
  else
    let (s, st) := s.abortFunction (leAt m.payload 0 1) (leAt m.payload 4 4)
    (s, whole st)

/-- The status of a subscription entry (R42), 0 where it is accepted. -/
def State.subRefusal (s : State) (x : Session) (e : SubEntry) : Nat :=
  let st := s.readRefusal x.via e.obj
  if st ≠ 0 then st
  else if (objRow e.obj).any fun r => r.access = .rc then stAccess
  else if 2 < e.mode ∨ (e.mode = 2 ∧ (e.period < 10 ∨ 60000 < e.period)) then stRange
  else if e.mode ≠ 0 ∧ !(x.subs.any (·.obj = e.obj)) ∧ 64 ≤ x.subs.length then stLimit
  else 0

/-- Subscriptions in order; each result carries the current value. -/
def State.subscribeList (s : State) (id : Nat) : List SubEntry → State × List Bytes
  | [] => (s, [])
  | e :: r =>
    let (s, b) := match s.session id with
      | none => (s, resultEntry e.obj stSession [])
      | some x =>
        let st := s.subRefusal x e
        if st ≠ 0 then (s, resultEntry e.obj st [])
        else
          let (s, v) := s.readBytes e.obj false
          let sub : Subscription := { obj := e.obj, mode := e.mode, period := e.period, last := v }
          let put (l : List Subscription) : List Subscription :=
            if e.mode = 0 then l.filter (·.obj ≠ e.obj)
            else if l.any (·.obj = e.obj) then l.map fun (y : Subscription) => if y.obj = e.obj then sub else y
            else l ++ [sub]
          (s.modSession id fun (y : Session) => { y with subs := put y.subs }, resultEntry e.obj 0 v)
    let (s, es) := State.subscribeList s id r
    (s, b :: es)

/-- SUBSCRIBE (R42); the SPI port refuses it (R43). -/
def runSubscribe : Runner := fun s m =>
  if m.by_.via = .spi then (s, whole stRefused)
  else match parseSubs m.payload with
    | none => (s, whole stMalformed)
    | some es =>
      if payloadMax < resultLength (es.map fun e => s.readLength m.by_.via e.obj) then (s, whole stTooBig)
      else
        let (s, rs) := s.subscribeList m.by_.session es
        (s, { payload := resultList rs })

/-- A TYPE that is not in Table 02-4 (R36). -/
def runUnknown : Runner := fun s _ => (s, whole stMalformed)

/-! ### Sessions and sequence -/

/-- A COMMIT message is being executed: it waits for the standby (R37, R250). -/
def State.commitRuns (s : State) : Bool := s.stg.await.any fun a => a.reply.isSome

/-- An accepted request is executed and answered from FACEPLATE_PORT as it stood before; a COMMIT that waits for the standby is answered
by its confirmation, and until then no response is kept or ready. -/
def State.runMessage (s : State) (m : WaitingMsg) (run : Runner) : State :=
  let d := m.dg
  let port := s.getN Obj.FACEPLATE_PORT
  let key := if m.via = .spi then none else s.tagKey d.session
  let (s, e) := run s ⟨⟨m.via, d.session⟩, d.seq, d.flags, d.payload⟩
  if e.waits then s.keepResponse m.via d.session d.seq []
  else
    let bs := fpBytes key m.type 1 e.status d.session d.seq e.payload
    (s.keepResponse m.via d.session d.seq bs).sendBytes m.via m.src port bs

/-- A request in sequence is accepted: its SEQ is the last one (R40). It is executed at once, or after the COMMIT that runs: the device
executes one message at a time, and only an ABORT goes ahead (R37). -/
def State.executeIn (s : State) (via : Via) (src : Source) (type : Nat) (d : Datagram) (run : Runner) : State :=
  let s := s.inc Obj.FP_MESSAGES_ACCEPTED
  let s : State := match via with
    | .spi => { s with fp := { s.fp with spiSeq := d.seq, spiStored := [], spiOut := [] } }
    | _ => s.modSession d.session fun (x : Session) => { x with lastSeq := d.seq, executed := true, stored := [] }
  let m : WaitingMsg := ⟨via, src, type, d⟩
  if s.commitRuns ∧ type ≠ 6 then { s with fp := { s.fp with waiting := s.fp.waiting ++ [m] } } else s.runMessage m run

/-- A request out of order (R40). -/
def State.seqError (s : State) (via : Via) (src : Source) (type : Nat) (d : Datagram) : State :=
  let key := if via = .spi then none else s.tagKey d.session
  ((s.inc Obj.FP_SEQ_ERRORS).inc Obj.FP_MESSAGES_ACCEPTED).sendBytes via src (s.getN Obj.FACEPLATE_PORT)
    (fpBytes key type 1 stSeq d.session d.seq [])

/-- A request that repeats the last executed SEQ is answered with the stored response (R40). While the request has not been executed
there is none: the repeat is answered with it when it leaves. -/
def State.resend (s : State) (via : Via) (src : Source) (stored : Bytes) : State :=
  if stored.isEmpty then s
  else (s.inc Obj.FP_MESSAGES_ACCEPTED).sendBytes via src (s.getN Obj.FACEPLATE_PORT) stored

/-- A request on the SPI port (R43). -/
def State.receiveSpi (s : State) (src : Source) (type : Nat) (d : Datagram) (run : Runner) : State :=
  if d.session ≠ spiSession then s.replyPlain .spi src d.session d.seq type stSession []
  else if d.seq = 0 then s.executeIn .spi src type d run
  else if d.seq = s.fp.spiSeq then s.resend .spi src s.fp.spiStored
  else if d.seq ≠ (s.fp.spiSeq + 1) % 2 ^ 32 then s.seqError .spi src type d
  else s.executeIn .spi src type d run

/-- A request with SESSION 0 on a control port: an opening, or nothing (R39). -/
def State.receiveOpening (s : State) (via : Via) (src : Source) (type : Nat) (d : Datagram) : State :=
  match dgOpening d type with
  | none => s.replyPlain via src 0 d.seq type stSession []
  | some e =>
    let st := if e.type ≠ 10 then stType else if e.value.length ≠ 8 then stRange else 0
    if st ≠ 0 then s.replyPlain via src 0 0 2 0 (resultList [resultEntry Obj.SESSION_OPEN st []])
    else s.openSession via src e.value (flagAuth d.flags)

/-- A request on a control port (R39, R40). -/
def State.receiveCtl (s : State) (via : Via) (src : Source) (type : Nat) (d : Datagram) (run : Runner) : State :=
  if d.session = 0 then s.receiveOpening via src type d
  else match s.session d.session with
    | none => s.replyPlain via src d.session d.seq type stSession []
    | some x =>
      if x.src ≠ src then s.replyPlain via src d.session d.seq type stSession []
      else if d.seq = x.lastSeq then s.resend via src x.stored
      else if d.seq ≠ (x.lastSeq + 1) % 2 ^ 32 then s.seqError via src type d
      else s.executeIn via src type d run

/-- How a TYPE of Table 02-4 is executed. -/
def runnerOf (type : Nat) : Runner :=
  match type with
  | 1 => runRead
  | 2 => runWrite
  | 3 => runReadBlock
  | 4 => runWriteBlock
  | 5 => runCommit
  | 6 => runAbort
  | 7 => runSubscribe
  | _ => runUnknown

/-- The session of an accepted request is still open; the SPI session always is. -/
def State.msgOpen (s : State) (m : WaitingMsg) : Bool := m.via = .spi || (s.session m.dg.session).isSome

/-- Requests that waited are executed in the order of their acceptance, up to one that waits itself (R37). One whose session has ended
is answered SESSION and not executed. -/
def State.runWaiting : Nat → State → State
  | 0, s => s
  | n + 1, s =>
    if s.commitRuns then s
    else match s.fp.waiting with
      | [] => s
      | m :: r =>
        let s : State := { s with fp := { s.fp with waiting := r } }
        State.runWaiting n (if s.msgOpen m then s.runMessage m (runnerOf m.type)
          else s.sendBytes m.via m.src (s.getN Obj.FACEPLATE_PORT) (fpBytes none m.type 1 stSession m.dg.session m.dg.seq []))

/-- The requests that waited go on, once no COMMIT runs. -/
def State.goOn (s : State) : State := s.runWaiting s.fp.waiting.length

/-- A message of a TYPE reaches a port (R34 to R43); requests that wait and no longer need to go first. -/
def State.receive (s : State) (via : Via) (src : Source) (type : Nat) (d : Datagram) (run : Runner) : State :=
  let s := s.goOn
  if !s.answers via then s
  else match s.discards via type d with
    | some t => t
    | none => match via with
      | .spi => s.receiveSpi src type d run
      | _ => s.receiveCtl via src type d run

/-- READ. -/
def execRead (via : Via) (src : Source) (dg : Datagram) (s : State) : Out := .next (s.receive via src 1 dg runRead)
/-- WRITE. -/
def execWrite (via : Via) (src : Source) (dg : Datagram) (s : State) : Out := .next (s.receive via src 2 dg runWrite)
/-- READ_BLOCK. -/
def execReadBlock (via : Via) (src : Source) (dg : Datagram) (s : State) : Out := .next (s.receive via src 3 dg runReadBlock)
/-- WRITE_BLOCK. -/
def execWriteBlock (via : Via) (src : Source) (dg : Datagram) (s : State) : Out := .next (s.receive via src 4 dg runWriteBlock)
/-- SUBSCRIBE. -/
def execSubscribe (via : Via) (src : Source) (dg : Datagram) (s : State) : Out := .next (s.receive via src 7 dg runSubscribe)
/-- A message with a TYPE that Table 02-4 does not have (R36). -/
def execMalformedTypeMessage (via : Via) (src : Source) (type : Nat) (dg : Datagram) (s : State) : Out :=
  .next (if 1 ≤ type ∧ type ≤ 7 then s else s.receive via src type dg runUnknown)

/-! ### Commit and abort, by a message or by a write -/

/-- A request by a message of a TYPE, or by a write. -/
def State.request (s : State) (r : Request) (type : Nat) (run : Runner) (write : State → Caller → Nat → State) : State :=
  match r with
  | .message via src d => s.receive via src type d run
  | .write c v => write s c v

/-- COMMIT (R45). -/
def execCommit (r : Request) (s : State) : Out :=
  .next (s.request r typeCommit runCommit fun s c v => if s.callerOpen c then (writeCommit s c v).1 else s)
/-- ABORT_JOB: function 1, or a write of 1 to ABORT_JOB (R57). -/
def execAbortJob (r : Request) (s : State) : Out := .next (s.request r 6 runAbort fun s c v => s.writeAbort c Obj.ABORT_JOB v)
/-- ABORT_DMA: function 2, or a write of the selector (R319). -/
def execAbortDma (r : Request) (s : State) : Out := .next (s.request r 6 runAbort fun s c v => s.writeAbort c Obj.ABORT_DMA v)
/-- ABORT_COMPRESSION: function 3 (R303). -/
def execAbortCompression (r : Request) (s : State) : Out :=
  .next (s.request r 6 runAbort fun s c v => s.writeAbort c Obj.ABORT_COMPRESSION v)
/-- ABORT_CAMERA: function 4 (R341). -/
def execAbortCamera (r : Request) (s : State) : Out := .next (s.request r 6 runAbort fun s c v => s.writeAbort c Obj.ABORT_CAMERA v)
/-- ABORT_CALIBRATION: function 5 (R377). -/
def execAbortCalibration (r : Request) (s : State) : Out :=
  .next (s.request r 6 runAbort fun s c v => s.writeAbort c Obj.ABORT_CALIBRATION v)
/-- DISCARD_STAGING: function 6 (R44). -/
def execDiscardStaging (r : Request) (s : State) : Out :=
  .next (s.request r 6 runAbort fun s c v => s.writeAbort c Obj.DISCARD_STAGING v)
/-- ABORT_DRAM_FILL: function 7 is answered REFUSED, and the fill goes on (R56). -/
def execAbortDramFill (via : Via) (src : Source) (dg : Datagram) (s : State) : Out := .next (s.receive via src 6 dg runAbort)

/-! ### Notifications (R42) -/

/-- A notification of a session with an object's value: its own SEQ, the session's tag. -/
def State.notify (s : State) (x : Session) (o : ObjRef) (v : Bytes) : State :=
  let bs := fpBytes (if x.auth then some x.key else none) 7 flagsNotify 0 x.id x.notif (resultList [resultEntry o 0 v])
  let s := s.modSession x.id fun (y : Session) => { y with
    notif := (y.notif + 1) % 2 ^ 32
    subs := y.subs.map fun (z : Subscription) => if z.obj = o then { z with last := v, sentAt := some s.clk.cycle } else z }
  s.emit (.message x.via x.src (s.getN Obj.FACEPLATE_PORT) bs)

/-- A session's subscription to an object in a mode. -/
def State.subscribed (s : State) (id : Nat) (o : ObjRef) (mode : Nat) : Option (Session × Subscription) :=
  match s.session id with
  | none => none
  | some x => (x.subs.find? fun y => y.obj = o && y.mode = mode).map fun y => (x, y)

/-- A millisecond has passed since the last notification of a subscription (R42). -/
def State.mayNotify (s : State) (y : Subscription) : Bool := y.sentAt.all fun t => decide (t + msCycles ≤ s.clk.cycle)

/-- NOTIFY_ON_CHANGE: the value differs from the one last sent. Within 1 ms of the object's last notification none is sent; the next
one carries the latest value (R42). -/
def execNotifyOnChange (session : Nat) (obj : ObjRef) (s : State) : Out :=
  match s.subscribed session obj 1 with
  | none => .next s
  | some (x, y) =>
    let (s, v) := s.readBytes obj false
    .next (if v = y.last ∨ !s.mayNotify y ∨ !s.answers x.via then s else s.notify x obj v)

/-- NOTIFY_PERIODIC: the PERIOD of the subscription has passed. -/
def execNotifyPeriodic (session : Nat) (obj : ObjRef) (s : State) : Out :=
  match s.subscribed session obj 2 with
  | none => .next s
  | some (x, _) =>
    let (s, v) := s.readBytes obj false
    .next (if s.answers x.via then s.notify x obj v else s)

end Sys2Proof.Machine
end

