-- ==== Sys2Proof/Machine/Inflate.lean ====
section
/-! DEFINITION. The end of a unit of work on a compression lane (R289 to R291, R300). -/
namespace Sys2Proof.Machine

/-- The host job of a descriptor's index, on the lane that holds it. -/
def State.hostJob (s : State) (index : Nat) : Option HostJob := (s.laneOfJob index).bind fun l => (atD s.spool.lanes l {}).host

/-- COMPRESSION_UNIT_DONE (R291): the lane's unit ends; its rails are compared over the output and the final state, a decompression's error
and its input position included. -/
def execCompressionUnitDone (lane : Nat) (railsAgree : Bool) (inputFaults : List WordFault) (s : State) : Out :=
  match (atD s.spool.lanes lane {}).unit with
  | none => .next s
  | some u =>
    if !s.coreOn then .next s
    else
      let s := s.modLane lane fun x => { x with units := x.units + 1 }
      if !railsAgree then .next ((s.laneMismatch lane u).runLanes.advanceRaster)
      else
        let s := s.modLane lane fun x => { x with unit := none }
        match u with
        | .spool t => .next (((s.packTile lane t).runLanes).advanceRaster)
        | .residual i => .next (s.packResidual i).runLanes
        | .fiufen _ => .next (s.segmentDone lane).runLanes
        | .host i =>
          match s.hostJob i with
          | some j => .next (s.hostSegment j inputFaults).runLanes
          | none => .next s.runLanes

end Sys2Proof.Machine
end

