-- ==== Sys2Proof/Machine/Mirror.lean ====
section
/-! DEFINITION. The events of the pair that can end a wait for a confirmation: the requests that waited behind the COMMIT then go on (R37,
R246, R250, R252, R256). -/
namespace Sys2Proof.Machine

/-- CONFIRM (R250). -/
def execConfirm (m : Receipt × Nat) (s : State) : Out := .next (s.received m.1 fun s => s.takeConfirm m.2).goOn

/-- CONFIRM_TIMEOUT (R250). -/
def execConfirmTimeout (s : State) : Out := .next s.confirmLate.goOn

/-- MIRROR_LINK_CHANGE (R246). -/
def execMirrorLinkChange (lanes : BitVec 8) (s : State) : Out :=
  .next (s.lanesLocked (if s.power = 2 ∨ s.power = 3 then lanes.toNat else 0)).goOn

/-- HEALTH (R252). -/
def execHealth (m : Receipt × Bytes) (s : State) : Out := .next (s.received m.1 fun s => s.takeHealth m.2).goOn

/-- PEER_HEALTH_TIMEOUT (R252). -/
def execPeerHealthTimeout (s : State) : Out := .next s.healthLate.goOn

/-- LANE_LOCK_LOSS (R193, R198, R246). -/
def execLaneLockLoss (port : LanePort) (lane : Nat) (s : State) : Out := .next (s.laneLost port lane).goOn

/-- OWN_ACT_RELEASE (R256). -/
def execOwnActRelease (s : State) : Out := .next s.releaseAct.goOn

end Sys2Proof.Machine
end

