-- ==== Sys2Proof/Machine/Dispatch.lean ====
section
/-! DEFINITION. One arm per command: each calls the meaning of that command. -/
namespace Sys2Proof.Machine

/-- The effect of a command on everything but the queue. -/
def exec (i : Instr) (s : State) : Host.Outcome State Fault Refusal :=
  match i with
  | .read via src dg => Sys2Proof.Machine.execRead via src dg s
  | .write via src dg => Sys2Proof.Machine.execWrite via src dg s
  | .readBlock via src dg => Sys2Proof.Machine.execReadBlock via src dg s
  | .writeBlock via src dg => Sys2Proof.Machine.execWriteBlock via src dg s
  | .subscribe via src dg => Sys2Proof.Machine.execSubscribe via src dg s
  | .malformedTypeMessage via src type dg => Sys2Proof.Machine.execMalformedTypeMessage via src type dg s
  | .sessionOpen via src nonce tagged => Sys2Proof.Machine.execSessionOpen via src nonce tagged s
  | .sessionClose by_ id => Sys2Proof.Machine.execSessionClose by_ id s
  | .sessionTimeout id => Sys2Proof.Machine.execSessionTimeout id s
  | .authKey by_ key => Sys2Proof.Machine.execAuthKey by_ key s
  | .objectWrite by_ obj typeCode value => Sys2Proof.Machine.execObjectWrite by_ obj typeCode value s
  | .rcRead by_ obj => Sys2Proof.Machine.execRcRead by_ obj s
  | .notifyOnChange session obj => Sys2Proof.Machine.execNotifyOnChange session obj s
  | .notifyPeriodic session obj => Sys2Proof.Machine.execNotifyPeriodic session obj s
  | .commit r => Sys2Proof.Machine.execCommit r s
  | .abortJob r => Sys2Proof.Machine.execAbortJob r s
  | .abortQuiet => Sys2Proof.Machine.execAbortQuiet s
  | .abortDma r => Sys2Proof.Machine.execAbortDma r s
  | .abortCompression r => Sys2Proof.Machine.execAbortCompression r s
  | .abortCamera r => Sys2Proof.Machine.execAbortCamera r s
  | .abortCalibration r => Sys2Proof.Machine.execAbortCalibration r s
  | .discardStaging r => Sys2Proof.Machine.execDiscardStaging r s
  | .abortDramFill via src dg => Sys2Proof.Machine.execAbortDramFill via src dg s
  | .start by_ => Sys2Proof.Machine.execStart by_ s
  | .hold by_ => Sys2Proof.Machine.execHold by_ s
  | .resume by_ => Sys2Proof.Machine.execResume by_ s
  | .jobAutoStart => Sys2Proof.Machine.execJobAutoStart s
  | .progressSnapshot => Sys2Proof.Machine.execProgressSnapshot s
  | .streamProducer value => Sys2Proof.Machine.execStreamProducer value s
  | .repairProducer value => Sys2Proof.Machine.execRepairProducer value s
  | .barAccessError offset size write => Sys2Proof.Machine.execBarAccessError offset size write s
  | .jobBlock f => Sys2Proof.Machine.execJobBlock f s
  | .stripeBlock f => Sys2Proof.Machine.execStripeBlock f s
  | .celldefBlock f => Sys2Proof.Machine.execCelldefBlock f s
  | .bandBlock f => Sys2Proof.Machine.execBandBlock f s
  | .haloBlock f => Sys2Proof.Machine.execHaloBlock f s
  | .marksBlock f => Sys2Proof.Machine.execMarksBlock f s
  | .endBlock f => Sys2Proof.Machine.execEndBlock f s
  | .blockRefetch type f => Sys2Proof.Machine.execBlockRefetch type f s
  | .repairBlock type f => Sys2Proof.Machine.execRepairBlock type f s
  | .writeback => Sys2Proof.Machine.execWriteback s
  | .hostPortReset cause => Sys2Proof.Machine.execHostPortReset cause s
  | .hostLinkUp width speed => Sys2Proof.Machine.execHostLinkUp width speed s
  | .tileDispatch cell => Sys2Proof.Machine.execTileDispatch cell s
  | .tileComplete cell fault => Sys2Proof.Machine.execTileComplete cell fault s
  | .shadowTest cell => Sys2Proof.Machine.execShadowTest cell s
  | .shadowTestResult cell crc => Sys2Proof.Machine.execShadowTestResult cell crc s
  | .factorCompute region column railsAgree => Sys2Proof.Machine.execFactorCompute region column railsAgree s
  | .fitField by_ f => Sys2Proof.Machine.execFitField by_ f s
  | .fitComplete => Sys2Proof.Machine.execFitComplete s
  | .fitStage by_ => Sys2Proof.Machine.execFitStage by_ s
  | .flashDecision inp => Sys2Proof.Machine.execFlashDecision inp s
  | .flashCompute faults => Sys2Proof.Machine.execFlashCompute faults s
  | .windowLoad line word fault => Sys2Proof.Machine.execWindowLoad line word fault s
  | .turnaroundRelease by_ => Sys2Proof.Machine.execTurnaroundRelease by_ s
  | .positionSample t idle levels => Sys2Proof.Machine.execPositionSample t idle levels s
  | .posTimeout t => Sys2Proof.Machine.execPosTimeout t s
  | .posFault lowNs => Sys2Proof.Machine.execPosFault lowNs s
  | .posFaultClear => Sys2Proof.Machine.execPosFaultClear s
  | .firingCheck => Sys2Proof.Machine.execFiringCheck s
  | .frameSync => Sys2Proof.Machine.execFrameSync s
  | .deflectorWord tOut => Sys2Proof.Machine.execDeflectorWord tOut s
  | .deflLinkChange running => Sys2Proof.Machine.execDeflLinkChange running s
  | .laneLockLoss port lane => Sys2Proof.Machine.execLaneLockLoss port lane s
  | .acknowledgement hst t msg => Sys2Proof.Machine.execAcknowledgement hst t msg s
  | .ackTimeout => Sys2Proof.Machine.execAckTimeout s
  | .tempStale => Sys2Proof.Machine.execTempStale s
  | .cmdUnechoed => Sys2Proof.Machine.execCmdUnechoed s
  | .headAttachFactory by_ => Sys2Proof.Machine.execHeadAttachFactory by_ s
  | .headAttachKeep by_ => Sys2Proof.Machine.execHeadAttachKeep by_ s
  | .headAttachComplete mem => Sys2Proof.Machine.execHeadAttachComplete mem s
  | .i2cStretchTimeout => Sys2Proof.Machine.execI2cStretchTimeout s
  | .beamEdit by_ value => Sys2Proof.Machine.execBeamEdit by_ value s
  | .beamEpoch => Sys2Proof.Machine.execBeamEpoch s
  | .gateCheckStart by_ => Sys2Proof.Machine.execGateCheckStart by_ s
  | .gateCheckStop by_ => Sys2Proof.Machine.execGateCheckStop by_ s
  | .gateDarkDone shots => Sys2Proof.Machine.execGateDarkDone shots s
  | .gateBeamMeasured t shots => Sys2Proof.Machine.execGateBeamMeasured t shots s
  | .imageStart by_ => Sys2Proof.Machine.execImageStart by_ s
  | .imagePhaseDone t => Sys2Proof.Machine.execImagePhaseDone t s
  | .burnishRepairWait => Sys2Proof.Machine.execBurnishRepairWait s
  | .defectAck by_ n => Sys2Proof.Machine.execDefectAck by_ n s
  | .peerActFall => Sys2Proof.Machine.execPeerActFall s
  | .takeoverCheck => Sys2Proof.Machine.execTakeoverCheck s
  | .peerActRise => Sys2Proof.Machine.execPeerActRise s
  | .claimDelay => Sys2Proof.Machine.execClaimDelay s
  | .ownActRelease => Sys2Proof.Machine.execOwnActRelease s
  | .flashRecord r bad => Sys2Proof.Machine.execFlashRecord r bad s
  | .recordDeadline => Sys2Proof.Machine.execRecordDeadline s
  | .mirrorBlock rx type ring slot image => Sys2Proof.Machine.execMirrorBlock rx type ring slot image s
  | .streamEvent m => Sys2Proof.Machine.execStreamEvent m s
  | .mirrorCommit rx entries => Sys2Proof.Machine.execMirrorCommit rx entries s
  | .beamChanges rx changes epoch identity => Sys2Proof.Machine.execBeamChanges rx changes epoch identity s
  | .confirm m => Sys2Proof.Machine.execConfirm m s
  | .confirmTimeout => Sys2Proof.Machine.execConfirmTimeout s
  | .checkpoint rx chunk => Sys2Proof.Machine.execCheckpoint rx chunk s
  | .health m => Sys2Proof.Machine.execHealth m s
  | .healthSend => Sys2Proof.Machine.execHealthSend s
  | .peerHealthTimeout => Sys2Proof.Machine.execPeerHealthTimeout s
  | .nak rx ask => Sys2Proof.Machine.execNak rx ask s
  | .releaseMessage rx body => Sys2Proof.Machine.execReleaseMessage rx body s
  | .mirrorLinkChange lanes => Sys2Proof.Machine.execMirrorLinkChange lanes s
  | .handoverRequest by_ => Sys2Proof.Machine.execHandoverRequest by_ s
  | .syncStart by_ => Sys2Proof.Machine.execSyncStart by_ s
  | .syncComplete => Sys2Proof.Machine.execSyncComplete s
  | .dramTrainingDone ch rates => Sys2Proof.Machine.execDramTrainingDone ch rates s
  | .dramFillDone timeUs => Sys2Proof.Machine.execDramFillDone timeUs s
  | .dramTempPoll ch temps => Sys2Proof.Machine.execDramTempPoll ch temps s
  | .refresh ch busy => Sys2Proof.Machine.execRefresh ch busy s
  | .neighbourRefresh ch bank activates => Sys2Proof.Machine.execNeighbourRefresh ch bank activates s
  | .disturbCountClear ch => Sys2Proof.Machine.execDisturbCountClear ch s
  | .scrubRead faults => Sys2Proof.Machine.execScrubRead faults s
  | .remapCopyDone copy => Sys2Proof.Machine.execRemapCopyDone copy s
  | .remapAdd by_ value => Sys2Proof.Machine.execRemapAdd by_ value s
  | .sramScrub met => Sys2Proof.Machine.execSramScrub met s
  | .dramParityAlert ch t retrained => Sys2Proof.Machine.execDramParityAlert ch t retrained s
  | .dramPllLockLoss ch => Sys2Proof.Machine.execDramPllLockLoss ch s
  | .compressionUnitDone lane railsAgree inputFaults => Sys2Proof.Machine.execCompressionUnitDone lane railsAgree inputFaults s
  | .spoolLaneWait region => Sys2Proof.Machine.execSpoolLaneWait region s
  | .hjProducer value => Sys2Proof.Machine.execHjProducer value s
  | .hjAssign => Sys2Proof.Machine.execHjAssign s
  | .hjResume by_ lanes => Sys2Proof.Machine.execHjResume by_ lanes s
  | .chStart by_ ch addr faults => Sys2Proof.Machine.execChStart by_ ch addr faults s
  | .dmaBurst ch inp => Sys2Proof.Machine.execDmaBurst ch inp s
  | .dmaDescriptorEnd ch samePulse faults => Sys2Proof.Machine.execDmaDescriptorEnd ch samePulse faults s
  | .cuFeed8 u v => Sys2Proof.Machine.execCuFeed8 u v s
  | .cuFeed16 u v => Sys2Proof.Machine.execCuFeed16 u v s
  | .cuFeed32 u v => Sys2Proof.Machine.execCuFeed32 u v s
  | .cuPortWrite ch u => Sys2Proof.Machine.execCuPortWrite ch u s
  | .cuValueWrite u v => Sys2Proof.Machine.execCuValueWrite u v s
  | .cuInit u => Sys2Proof.Machine.execCuInit u s
  | .cuPoly u poly => Sys2Proof.Machine.execCuPoly u poly s
  | .cuStateRead u result => Sys2Proof.Machine.execCuStateRead u result s
  | .cuLatch u => Sys2Proof.Machine.execCuLatch u s
  | .csiFrameStart p t frameNumber => Sys2Proof.Machine.execCsiFrameStart p t frameNumber s
  | .csiFrameEnd p t => Sys2Proof.Machine.execCsiFrameEnd p t s
  | .csiLine p t eccCorrected crcOk pixels => Sys2Proof.Machine.execCsiLine p t eccCorrected crcOk pixels s
  | .csiEmbeddedData p data => Sys2Proof.Machine.execCsiEmbeddedData p data s
  | .csiPacketDiscard p why => Sys2Proof.Machine.execCsiPacketDiscard p why s
  | .camLineTimeout p t => Sys2Proof.Machine.execCamLineTimeout p t s
  | .camFramePublish p => Sys2Proof.Machine.execCamFramePublish p s
  | .camRestart by_ p => Sys2Proof.Machine.execCamRestart by_ p s
  | .mfRequest by_ offset data => Sys2Proof.Machine.execMfRequest by_ offset data s
  | .mfResult railsAgree => Sys2Proof.Machine.execMfResult railsAgree s
  | .mfTimeout => Sys2Proof.Machine.execMfTimeout s
  | .spotStrobe => Sys2Proof.Machine.execSpotStrobe s
  | .spotSumsDone railsAgree => Sys2Proof.Machine.execSpotSumsDone railsAgree s
  | .spotTimeout => Sys2Proof.Machine.execSpotTimeout s
  | .timeTick => Sys2Proof.Machine.execTimeTick s
  | .timeIncrement by_ v => Sys2Proof.Machine.execTimeIncrement by_ v s
  | .timeStep by_ v => Sys2Proof.Machine.execTimeStep by_ v s
  | .timeSet by_ value => Sys2Proof.Machine.execTimeSet by_ value s
  | .ptpSync p rx m => Sys2Proof.Machine.execPtpSync p rx m s
  | .ptpFollowUp p m => Sys2Proof.Machine.execPtpFollowUp p m s
  | .ptpDelayResp p m => Sys2Proof.Machine.execPtpDelayResp p m s
  | .ptpDelayReqSend tx => Sys2Proof.Machine.execPtpDelayReqSend tx s
  | .ptpPdelayReqSend tx => Sys2Proof.Machine.execPtpPdelayReqSend tx s
  | .ptpPdelayReq p rx tx m => Sys2Proof.Machine.execPtpPdelayReq p rx tx m s
  | .ptpPdelayResp p rx followUp m => Sys2Proof.Machine.execPtpPdelayResp p rx followUp m s
  | .ptpAnnounce p m a => Sys2Proof.Machine.execPtpAnnounce p m a s
  | .ptpAnnounceTimeout => Sys2Proof.Machine.execPtpAnnounceTimeout s
  | .comparatorMatch c => Sys2Proof.Machine.execComparatorMatch c s
  | .pulseEnd o => Sys2Proof.Machine.execPulseEnd o s
  | .tciEdge k t rising => Sys2Proof.Machine.execTciEdge k t rising s
  | .tciAck by_ k n => Sys2Proof.Machine.execTciAck by_ k n s
  | .calStart by_ mask => Sys2Proof.Machine.execCalStart by_ mask s
  | .calItemStart => Sys2Proof.Machine.execCalItemStart s
  | .calRefclkDone cycles refcalOk => Sys2Proof.Machine.execCalRefclkDone cycles refcalOk s
  | .calStrobeSkewDone edges refcalOk => Sys2Proof.Machine.execCalStrobeSkewDone edges refcalOk s
  | .calGateOffsetDone shots => Sys2Proof.Machine.execCalGateOffsetDone shots s
  | .calGateGainDone t dark shots => Sys2Proof.Machine.execCalGateGainDone t dark shots s
  | .calBeamEfficiencyDone t dark beams => Sys2Proof.Machine.execCalBeamEfficiencyDone t dark beams s
  | .calDeflScanDone t dark steps positions => Sys2Proof.Machine.execCalDeflScanDone t dark steps positions s
  | .calDeflSolveDone => Sys2Proof.Machine.execCalDeflSolveDone s
  | .calCamDarkDone frames => Sys2Proof.Machine.execCalCamDarkDone frames s
  | .calCamFlatDone frames => Sys2Proof.Machine.execCalCamFlatDone frames s
  | .calCamTimeout => Sys2Proof.Machine.execCalCamTimeout s
  | .deflPointsClear by_ => Sys2Proof.Machine.execDeflPointsClear by_ s
  | .porstNDeassert straps peerAct mainGood backupGood => Sys2Proof.Machine.execPorstNDeassert straps peerAct mainGood backupGood s
  | .porstNAssert => Sys2Proof.Machine.execPorstNAssert s
  | .pllLock pll => Sys2Proof.Machine.execPllLock pll s
  | .corePllLoss => Sys2Proof.Machine.execCorePllLoss s
  | .bootLoadDone flashOk => Sys2Proof.Machine.execBootLoadDone flashOk s
  | .bootVerifyDone => Sys2Proof.Machine.execBootVerifyDone s
  | .firmwareReady net => Sys2Proof.Machine.execFirmwareReady net s
  | .firmwareReadyTimeout => Sys2Proof.Machine.execFirmwareReadyTimeout s
  | .imageVerify by_ => Sys2Proof.Machine.execImageVerify by_ s
  | .imageBoot by_ => Sys2Proof.Machine.execImageBoot by_ s
  | .imageProgramA by_ => Sys2Proof.Machine.execImageProgramA by_ s
  | .imageProgramB by_ => Sys2Proof.Machine.execImageProgramB by_ s
  | .imageProgramDone ok => Sys2Proof.Machine.execImageProgramDone ok s
  | .rollbackRaise by_ => Sys2Proof.Machine.execRollbackRaise by_ s
  | .keyRevoke by_ slot => Sys2Proof.Machine.execKeyRevoke by_ slot s
  | .netSave by_ => Sys2Proof.Machine.execNetSave by_ s
  | .powerRequestDeep by_ => Sys2Proof.Machine.execPowerRequestDeep by_ s
  | .powerRequestControl by_ => Sys2Proof.Machine.execPowerRequestControl by_ s
  | .powerRequestReady by_ => Sys2Proof.Machine.execPowerRequestReady by_ s
  | .powerTransitionDone => Sys2Proof.Machine.execPowerTransitionDone s
  | .wake source => Sys2Proof.Machine.execWake source s
  | .wakeRestoreDone saveReadable => Sys2Proof.Machine.execWakeRestoreDone saveReadable s
  | .vaonMainFail => Sys2Proof.Machine.execVaonMainFail s
  | .vaonMainReturn => Sys2Proof.Machine.execVaonMainReturn s
  | .railSourceFault rail => Sys2Proof.Machine.execRailSourceFault rail s
  | .switchoverEngage rail => Sys2Proof.Machine.execSwitchoverEngage rail s
  | .supplyReturn rail => Sys2Proof.Machine.execSupplyReturn rail s
  | .supplyReturnNow by_ mainGood => Sys2Proof.Machine.execSupplyReturnNow by_ mainGood s
  | .supplyFault rail cause => Sys2Proof.Machine.execSupplyFault rail cause s
  | .supplyTrip rail => Sys2Proof.Machine.execSupplyTrip rail s
  | .tjSample temps => Sys2Proof.Machine.execTjSample temps s
  | .watchdogExpiry cause => Sys2Proof.Machine.execWatchdogExpiry cause s
  | .healthIndexUpdate => Sys2Proof.Machine.execHealthIndexUpdate s
  | .descriptorFetch d => Sys2Proof.Machine.execDescriptorFetch d s
  | .busMasterEnable request => Sys2Proof.Machine.execBusMasterEnable s request
  | .regionWakeDone region writingSide => Sys2Proof.Machine.execRegionWakeDone region writingSide s
  | .hstLaneLock lane => Sys2Proof.Machine.execHstLaneLock lane s
  | .gateRxLinkChange dataPhase => Sys2Proof.Machine.execGateRxLinkChange dataPhase s
  | .refcalPresentChange present => Sys2Proof.Machine.execRefcalPresentChange present s
  | .ctlLinkChange port up => Sys2Proof.Machine.execCtlLinkChange port up s
  | .vaonGood mainGood backupGood => Sys2Proof.Machine.execVaonGood mainGood backupGood s
  | .vaonLoss => Sys2Proof.Machine.execVaonLoss s
  | .pageReloadDone page good => Sys2Proof.Machine.execPageReloadDone page good s
  | .memtestRead words faults => Sys2Proof.Machine.execMemtestRead words faults s

end Sys2Proof.Machine
end

