-- ==== Sys2Proof/Safety.lean ====
section
/-! DEFINITION. What counts as a safe state and a safe run, and the words that claims use: which objects and parts of the
state a command may change, a counted event, an entry of the error log, a session that may write. -/
namespace Sys2Proof.Machine

/-! ### Whole-machine properties -/

/-- The DRAM image lists its addresses in rising order and nothing that reads as an unlisted byte does. -/
def State.memCanonical (s : State) : Bool := memWf s.dram.mem

/-- One-time-programmable memory from `a` to `b` only rises (R395): SECURITY_VERSION_MIN never falls, no revoked slot returns, and the
factory's key hashes stay. -/
def Otp.le (a b : Otp) : Prop := a.securityMin ≤ b.securityMin ∧ a.revoked &&& b.revoked = a.revoked ∧ b.keys = a.keys

/-! ### What a command changes -/

/-- Every object outside a list reads in `t` as in `s`. -/
def State.sameObjects (s t : State) (except : List ObjRef) : Prop := ∀ o : ObjRef, o ∉ except → t.get o = s.get o

/-- Nothing but objects of the list differs. -/
def State.onlyObjects (s t : State) (l : List ObjRef) : Prop := t = { s with od := t.od } ∧ s.sameObjects t l

/-- The objects that entering an event of a class in the error log may change (R406 to R408). -/
def logObjects (cls : Nat) : List ObjRef :=
  [Obj.CLASS_COUNT + (cls - 1), Obj.CLASS_COUNT_JOB + (cls - 1), Obj.LOG_NEWEST_SEQ, Obj.LOG_OLDEST_SEQ, Obj.LOG_COALESCED]

/-- Nothing but objects of the list differs, and one event of a class has been entered in the error log. -/
def State.onlyLogged (s t : State) (cls : Nat) (l : List ObjRef) : Prop :=
  t = { s with od := t.od, log := t.log } ∧ s.sameObjects t (l ++ logObjects cls)

/-- A counter counts one event, unless it stands at the greatest value of its type. -/
def State.counts (s t : State) (o : ObjRef) : Prop :=
  ∀ r, objRow o = some r → s.get o + 1 < 2 ^ (8 * r.type.bytes) → t.get o = s.get o + 1

/-- The newest entry of the error log names a class, a subsystem and an object. -/
def State.newestLog (t : State) (cls subsys : Nat) (o : ObjRef) : Prop :=
  ∃ x rest, t.log.entries = x :: rest ∧ x.cls = cls ∧ x.subsys = subsys ∧ x.obj = o

/-- A caller's port answers and reaches an object for a write (R43, R387, R393). -/
def State.mayWrite (s : State) (c : Caller) (o : ObjRef) : Prop :=
  s.answers c.via = true ∧ (c.via = .spi → spiWritable s o = true)

/-- No request that waited is due: a COMMIT runs, or none waits (R37). -/
def State.noneDue (s : State) : Bool := s.commitRuns || s.fp.waiting.isEmpty

/-- A request reaches a port that answers, passes the checks of R36 and is the next of its session (R39, R40, R43). -/
def State.nextOfSession (s : State) (via : Via) (src : Source) (type : Nat) (d : Datagram) : Prop :=
  s.answers via = true ∧ s.discards via type d = none ∧
  match via with
  | .spi => d.session = spiSession ∧ (d.seq = 0 ∨ (d.seq ≠ s.fp.spiSeq ∧ d.seq = (s.fp.spiSeq + 1) % 2 ^ 32))
  | _ => d.session ≠ 0 ∧ ∃ x, s.session d.session = some x ∧ x.src = src ∧ d.seq ≠ x.lastSeq ∧ d.seq = (x.lastSeq + 1) % 2 ^ 32

/-- Such a request is executed at once: no COMMIT runs and no request waits, or it is an ABORT (R37). -/
def State.inSequence (s : State) (via : Via) (src : Source) (type : Nat) (d : Datagram) : Prop :=
  s.nextOfSession via src type d ∧ s.noneDue = true ∧ (s.commitRuns = false ∨ type = 6)

/-- A session of a caller is open and its port answers. -/
def State.mayCommand (s : State) (c : Caller) (o : ObjRef) : Prop := s.mayWrite c o ∧ s.callerOpen c = true

/-- A fetched block is the one its ring waits for, and passes steps 1 to 4, 6 and 7 of R82; `p` is its raw payload. -/
def State.blockPasses (s : State) (f : Fetch) (ring : Ring) (t : BlockType) (p : Bytes) : Prop :=
  f.desc.ring = ring ∧ s.readsRing ring = true ∧ f.desc.index = s.consumer ring ∧ s.st.refetch.any (·.ring = ring) = false ∧
  descOk f.desc = true ∧ f.error = false ∧ headerCrcOk t f.image = true ∧ headerFieldsOk t f.image = true ∧
  f.desc.length = 64 + f.image.payloadLength ∧ payloadOf f.image = .ok p

/-- A fetched block stands in its place of the job that is being read (R75, step 5 of R82). -/
def State.blockInOrder (s : State) (f : Fetch) (t : BlockType) : Prop :=
  s.outsideJob = false ∧ f.image.seq = s.getN Obj.EXPECTED_SEQ ∧ f.image.jobId = s.st.jobId ∧ s.orderFault t f.image true = none

/-- A block command takes a block that leaves the state `u`: at once where its payload is not compressed; a compressed one goes to the
lanes first, and its checks, made again when they have inflated it, leave `u` (R300). -/
def State.acceptsBlock (s : State) (f : Fetch) (t : BlockType) (c : Instr) (u : State) : Prop :=
  (f.image.flags = 0 → exec c s = .next u) ∧ s.checkBlock t f false true = u ∧
  (f.image.flags = 1 → exec c s = .next (s.startInflate t f 1) ∧
    (s.startInflate t f 1).st.inflating = some ⟨t, f, false, giveSegments s.lanesIn (segmentsOf f.image) [], 0⟩)

/-- The state after a stream block has been accepted: `u` holds what its content did (R79, R82). -/
def State.afterBlock (u : State) (f : Fetch) (t : BlockType) (fetches : Nat) : State :=
  (u.setN Obj.EXPECTED_SEQ ((f.image.seq + 1) % 2 ^ 32)).acceptedBlock f.desc t f.image fetches

/-- The state once a lane's unit has been counted and taken from it with agreeing rails (R291). -/
def State.unitTaken (s : State) (l : Nat) : State :=
  (s.modLane l fun x => { x with units := x.units + 1 }).modLane l fun x => { x with unit := none }

/-- A message on a PLK lane arrives whole, with the SEQ that is next on it (R246). -/
def State.takes (s : State) (x : Receipt) : Prop := s.coreOn = true ∧ x.crcOk = true ∧ x.seq = atD s.pair.rxSeq x.lane 0

/-- The state once such a message counts as received. -/
def State.taken (s : State) (x : Receipt) : State :=
  { s with pair := { s.pair with rxSeq := setAt s.pair.rxSeq x.lane ((atD s.pair.rxSeq x.lane 0 + 1) % 2 ^ 32) } }

end Sys2Proof.Machine
end

