-- ==== Sys2Proof/Certificates/Slice0/Obligations.lean ====
section
/-! DEFINITION. The statements for the provers: what the commands of each family do, what the whole machine keeps. A statement
that names a clause as the model's own says which log entry it rests on; the rules that the others follow are in their docstrings. -/
open Sys2Proof Sys2Proof.Machine

/-- A step runs the command at the front of the queue on the state with the queue's rest; an empty queue idles. -/
def Obligations.StepRunsTheFront : Prop :=
  (∀ (s : State) c rest, s.pending = c :: rest → step s = exec c { s with pending := rest }) ∧ (∀ s : State, s.pending = [] → step s = .next s)

/-- Every command goes on: no meaning ends in a fault or a refusal, on any state and operands. -/
def Obligations.EveryCommandGoesOn : Prop := ∀ c s, ∃ t, exec c s = .next t

/-- R32. After reset every object with a stated default reads as it, no entry is in the log and no session is open; the block holds no command.
Levels and memory of the model's own: PORST_N is still low and no byte of memory is listed. -/
def Obligations.ResetState : Prop :=
  (∀ o r v, objRow o = some r → r.dflt = .val v → State.reset.get o = v) ∧ State.reset.pins.porstN = false ∧ State.reset.pins.ownAct = false ∧
  State.reset.log.entries = [] ∧ State.reset.fp.sessions = [] ∧ State.reset.stg.entries = [] ∧ State.reset.ledger.entries = [] ∧
  State.reset.pending = [] ∧ State.reset.dram.mem = []

/-- R395, "a write to either cannot be undone": no step lowers SECURITY_VERSION_MIN, takes back
the revocation of a key slot or changes a key hash of the factory. -/
def Obligations.OneTimeMemoryOnlyRises : Prop := ∀ s t : State, step s = .next t → Otp.le s.otp t.otp

/-- Every step keeps the canonical form of DRAM: addresses in rising order, no byte listed that reads as an unlisted one. The form is the model's
own (assumption 5). -/
def Obligations.MemoryStaysCanonical : Prop := ∀ s t : State, s.memCanonical = true → step s = .next t → t.memCanonical = true

/-- The canonical form of DRAM holds after reset. -/
def Obligations.MemoryCanonicalAtReset : Prop := State.reset.memCanonical = true

/-- R50. START is checked against rules 13, 4 and 5 in that order: with one that fails the answer is CONFLICT, its code stands in START_REFUSAL and
the job stays in PREPARING; a START that passes sets START_REFUSAL to 0 and the job runs. With JOB_AUTO_START at 1 the device issues it
once, when the run-ahead has reached its depth or the whole job is spooled, and reports a refusal in the same way. -/
def Obligations.StartIsChecked : Prop :=
  (∀ s : State, (s.head.identity = none → s.startConflict = some 13) ∧
    (∀ i, s.head.identity = some i → s.flashMisfit i = true → s.startConflict = some 4) ∧
    (∀ i, s.head.identity = some i → s.flashMisfit i = false → s.getN Obj.FLASH_PERIOD < (rankMin i.rank).1 ∨ s.getN Obj.FIRE_WIDTH < (rankMin i.rank).2 →
      s.startConflict = some 5) ∧
    (∀ i, s.head.identity = some i → s.flashMisfit i = false → (rankMin i.rank).1 ≤ s.getN Obj.FLASH_PERIOD → (rankMin i.rank).2 ≤ s.getN Obj.FIRE_WIDTH →
      s.startConflict = none)) ∧
  (∀ c s k, s.mayWrite c Obj.JOB_CONTROL → s.getN Obj.PAIR_STATE = 1 → s.pair.releasing = false → s.jobState = jobPreparing → s.startConflict = some k →
    writeJobControl s c 1 = (s.setN Obj.START_REFUSAL k, stConflict) ∧ exec (.start c) s = .next (s.setN Obj.START_REFUSAL k) ∧
    (s.setN Obj.START_REFUSAL k).jobState = jobPreparing) ∧
  (∀ c s, s.mayWrite c Obj.JOB_CONTROL → s.getN Obj.PAIR_STATE = 1 → s.pair.releasing = false → s.jobState = jobPreparing → s.startConflict = none → ∃ t,
    writeJobControl s c 1 = (t, stOk) ∧ exec (.start c) s = .next t ∧ t = ((s.setN Obj.START_REFUSAL 0).setJobState jobRunning).tellJob ∧
    t.getN Obj.START_REFUSAL = 0 ∧ t.jobState = jobRunning) ∧
  (∀ s, s.jobState = jobPreparing → s.on Obj.JOB_AUTO_START = true → s.getN Obj.PAIR_STATE = 1 → s.pair.releasing = false → s.job.autoTried = false →
    let u : State := { s with job := { s.job with autoTried := true } }
    (s.depthReached = true ∨ s.allSpooled = true → (∀ k, s.startConflict = some k → exec .jobAutoStart s = .next (u.setN Obj.START_REFUSAL k)) ∧
      (s.startConflict = none → exec .jobAutoStart s = .next (((u.setN Obj.START_REFUSAL 0).setJobState jobRunning).tellJob))) ∧
    (s.depthReached = false → s.allSpooled = false → exec .jobAutoStart s = .next s)) ∧
  (∀ s, s.job.autoTried = true → exec .jobAutoStart s = .next s)

/-- R276. After the fill every word reads as 0 with a good check, and so does one that nothing has written since, whatever else was. When the
fill ends with a channel lost, FILL_STATE is 2 and READY is not entered. -/
def Obligations.UnwrittenWordsReadZero : Prop :=
  (∀ us s, s.power = 4 → s.getN Obj.STARTUP_PHASE = 2 → ∃ t, exec (.dramFillDone us) s = .next t ∧
    (∀ w < 2 ^ 34, t.channelLost (channelOf (8 * w)) = false → t.readOutcome w [] = (.good, 0)) ∧
    (s.lostMask ≠ 0 → t.getN Obj.FILL_STATE = 2 ∧ t.power = 4)) ∧
  (∀ (s : State) w, w < 2 ^ 34 → s.channelLost (channelOf (8 * w)) = false → w ∉ s.dram.poisoned →
    (∀ j < 8, memRead s.dram.mem (8 * w + j) = 0) → s.readOutcome w [] = (.good, 0))

/-- R270 to R272, Table 11-4. A good word reads good; one flipped bit of its 80 is corrected; a poisoned word reads as poisoned; a word written
to an address that differs in one bit reads as misdirected. -/
def Obligations.WordCode : Prop :=
  ∀ d a, d < 2 ^ 64 → a < 2 ^ 34 → readWord (goodWord d a) a = (.good, d) ∧
    (∀ i < 80, readWord (goodWord d a ^^^ 2 ^ i) a = (.corrected, d)) ∧ readWord (poisonWord a) a = (.poisoned, 0) ∧
    (∀ j < 34, (readWord (goodWord d a) (a ^^^ 2 ^ j)).1 = .misdirected)

/-- Table 02-1. The bytes of a value decode to that value, for every type and every value that it has. -/
def Obligations.ValuesEncode : Prop :=
  (∀ v : Int, v = 0 ∨ v = 1 → decodeValue .bool (encodeValue .bool v) = some v) ∧
  (∀ t ∈ [OType.u8, .u16, .u32, .u64], ∀ v : Int, 0 ≤ v → v < 2 ^ (8 * t.bytes) → decodeValue t (encodeValue t v) = some v) ∧
  (∀ t ∈ [OType.i16, .i32, .i64], ∀ v : Int, -2 ^ (8 * t.bytes - 1) ≤ v → v < 2 ^ (8 * t.bytes - 1) → decodeValue t (encodeValue t v) = some v) ∧
  (∀ v : Int, 0 ≤ v → v < 2 ^ 48 * 1000000000 * 2 ^ 32 → decodeValue .time (encodeValue .time v) = some v)

/-- R406 to R408. An event that equals the newest entry's class, subsystem, region, unit and object, of class 1 to 3 and within 1 ms, adds to its
REPEAT; any other becomes the newest entry, with the next SEQ and the time. Both count in the counts of their class.
R254 to R256, R401, R404. A trigger on the active of a pair with an eligible standby starts the release: LAST_TRIGGER, LAST_KR, a message on
lane 4, one entry of class 5. A further trigger while the release runs counts as held and is entered; one of a lower code is sent in its place
(the model's choice, assumption 135). Without an eligible standby it counts as held: 3, 4 and 6 stop the device with their HALT cause in
JOB_STATE 8, with OWN_ACT as it was; 1, 5 and 7 are only entered. On a standby it counts as held, and 2 to 6 desynchronise it. One that
arises between a takeover and D(k_1) is a double fault. -/
def Obligations.ErrorLogAndTriggers : Prop :=
  ((∀ (s : State) e x rest, s.log.entries = x :: rest → mergesInto e s.now x = true → ∃ t, s.logEvent e = t ∧
    t.log.entries = { x with rep := min 65535 (x.rep + 1) } :: rest ∧ s.counts t Obj.LOG_COALESCED ∧ t.getN Obj.LOG_NEWEST_SEQ = s.getN Obj.LOG_NEWEST_SEQ) ∧
  (∀ (s : State) e x rest, s.log.entries = x :: rest → mergesInto e s.now x = false → ∃ t, s.logEvent e = t ∧
    t.log.entries.head? = some ⟨(x.seq + 1) % 2 ^ 32, e.cls, e.subsys, 0, e.region, e.unit, e.obj, s.now, e.d0, e.d1⟩ ∧
    t.getN Obj.LOG_NEWEST_SEQ = (x.seq + 1) % 2 ^ 32 ∧ t.log.entries.length ≤ logRing) ∧
  (∀ e now x, 4 ≤ e.cls → mergesInto e now x = false) ∧
  (∀ (s : State) e, e.cls ∈ [1, 2, 3, 4, 5, 6] → s.counts (s.logEvent e) (Obj.CLASS_COUNT + (e.cls - 1)) ∧
    s.counts (s.logEvent e) (Obj.CLASS_COUNT_JOB + (e.cls - 1)) ∧ s.onlyLogged (s.logEvent e) e.cls [])) ∧
  ((∀ (s : State) (t : Trig), s.peerEligible = true → s.pair.k1 = 0 ∨ s.pair.k1 < s.hs.k → s.pair.release = none → ∃ u, s.raise t = u ∧ u.getN Obj.LAST_TRIGGER = t.code ∧
    u.getN Obj.LAST_KR = s.pair.lastRecord ∧ u.pair.releasing = true ∧ u.pair.release = some (t.code, s.pair.lastRecord) ∧
    (∃ q blocks, u.out = s.out ++ [.plk 4 0x33 q (leBytes 4 t.code ++ leBytes 4 s.pair.lastRecord) blocks]) ∧ u.job = s.job) ∧
  (∀ (s : State) (t : Trig) c kr, s.peerEligible = true → s.pair.k1 = 0 ∨ s.pair.k1 < s.hs.k → s.pair.release = some (c, kr) →
    (c ≤ t.code → s.counts (s.raise t) Obj.TRIGGERS_HELD ∧ s.onlyLogged (s.raise t) 5 [Obj.TRIGGERS_HELD]) ∧
    (t.code < c → (s.raise t).getN Obj.LAST_TRIGGER = t.code ∧ (s.raise t).getN Obj.LAST_KR = kr ∧ (s.raise t).pair.release = some (t.code, kr) ∧
      s.counts (s.raise t) Obj.TRIGGERS_HELD ∧ (∃ q blocks, (s.raise t).out = s.out ++ [.plk 4 0x33 q (leBytes 4 t.code ++ leBytes 4 kr) blocks]))) ∧
  (∀ (s : State) (t : Trig), s.getN Obj.PAIR_STATE = 1 → s.peerEligible = false → s.pair.k1 = 0 ∨ s.pair.k1 < s.hs.k → s.getN Obj.HALT_CAUSE = 0 → s.stg.atStripe = [] → t.code ∈ [3, 4, 6] →
    ∃ u, s.raise t = u ∧ s.counts u Obj.TRIGGERS_HELD ∧ u.jobState = jobFailed ∧ u.getN Obj.HALT_TIME = s.now ∧
      u.getN Obj.HALT_CAUSE = (if t.code = 3 then 1 else if t.code = 4 then 2 else 3) ∧
      u.getN Obj.HALT_DETAIL = (if t.code = 3 then 2 ^ t.index else if t.code = 4 then t.index else 0) ∧ u.pins = s.pins ∧ u.job.hold = false ∧
      u.ledger = s.ledger) ∧
  (∀ (s : State) (t : Trig), s.getN Obj.PAIR_STATE = 1 → s.peerEligible = false → s.pair.k1 = 0 ∨ s.pair.k1 < s.hs.k → t.code ∈ [1, 5, 7] → ∃ u, s.raise t = u ∧
    s.counts u Obj.TRIGGERS_HELD ∧ s.onlyLogged u (if t.code = 5 then 4 else 2) [Obj.TRIGGERS_HELD]) ∧
  (∀ (s : State) (t : Trig), s.isStandby = true → s.raise t = (if 2 ≤ t.code ∧ t.code ≤ 6 then (s.inc Obj.TRIGGERS_HELD).desync 7 else s.inc Obj.TRIGGERS_HELD)) ∧
  (∀ (s : State) (t : Trig), s.isStandby = false → 0 < s.pair.k1 → s.hs.k ≤ s.pair.k1 → s.getN Obj.HALT_CAUSE = 0 → s.stg.atStripe = [] →
    (s.raise t).getN Obj.HALT_CAUSE = 5 ∧ (s.raise t).jobState = jobFailed ∧ (s.raise t).out = s.out))

/-- R251, R284, R409. A pass of the on-chip scrubber without disturbed words changes nothing; a corrected word of the per-beam table, and a copy
of a valid bit or a cause flag that the other two outvote, is counted and entered, and the store holds what it held. A standby's test of memory counts its bytes, and its
failing words, which lie outside every region. HEALTH_MIN is at most each health; the subsystem that caused a HALT has health 0. -/
def Obligations.Upkeep : Prop :=
  (∀ s, exec (.sramScrub ([], [])) s = .next s) ∧
  (∀ s f, s.coreOn = true → f.word < 153600 → f.word ∉ s.sram.tableUe →
    sramOutcome 5 (s.beamEntry (2 * f.word) + 2 ^ 32 * s.beamEntry (2 * f.word + 1)) f = .corrected → exec (.sramScrub ([(4, f)], [])) s =
      .next ((s.inc (Obj.SRAM_CORRECTED + 4)).logEvent ⟨1, 11, 255, 255, Obj.SRAM_CORRECTED + 4, f.word, 0⟩)) ∧
  (∀ s r w (f : BitVec 9), s.coreOn = true → r < 4 → atD s.units.writing r 0 = 2 → s.lost r = false → f ≠ 0 → ∀ fs ∈ [[f, 0, 0], [0, f, 0], [0, 0, f]],
    ∃ t, exec (.sramScrub ([], [⟨r, w, fs⟩])) s = .next t ∧
      t = { (s.inc (Obj.SRAM_CORRECTED + r)).logEvent ⟨1, 4, r, 255, Obj.SRAM_CORRECTED + r, w, 0⟩ with sweep := t.sweep } ∧
      (∀ c g q, colWord (atD t.sweep.win c []) g q = colWord (atD s.sweep.win c []) g q) ∧ t.sweep = { s.sweep with win := t.sweep.win }) ∧
  (∀ n s, s.coreOn = true → s.isStandby = true → ∃ t, exec (.memtestRead n []) s = .next t ∧ t = (s.add Obj.MEMTEST_BYTES (8 * n)).add Obj.MEMTEST_FAILS 0) ∧
  (∀ n fs s, s.isStandby = false → exec (.memtestRead n fs) s = .next s) ∧
  (∀ s, ∃ t g, exec .healthIndexUpdate s = .next t ∧ (∀ j < 16, t.getN (Obj.HEALTH_INDEX + j) = s.healthOf g j) ∧
    (∀ j < 16, t.getN Obj.HEALTH_MIN ≤ t.getN (Obj.HEALTH_INDEX + j)) ∧ t.getN Obj.HEALTH_MIN ≤ 100 ∧
    (∀ j < 16, s.log.haltSub = some j → t.getN (Obj.HEALTH_INDEX + j) = 0) ∧ t.log.entries = s.log.entries ∧
    t = { s with od := t.od, log := t.log, free := t.free } ∧
    s.sameObjects t (Obj.HEALTH_MIN :: (List.range 16).map fun j => Obj.HEALTH_INDEX + j))

/-- R349, R351. At a REFCLK tick the device adds TIME_INCREMENT; a step adds its amount and a rate write takes effect at that
tick. Nothing changes but the clock, the count of applied corrections, the resolution and, after a rate write, the increment.
R351. A rate write in its range and a step up to JUMP_THRESHOLD wait for the next tick and change nothing else. A larger
step has no effect but its count, its size and its log entry. The first TIME_SET after PORST_N is exempt from the threshold
and moves TIME_STATE from UNSET to SET; a later one within the threshold is kept too. -/
def Obligations.DeviceTime : Prop :=
  (∀ s : State, ∃ t, exec .timeTick s = .next t ∧
    (s.clk.adjust = [] → t.clk.T = (s.clk.T + s.getN Obj.TIME_INCREMENT) % timeModulus) ∧
    (∀ v, s.clk.adjust = [.step v] →
      (t.clk.T : Int) = (((s.clk.T + s.getN Obj.TIME_INCREMENT) % timeModulus : Nat) + v * 2 ^ 16) % timeModulus) ∧
    (∀ v, s.clk.incNext = some v → t.getN Obj.TIME_INCREMENT = v) ∧
    (s.clk.incNext = none → t.getN Obj.TIME_INCREMENT = s.getN Obj.TIME_INCREMENT) ∧
    t.clk.tickCycle = s.clk.tickCycle + 16 ∧ t.clk.adjust = [] ∧ t.clk.incNext = none ∧
    t.getN Obj.TIMESTAMP_RESOLUTION = (if s.clk.coreLocked then 2500 else 40000) ∧
    t = { s with od := t.od, clk := t.clk } ∧
    s.sameObjects t [Obj.STEPS_APPLIED, Obj.TIMESTAMP_RESOLUTION, Obj.TIME_INCREMENT]) ∧
  ((∀ c v s, s.mayWrite c Obj.TIME_INCREMENT → 171626893148 ≤ v → v ≤ 171970490532 →
    exec (.timeIncrement c v) s = .next { s with clk := { s.clk with incNext := some v } }) ∧
  (∀ c v s, s.mayWrite c Obj.TIME_INCREMENT → v < 171626893148 ∨ 171970490532 < v → exec (.timeIncrement c v) s = .next s) ∧
  (∀ c v s, s.mayWrite c Obj.TIME_STEP → v.natAbs ≤ s.getN Obj.JUMP_THRESHOLD * 2 ^ 16 →
    exec (.timeStep c v) s = .next { s with clk := { s.clk with adjust := s.clk.adjust ++ [.step v] } }) ∧
  (∀ c v s, s.mayWrite c Obj.TIME_STEP → s.getN Obj.JUMP_THRESHOLD * 2 ^ 16 < v.natAbs →
    exec (.timeStep c v) s = .next (((s.inc Obj.JUMPS_REFUSED).set Obj.LAST_REFUSED_JUMP v).logEvent
      ⟨2, 15, 255, 255, Obj.JUMPS_REFUSED, toUnsigned 64 v, 0⟩)) ∧
  (∀ c bs s v, s.mayWrite c Obj.TIME_SET → bs.length = 16 → decodeValue .time bs = some v →
    s.getN Obj.TIME_STATE = 0 ∨ (v - (s.now : Int)).natAbs ≤ s.getN Obj.JUMP_THRESHOLD * 2 ^ 32 →
    exec (.timeSet c bs) s = .next { s.setN Obj.TIME_STATE 1 with
      clk := { s.clk with adjust := s.clk.adjust ++ [.setTo v.toNat s.clk.cycle] } }))

/-- R353, R354. On an enabled port a Sync of the selected master takes its receive stamp; a Delay_Req and a Pdelay_Req leave with a
transmit stamp, with PTP_TX_LATENCY added; a Pdelay_Req that arrives is answered two-step; a Pdelay_Resp and its follow-up give the
mean link delay. In end-to-end mode a Delay_Resp completes the exchange: the values of the exchange are published together.
R354. An Announce of the domain is heard, and with a qualified master that is not yet selected the port state becomes
UNCALIBRATED; at the receipt timeout with no other master the port state is LISTENING. -/
def Obligations.PtpFollowsItsMaster : Prop :=
  ((∀ p rx m s, s.ptpOn p = true → let u := (s.at rx).inc Obj.PTP_RX_EVENTS
    u.ptpWrongDomain m = false → u.ptpFromMaster m = true → u.getN Obj.PTP_DELAY_MECHANISM = 1 →
    exec (.ptpSync p rx m) s = .next { u with ptp := { u.ptp with
      sync := some ⟨m.seqId, u.rxStamp, if m.twoStep then none else some m.timestamp, m.correction, u.getN Obj.STEPS_APPLIED⟩
      delayReq := none } }) ∧
  (∀ p m s t2 c n, s.ptpOn p = true → s.ptpWrongDomain m = false → s.ptpFromMaster m = true → s.getN Obj.PTP_DELAY_MECHANISM = 1 →
    s.ptp.sync = some ⟨m.seqId, t2, none, c, n⟩ →
    exec (.ptpFollowUp p m) s = .next { s with ptp := { s.ptp with sync := some ⟨m.seqId, t2, some m.timestamp, c + m.correction, n⟩ } }) ∧
  (∀ p m s t2 o c n t3, s.ptpOn p = true → s.ptpWrongDomain m = false → s.ptpFromMaster m = true → s.getN Obj.PTP_DELAY_MECHANISM = 1 →
    s.ptp.sync = some ⟨m.seqId, t2, some o, c, n⟩ → s.ptp.delayReq = some (m.seqId, t3, n) →
    ∃ t, exec (.ptpDelayResp p m) s = .next t ∧ let t1 := timeAdd o ((c + m.correction) * 65536)
      let delay2 : Int := ((t2 : Int) - t1) + ((m.timestamp : Int) - t3)
      t.get Obj.PTP_MEAN_DELAY = rneDiv delay2 131072 ∧
      t.get Obj.PTP_OFFSET = rneDiv (2 * ((t2 : Int) - t1) - delay2) 131072 ∧
      t.getN Obj.PTP_T1 = t1 ∧ t.getN (Obj.PTP_T1 + 1) = t2 ∧ t.getN (Obj.PTP_T1 + 2) = t3 ∧ t.getN (Obj.PTP_T1 + 3) = m.timestamp ∧
      s.counts t Obj.PTP_EXCHANGES ∧ t.getN Obj.PTP_PORT_STATE = 6 ∧ t.ptp = { s.ptp with sync := none, delayReq := none } ∧
      t = { s with od := t.od, ptp := t.ptp } ∧ s.sameObjects t [Obj.PTP_MEAN_DELAY, Obj.PTP_OFFSET, Obj.PTP_T1, Obj.PTP_T1 + 1,
        Obj.PTP_T1 + 2, Obj.PTP_T1 + 3, Obj.PTP_EXCHANGES, Obj.PTP_PORT_STATE]) ∧
  (∀ tx s p, s.ptpPort = some p → s.getN Obj.PTP_DELAY_MECHANISM = 1 → s.getN Obj.PTP_PORT_STATE = 5 ∨ s.getN Obj.PTP_PORT_STATE = 6 →
    let u := (s.at tx).inc Obj.PTP_TX_EVENTS
    exec (.ptpDelayReqSend tx) s = .next { u.emit (.ptp p 1 s.ptp.nextSeq u.txStamp) with ptp := { u.ptp with
      delayReq := some (s.ptp.nextSeq, u.txStamp, u.getN Obj.STEPS_APPLIED), nextSeq := (s.ptp.nextSeq + 1) % 2 ^ 16 } }) ∧
  (∀ tx s p, s.ptpPort = some p → s.getN Obj.PTP_DELAY_MECHANISM = 2 → let u := (s.at tx).inc Obj.PTP_TX_EVENTS
    exec (.ptpPdelayReqSend tx) s = .next { u.emit (.ptp p 2 s.ptp.nextPSeq u.txStamp) with ptp := { u.ptp with
      pdelayReq := some (s.ptp.nextPSeq, u.txStamp, u.getN Obj.STEPS_APPLIED), pdelayResp := none,
      nextPSeq := (s.ptp.nextPSeq + 1) % 2 ^ 16 } }) ∧
  (∀ p rx tx m s, s.ptpOn p = true → let u := (s.at rx).inc Obj.PTP_RX_EVENTS
    u.ptpWrongDomain m = false → u.getN Obj.PTP_DELAY_MECHANISM = 2 → let v := (u.at tx).inc Obj.PTP_TX_EVENTS
    exec (.ptpPdelayReq p rx tx m) s = .next ((v.emit (.ptp p 3 m.seqId u.rxStamp)).emit (.ptp p 4 m.seqId v.txStamp))) ∧
  (∀ p rx m s t1 r n, s.ptpOn p = true → let u := s.at rx
    u.ptpWrongDomain m = false → u.getN Obj.PTP_DELAY_MECHANISM = 2 → s.ptp.pdelayReq = some (m.seqId, t1, n) → s.ptp.pdelayResp = some r →
    exec (.ptpPdelayResp p rx true m) s = .next { u with ptp := { s.ptp with
      pdelayReq := none, pdelayResp := none,
      linkDelay := some (((r.t4 : Int) - t1) - ((m.timestamp : Int) - r.t2) - (r.corr + m.correction) * 65536) } })) ∧
  ((∀ p m a s b, s.ptpOn p = true → s.ptpWrongDomain m = false → s.getN Obj.PTP_PORT_STATE = 3 →
    let old := s.ptp.masters.find? fun x => x.clockId = m.clockId && x.port = m.portNumber
    let rest := s.ptp.masters.filter fun x => !(x.clockId = m.clockId && x.port = m.portNumber)
    let x : PtpMaster := ⟨m.clockId, m.portNumber, a, s.clk.cycle, old.map (·.receivedAt)⟩
    let u : State := { s with ptp := { s.ptp with masters := x :: rest } }
    u.ptp.best = some b →
    ∃ t, exec (.ptpAnnounce p m a) s = .next t ∧ t.getN Obj.PTP_PORT_STATE = 5 ∧ t.getN Obj.PTP_MASTER_ID = b.clockId ∧
      t.getN Obj.PTP_MASTER_PORT = b.port ∧ t.get Obj.PTP_UTC_OFFSET = b.announce.utcOffset ∧
      t = { s with od := t.od, ptp := { u.ptp with sync := none, delayReq := none } } ∧
      s.sameObjects t [Obj.PTP_PORT_STATE, Obj.PTP_MASTER_ID, Obj.PTP_MASTER_PORT, Obj.PTP_UTC_OFFSET, Obj.PTP_TIME_FLAGS]) ∧
  (∀ s, s.getN Obj.PTP_PORT_STATE = 5 ∨ s.getN Obj.PTP_PORT_STATE = 6 →
    let rest := s.ptp.masters.filter fun x => !(x.clockId = s.getN Obj.PTP_MASTER_ID && x.port = s.getN Obj.PTP_MASTER_PORT)
    let u : State := { s with ptp := { s.ptp with masters := rest, sync := none, delayReq := none } }
    u.ptp.best = none → exec .ptpAnnounceTimeout s = .next (u.setN Obj.PTP_PORT_STATE 3)))

/-- R355, R358. A match counts and turns a once comparator off; a periodic one moves its target by whole periods; TTO k gets its
pulse, which ends at its own time. A comparator without a user changes its own objects only.
R360. A selected edge sets TCI_LAST, counts, and enters the queue unless it holds 16 entries, when it counts as an overrun; a write
of n to TCI_ACK removes the n oldest entries and a value above TCI_QUEUED is refused without effect. -/
def Obligations.ComparatorsAndCaptures : Prop :=
  ((∀ c s n, s.pins.porstN = true → c < 8 → s.matchCycle c = some n → s.getN (Obj.CMP_OWNER + c) = 0 → s.getN (Obj.CMP_MODE + c) = 1 →
    ∃ t, exec (.comparatorMatch c) s = .next t ∧ s.counts t (Obj.CMP_MATCHES + c) ∧ t.getN (Obj.CMP_MODE + c) = 0 ∧
      t = { s.at n with od := t.od, trg := { s.trg with lateArm := s.trg.lateArm.filter (· ≠ c) } } ∧
      s.sameObjects t [Obj.CMP_MATCHES + c, Obj.CMP_MODE + c]) ∧
  (∀ c s n, s.pins.porstN = true → c < 8 → s.matchCycle c = some n → s.getN (Obj.CMP_OWNER + c) = 0 → s.getN (Obj.CMP_MODE + c) = 2 →
    ∃ t, exec (.comparatorMatch c) s = .next t ∧ s.counts t (Obj.CMP_MATCHES + c) ∧
      (∃ i, t.getN (Obj.CMP_TARGET + c) = (s.getN (Obj.CMP_TARGET + c) + (i + 1) * s.getN (Obj.CMP_PERIOD + c)) % timeModulus) ∧
      t = { s.at n with od := t.od, trg := { s.trg with lateArm := s.trg.lateArm.filter (· ≠ c) } } ∧
      s.sameObjects t [Obj.CMP_MATCHES + c, Obj.CMP_TARGET + c]) ∧
  (∀ k s e, kvGet s.pins.ttoEnd k = some e → exec (.pulseEnd (.tto k)) s =
    .next { s with clk := { s.clk with cycle := max s.clk.cycle e }, pins := { s.pins with ttoEnd := kvDel s.pins.ttoEnd k },
                   out := s.out ++ [.tto k false] }) ∧
  (∀ p s e, kvGet s.pins.strobeEnd p = some e → exec (.pulseEnd (.strobe p)) s =
    .next { s with clk := { s.clk with cycle := max s.clk.cycle e }, pins := { s.pins with strobeEnd := kvDel s.pins.strobeEnd p },
                   out := s.out ++ [.strobe p false] })) ∧
  ((∀ k t rising s, k < 4 → s.pins.porstN = true →
    s.getN (Obj.TCI_EDGE + k) = 3 ∨ (s.getN (Obj.TCI_EDGE + k) = 1 ∧ rising = true) ∨ (s.getN (Obj.TCI_EDGE + k) = 2 ∧ rising = false) →
    (atD s.trg.tci k []).length < 16 → let u := s.at t
    exec (.tciEdge k t rising) s = .next { ((u.setN (Obj.TCI_LAST + k) u.now).inc (Obj.TCI_COUNT + k)).setN (Obj.TCI_QUEUED + k)
      ((atD s.trg.tci k []).length + 1) with trg := { s.trg with tci := setAt s.trg.tci k (atD s.trg.tci k [] ++ [(u.now, rising)]) } }) ∧
  (∀ k t rising s, k < 4 → s.pins.porstN = true → s.getN (Obj.TCI_EDGE + k) = 3 → 16 ≤ (atD s.trg.tci k []).length → let u := s.at t
    exec (.tciEdge k t rising) s =
      .next (((u.setN (Obj.TCI_LAST + k) u.now).inc (Obj.TCI_COUNT + k)).inc (Obj.TCI_OVERRUNS + k))) ∧
  (∀ c k n s, s.mayWrite c (Obj.TCI_ACK + k) → 0 < n → n ≤ (atD s.trg.tci k []).length →
    exec (.tciAck c k n) s = .next { s.setN (Obj.TCI_QUEUED + k) ((atD s.trg.tci k []).length - n) with
      trg := { s.trg with tci := setAt s.trg.tci k ((atD s.trg.tci k []).drop n) } }) ∧
  (∀ c k n s, s.mayWrite c (Obj.TCI_ACK + k) → (atD s.trg.tci k []).length < n → exec (.tciAck c k n) s = .next s))

/-- R37, R40, R43. A request that passes the checks of R36 and is the next of its session is executed, whatever its TYPE, and one
response leaves: to its sender, from the Faceplate port, with the request's TYPE, SESSION and SEQ and FLAGS[0] set, on the SPI port
behind a byte 0xA5. The response is kept for a resend. While a COMMIT runs only an ABORT is executed: any other request is accepted
and waits, and no response to it is kept. The SPI port returns 0x00 while no response is ready. -/
def Obligations.RequestsAreAnswered : Prop :=
  (∀ via src d s, ∀ c ∈ [(1, Instr.read via src d), (2, .write via src d), (3, .readBlock via src d), (4, .writeBlock via src d),
      (7, .subscribe via src d), (6, .abortJob (.message via src d)), (6, .abortDma (.message via src d)),
      (6, .abortCompression (.message via src d)), (6, .abortCamera (.message via src d)), (6, .abortCalibration (.message via src d)),
      (6, .discardStaging (.message via src d)), (6, .abortDramFill via src d), (8, .malformedTypeMessage via src 8 d)],
    s.inSequence via src c.1 d → ∃ t key status payload, exec c.2 s = .next t ∧
      (let bs := fpBytes key c.1 1 status d.session d.seq payload
       t.out.getLast? = some (.message via src (s.getN Obj.FACEPLATE_PORT) (if via = .spi then 0xA5 :: bs else bs)) ∧
       (match via with
        | .spi => t.fp.spiStored = bs ∧ ∀ n, t.spiCollect n = (0xA5 :: bs).take n
        | _ => ∀ x, t.session d.session = some x → x.stored = bs))) ∧
  (∀ via src d s, ∀ c ∈ [(1, Instr.read via src d), (2, .write via src d), (3, .readBlock via src d), (4, .writeBlock via src d),
      (5, .commit (.message via src d)), (7, .subscribe via src d)], s.nextOfSession via src c.1 d → s.commitRuns = true →
    ∃ t, exec c.2 s = .next t ∧ t.fp.waiting = s.fp.waiting ++ [⟨via, src, c.1, d⟩] ∧ t.out = s.out ∧
      t = { s with od := t.od, fp := t.fp } ∧ s.sameObjects t [Obj.FP_MESSAGES_ACCEPTED] ∧
      (via = .spi → ∀ n, t.spiCollect n = zeros n) ∧ (via ≠ .spi → ∀ x, t.session d.session = some x → x.lastSeq = d.seq ∧ x.stored = []))

/-- R30, R37, R42, Table 02-4. On a control port the next request of a session has its effect and is answered: a WRITE writes its entry, a
READ_BLOCK returns its bytes, a WRITE_BLOCK stages its bytes over the image, a SUBSCRIBE adds its subscription and answers with the
value; a TYPE that does not exist is answered MALFORMED. Each answer is kept. -/
def Obligations.MessagesAct : Prop :=
  ∀ via src d s ty, via ≠ .spi → s.inSequence via src ty d →
    let u := (s.inc Obj.FP_MESSAGES_ACCEPTED).modSession d.session fun (x : Session) => { x with lastSeq := d.seq, executed := true, stored := [] }
    let answer (v : State) (st : Nat) (body : Bytes) : State :=
      (v.keepResponse via d.session d.seq (fpBytes (s.tagKey d.session) ty 1 st d.session d.seq body)).emit
        (.message via src (s.getN Obj.FACEPLATE_PORT) (fpBytes (s.tagKey d.session) ty 1 st d.session d.seq body))
    let c : Caller := ⟨via, d.session⟩
    (∀ o k bs v st, ty = 2 → parseValues d.payload = some [⟨o, k, bs⟩] → u.writeEntry c o k bs = (v, st) →
      exec (.write via src d) s = .next (answer v 0 (resultList [resultEntry o st []]))) ∧
    (∀ o off n row, ty = 3 → parseBlock d.payload = some ⟨o, off, n⟩ → objRow o = some row → row.type = .dom → row.access ≠ .wo → objKnown o = true →
      0 < n → n ≤ 1024 → off + n ≤ u.domSize o → u.domUnreadable o off n = false →
      exec (.readBlock via src d) s = .next (answer u 0 (resultEntry o 0 (u.domSlice o off n)))) ∧
    (∀ o off n bs row, ty = 4 → parseWriteBlock d.payload = some (⟨o, off, n⟩, bs) → objRow o = some row → row.type = .dom → row.access = .rs →
      objKnown o = true → o ∉ [Obj.SESSION_OPEN, Obj.AUTH_KEY, Obj.MF_REQUEST, Obj.IMAGE_BUFFER] → 0 < bs.length → bs.length ≤ 1024 →
      off + bs.length ≤ domMax o → s.stg.entries = [] → exec (.writeBlock via src d) s = .next (answer
        { (u.setN Obj.STAGING_OWNER d.session).setN Obj.STAGED_ENTRIES 1 with
          stg := { s.stg with owner := d.session, entries := [⟨o, .image (overlay (u.imageUnder o) off (keepBytes o off bs)), s.stg.stamp + 1⟩], stamp := s.stg.stamp + 1 } }
        0 (resultEntry o 0 []))) ∧
    (∀ o m p x v b, ty = 7 → parseSubs d.payload = some [⟨o, m, p⟩] → u.session d.session = some x → m ≠ 0 → u.subRefusal x ⟨o, m, p⟩ = 0 →
      x.subs.any (·.obj = o) = false → resultLength [u.readLength via o] ≤ payloadMax → u.readBytes o false = (v, b) →
      exec (.subscribe via src d) s = .next (answer (v.modSession d.session fun (y : Session) => { y with
        subs := if y.subs.any (·.obj = o) then y.subs.map fun (w : Subscription) => if w.obj = o then ⟨o, m, p, b, none⟩ else w else y.subs ++ [⟨o, m, p, b, none⟩] })
        0 (resultList [resultEntry o 0 b]))) ∧
    (ty = 0 ∨ 8 ≤ ty → exec (.malformedTypeMessage via src ty d) s = .next (answer u 14 []))

/-- R40. A request that repeats the last executed SEQ gets the stored response and changes nothing but the count of messages; where none is
kept yet it changes nothing. One that is neither that nor the next is answered with SEQ_ERROR and counted.
R36, R38, R41. A datagram whose CRC fails is counted and discarded; one whose tag fails is too; no answer leaves. -/
def Obligations.RepeatedAndBadMessages : Prop :=
  (∀ via src d s x, via ≠ .spi → s.noneDue = true → s.answers via = true → d.session ≠ 0 → s.session d.session = some x → x.src = src →
    (∀ type c, (type, c) ∈ [(1, Instr.read via src d), (2, .write via src d), (3, .readBlock via src d), (4, .writeBlock via src d),
        (7, .subscribe via src d), (5, .commit (.message via src d))] → s.discards via type d = none →
      (d.seq = x.lastSeq → x.stored ≠ [] → exec c s =
        .next ((s.inc Obj.FP_MESSAGES_ACCEPTED).emit (.message via src (s.getN Obj.FACEPLATE_PORT) x.stored))) ∧
      (d.seq = x.lastSeq → x.stored = [] → exec c s = .next s) ∧
      (d.seq ≠ x.lastSeq → d.seq ≠ (x.lastSeq + 1) % 2 ^ 32 → exec c s =
        .next (((s.inc Obj.FP_SEQ_ERRORS).inc Obj.FP_MESSAGES_ACCEPTED).emit (.message via src (s.getN Obj.FACEPLATE_PORT)
          (fpBytes (if x.auth then some x.key else none) type 1 stSeq d.session d.seq [])))))) ∧
  (∀ via src d s, s.noneDue = true → s.answers via = true → (via ≠ .spi → d.dport = s.getN Obj.FACEPLATE_PORT ∧ d.fragment = false) →
    dgSizeOk d = true → dgHeaderOk d = true →
    (∀ type c, (type, c) ∈ [(1, Instr.read via src d), (2, .write via src d), (3, .readBlock via src d), (4, .writeBlock via src d),
        (7, .subscribe via src d), (5, .commit (.message via src d)), (6, .abortJob (.message via src d))] →
      (dgCrcOk d type = false → exec c s = .next (s.inc Obj.FP_CRC_DISCARDS)) ∧
      (dgCrcOk d type = true → s.tagHolds via type d = false → exec c s = .next (s.inc Obj.FP_AUTH_DISCARDS))))

/-- R31. A READ of one effective value: a request for an object that holds its value answers OK with that value; nothing else changes.
R31. Reading an RC counter returns its value and sets it to 0 in one step.
R42. In mode 1 a changed value, and in mode 2 every PERIOD, sends a notification with the object's value under the session's own counter;
the counter moves on and the value is the one last sent. In mode 1 an unchanged value sends none, and none is sent within 1 ms of the
object's last notification. -/
def Obligations.ReadsAndNotifications : Prop :=
  (∀ via src d s o r, s.inSequence via src 1 d → parseRefs d.payload = some [o] → objRow o = some r → s.readRefusal via o = 0 →
    r.type ≠ .str → r.type ≠ .dom → r.access = .ro ∨ r.access = .rw ∨ (r.access = .rs ∧ flagStaged d.flags = false) → freeReading o = false →
    o ∉ [Obj.DIRECTORY_ENTRIES, Obj.DIRECTORY_CRC, Obj.FP_MESSAGES_ACCEPTED] → (∀ t : State, t.computed o = none) →
    ∃ t, exec (.read via src d) s = .next t ∧ (∃ key, let bs := fpBytes key 1 1 0 d.session d.seq (resultList [resultEntry o 0 (encodeValue r.type (s.get o))])
      t.out.getLast? = some (.message via src (s.getN Obj.FACEPLATE_PORT) (if via = .spi then 0xA5 :: bs else bs))) ∧
      t = { s with od := t.od, fp := t.fp, out := t.out } ∧ s.sameObjects t [Obj.FP_MESSAGES_ACCEPTED]) ∧
  (∀ c s o r, s.answers c.via = true → objRow o = some r → r.access = .rc → r.type = .u16 ∨ r.type = .u32 ∨ r.type = .u64 →
    s.readRefusal c.via o = 0 → s.computed o = none → freeReading o = false → o ∉ [Obj.DIRECTORY_ENTRIES, Obj.DIRECTORY_CRC] →
    exec (.rcRead c o) s = .next ((s.set o 0).emit (.reading o (encodeValue r.type (s.get o)))) ∧ (s.set o 0).get o = 0) ∧
  (∀ id o s x y t v, s.session id = some x → s.answers x.via = true → s.readBytes o false = (t, v) → t.fp = s.fp → t.answers x.via = true →
    let bs := fpBytes (if x.auth then some x.key else none) 7 9 0 x.id x.notif (resultList [resultEntry o 0 v])
    let u := (t.modSession x.id fun (z : Session) => { z with notif := (z.notif + 1) % 2 ^ 32, subs := z.subs.map fun (w : Subscription) =>
      if w.obj = o then { w with last := v, sentAt := some t.clk.cycle } else w }).emit (.message x.via x.src (t.getN Obj.FACEPLATE_PORT) bs)
    (x.subs.find? (fun y => y.obj = o && y.mode = 1) = some y → v ≠ y.last → (∀ at_, y.sentAt = some at_ → at_ + 400000 ≤ t.clk.cycle) →
      exec (.notifyOnChange id o) s = .next u) ∧
    (∀ at_, x.subs.find? (fun y => y.obj = o && y.mode = 1) = some y → y.sentAt = some at_ → t.clk.cycle < at_ + 400000 →
      exec (.notifyOnChange id o) s = .next t) ∧
    (x.subs.find? (fun y => y.obj = o && y.mode = 1) = some y → v = y.last → exec (.notifyOnChange id o) s = .next t) ∧
    (x.subs.find? (fun y => y.obj = o && y.mode = 2) = some y → exec (.notifyPeriodic id o) s = .next u))

/-- R39, R41. An opening from a new peer opens a session under an ID from 1 to 0xFFFE that no open session has, answers with that ID and
the device nonce, and counts. The session starts with SEQ 0 executed, no subscription and the notification counter at 1. A ninth is
answered with LIMIT and counted; an opening resent unchanged, before any request, gets the same response.
R39. A session ends by a write of its own ID (of any ID through the SPI port) or by its timeout: it is gone with its subscriptions
and stored response, SESSIONS_OPEN follows, and the staging set is discarded if the session owns it. Through a control port another
ID changes nothing.
R41. The key is written through the SPI port, or while none stands, or by an authenticated session; it must hold 32 bytes. Otherwise the
write is refused and changes nothing. -/
def Obligations.SessionsAndKeys : Prop :=
  ((∀ via src nonce s, s.answers via = true → via ≠ .spi → s.getN Obj.AUTH_REQUIRED = 0 →
    (∀ x ∈ s.fp.sessions, ¬ (x.src = src ∧ x.hostNonce = nonce ∧ x.executed = false)) → s.fp.sessions.length < 8 →
    ∃ t id dev key bs, exec (.sessionOpen via src nonce false) s = .next t ∧ 1 ≤ id ∧ id ≤ 0xFFFE ∧ s.session id = none ∧ dev.length = 8 ∧
      bs = fpBytes none 2 1 0 id 0 (resultList [resultEntry Obj.SESSION_OPEN 0 (leBytes 2 id ++ [0, 0] ++ dev)]) ∧
      t.fp = { s.fp with sessions := s.fp.sessions ++ [(⟨id, via, src, nonce, dev, 0, bs, false, false, key, [], 1⟩ : Session)] } ∧
      t.out = s.out ++ [.message via src (s.getN Obj.FACEPLATE_PORT) bs] ∧ t.getN Obj.SESSIONS_OPEN = s.fp.sessions.length + 1 ∧
      s.counts t Obj.FP_MESSAGES_ACCEPTED ∧ t = { s with od := t.od, fp := t.fp, out := t.out, free := t.free } ∧
      s.sameObjects t [Obj.SESSIONS_OPEN, Obj.FP_MESSAGES_ACCEPTED]) ∧
  (∀ via src nonce s, s.answers via = true → via ≠ .spi → s.getN Obj.AUTH_REQUIRED = 0 →
    (∀ x ∈ s.fp.sessions, ¬ (x.src = src ∧ x.hostNonce = nonce ∧ x.executed = false)) → 8 ≤ s.fp.sessions.length →
    exec (.sessionOpen via src nonce false) s = .next (((s.inc Obj.FP_SESSION_REFUSALS).inc Obj.FP_MESSAGES_ACCEPTED).emit
      (.message via src (s.getN Obj.FACEPLATE_PORT) (fpBytes none 2 1 0 0 0 (resultList [resultEntry Obj.SESSION_OPEN stLimit []]))))) ∧
  (∀ via src nonce s x rest, s.answers via = true → via ≠ .spi → s.getN Obj.AUTH_REQUIRED = 0 → s.fp.sessions = x :: rest →
    x.src = src → x.hostNonce = nonce → x.executed = false →
    exec (.sessionOpen via src nonce false) s =
      .next ((s.inc Obj.FP_MESSAGES_ACCEPTED).emit (.message via src (s.getN Obj.FACEPLATE_PORT) x.stored)))) ∧
  ((∀ c id s, s.mayCommand c Obj.SESSION_CLOSE → 0 < id → id < 0xFFFF → c.via = .spi ∨ id = c.session →
    exec (.sessionClose c id) s = .next (s.endSession id) ∧ exec (.sessionTimeout id) s = .next (s.endSession id)) ∧
  (∀ c id s, s.mayCommand c Obj.SESSION_CLOSE → c.via ≠ .spi → id ≠ c.session → exec (.sessionClose c id) s = .next s) ∧
  (∀ id s x, s.session id = some x → s.stg.owner ≠ id → let rest := s.fp.sessions.filter (·.id ≠ id)
    exec (.sessionTimeout id) s = .next { s.setN Obj.SESSIONS_OPEN rest.length with fp := { s.fp with sessions := rest } }) ∧
  (∀ id s x, s.session id = some x → s.stg.owner = id → let rest := s.fp.sessions.filter (·.id ≠ id)
    exec (.sessionTimeout id) s =
      .next { ((s.setN Obj.SESSIONS_OPEN rest.length).setN Obj.STAGING_OWNER 0).setN Obj.STAGED_ENTRIES 0 with
        fp := { s.fp with sessions := rest }, stg := { s.stg with owner := 0, entries := [] } }) ∧
  (∀ id s, s.session id = none → exec (.sessionTimeout id) s = .next s)) ∧
  ((∀ c key s, s.mayCommand c Obj.AUTH_KEY → key.length = 32 →
    c.via = .spi ∨ s.fp.authKey = none ∨ (∃ x, s.session c.session = some x ∧ x.auth = true) →
    exec (.authKey c key) s = .next { s with fp := { s.fp with authKey := some key } }) ∧
  (∀ c key s x, s.mayCommand c Obj.AUTH_KEY → c.via ≠ .spi → s.fp.authKey ≠ none → s.session c.session = some x → x.auth = false →
    exec (.authKey c key) s = .next s) ∧
  (∀ c key s, s.mayCommand c Obj.AUTH_KEY → key.length ≠ 32 → exec (.authKey c key) s = .next s))

/-- R30, R31, R44. A write of an RS scalar in its type and range enters the staging set: a new entry in an empty set makes the session the
owner, a staged object is replaced in its place, and the effective value stays. Another session's write changes nothing.
R44 to R46. A commit by the owner that meets no conflict rule empties the set, clears its owner, counts, records RESULT 0 and, with no
job writing and no standby, makes the values effective. An empty commit records RESULT 0 and changes no effective value. A conflict is
recorded with its code and claimants, and the set stays. Another session's commit is recorded as STAGING_OWNED. -/
def Obligations.StagingAndCommits : Prop :=
  (∀ c o r bs v s, s.mayCommand c o → objRow o = some r → r.access = .rs → r.type ≠ .dom → s.writeRefusal c.via o = 0 → bs.length = r.type.bytes →
    decodeValue r.type bs = some v → o ≠ Obj.AUTH_REQUIRED → keepBits o v = v → r.range.ok v = true → rangeMore o v = true →
    (s.stg.entries = [] → exec (.objectWrite c o r.type.code bs) s =
      .next { (s.setN Obj.STAGING_OWNER c.session).setN Obj.STAGED_ENTRIES 1 with
        stg := { s.stg with owner := c.session, entries := [⟨o, .scalar v, s.stg.stamp + 1⟩], stamp := s.stg.stamp + 1 } }) ∧
    (∀ e, s.stg.entries = [e] → e.obj = o → s.stg.owner = c.session → exec (.objectWrite c o r.type.code bs) s =
      .next { (s.setN Obj.STAGING_OWNER c.session).setN Obj.STAGED_ENTRIES 1 with
        stg := { s.stg with owner := c.session, entries := [⟨o, .scalar v, s.stg.stamp + 1⟩], stamp := s.stg.stamp + 1 } }) ∧
    (s.stg.entries ≠ [] → s.stg.owner ≠ c.session → exec (.objectWrite c o r.type.code bs) s = .next s)) ∧
  ((∀ c s, s.mayCommand c Obj.COMMIT → s.stg.entries = [] → exec (.commit (.write c 1)) s = .next (s.recordCommit 0 0 0 0)) ∧
  (∀ c s, s.mayCommand c Obj.COMMIT → s.stg.entries ≠ [] → s.stg.owner ≠ c.session →
    exec (.commit (.write c 1)) s = .next (s.recordCommit 6 0 0 0)) ∧
  (∀ c s code c1 c2, s.mayCommand c Obj.COMMIT → s.stg.entries ≠ [] → s.stg.owner = c.session →
    s.conflict s.stg.entries = some (code, c1, c2) → exec (.commit (.write c 1)) s = .next (s.recordCommit 12 code c1 c2)) ∧
  (∀ c s, s.mayCommand c Obj.COMMIT → s.stg.entries ≠ [] → s.stg.owner = c.session → s.conflict s.stg.entries = none → s.mirrorsOn = false →
    s.jobActive = false → let t := (((s.discardStaging).inc Obj.COMMITS_ACCEPTED).recordCommit 0 0 0 0).applyEntries s.stg.entries
    t.mirrorsOn = false → exec (.commit (.write c 1)) s = .next t) ∧
  (∀ c s, s.mayCommand c Obj.COMMIT → s.stg.entries ≠ [] → s.stg.owner = c.session → s.conflict s.stg.entries = none → s.mirrorsOn = false →
    s.jobState = jobRunning → (∀ e ∈ s.stg.entries, stripeObj e.obj = false) →
    let u := ((s.discardStaging).inc Obj.COMMITS_ACCEPTED).recordCommit 0 0 0 0
    exec (.commit (.write c 1)) s = .next { u with stg := { u.stg with atFlash := s.stg.atFlash ++ [s.stg.entries] } }))

/-- R49. HOLD in RUNNING sets a pending hold and RESUME cancels it; RESUME in HELD moves to RUNNING. A write in any other state has no
effect, and neither has one to a device that is not the active or is releasing.
R53, R54. The snapshot of progress takes the six values together. While the job writes, PROG_PERMILLE takes the per-mille of the area
retired, which does not fall and is 999 at most. -/
def Obligations.JobControlAndProgress : Prop :=
  ((∀ c s, s.mayWrite c Obj.JOB_CONTROL → s.getN Obj.PAIR_STATE ≠ 1 ∨ s.pair.releasing = true →
    exec (.start c) s = .next s ∧ exec (.hold c) s = .next s ∧ exec (.resume c) s = .next s) ∧
  (∀ c s, s.mayWrite c Obj.JOB_CONTROL → s.getN Obj.PAIR_STATE = 1 → s.pair.releasing = false → s.jobState = jobPreparing →
    exec (.hold c) s = .next s ∧ exec (.resume c) s = .next s) ∧
  (∀ c s, s.mayWrite c Obj.JOB_CONTROL → s.getN Obj.PAIR_STATE = 1 → s.pair.releasing = false → s.jobState = jobRunning →
    exec (.start c) s = .next s ∧ exec (.hold c) s = .next { s with job := { s.job with hold := true } }.tellJob ∧
    (s.job.hold = true → exec (.resume c) s = .next { s with job := { s.job with hold := false } }.tellJob) ∧
    (s.job.hold = false → exec (.resume c) s = .next s)) ∧
  (∀ c s, s.mayWrite c Obj.JOB_CONTROL → s.getN Obj.PAIR_STATE = 1 → s.pair.releasing = false → s.jobState = jobHeld →
    exec (.start c) s = .next s ∧ exec (.hold c) s = .next s ∧ exec (.resume c) s = .next ((s.setJobState jobRunning).tellJob)) ∧
  (∀ c s, s.mayWrite c Obj.JOB_CONTROL → s.getN Obj.PAIR_STATE = 1 → s.pair.releasing = false → s.jobState ∉ [jobPreparing, jobRunning, jobHeld] →
    exec (.start c) s = .next s ∧ exec (.hold c) s = .next s ∧ exec (.resume c) s = .next s)) ∧
  (∀ s, s.jobState = jobRunning ∨ s.jobState = jobBurnishing → ∃ t, exec .progressSnapshot s = .next t ∧
    t.getN Obj.PROG_STRIPE = s.job.liveStripe ∧ t.getN Obj.PROG_BAND = s.job.liveBand ∧ t.get Obj.PROG_FLASH_INDEX = s.job.liveIndex ∧
    t.getN Obj.PROG_PASS = s.job.livePass ∧ t.getN Obj.PROG_TIME = s.now ∧
    t.getN Obj.PROG_PERMILLE = s.livePermille ∧ s.job.permille ≤ s.livePermille ∧
    (s.job.permille ≤ 999 → t.getN Obj.PROG_PERMILLE ≤ 999) ∧ t = { s with od := t.od, job := { s.job with permille := s.livePermille } } ∧
    s.sameObjects t [Obj.PROG_STRIPE, Obj.PROG_BAND, Obj.PROG_FLASH_INDEX, Obj.PROG_PERMILLE, Obj.PROG_PASS, Obj.PROG_TIME])

/-- R51, R57. A job abort accepted in a job's states 1 to 4 moves to ABORTING with ABORT_STATE 1, discards a pending hold and notes the
moment; with quiet the job is ABORTED, ABORT_STATE is 2 and no sweep is armed. A write in another state changes nothing.
R56. The other aborts by a write of their object run the abort of the function that the selector names; DISCARD_STAGING empties the
set and clears its owner; ABORT function 7 is answered REFUSED and changes nothing else. -/
def Obligations.AbortsComplete : Prop :=
  ((∀ c s, s.mayCommand c Obj.ABORT_JOB → s.getN Obj.PAIR_STATE = 1 → s.pair.releasing = false → s.jobState ∈ [1, 2, 3, 4] →
    ∃ t, exec (.abortJob (.write c 1)) s = .next t ∧ t.jobState = jobAborting ∧ t.getN Obj.ABORT_STATE = 1 ∧ t.job.hold = false ∧
      t.job.abortAt = some (s.job.abortAt.getD s.clk.cycle) ∧ t.ledger = s.ledger ∧ t.stg = s.stg ∧ t.st = s.st ∧ t.head = s.head) ∧
  (∀ c s, s.mayCommand c Obj.ABORT_JOB → s.getN Obj.PAIR_STATE = 1 → s.pair.releasing = false → s.jobState ∉ [1, 2, 3, 4] →
    exec (.abortJob (.write c 1)) s = .next s) ∧
  (∀ c s, s.mayCommand c Obj.ABORT_JOB → s.getN Obj.PAIR_STATE ≠ 1 ∨ s.pair.releasing = true → exec (.abortJob (.write c 1)) s = .next s) ∧
  (∀ s a, s.job.abortAt = some a → s.jobState = jobAborting → s.st.heldJob = none → s.stg.atStripe = [] →
    ∃ t, exec .abortQuiet s = .next t ∧ t.jobState = jobAborted ∧ t.sweepState = 0 ∧ t.ledger = s.ledger ∧ t.sweep = {} ∧ t.hist = [])) ∧
  ((∀ c m s, s.mayCommand c Obj.ABORT_DMA → 0 < m → m < 2 ^ 32 → exec (.abortDma (.write c m)) s = .next (s.abortDmaBy m)) ∧
  (∀ c m s, s.mayCommand c Obj.ABORT_COMPRESSION → 0 < m → m < 2 ^ 16 → exec (.abortCompression (.write c m)) s = .next (s.abortHosts m)) ∧
  (∀ c m s, s.mayCommand c Obj.ABORT_CAMERA → 0 < m → m < 4 → exec (.abortCamera (.write c m)) s = .next (s.abortCamera m)) ∧
  (∀ c s, s.mayCommand c Obj.ABORT_CALIBRATION → exec (.abortCalibration (.write c 1)) s = .next s.abortCalibration) ∧
  (∀ c s, s.mayCommand c Obj.DISCARD_STAGING → exec (.discardStaging (.write c 1)) s =
    .next { (s.setN Obj.STAGING_OWNER 0).setN Obj.STAGED_ENTRIES 0 with stg := { s.stg with owner := 0, entries := [] } }) ∧
  (∀ via src d s, s.inSequence via src 6 d → d.payload = [7, 0, 0, 0, 0, 0, 0, 0] → ∃ t key, exec (.abortDramFill via src d) s = .next t ∧
    t.out = s.out ++ [.message via src (s.getN Obj.FACEPLATE_PORT) (let bs := fpBytes key 6 1 13 d.session d.seq []; if via = .spi then 0xA5 :: bs else bs)] ∧
    t = { s with od := t.od, fp := t.fp, out := t.out } ∧ s.sameObjects t [Obj.FP_MESSAGES_ACCEPTED]))

/-- R62, R75, R82. Outside a job a JOB block with BLOCK_SEQ 0 and a right payload starts its job where one may be accepted; in RUNNING and
the other states of R87 it is held instead. Any other block is discarded with status 10. A DEFLATE payload first goes to the lanes, as
R300 says; it comes back to the same checks.
R63 to R65, R74 to R76, R82. A block of the stream that passes every check is accepted: its content takes effect, EXPECTED_SEQ moves
past its BLOCK_SEQ, and its slot is answered with status 1. One without a DEFLATE payload is accepted at once; the lanes inflate such a
payload segment by segment (R300), and the checks that follow the last segment accept the block in the same way. A STRIPE block without
a head identity waits for it. -/
def Obligations.StreamBlocks : Prop :=
  ((∀ (f : Fetch) (s : State) p, s.blockPasses f .stream .job p → f.image.flags = 0 → s.outsideJob = true → f.image.seq = 0 → jobPayloadOk f.image p = true → s.mayTakeJob = true →
    exec (.jobBlock f) s = .next ((s.acceptJob f.image p f.refFails).acceptedBlock f.desc .job f.image 1)) ∧
  (∀ (f : Fetch) (s : State) p, s.blockPasses f .stream .job p → f.image.flags = 0 → s.outsideJob = true → f.image.seq = 0 → jobPayloadOk f.image p = true → s.mayTakeJob = false →
    ∃ t, exec (.jobBlock f) s = .next t ∧ t.st = { s.st with heldJob := some f, lastFetches := 1 } ∧
      t.getN Obj.STREAM_STATE = 3 ∧ s.onlyObjects { t with st := s.st } [Obj.STREAM_STATE]) ∧
  (∀ (f : Fetch) (s : State) p, s.blockPasses f .stream .band p → s.outsideJob = true → exec (.bandBlock f) s =
    .next ((((s.writeStatus .stream f.desc.index 10 1 0xFFFFFFFF).passConsumer .stream).advanceRelease).refreshStream))) ∧
  ((∀ (f : Fetch) (s : State) p, s.blockPasses f .stream .stripe p → s.blockInOrder f .stripe → s.headKnown = true → leAt p 0 4 = f.image.stripe → leAt p 4 1 ≤ 1 →
    (∀ x ∈ slice p 5 3, x = 0) → (∀ x ∈ slice p 24 8, x = 0) → s.stripeGeometryOk p = true →
    s.acceptsBlock f .stripe (.stripeBlock f) ((s.acceptStripe f.image p).afterBlock f .stripe 1)) ∧
  (∀ (f : Fetch) (s : State) p, s.blockPasses f .stream .stripe p → s.blockInOrder f .stripe → s.headKnown = false →
    s.acceptsBlock f .stripe (.stripeBlock f) (({ s with st := { s.st with waitHead := some f, lastFetches := 1 } }).setN Obj.STREAM_STATE 1)) ∧
  (∀ (f : Fetch) (s : State) p rs, s.blockPasses f .stream .celldef p → s.blockInOrder f .celldef → (∀ c, findCell s.lay.cells f.image.aux = some c → c.pending = true) →
    parseRecords (s.lay.cells.filter (·.id ≠ f.image.aux)) 1 f.image.bbox p f.image.itemCount 0 = .ok rs →
    cellStoreUsed s.lay.cells + f.image.rawLength ≤ s.getN Obj.CELL_STORE_SIZE →
    s.acceptsBlock f .celldef (.celldefBlock f) ((s.acceptCell f.image rs).afterBlock f .celldef 1)) ∧
  (∀ (f : Fetch) (s : State) p rs sp, s.blockPasses f .stream .band p → s.blockInOrder f .band → s.stripeOf f.image.stripe = some sp → f.image.band < sp.bands →
    parseRecords s.lay.cells 0 f.image.bbox p f.image.itemCount 0 = .ok rs →
    s.acceptsBlock f .band (.bandBlock f) ((s.acceptBand f.image false rs f.rails false false).afterBlock f .band 1)) ∧
  (∀ (f : Fetch) (s : State) p rs sp, s.blockPasses f .stream .halo p → s.blockInOrder f .halo → s.stripeOf f.image.stripe = some sp → f.image.band < sp.bands →
    parseRecords s.lay.cells 0 f.image.bbox p f.image.itemCount 0 = .ok rs →
    s.acceptsBlock f .halo (.haloBlock f) ((s.acceptBand f.image true rs f.rails false false).afterBlock f .halo 1)) ∧
  (∀ (f : Fetch) (s : State) p ms, s.blockPasses f .stream .marks p → s.blockInOrder f .marks → parseMarks p f.image.itemCount 0 [] = .ok ms →
    s.acceptsBlock f .marks (.marksBlock f) ((s.acceptMarks ms).afterBlock f .marks 1)) ∧
  (∀ (f : Fetch) (s : State) p, s.blockPasses f .stream .endBlock p → s.blockInOrder f .endBlock →
    s.acceptsBlock f .endBlock (.endBlock f) (s.acceptEnd.afterBlock f .endBlock 1)) ∧
  (∀ (s : State) lane k x fs, s.coreOn = true → lane < s.spool.lanes.length → (atD s.spool.lanes lane {}).unit = some (.fiufen k) → s.st.inflating = some x →
    x.done + 1 < x.lanes.length →
    ∃ u : State, exec (.compressionUnitDone lane true fs) s = .next u.runLanes ∧ u.st = { s.st with inflating := some { x with done := x.done + 1 } } ∧
      u = { s with st := u.st, spool := u.spool }) ∧
  (∀ (s : State) lane k x fs, s.coreOn = true → s.isActive = true → s.st.stalled = false → (atD s.spool.lanes lane {}).unit = some (.fiufen k) →
    s.st.inflating = some x → x.lanes.length ≤ x.done + 1 →
    ∃ u : State, exec (.compressionUnitDone lane true fs) s = .next (u.checkBlock x.type x.fetch x.second true).runLanes ∧
      u.st = { s.st with inflating := none } ∧ u = { s with st := u.st, spool := u.spool }))

/-- R75, R79, R83, R86. An accepted MARKS block replaces the mark table, advances EXPECTED_SEQ and the consumer index by one, and counts
itself and its bytes. A block out of order stalls the front end: the stall is recorded in 2202 with status 6 and its log entry
DEGRADED, and STREAM_STATE reads 5. -/
def Obligations.BlockEffects : Prop :=
  (∀ (f : Fetch) (s : State) p ms, s.blockPasses f .stream .marks p → s.blockInOrder f .marks → parseMarks p f.image.itemCount 0 [] = .ok ms → f.image.flags = 0 → s.mirrorsOn = false →
    s.cams.mf = none → ∃ t, exec (.marksBlock f) s = .next t ∧ t.lay.marks = ms ∧ t.getN Obj.EXPECTED_SEQ = (f.image.seq + 1) % 2 ^ 32 ∧
      t.getN Obj.STREAM_CONSUMER = (s.getN Obj.STREAM_CONSUMER + 1) % 2 ^ 32 ∧ s.counts t Obj.BLOCKS_ACCEPTED ∧
      t.cams.marks.length = ms.length ∧ (∀ x ∈ t.cams.marks, x.status = 0) ∧ t.ledger = s.ledger ∧ t.spool = s.spool) ∧
  (∀ (f : Fetch) (s : State) p, s.blockPasses f .stream .band p → s.outsideJob = false → f.image.seq ≠ s.getN Obj.EXPECTED_SEQ →
    ∃ t, exec (.bandBlock f) s = .next t ∧ t.st.stalled = true ∧ t.getN Obj.STREAM_STATE = 5 ∧ t.getN Obj.LAST_REJ_STATUS = 6 ∧
      t.getN Obj.LAST_REJ_INDEX = f.desc.index ∧ t.getN Obj.LAST_REJ_TAG = f.desc.tag ∧ t.getN Obj.LAST_REJ_SEQ = f.image.seq ∧
      t.newestLog 4 0 Obj.REJECTIONS ∧ t.getN Obj.EXPECTED_SEQ = s.getN Obj.EXPECTED_SEQ ∧ t.st.pending = s.st.pending ∧
      t.lay = s.lay)

/-- R82. A descriptor that fails step 1 is rejected with status 7 before any fetch. A block whose fetch or header CRC failed is fetched a
second time, once: a failure of the copy is rejected with status 2, a good copy is accepted with two fetches. R90: the good copy of a
stored block that an uncorrectable word met lets its tiles go on.
R88, R89. A repair that matches a pending rejection and passes the checks is accepted: its content takes effect and the rejection is
struck. One that matches none is rejected with status 11, one that does not hold the slot's BLOCK_SEQ or the job's JOB_ID with 6 or 5, and
the rejections stay. A STRIPE repair without a head identity waits for it. -/
def Obligations.RingsAndRepairs : Prop :=
  ((∀ d s, s.readsRing d.ring = true → d.index = s.consumer d.ring → s.st.refetch.any (·.ring = d.ring) = false → descOk d = true →
    exec (.descriptorFetch d) s = .next { s with st := { s.st with fetched := (d :: s.st.fetched).take (s.getN Obj.PREFETCH_DEPTH) } }) ∧
  (∀ d s, s.readsRing d.ring = true → d.index = s.consumer d.ring → s.st.refetch.any (·.ring = d.ring) = false → descOk d = false →
    exec (.descriptorFetch d) s = .next (s.reject d .job noImage ⟨7, 0xFFFFFFFF, .wait, false⟩ 0)) ∧
  (∀ f s, f.desc.ring = .stream → s.readsRing .stream = true → f.desc.index = s.consumer .stream → s.st.refetch.any (·.ring = .stream) = false →
    descOk f.desc = true → headerCrcOk .band f.image = false →
    exec (.bandBlock f) s = .next { s.inc Obj.REFETCHES with st := { s.st with refetch := s.st.refetch ++ [⟨.stream, f.desc⟩] } }) ∧
  (∀ f s t, s.st.refetch = [⟨f.desc.ring, f.desc⟩] → s.hostReady = true → s.st.stalled = false → s.st.inflating = none → headerCrcOk t f.image = false →
    exec (.blockRefetch t f) s =
      .next (({ s with st := { s.st with refetch := [] } }).reject f.desc t f.image ⟨2, 0xFFFFFFFF, .wait, false⟩ 2)) ∧
  (∀ (f : Fetch) (s : State) p ms, s.st.refetch = [⟨f.desc.ring, f.desc⟩] → s.hostReady = true → s.st.stalled = false → s.st.inflating = none → f.desc.ring = .stream → f.error = false →
    headerCrcOk .marks f.image = true → headerFieldsOk .marks f.image = true → f.desc.length = 64 + f.image.payloadLength →
    payloadOf f.image = .ok p → f.image.flags = 0 → s.blockInOrder f .marks → parseMarks p f.image.itemCount 0 [] = .ok ms →
    exec (.blockRefetch .marks f) s = .next ((({ s with st := { s.st with refetch := [] } }).acceptMarks ms).afterBlock f .marks 2)) ∧
  (∀ (f : Fetch) (s : State) t x, s.st.refetch = [] → s.st.reload.find? (fun y => y.ring = f.desc.ring && y.index = f.desc.index) = some x → s.hostReady = true →
    s.coreOn = true → goodCopy t f x.seq = true → exec (.blockRefetch t f) s =
      .next (({ s with st := { s.st with reload := s.st.reload.filter (·.seq ≠ x.seq) } }).advanceRaster))) ∧
  ((∀ (f : Fetch) (s : State) p r ms, s.blockPasses f .repair .marks p → s.matching .marks f.image = some r → f.image.seq = r.due → f.image.jobId = s.st.jobId →
    parseMarks p f.image.itemCount 0 [] = .ok ms →
    s.acceptsBlock f .marks (.repairBlock .marks f)
      ((((s.acceptMarks ms).repairAccepted r).afterRepair r .marks f.image.aux).acceptedBlock f.desc .marks f.image 1)) ∧
  (∀ (f : Fetch) (s : State) p r rs sp, s.blockPasses f .repair .band p → s.matching .band f.image = some r → f.image.seq = r.due → f.image.jobId = s.st.jobId →
    s.orderFault .band f.image false = none → s.stripeOf f.image.stripe = some sp → f.image.band < sp.bands →
    parseRecords s.lay.cells 0 f.image.bbox p f.image.itemCount 0 = .ok rs →
    s.acceptsBlock f .band (.repairBlock .band f)
      ((((s.acceptBand f.image false rs f.rails (!r.waits) (!r.gaveUp.isEmpty)).repairAccepted r).afterRepair
        r .band f.image.aux).acceptedBlock f.desc .band f.image 1)) ∧
  (∀ (f : Fetch) (s : State) p r, s.blockPasses f .repair .stripe p → s.matching .stripe f.image = some r → f.image.seq = r.due → f.image.jobId = s.st.jobId →
    s.orderFault .stripe f.image false = none → s.headKnown = false →
    s.acceptsBlock f .stripe (.repairBlock .stripe f) (s.waitForHead f 1)) ∧
  (∀ t (f : Fetch) (s : State) p, s.blockPasses f .repair t p → s.matching t f.image = none → ∃ u, exec (.repairBlock t f) s = .next u ∧
    u.getN Obj.LAST_REJ_STATUS = 11 ∧ u.getN Obj.LAST_REJ_RING = 1 ∧ u.st.pending = s.st.pending ∧
    u.st.repairConsumer = (s.st.repairConsumer + 1) % 2 ^ 32 ∧ u.lay = s.lay) ∧
  (∀ t (f : Fetch) (s : State) p r, s.blockPasses f .repair t p → s.matching t f.image = some r → f.image.seq ≠ r.due ∨ f.image.jobId ≠ s.st.jobId →
    ∃ u, exec (.repairBlock t f) s = .next u ∧ u.getN Obj.LAST_REJ_STATUS = (if f.image.seq = r.due then 5 else 6) ∧
    u.getN Obj.LAST_REJ_RING = 1 ∧ u.st.pending = s.st.pending ∧ u.st.repairConsumer = (s.st.repairConsumer + 1) % 2 ^ 32 ∧ u.lay = s.lay))

/-- R78, R261, R388. On the active in READY or WRITING a producer index at most ENTRIES ahead of the consumer is taken, and nothing else
changes but STREAM_STATE and the message to a standby; any other is ignored and counted. In CONTROL a write is kept until READY. A device
that is not the active keeps the host's index.
R79 to R81. A progress record that is due is written as 16 bytes to WRITEBACK_ADDR, then MSI-X vector 0 is raised; with the host port
down it waits. Setting Bus Master Enable and the link's return issue what waited; the bit can be cleared. The configuration space and BAR0
read what Tables 03-14 and 03-15 give. A reset of the port takes the link down, clears its configuration, counts and logs; a BAR0
request of the wrong shape is counted, reads 0 and writes nothing. A masked vector's pending bit is the model's (assumption 140). -/
def Obligations.HostPortAndProducers : Prop :=
  ((∀ v s, v < 2 ^ 32 → s.power = 2 ∨ s.power = 3 → s.isActive = true → let ahead := (v + 2 ^ 32 - s.getN Obj.STREAM_CONSUMER) % 2 ^ 32
    (ahead ≤ s.getN Obj.RING_ENTRIES → ∃ t, exec (.streamProducer v) s = .next t ∧ t.getN Obj.STREAM_PRODUCER = v ∧
      t = { s with od := t.od, out := t.out, pair := t.pair, line := t.line } ∧ s.sameObjects t [Obj.STREAM_PRODUCER, Obj.STREAM_STATE] ∧
      (s.mirrorsOn = false → t = (s.setN Obj.STREAM_PRODUCER v).refreshStream)) ∧
    (s.getN Obj.RING_ENTRIES < ahead → exec (.streamProducer v) s = .next (s.inc Obj.DOORBELL_ERRORS))) ∧
  (∀ v s, v < 2 ^ 32 → s.power = 2 ∨ s.power = 3 → s.isActive = true → let ahead := (v + 2 ^ 32 - s.st.repairConsumer) % 2 ^ 32
    (ahead ≤ s.getN Obj.REPAIR_RING_ENTRIES → ∃ t, exec (.repairProducer v) s = .next t ∧ t.getN Obj.REPAIR_PRODUCER = v ∧
      t = { s with od := t.od, out := t.out, pair := t.pair, line := t.line } ∧ s.sameObjects t [Obj.REPAIR_PRODUCER, Obj.STREAM_STATE] ∧
      (s.mirrorsOn = false → t = (s.setN Obj.REPAIR_PRODUCER v).refreshStream)) ∧
    (s.getN Obj.REPAIR_RING_ENTRIES < ahead → exec (.repairProducer v) s = .next (s.inc Obj.DOORBELL_ERRORS))) ∧
  (∀ v s, v < 2 ^ 32 → s.power = 2 ∨ s.power = 3 → s.isActive = false → exec (.streamProducer v) s = .next (s.setN Obj.STREAM_PRODUCER v) ∧
    exec (.repairProducer v) s = .next (s.setN Obj.REPAIR_PRODUCER v)) ∧
  (∀ v s, v < 2 ^ 32 → s.power = 1 →
    exec (.streamProducer v) s = .next { s with st := { s.st with keptProducers := kvSet s.st.keptProducers Obj.STREAM_PRODUCER v } } ∧
    exec (.repairProducer v) s = .next { s with st := { s.st with keptProducers := kvSet s.st.keptProducers Obj.REPAIR_PRODUCER v } })) ∧
  ((∀ s, s.st.dirty = true → s.hostReady = true → s.isActive = true → s.coreOn = true →
    let u : State := { s.emit (.hostWrite (s.getN Obj.WRITEBACK_ADDR) (leBytes 4 (s.getN Obj.STREAM_CONSUMER) ++
      leBytes 4 (s.getN Obj.STREAM_RELEASE) ++ leBytes 4 s.st.repairConsumer ++ leBytes 4 s.st.repairRelease)) with
        st := { s.st with dirty := false } }
    exec .writeback s = .next (if s.on Obj.WRITEBACK_MSIX = false then u
      else if bitOf (leAt s.host.msixTable 12 4) 0 then { u with host := { s.host with msixPba := setBit s.host.msixPba 0 } }
      else u.emit (.msix 0))) ∧
  (∀ s, s.hostReady = false ∨ s.st.dirty = false → exec .writeback s = .next s) ∧
  (∀ s, s.host.up = true → s.isActive = true → ∃ t, exec (.busMasterEnable (.busMaster true)) s = .next t ∧ t.host.busMaster = true ∧
    t.st.statusWrites = [] ∧ (∀ p ∈ s.st.statusWrites, Output.hostWrite p.1 p.2 ∈ t.out) ∧ t = { s with host := t.host, st := t.st, out := t.out }) ∧
  (∀ s, s.host.up = true → exec (.busMasterEnable (.busMaster false)) s = .next { s with host := { s.host with busMaster := false } }) ∧
  (∀ s, s.host.up = true → (∀ n, exec (.busMasterEnable (.maxPayload n)) s = .next { s with host := { s.host with maxPayload := n } } ∧
      exec (.busMasterEnable (.maxReadRequest n)) s = .next { s with host := { s.host with maxRead := n } } ∧
      exec (.busMasterEnable (.bar0 n)) s = .next { s with host := { s.host with bar0 := n } }) ∧
    exec (.busMasterEnable (.read .vendorId)) s = .next (s.emit (.hostRead (leBytes 2 (s.getN Obj.PCI_VENDOR_ID)))) ∧
    exec (.busMasterEnable (.read .deviceId)) s = .next (s.emit (.hostRead (leBytes 2 (s.getN Obj.PCI_DEVICE_ID)))) ∧
    exec (.busMasterEnable (.read .classCode)) s = .next (s.emit (.hostRead [0x00, 0x80, 0x11])) ∧
    exec (.busMasterEnable (.read .msixVectors)) s = .next (s.emit (.hostRead [4, 0]))) ∧
  (∀ x s, s.host.up = false → exec (.busMasterEnable x) s = .next s) ∧
  (∀ w v s, s.power = 2 ∨ s.power = 3 → ∃ t, exec (.hostLinkUp w v) s = .next t ∧ t.getN Obj.HOST_LINK_STATE = 1 ∧ t.getN Obj.HOST_LINK_WIDTH = w ∧
    t.getN Obj.HOST_LINK_SPEED = v ∧ t.host.up = true ∧ (s.host.busMaster = true → s.isActive = true → t.st.statusWrites = []) ∧
    (s.host.busMaster = false → t.st = s.st ∧ t.out = s.out) ∧ t = { s with od := t.od, host := t.host, st := t.st, out := t.out } ∧
    s.sameObjects t [Obj.HOST_LINK_STATE, Obj.HOST_LINK_WIDTH, Obj.HOST_LINK_SPEED]) ∧
  (∀ c s, s.pins.porstN = true → s.power ≠ 0 → s.power ≠ 5 → (∀ ch < 32, s.getN (Obj.CH_STATE + ch) ∉ [1, 2]) →
    exec (.hostPortReset c) s =
      .next (((({ s with host := {} }.setN Obj.HOST_LINK_STATE 0).setN Obj.HOST_LINK_WIDTH 0).setN Obj.HOST_LINK_SPEED 0).inc
        Obj.HOST_RESETS |>.logEvent ⟨2, 0, 255, 255, Obj.HOST_RESETS, 0, 0⟩)) ∧
  (∀ off n s, s.host.up = true → ¬(n = 4 ∧ off % 4 = 0) → ¬(n = 8 ∧ off = 0x1800) →
    (∀ v, exec (.barAccessError off n (some v)) s = .next (s.inc Obj.BAR_ACCESS_ERRORS)) ∧
    exec (.barAccessError off n none) s = .next ((s.inc Obj.BAR_ACCESS_ERRORS).emit (.hostRead (zeros n)))) ∧
  (∀ s, s.host.up = true →
    (∀ x ∈ [(0x0000, Obj.STREAM_PRODUCER), (0x0004, Obj.REPAIR_PRODUCER), (0x0008, Obj.STREAM_CONSUMER), (0x000C, Obj.STREAM_RELEASE)],
      exec (.barAccessError x.1 4 none) s = .next (s.emit (.hostRead (leBytes 4 (s.getN x.2))))) ∧
    (∀ v, exec (.barAccessError 0x0000 4 (some v)) s = exec (.streamProducer v) s ∧ exec (.barAccessError 0x0004 4 (some v)) s = exec (.repairProducer v) s)) ∧
  (∀ off n w s, s.host.up = false → exec (.barAccessError off n w) s = .next s))

/-- R167 to R169, R171, R172. A bit time that is neither idle nor a start bit after four idle ones is counted, and four idle bit times are then
waited for; a sample with a wrong CRC is counted and discarded. A good sample in VALID sets position, velocity and the objects of 2602; a jump beyond POS_JUMP_LIMIT is discarded and counted, and the third in a row loses the position.
R172. No good sample for POS_TIMEOUT, or POS_FAULT_N low for 20 ns or more, loses a VALID position: LOST or FAULT, counted, entered in
the log; 5 ns or less is ignored. With the ball high again a FAULT becomes SEARCHING, and the first good sample skips the jump check. -/
def Obligations.StagePosition : Prop :=
  ((∀ t (d : BitVec 4) s, s.coreOn = true → s.posState ≠ 0 → s.hs.port.busy = false → s.hs.port.wait = false → d ≠ 0xF#4 → ¬(d = 0#4 ∧ 4 ≤ s.hs.port.idle) →
    exec (.positionSample t 0 [d]) s = .next ((({ s with hs := { s.hs with port := { wait := true } } }).inc Obj.POS_FRAMING_ERRORS).at t)) ∧
  (∀ t (d : BitVec 4) s, s.coreOn = true → s.posState ≠ 0 → s.hs.port.busy = false → s.hs.port.wait = true → d ≠ 0xF#4 →
    exec (.positionSample t 0 [d]) s = .next ({ s with hs := { s.hs with port := { wait := true } } }.at t)) ∧
  (∀ t b s, s.coreOn = true → s.posState ≠ 0 → s.hs.port.busy = false → sampleCrcOk b = false →
    exec (.positionSample t 0 (sampleLevels b)) s = .next ((({ s with hs := { s.hs with port := { wait := false } } }).at t).inc Obj.POS_CRC_ERRORS)) ∧
  (∀ t b s q t0 p0, s.coreOn = true → s.posState = 2 → s.hs.port.busy = false → sampleCrcOk b = true → s.hs.base = false → s.hs.waive = false →
    s.hs.preds.head? = some q → t ≤ q.t + s.posTimeout → s.hs.seqLast = some ((sampleSeq b + 15) % 16) →
    let d := toSigned 28 (toUnsigned 28 ((sampleX b : Int) - s.hs.xLast))
    let p := s.hs.p + d
    d.natAbs ≤ s.getN Obj.POS_JUMP_LIMIT → (((t, p) :: s.hs.past).take 16).getLast? = some (t0, p0) → t0 < t →
    let v := rneDiv ((p - p0) * 2 ^ 24) (t - t0)
    v ≥ -2 ^ 31 → v < 2 ^ 31 → ∃ u, exec (.positionSample t 0 (sampleLevels b)) s = .next u ∧ u.hs.p = p ∧ u.hs.xLast = sampleX b ∧
      u.hs.preds = ((⟨t, p, sampleY b, v⟩ : Pred) :: s.hs.preds).take 16 ∧ u.get Obj.POS_SWEEP_PIXEL = toSigned 32 (toUnsigned 32 (p / 1024)) ∧
      u.get Obj.POS_SWEEP_FRACTION = p % 1024 ∧ u.get Obj.POS_Y = sampleY b ∧ u.get Obj.POS_VELOCITY = v ∧
      u.getN Obj.POS_TIME = (s.at t).now ∧ u.posState = 2 ∧ s.counts u Obj.POS_SAMPLES_GOOD ∧ u.free = s.free ∧ u.log = s.log) ∧
  (∀ t b s q, s.coreOn = true → s.posState = 2 → s.hs.port.busy = false → sampleCrcOk b = true → s.hs.base = false → s.hs.waive = false →
    s.hs.preds.head? = some q → t ≤ q.t + s.posTimeout →
    s.getN Obj.POS_JUMP_LIMIT < (toSigned 28 (toUnsigned 28 ((sampleX b : Int) - s.hs.xLast))).natAbs →
    ∃ u, exec (.positionSample t 0 (sampleLevels b)) s = .next u ∧ s.counts u Obj.POS_JUMPS ∧ u.hs.p = s.hs.p ∧ u.hs.preds = s.hs.preds ∧
      u.posState = (if 2 ≤ s.hs.jumps then 3 else 2)) ∧
  (∀ t n l s, exec (.positionSample t n l) s = exec (.positionSample t 0 (List.replicate n 0xF#4 ++ l)) s) ∧
  (∀ t n l s, s.coreOn = false ∨ s.posState = 0 → exec (.positionSample t n l) s = .next (s.at t))) ∧
  ((∀ t s q, s.coreOn = true → s.posState = 2 → s.hs.preds.head? = some q → q.t + s.posTimeout < t → s.sweepArmed = false →
    ∃ u, exec (.posTimeout t) s = .next u ∧ u.posState = 3 ∧ s.counts u Obj.POS_LOSSES ∧ u.newestLog 2 8 Obj.POS_LOSSES ∧ u.hs.waive = true ∧
      u.sweep = s.sweep ∧ u.hs.p = s.hs.p) ∧
  (∀ t s q, s.hs.preds.head? = some q → t ≤ q.t + s.posTimeout → exec (.posTimeout t) s = .next (s.at t)) ∧
  (∀ n s, 20 ≤ n → s.coreOn = true → s.posState = 2 → s.sweepArmed = false →
    ∃ u, exec (.posFault n) s = .next u ∧ u.posState = 4 ∧ u.pins.posFault = true ∧ s.counts u Obj.POS_LOSSES ∧
      u.newestLog 2 8 Obj.POS_LOSSES) ∧
  (∀ n s, n ≤ 5 → exec (.posFault n) s = .next s) ∧
  (∀ s, s.posState = 4 → exec .posFaultClear s = .next { s.setN Obj.POS_STATE 1 with
    pins := { s.pins with posFault := false }, hs := { s.hs with count := 0, past := [], jumps := 0, waive := true } }) ∧
  (∀ s, s.posState ≠ 4 → exec .posFaultClear s = .next { s with pins := { s.pins with posFault := false } }))

/-- R180 to R183. While a sweep tracks, each word pair is the offset plus the gain times the distance from the target to the predicted
position, clamped to a word; each clamp counts. Without tracking the offsets stand. The link runs only while it is enabled and the
core domain is on; at its start SYSREF is driven, once or with its period. -/
def Obligations.DeflectorWords : Prop :=
  (∀ tOut s q rest t0 nt, s.getN Obj.DEFL_LINK_STATE = 1 → s.gateRuns = false → s.posState = 2 → s.sweepArmed = true → s.hs.preds = q :: rest →
    q.t + 7 + s.getN Obj.DEFL_OUT_DELAY ≤ tOut → s.hs.worded = some q.t → (s.hs.targets.find? fun x => x.1 ≤ tOut) = some (t0, some nt) →
    let dx := 1024 * nt - q.predict tOut
    let sg : Int := if s.on Obj.SWEEP_DIRECTION then -1 else 1
    let wx := s.get Obj.DEFL_OFFSET_X + rneDiv (sg * s.get Obj.DEFL_GAIN_X * dx) 65536
    let wy := s.get Obj.DEFL_OFFSET_Y + rneDiv (-s.get Obj.DEFL_GAIN_Y * q.y) 65536
    let x := clampI (-32768) 32767 wx
    let y := clampI (-32768) 32767 wy
    exec (.deflectorWord tOut) s = .next ((((({ s with hs := { s.hs with worded := some q.t } }).add Obj.DEFL_CLAMPS
      (b2n (x ≠ wx) + b2n (y ≠ wy))).set Obj.DEFL_WORD_X x).set Obj.DEFL_WORD_Y y).emit (.deflector x y))) ∧
  (∀ tOut s, s.getN Obj.DEFL_LINK_STATE = 1 → s.gateRuns = false → s.sweepArmed = false →
    -32768 ≤ s.get Obj.DEFL_OFFSET_X → s.get Obj.DEFL_OFFSET_X ≤ 32767 → -32768 ≤ s.get Obj.DEFL_OFFSET_Y → s.get Obj.DEFL_OFFSET_Y ≤ 32767 →
    exec (.deflectorWord tOut) s = .next ((((s.add Obj.DEFL_CLAMPS 0).set Obj.DEFL_WORD_X (s.get Obj.DEFL_OFFSET_X)).set Obj.DEFL_WORD_Y
      (s.get Obj.DEFL_OFFSET_Y)).emit (.deflector (s.get Obj.DEFL_OFFSET_X) (s.get Obj.DEFL_OFFSET_Y)))) ∧
  (∀ tOut s, s.getN Obj.DEFL_LINK_STATE ≠ 1 → exec (.deflectorWord tOut) s = .next s) ∧
  (∀ s, s.on Obj.DEFL_LINK_ENABLE = true → s.coreOn = true →
    exec (.deflLinkChange true) s = .next ((s.setN Obj.DEFL_LINK_STATE 1).driveSysref).refreshEligible ∧
    (s.pins.sysref = none → ((s.setN Obj.DEFL_LINK_STATE 1).driveSysref).out =
      s.out ++ [.sysref (some (if s.getN Obj.SYSREF_MODE = 1 then 1280 * s.getN Obj.SYSREF_PERIOD else 0))])) ∧
  (∀ s, exec (.deflLinkChange false) s = .next ((s.setN Obj.DEFL_LINK_STATE 0).driveSysref).refreshEligible) ∧
  (∀ s, s.coreOn = false → exec (.deflLinkChange true) s = .next s)

/-- R165, R173, R249, R256. A decision point of the active runs its boundary work and decides its period; one of a standby keeps what it saw;
one of a releasing device decides nothing. The number k and the grid move on by one period, before READY too, where a period whose number
is a multiple of 64 counts as an epoch; with the core PLL unlocked nothing is counted.
R173, R174. The decision of Table 07-4 while a sweep is armed in RUNNING or BURNISHING: the index nearest to the predicted position
is issued where it is new, in the sweep, no gap and in reach; the indexes passed count as skipped. One out of reach is refused and
counted; one already issued is repeated blanked and counted. -/
def Obligations.DecisionPoints : Prop :=
  ((∀ inp s, s.coreOn = true → s.getN Obj.PAIR_STATE = 1 → s.pair.releasing = false →
    exec (.flashDecision inp) s = .next ((s.at s.hs.nextD).decideActive inp)) ∧
  (∀ inp s, s.coreOn = true → s.getN Obj.PAIR_STATE = 1 → s.pair.releasing = true → s.hs.periods = [] →
    s.head.stale < s.getN Obj.TEMP_STALE_LIMIT →
    ∃ t, exec (.flashDecision inp) s = .next t ∧ t.hs.k = s.hs.k + 1 ∧ t.hs.nextD = s.hs.nextD + s.getN Obj.FLASH_PERIOD ∧ t.hs.periods = [] ∧
      t.getN Obj.STAGE_HOLD = b2n (!inp.stageHoldN) ∧ t.sweep = s.sweep ∧ t.out = s.out) ∧
  (∀ inp s, s.coreOn = true → s.isStandby = true → s.pair.claim = false → s.hs.periods = [] → s.head.stale < s.getN Obj.TEMP_STALE_LIMIT →
    ∃ t, exec (.flashDecision inp) s = .next t ∧ t.hs.k = s.hs.k + 1 ∧ t.hs.nextD = s.hs.nextD + s.getN Obj.FLASH_PERIOD ∧ t.hs.periods = [] ∧
      t.hs.looks.head? = some (s.look (!inp.stageHoldN)) ∧ t.sweep = s.sweep ∧ t.out = s.out) ∧
  (∀ inp s, s.clk.coreLocked = true → s.coreOn = false → ∃ t, exec (.flashDecision inp) s = .next t ∧ t.hs.k = s.hs.k + 1 ∧
    t.hs.nextD = s.hs.nextD + s.getN Obj.FLASH_PERIOD ∧ (s.hs.k % 64 = 0 → s.counts t Obj.BEAM_EPOCH) ∧
    (s.hs.k % 64 ≠ 0 → t.getN Obj.BEAM_EPOCH = s.getN Obj.BEAM_EPOCH) ∧ t.hs.periods = s.hs.periods ∧ t.out = s.out) ∧
  (∀ inp s, s.clk.coreLocked = false → exec (.flashDecision inp) s = .next s)) ∧
  (∀ (s : State) (w : Look) (q : Pred), s.sweepArmed = true → s.jobState = 2 ∨ s.jobState = 4 → w.q = some q → w.ok = true → w.awake = true → s.sweep.blankRest = false →
    let pp := q.predict (w.d + s.horizon)
    let n := (pp + 512) / 1024
    let d0 := 1024 * n - pp
    let d1 := d0 - rneDiv (q.v * (s.getN Obj.FLASH_PERIOD - s.tsettle)) (2 ^ 24)
    0 ≤ n → s.isGap n = false →
    (s.within d0 d1 q.y = false → s.choose w true = (s.inc Obj.RANGE_REFUSALS, ⟨0, s.sweep.nPrev, false, 0⟩)) ∧
    (s.within d0 d1 q.y = true → n ≤ s.sweep.nPrev →
      s.choose w true = ((s.inc Obj.REPEATS_BLANKED).inc Obj.FLASHES_ISSUED, ⟨2, n, true, 0⟩)) ∧
    (s.within d0 d1 q.y = true → n = s.sweep.nPrev + 1 → n ≤ s.get Obj.SWEEP_LAST_INDEX → ∃ t, s.choose w true = (t, ⟨1, n, false, 0⟩) ∧
      t.sweep.nPrev = n ∧ t.job.liveIndex = n ∧ t.job.liveStripe = s.sweep.stripe ∧ t.sweepState = (if s.sweepState = 1 then 2 else s.sweepState) ∧
      s.counts t Obj.FLASHES_ISSUED ∧ (s.burnishing = true → t.get Obj.BURNISH_FLASH_INDEX = n) ∧ t.log = s.log ∧ t.hs = s.hs))

/-- R175, R194, R195. At the firing check a flash out of the window is withheld and counted. At tF(k) FRAME_SYNC rises with the strobes of
the eight groups, each 15 sub-strobes from its slot and trim; a withheld flash raises nothing; with the outputs off nothing fires. -/
def Obligations.FiringAndSync : Prop :=
  (∀ s p, s.coreOn = true → s.isStandby = false → s.hs.periods = [p] → p.checks = true → s.hs.k ≤ p.k + 8 → (s.at (p.fire - 4)).fireOk p = true →
    exec .firingCheck s = .next ((s.at (p.fire - 4)).putPeriod { p with check := some true })) ∧
  (∀ s p, s.coreOn = true → s.isStandby = false → s.hs.periods = [p] → p.checks = true → s.hs.k ≤ p.k + 8 → (s.at (p.fire - 4)).fireOk p = false →
    exec .firingCheck s = .next (((s.at (p.fire - 4)).inc Obj.FIRE_WITHHELD).putPeriod { p with check := some false })) ∧
  (∀ s p, s.coreOn = true → s.isStandby = false → s.outputsOn = true → s.hs.periods = [p] → p.syncs = true → s.withheld p = false →
    s.hs.k ≤ p.k + 8 → p.checks = false →
    s.pair.k1 = 0 ∨ kvGet (((p.k, p.fire) :: s.pair.frameSyncs).take 32) s.pair.k1 = none →
    exec .frameSync s = .next { s.at p.fire with
      hs := { s.hs with periods := [{ p with sync := true }] }
      pair := { s.pair with frameSyncs := ((p.k, p.fire) :: s.pair.frameSyncs).take 32 }
      out := s.out ++ .frameSync p.k :: (List.range 8).map fun g => Output.fire p.k g (s.strobes p g) }) ∧
  (∀ (s : State) (p : Period) (g j : Nat), j < 15 → g < 8 → s.on Obj.FIRE_ROTATE = false →
    (s.strobes p g)[j]? = some (4 * g * s.get Obj.FIRE_STAGGER * s.get Obj.FIRE_WIDTH + s.get (Obj.FIRE_TRIM + g) + 32 * j * s.get Obj.FIRE_WIDTH,
      4 * g * s.get Obj.FIRE_STAGGER * s.get Obj.FIRE_WIDTH + s.get (Obj.FIRE_TRIM + g) + 32 * j * s.get Obj.FIRE_WIDTH + 16 * s.get Obj.FIRE_WIDTH)) ∧
  (∀ s p, s.hs.periods = [p] → s.withheld p = true → exec .frameSync s = .next s) ∧
  (∀ s, s.outputsOn = false → exec .frameSync s = .next s)

/-- R161, R230, R26. A release ends the turnaround hold, at once or when the gate check or item under way has ended; a Burnish pass that waited
for a repair goes on when its wait ends; a waking half of a region is awake and counted. -/
def Obligations.SweepOrder : Prop :=
  (∀ c s, s.mayWrite c Obj.TURNAROUND_RELEASE → s.getN Obj.TURNAROUND_HELD = 1 → s.gateRuns = false → s.calGap = false →
    exec (.turnaroundRelease c) s = .next { s.setN Obj.TURNAROUND_HELD 0 with flow := { s.flow with release := false } }) ∧
  (∀ c s, s.mayWrite c Obj.TURNAROUND_RELEASE → s.getN Obj.TURNAROUND_HELD = 1 → s.gateRuns = true →
    exec (.turnaroundRelease c) s = .next { s with flow := { s.flow with release := true } }) ∧
  (∀ c s, s.mayWrite c Obj.TURNAROUND_RELEASE → s.getN Obj.TURNAROUND_HELD = 0 → exec (.turnaroundRelease c) s = .next s) ∧
  (∀ s b, s.flow.burn = some b → b.waiting = true → exec .burnishRepairWait s =
    .next ({ s with flow := { s.flow with burn := some { b with waiting := false, waited := true } } }).settle) ∧
  (∀ r s, r < 4 → s.lost r = false → atD s.units.writing r 0 = 1 →
    exec (.regionWakeDone r true) s = .next ((s.inc (Obj.REGION_WAKES + r)).setWriting r 2)) ∧
  (∀ r s, r < 4 → s.lost r = false → atD s.units.raster r 0 = 1 →
    exec (.regionWakeDone r false) s = .next ((s.inc (Obj.REGION_WAKES + r)).setRaster r 2).advanceRaster)

/-- R198 to R200, Table 08-6. An acknowledgement with a wrong CRC is counted; one in time decides its period, counts, ends the command it
echoes and gives the temperature; one for no period that is outstanding is stray; at the deadline the oldest period is decided not
fired.
R198, R208, R209, R214. Too many periods without an acknowledgement set the thermal state to its limit at the next decision; a
command outstanding for 1,024 periods is entered in the log, once; a status lane that locks and a gate link that enters its data
phase appear in their states. -/
def Obligations.HeadReports : Prop :=
  ((∀ h t m s, s.coreOn = true → h < 2 → s.getN (Obj.HST_LANE_STATE + h) = 1 → crc32iso (ackBytes m) ≠ m.crc →
    exec (.acknowledgement h t m) s = .next ((s.at t).inc Obj.ACK_CRC_ERRORS)) ∧
  (∀ h t m s p, s.coreOn = true → h < 2 → s.getN (Obj.HST_LANE_STATE + h) = 1 → crc32iso (ackBytes m) = m.crc →
    (s.hs.periods.find? fun p => p.k % 2 ^ 32 = m.frame && s.hs.k ≤ p.k + 1024) = some p → p.outstanding = true → t ≤ p.due →
    s.isStandby = false → (∀ l < 24, laneVerdict p m l = .fired ∨ laneVerdict p m l = .notFired) → (∀ l ∈ p.sentLanes, m.rxOk.getLsbD l = true) →
    ∃ u, exec (.acknowledgement h t m) s = .next u ∧ s.counts u Obj.ACKS_ACCEPTED ∧ u.getN Obj.HEAD_TEMP = m.temp.toNat ∧ u.head.stale = 0 ∧
      (∃ q ∈ u.hs.periods, q.k = p.k ∧ q.verdict = some (.accepted m.fired.toNat m.rxOk.toNat) ∧ q.decided = some (firedMask p m)) ∧
      u.log = s.log ∧ u.head.table = s.head.table) ∧
  (∀ h t m s, s.coreOn = true → h < 2 → s.getN (Obj.HST_LANE_STATE + h) = 1 → crc32iso (ackBytes m) = m.crc →
    (s.hs.periods.find? fun p => p.k % 2 ^ 32 = m.frame && s.hs.k ≤ p.k + 1024) = none →
    exec (.acknowledgement h t m) s = .next ((s.at t).inc Obj.ACK_STRAY)) ∧
  (∀ s p, s.coreOn = true → s.isStandby = false → s.hs.periods = [p] → p.outstanding = true → p.k + 8 ≤ s.hs.k →
    exec .ackTimeout s = .next (({ s.inc Obj.ACK_TIMEOUTS with head := { s.head with stale := s.head.stale + 1 } }).decideFrames p .timeout 0))) ∧
  ((∀ s, s.coreOn = true → s.getN Obj.TEMP_STALE_LIMIT ≤ s.head.stale → s.head.thermal = none → s.getN Obj.THERMAL_STATE ≠ 2 →
    exec .tempStale s = .next { s with head := { s.head with thermal := some 2 } }) ∧
  (∀ s, s.coreOn = true → s.head.stale < s.getN Obj.TEMP_STALE_LIMIT → exec .tempStale s = .next s) ∧
  (∀ s c r, s.coreOn = true → s.head.cmds = c :: r → 1024 ≤ c.periods → c.logged = false →
    ∃ t, exec .cmdUnechoed s = .next t ∧ t.head.cmds = { c with logged := true } :: r ∧ t.newestLog 2 7 Obj.CMD_RETRIES ∧
      t.getN Obj.CMD_PENDING = r.length + 1 ∧ s.onlyLogged { t with head := s.head } 2 [Obj.CMD_PENDING]) ∧
  (∀ s c r, s.head.cmds = c :: r → c.logged = true → exec .cmdUnechoed s = .next s) ∧
  (∀ l s, l < 2 → s.coreOn = true → exec (.hstLaneLock l) s = .next (s.setN (Obj.HST_LANE_STATE + l) 1).refreshEligible) ∧
  (∀ s, s.coreOn = true → exec (.gateRxLinkChange true) s = .next (s.setN Obj.GATE_RX_STATE 1)) ∧
  (∀ s, exec (.gateRxLinkChange false) s = .next (s.setN Obj.GATE_RX_STATE 0)))

/-- R201, R202, R242, Table 08-8. An attach starts in the states that allow it: READING, error 0, progress 0, no identity. It completes with the first
check that fails as its error, or with the identity in 2701, progress 1000 and, for value 1 or another head, the factory table to be
taken at the next epoch boundary. The memory is read in sequential reads of at most 65,536 bytes; with the outputs disabled nothing is
driven and nothing answers. A clock stretch too long ends it with error 1. -/
def Obligations.HeadAttach : Prop :=
  (∀ c s, s.mayWrite c Obj.HEAD_ATTACH → s.attachRefused = false → ∀ i ∈ [(Instr.headAttachFactory c, 1), (.headAttachKeep c, 2)],
    ∃ t, exec i.1 s = .next t ∧ t.getN Obj.HEAD_STATE = 1 ∧ t.getN Obj.HEAD_ATTACH_ERROR = 0 ∧ t.getN Obj.HEAD_ATTACH_PERMILLE = 0 ∧
      t.getN Obj.HEAD_SERIAL = 0 ∧ t.head.identity = none ∧ t.head.attaching = i.2 ∧ t.head.table = s.head.table ∧ t.attachPermille = 0 ∧
      (s.outputsOn = true → t.out = s.out ++ [.i2cRead 0x50 (i2cClock (s.getN Obj.HEAD_I2C_SPEED)) [0, 0, 0] 64]) ∧ (s.outputsOn = false → t.out = s.out) ∧
      t = { s with od := t.od, head := t.head, out := t.out }) ∧
  (∀ c s, s.mayWrite c Obj.HEAD_ATTACH → s.attachRefused = true → exec (.headAttachFactory c) s = .next s ∧ exec (.headAttachKeep c) s = .next s) ∧
  (∀ m s, s.head.attaching ≠ 0 → s.outputsOn = true → attachCheck m ≠ 0 → ∃ t, exec (.headAttachComplete m) s = .next t ∧
    t = { (s.setN Obj.HEAD_STATE 3).setN Obj.HEAD_ATTACH_ERROR (attachCheck m) with
      head := { s.head with attaching := 0, identity := none }, out := t.out } ∧ (m.ack = false → t.out = s.out)) ∧
  (∀ m s, s.head.attaching ≠ 0 → s.outputsOn = false → exec (.headAttachComplete m) s = .next { (s.setN Obj.HEAD_STATE 3).setN
    Obj.HEAD_ATTACH_ERROR 1 with head := { s.head with attaching := 0, identity := none } }) ∧
  (∀ m s dead, s.head.attaching = 1 → s.outputsOn = true → attachCheck m = 0 → let h := memHeader m
    deadList (identityOf h).deadCount (deadTable m) = some dead → s.mirrorsOn = false →
    s.st.heldJob = none → s.st.waitHead = none → ∃ t, exec (.headAttachComplete m) s = .next t ∧ t.getN Obj.HEAD_STATE = 2 ∧
      t.getN Obj.HEAD_ATTACH_PERMILLE = 1000 ∧ t.getN Obj.HEAD_SERIAL = leAt h 40 8 ∧ t.getN Obj.HEAD_PITCH = leAt h 6 1 ∧
      t.getN Obj.HEAD_TSETTLE = leAt h 12 2 ∧ t.head.identity = some (identityOf h) ∧ t.head.attaching = 0 ∧ t.head.edits = [] ∧
      t.head.attachTable = some (factoryTable (s.getN Obj.GATE_WEAK_LEVEL) (effTable m) dead) ∧ t.head.table = s.head.table ∧
      t.out = (s.readMemory m).out) ∧
  (∀ (m : HeadMemory) (s : State), s.outputsOn = true → m.ack = true → (s.readMemory m).out = s.out ++
    (((List.range 6).map fun i => Output.i2cRead 0x50 s.head.attachHz (leBytes 3 (effAt m + 65536 * i)) (min 65536 (384004 - 65536 * i))) ++
    ((List.range (ceilDiv (deadBytes m) 65536)).map fun i =>
      Output.i2cRead 0x50 s.head.attachHz (leBytes 3 (deadAt m + 65536 * i)) (min 65536 (deadBytes m - 65536 * i))))) ∧
  (∀ s, s.head.attaching ≠ 0 → exec .i2cStretchTimeout s = .next { (s.setN Obj.HEAD_STATE 3).setN Obj.HEAD_ATTACH_ERROR 1 with
    head := { s.head with attaching := 0, identity := none } })

/-- R204, R205, R208. An edit of a beam that exists and is not KILLED waits for the epoch boundary; one to KILLED also queues DISABLE; a beam
already KILLED keeps its entry. At the boundary, a decision point with k mod 64 = 0, the epoch counts and the edit takes effect; at
another decision point nothing changes. -/
def Obligations.BeamTableChanges : Prop :=
  (∀ c (v : BitVec 64) s, s.mayWrite c Obj.BEAM_EDIT → let b := bitsOf v.toNat 18 0
    let e := bitsOf v.toNat 63 32
    b < beamCount → bitsOf v.toNat 31 19 = 0 → bitsOf v.toNat 63 60 = 0 → s.isStandby = false → s.head.edits.length < 1024 → s.mirrorsOn = false →
    let u : State := { s.setN Obj.BEAM_EDITS_PENDING (s.head.edits.length + 1) with head := { s.head with edits := s.head.edits ++ [⟨b, e, none⟩] } }
    (beamState (s.beamThen b) ≠ 3 → beamState e ≠ 3 → exec (.beamEdit c v) s = .next u) ∧
    (beamState (s.beamThen b) ≠ 3 → beamState e = 3 → exec (.beamEdit c v) s = .next (u.queueDisable b)) ∧
    (beamState (s.beamThen b) = 3 → exec (.beamEdit c v) s = .next s)) ∧
  (∀ s b e, s.coreOn = true → s.getN Obj.PAIR_STATE ∉ [2, 3, 4] → s.hs.k % 64 = 0 → s.head.epochDone ≠ some s.hs.k → s.head.attachTable = none →
    s.head.results = [] → s.sram.tableUe = [] → s.head.edits = [⟨b, e, none⟩] → b < beamCount → s.head.table.length = 480 →
    ∃ t, exec .beamEpoch s = .next t ∧ s.counts t Obj.BEAM_EPOCH ∧ t.beamEntry b = e ∧ (∀ a < beamCount, a ≠ b → t.beamEntry a = s.beamEntry a) ∧
      t.head.edits = [] ∧ t.getN Obj.BEAM_EDITS_PENDING = 0 ∧ t.head.epochDone = some s.hs.k) ∧
  (∀ s, s.hs.k % 64 ≠ 0 → exec .beamEpoch s = .next s)

/-- R209 to R212. A gate check starts with the cursor kept, runs dark first, and stops on a write of 1; a dark sum above the limit ends it
with state 5 and is entered in the log. A sum is that of GATE_SPAN samples of each shot, from GATE_DELAY samples after its FRAME_SYNC on.
A beam whose shots are all decided fired is measured; otherwise it is measured again, once.
R212. A gate measurement sets the ecode, its age and the state of a beam: WEAK below the weak level, OFF for an ecode outside 0 to 1,023
or at the fault limit; a deviation beyond the tolerance counts one fault, up to 15.
R206. A beam that is OFF or KILLED by then keeps that state.
R213. A full-array image starts with its dark phase; a phase whose shots did not all fire is repeated once and then ends the image; the
lit phase follows the dark one, and the spots of both give the result. -/
def Obligations.BeamTests : Prop :=
  ((∀ c s, s.mayWrite c Obj.GATE_CHECK_START → s.testRefused = false → f32Val (s.getN Obj.GATE_GAIN) ≠ 0 → exec (.gateCheckStart c) s =
    .next { ((s.setN Obj.GATE_STATE 1).setN Obj.GATE_PERMILLE 0).setN Obj.GATE_BEAMS_DONE 0 with
      head := { s.head with gate := some { cursor := s.getN Obj.GATE_CURSOR } } }) ∧
  (∀ c s, s.mayWrite c Obj.GATE_CHECK_START → s.testRefused = true → exec (.gateCheckStart c) s = .next s) ∧
  (∀ c s g, s.mayWrite c Obj.GATE_CHECK_STOP → s.getN Obj.GATE_STATE ∈ [1, 2] → s.head.gate = some g → s.flow.release = false →
    exec (.gateCheckStop c) s = .next { (s.setN Obj.GATE_CURSOR g.at).setN Obj.GATE_STATE 4 with head := { s.head with gate := none } }) ∧
  (∀ (s : State) (xs : Shots), s.getN Obj.GATE_RX_STATE = 1 → xs.length = s.getN Obj.GATE_SHOTS →
    (∀ l ∈ xs, s.getN Obj.GATE_DELAY + s.getN Obj.GATE_SPAN ≤ l.length) → s.gateSum xs =
      some ((xs.map fun l => (((l.drop (s.getN Obj.GATE_DELAY)).take (s.getN Obj.GATE_SPAN)).map BitVec.toInt).sum).sum)) ∧
  (∀ xs x s g, s.gateSum xs = some x → s.head.gate = some g → s.getN Obj.GATE_STATE = 1 → s.getN Obj.GATE_SHOTS ≤ g.sent → s.darkStuck x = false →
    exec (.gateDarkDone xs) s = .next { s.setN Obj.GATE_STATE 2 with head := { s.head with gate := some { g with sent := 0 } } }) ∧
  (∀ xs x s g, s.gateSum xs = some x → s.head.gate = some g → s.getN Obj.GATE_STATE = 1 → s.getN Obj.GATE_SHOTS ≤ g.sent → s.darkStuck x = true →
    exec (.gateDarkDone xs) s = .next (s.gateEnd 5).stuckSuspect) ∧
  (∀ n xs x s g b rest, s.gateSum xs = some x → s.head.gate = some g → g.waiting = b :: rest → s.getN Obj.GATE_STATE = 2 →
    let fired := s.shotsFired (some b) (s.getN Obj.GATE_SHOTS) fun _ => [laneOf b]
    let u := s.at n
    (fired = some true → exec (.gateBeamMeasured n xs) s =
      .next (u.gateMeasured { g with waiting := rest, failed := g.failed.filter (· ≠ b) } b x)) ∧
    (fired = some false → g.failed = [] → exec (.gateBeamMeasured n xs) s =
      .next { u with head := { u.head with gate := some { g with waiting := rest, redo := g.redo ++ [b], failed := [b] } } }) ∧
    (fired = some false → b ∈ g.failed → exec (.gateBeamMeasured n xs) s = .next (u.gateEnd 4)) ∧
    (fired = none → exec (.gateBeamMeasured n xs) s = .next u))) ∧
  (∀ old ec tol weak limit turn, let r := measuredEntry old (some ec) tol weak limit turn
    let f := bitsOf old 27 24
    let off := decide (ec < 0) || decide (1023 < ec)
    let n := if off || decide (tol < (ec - beamEcode old).natAbs) then min 15 (f + 1) else f
    bitsOf r 27 24 = n ∧ bitsOf r 23 12 = turn % 4096 ∧ beamEcode r = (if off then beamEcode old else ec.toNat) ∧
    beamState r = (if 2 ≤ beamState old then beamState old else if limit ≤ n ∨ off then 2 else if ec < weak then 1 else 0)) ∧
  ((∀ c s, s.mayWrite c Obj.IMAGE_START → s.testRefused = false → s.jobState ∉ [1, 2, 4, 6] → exec (.imageStart c) s =
    .next { ((((s.setN Obj.IMAGE_STATE 1).setN Obj.IMAGE_PERMILLE 0).setN Obj.IMAGE_STUCK_FOUND 0).setN Obj.IMAGE_OFF_FOUND 0).setN Obj.SPOT_FAILURE 0
      with cams := { s.cams with spot := {} }, head := { s.head with image := some {} } }) ∧
  (∀ n s g, s.head.image = some g → s.getN Obj.IMAGE_STATE = 1 → s.getN Obj.IMAGE_SHOTS ≤ g.sent → s.cams.spot.dark ≠ [] →
    s.shotsFired none (s.getN Obj.IMAGE_SHOTS) Period.sentLanes = some true →
    exec (.imagePhaseDone n) s = .next { ((s.at n).setN Obj.IMAGE_STATE 2).setN Obj.IMAGE_PERMILLE 500 with head := { s.head with image := some {} } }) ∧
  (∀ n s g, s.head.image = some g → s.getN Obj.IMAGE_STATE = 2 → s.getN Obj.IMAGE_SHOTS ≤ g.sent → s.cams.spot.lit ≠ [] →
    s.shotsFired none (s.getN Obj.IMAGE_SHOTS) Period.sentLanes = some true →
    exec (.imagePhaseDone n) s = .next (s.at n).imageDone) ∧
  (∀ n s g, s.head.image = some g → s.getN Obj.IMAGE_STATE ∈ [1, 2] → s.getN Obj.IMAGE_SHOTS ≤ g.sent → g.repeated = true →
    s.shotsFired none (s.getN Obj.IMAGE_SHOTS) Period.sentLanes = some false →
    exec (.imagePhaseDone n) s = .next { (s.at n).setN Obj.IMAGE_STATE 4 with head := { s.head with image := none } }) ∧
  (∀ c s, s.mayWrite c Obj.IMAGE_START → s.testRefused = true → exec (.imageStart c) s = .next s) ∧
  (∀ n s g, s.head.image = some g → s.getN Obj.IMAGE_STATE = 2 → s.getN Obj.IMAGE_SHOTS ≤ g.sent → g.repeated = false →
    s.shotsFired none (s.getN Obj.IMAGE_SHOTS) Period.sentLanes = some false →
    ∃ t, exec (.imagePhaseDone n) s = .next t ∧ t.head = { s.head with image := some { repeated := true } } ∧ t.cams.spot.dark = s.cams.spot.dark ∧
      t.cams.spot.lit = [] ∧ t = { s.at n with head := t.head, cams := t.cams }) ∧
  (∀ n s, s.shotsFired none (s.getN Obj.IMAGE_SHOTS) Period.sentLanes = none → exec (.imagePhaseDone n) s = .next (s.at n)))

/-- R94, R103 to R105. A free cell of an awake raster side takes the part that waits for it, or the next tile. A computation that its area
unit disagrees with counts one check failure; one that agrees resolves its part, as R105 gives, and counts none.
R108. An idle cell in service runs the reference tiles in turn; the right CRC changes nothing but its count of runs, a wrong one counts
and is charged to the cell. -/
def Obligations.TilesAndShadowTests : Prop :=
  ((∀ j s u, j < 48 → s.rasterOn (j / 12) = true → atD s.units.raster (j / 12) 0 = 2 → s.cellRetired j = false → s.cellBusy j = false →
    s.assignPart j = some u → exec (.tileDispatch j) s = .next u.advanceRaster) ∧
  (∀ j s u v, j < 48 → s.rasterOn (j / 12) = true → atD s.units.raster (j / 12) 0 = 2 → s.cellRetired j = false → s.cellBusy j = false →
    s.assignPart j = none → s.takeNext (j / 12) = some u → u.assignPart j = some v → exec (.tileDispatch j) s = .next v.advanceRaster) ∧
  (∀ j s, s.cellRetired j = true → exec (.tileDispatch j) s = .next s) ∧
  (∀ j f s t p, (s.ras.tiles.find? fun t => t.parts.any (·.cell = some j)) = some t → t.parts.find? (·.cell = some j) = some p →
    s.rasterOn t.region = true → f.valueRails ≤ t.valueRails → let a := (s.compute t p j f).1
    let u : State := { s with ras := { s.ras with runs := modifyAt s.ras.runs j (· + 1)
                                                  tiles := s.ras.tiles.map fun (x : TileJob) =>
                                                    if x.key = t.key then { x with valueRails := max x.valueRails f.valueRails } else x } }
    (a.windOk = true → a.sumOk = true → exec (.tileComplete j f) s =
      .next (((u.resolvePart t p (p.runs ++ [a])).valueStep t.key j).advanceRaster)) ∧
    (a.windOk ≠ a.sumOk → exec (.tileComplete j f) s =
      .next ((((u.inc (Obj.AREA_CHECK_FAILS + t.region)).resolvePart t p (p.runs ++ [a])).valueStep t.key j).advanceRaster)) ∧
    (a.windOk = false → a.sumOk = false → exec (.tileComplete j f) s =
      .next (((((u.inc (Obj.AREA_CHECK_FAILS + t.region)).inc (Obj.AREA_CHECK_FAILS + t.region)).resolvePart t p (p.runs ++ [a])).valueStep
        t.key j).advanceRaster)))) ∧
  ((∀ j s, j < 48 → s.getN Obj.SHADOW_TEST_ENABLE = 1 → s.coreOn = true → s.cellRetired j = false → s.lost (j / 12) = false → s.cellBusy j = false →
    atD s.ras.refRun j none = none → let i := atD s.ras.refNext j 0
    exec (.shadowTest j) s =
      .next { s with ras := { s.ras with refRun := setAt s.ras.refRun j (some i), refNext := setAt s.ras.refNext j ((i + 1) % 16) } }) ∧
  (∀ j s i, atD s.ras.refRun j none = some i → exec (.shadowTestResult j (Config.refTileCrc i)) s =
    .next { s with ras := { s.ras with refRun := setAt s.ras.refRun j none, runs := modifyAt s.ras.runs j (· + 1) } }) ∧
  (∀ j c s i, atD s.ras.refRun j none = some i → c ≠ Config.refTileCrc i → exec (.shadowTestResult j c) s =
    .next (((({ s with ras := { s.ras with refRun := setAt s.ras.refRun j none, runs := modifyAt s.ras.runs j (· + 1) } }).inc
      Obj.SHADOW_TEST_FAILS).chargeCell j ⟨0, i, 0⟩ 4 0).advanceRaster)) ∧
  (∀ j c s, atD s.ras.refRun j none = none → exec (.shadowTestResult j c) s = .next s))

/-- R125, R128, R131, R135. The factors of a coarse column whose density is final are computed once, with the clamped ones counted; a first
rail mismatch is charged and the factors stand, a third leaves them out. The correction block of a lost region goes on with the densities: its
columns are counted and its rails charged as before.
R137 to R139. A fit starts with the marks found in its field and completes with its status, the marks used and its coefficients; too few
marks give status 3. FIT_STAGE puts the twenty coefficients of a successful fit into the staging set, and nothing otherwise. -/
def Obligations.FactorsAndFits : Prop :=
  ((∀ r (col : Nat) rails s st rows n, r < 4 → s.getN Obj.PEC_ENABLE = 1 → s.kernelR ≠ 0 → s.rasterOn r = true →
    s.getN (Obj.CORR_BLOCK_STATE + r) ≠ 1 → s.factorStripe r col = some st → s.newRows r st col = (rows, n) →
    let u := s.countColumn r
    let v := (u.putRows r st.number col rows).add (Obj.FACTOR_CLAMPS + r) n
    (railTries rails = some 0 → exec (.factorCompute r col rails) s = .next v.advanceRaster) ∧
    (railTries rails = some 1 → exec (.factorCompute r col rails) s = .next (v.chargeCorrection r false).advanceRaster) ∧
    (railTries rails = none → exec (.factorCompute r col rails) s = .next (u.chargeCorrection r true).advanceRaster)) ∧
  (∀ r (col : Nat) rails s, r < 4 → s.getN Obj.PEC_ENABLE = 1 → s.kernelR ≠ 0 → s.lost r = true → s.coreOn = true →
    s.getN (Obj.CORR_BLOCK_STATE + r) ≠ 1 → s.jobState ∈ [1, 2, 3, 4] → s.job.abortAt = none → let u := s.countColumn r
    (railTries rails = some 0 → exec (.factorCompute r col rails) s = .next u) ∧
    (railTries rails = some 1 → exec (.factorCompute r col rails) s = .next (u.chargeCorrection r false).advanceRaster))) ∧
  ((∀ c f s, s.mayWrite c Obj.FIT_FIELD → f ≤ 63 → s.getN Obj.FIT_STATUS ≠ 1 → exec (.fitField c f) s =
    .next { (s.setN Obj.FIT_STATUS 1).setN Obj.FIT_FIELD_LAST f with
      fit := some ⟨s.fitField f, s.getN Obj.FIT_ORDER, s.fitPoints (s.fitField f)⟩ }) ∧
  (∀ c f s, s.mayWrite c Obj.FIT_FIELD → s.getN Obj.FIT_STATUS = 1 → exec (.fitField c f) s = .next s) ∧
  (∀ s j, s.fit = some j → j.points.length < fitTerms j.order → ∃ t, exec .fitComplete s = .next t ∧ t.getN Obj.FIT_STATUS = 3 ∧
    t.getN Obj.FIT_MARKS_USED = j.points.length ∧ t.fit = none ∧ t.stg = s.stg) ∧
  (∀ s j a b rs, s.fit = some j → fitResult j (s.getN Obj.FIT_MAX_RESIDUAL) = (2, some (a, b), some rs) →
    (∀ x ∈ a ++ b, -2 ^ 31 ≤ x ∧ x < 2 ^ 31) → ∃ t, exec .fitComplete s = .next t ∧ t.getN Obj.FIT_STATUS = 2 ∧
      t.getN Obj.FIT_MARKS_USED = j.points.length ∧ (∀ i < 10, t.get (Obj.FIT_A + i) = atD a i 0 ∧ t.get (Obj.FIT_B + i) = atD b i 0) ∧
      t.fit = none ∧ t.free = s.free ∧ t.stg = s.stg) ∧
  (∀ c s, s.mayWrite c Obj.FIT_STAGE → s.getN Obj.FIT_STATUS = 2 → s.stg.entries = [] → s.getN Obj.FIT_FIELD_LAST < 64 →
    ∃ t, exec (.fitStage c) s = .next t ∧ t.stg.owner = c.session ∧ t.stg.entries.length = 20 ∧ t.getN Obj.STAGED_ENTRIES = 20 ∧
      (∀ i < 10, t.stagedVal (Obj.FIELD_A + 256 * s.getN Obj.FIT_FIELD_LAST + i) = some (.scalar (s.get (Obj.FIT_A + i))) ∧
        t.stagedVal (Obj.FIELD_B + 256 * s.getN Obj.FIT_FIELD_LAST + i) = some (.scalar (s.get (Obj.FIT_B + i))))) ∧
  (∀ c s, s.mayWrite c Obj.FIT_STAGE → s.getN Obj.FIT_STATUS ≠ 2 → exec (.fitStage c) s = .next s))

/-- R149, R150. The code of a visit is the dose that is left, spread over the visits that are left less the reserve, rounded and clamped to
the cap; nothing left gives code 0 and no dose. No visit overshoots what is left by more than 48, and none gives more than 1,439. -/
def Obligations.DosesOfVisits : Prop :=
  ∀ (rem : Int) (den k h cap : Nat), 512 ≤ den → den ≤ 1535 → 1 ≤ k → cap ≤ 15 → let c := (splitDose rem den k h cap).1
    let d := (splitDose rem den k h cap).2
    let kp := max 1 (k - min h (k - 1))
    c ≤ cap ∧ d ≤ 1439 ∧ (rem ≤ 0 → c = 0 ∧ d = 0) ∧ (0 < rem → -48 ≤ rem - d) ∧
    (0 < rem → c < cap → 2 * (16 * rem - (c * (den * kp) : Nat)).natAbs ≤ den * kp) ∧
    (0 < rem → c = cap → 0 < cap → (2 * (cap * (den * kp)) : Nat) ≤ 32 * rem + (den * kp : Nat))

/-- R154, R189. The flash of the period decided last is computed once, by the active, with the faults of its units; a standby keeps the
faults for the record. A period that is computed is not computed again.
R147, R148, R297. A window word is loaded with the doses left of its four pixels once its tile's values can be taken, and enters the
window at the next boundary. One mismatch of the decompressor is counted and the load stands; two leave it out; a wrong CRC loses
the tile.
R238. An acknowledgement removes the oldest defect records; one of 0 or of more records than there are is refused. -/
def Obligations.FlashesAndWindow : Prop :=
  ((∀ f s p, s.coreOn = true → s.isStandby = false → s.openPeriod = some p → exec (.flashCompute f) s = .next (s.computeActive p f)) ∧
  (∀ f s, s.coreOn = true → s.isStandby = true → exec (.flashCompute f) s = .next { s with pair := { s.pair with ownFaults := some f } }) ∧
  (∀ f s, s.isStandby = false → (∀ p ∈ s.hs.periods, p.computed = true) → exec (.flashCompute f) s = .next s)) ∧
  ((∀ line word s q vs, line < s.lines → s.loaderOn (s.regionOfLine line) = true → s.loadTarget line word = some q → s.loadValues line q = some vs →
    ∀ n < 2, ∀ k, let u : State := { s.add Obj.LOADER_MISMATCHES n with sweep := { s.sweep with loads := s.sweep.loads ++ [(line, q, vs)] } }
      exec (.windowLoad line word ⟨false, n, k⟩) s =
        .next (if u.burnishing then u else u.countLoaded (s.tileOf line (4 * q : Nat)).1 (u.wordCoords q).length)) ∧
  (∀ line word f s q vs, line < s.lines → s.loaderOn (s.regionOfLine line) = true → s.loadTarget line word = some q →
    s.loadValues line q = some vs → 2 ≤ f.inflateMismatches → exec (.windowLoad line word f) s = .next (s.add Obj.LOADER_MISMATCHES 2)) ∧
  (∀ line word n k s q vs, line < s.lines → s.loaderOn (s.regionOfLine line) = true → s.loadTarget line word = some q →
    s.loadValues line q = some vs → n < 2 → exec (.windowLoad line word ⟨true, n, k⟩) s =
      .next ((s.add Obj.LOADER_MISMATCHES n).loadCrcFail (s.tileOf line (4 * q : Nat)).1 k)) ∧
  (∀ line word f s, s.loadTarget line word = none → exec (.windowLoad line word f) s = .next s)) ∧
  ((∀ c n s, s.mayWrite c Obj.DEFECT_ACK → 0 < n → n ≤ s.ledger.defects.length → ∃ t, exec (.defectAck c n) s = .next t ∧
    t.ledger.defects = s.ledger.defects.drop n ∧ t.ledger.entries.length = s.ledger.entries.length ∧ t = { s with ledger := t.ledger }) ∧
  (∀ c n s, s.mayWrite c Obj.DEFECT_ACK → n = 0 ∨ s.ledger.defects.length < n → exec (.defectAck c n) s = .next s))

/-- R290, R291, R294, R300. A lane whose rails agree stores its tile compressed where that is shorter than 4,096 bytes, RAW otherwise, ends a
segment of a Fiufen payload or of a host job, and takes new work; a mismatch counts, is charged and the unit is computed again. A tile that has
waited too long for a lane is stored RAW.
R301 to R303. The next job of the ring goes to the lowest lane that may take one; its descriptor becomes RUNNING with the lane's number.
A descriptor with an operation that does not exist ends with status 10. A resume of lane 0 alone reads that lane's chain again;
a mask of 0 is refused. -/
def Obligations.CompressionWork : Prop :=
  ((∀ l s t, (atD s.spool.lanes l {}).unit = some (.spool t) → s.coreOn = true →
    exec (.compressionUnitDone l true []) s = .next ((((s.unitTaken l).packTile l t).runLanes).advanceRaster)) ∧
  (∀ l s i, (atD s.spool.lanes l {}).unit = some (.residual i) → s.coreOn = true →
    exec (.compressionUnitDone l true []) s = .next ((s.unitTaken l).packResidual i).runLanes) ∧
  (∀ l s e f, (atD s.spool.lanes l {}).unit = some (.fiufen e) → s.coreOn = true →
    exec (.compressionUnitDone l true f) s = .next ((s.unitTaken l).segmentDone l).runLanes) ∧
  (∀ l s i j f, (atD s.spool.lanes l {}).unit = some (.host i) → s.coreOn = true → (s.unitTaken l).hostJob i = some j →
    exec (.compressionUnitDone l true f) s = .next ((s.unitTaken l).hostSegment j f).runLanes) ∧
  (∀ l s u f, (atD s.spool.lanes l {}).unit = some u → s.coreOn = true → exec (.compressionUnitDone l false f) s =
    .next (((s.modLane l fun x => { x with units := x.units + 1 }).laneMismatch l u).runLanes).advanceRaster) ∧
  (∀ (s : State) l (t : SpoolTile), let dyn := decide (s.getN Obj.SPOOL_TABLES = 1)
    let n := (deflateTile dyn t.vals).length
    s.packTile l t = if n < 4096 then ({ s with spool := { s.spool with
        raw := modifyAt s.spool.raw t.region (· + 4096), packed := modifyAt s.spool.packed t.region (· + n) } }).storeTile
      { t with flags := if dyn then 4 else 0, lane := l, length := n } else s.storeTile t.raw) ∧
  (∀ r s t rest, s.coreOn = true → s.spool.redo = [] → s.spool.waiting = t :: rest → t.region = r → exec (.spoolLaneWait r) s =
    .next (({ s with spool := { s.spool with waiting := rest } }).storeTile t.raw).advanceRaster) ∧
  (∀ r s l t rest, s.coreOn = true → s.spool.redo = (l, .spool t) :: rest → t.region = r → exec (.spoolLaneWait r) s =
    .next (({ s with spool := { s.spool with redo := rest } }).storeTile t.raw).advanceRaster)) ∧
  ((∀ v s, v < 2 ^ 32 → exec (.hjProducer v) s = .next (s.setN Obj.HJ_PRODUCER v)) ∧
  (∀ s l d u, s.coreOn = true → s.getN Obj.HJ_CONSUMER ≠ s.getN Obj.HJ_PRODUCER → (List.range 16).find? s.hostLane = some l →
    let c := s.getN Obj.HJ_CONSUMER
    let s1 := s.setN Obj.HJ_CONSUMER ((c + 1) % 2 ^ 32)
    s1.readMem (s1.hjAddr c) 32 [] = (u, some d) →
    let v := u.dramStore (u.hjAddr c + 3) [byte l]
    (leAt d 0 1 = 1 ∨ leAt d 0 1 = 2 → leAt d 1 1 ≤ 3 → leAt d 8 8 % 32 = 0 → leAt d 16 8 % 32 = 0 →
      exec .hjAssign s = .next ((v.dramStore (v.hjAddr c + 2) [1]).modLane l fun x => { x with host := some (jobOf c d) }).runLanes) ∧
    (leAt d 0 1 ≠ 1 → leAt d 0 1 ≠ 2 → exec .hjAssign s = .next (v.endHost (jobOf c d) 10 0))) ∧
  (∀ s, s.getN Obj.HJ_CONSUMER = s.getN Obj.HJ_PRODUCER → exec .hjAssign s = .next s) ∧
  (∀ c s, s.mayWrite c Obj.HJ_RESUME → exec (.hjResume c 1) s = .next (s.resumeHost 0).runLanes ∧ exec (.hjResume c 0) s = .next s))

/-- R265, R266, R281. A channel whose training ends is up at the first of 6400, 5600 and 4800 at which it trains, and the last of the four starts
the fill; one that fails at all three in start-up is lost, reads rate 0, and its trigger 3 arises and is held.
R275, R276. The fill leaves every byte of DRAM 0, no word poisoned and no write queued; with all four channels its state is 1 and the boot goes on in phase
3, or phase 8 with BOOTSEL 0b11; with a channel lost its state is 2 and start-up fails in phase 7 with error 1 and the mask. -/
def Obligations.DramStartUp : Prop :=
  (∀ ch (rates : List Nat) s, ch < 4 → s.pins.porstN = true → s.power = 4 → s.getN Obj.STARTUP_PHASE = 1 → s.pwr.locking.contains (.dram ch) = false →
    s.getN (Obj.MC_STATE + ch) ≠ 1 → s.channelLost ch = false →
    let others := ∀ i < 4, i ≠ ch → s.getN (Obj.MC_STATE + i) = 1 ∨ s.channelLost i = true
    let up (v : Nat) := (s.setN (Obj.MC_STATE + ch) 1).setN (Obj.MC_SPEED + ch) v
    let down := (((s.setN (Obj.MC_STATE + ch) 3).setN (Obj.MC_SPEED + ch) 0).inc Obj.TRIGGERS_HELD).desync 7
    (∀ v, (6400 ∈ rates ∧ v = 6400) ∨ (6400 ∉ rates ∧ 5600 ∈ rates ∧ v = 5600) ∨ (6400 ∉ rates ∧ 5600 ∉ rates ∧ 4800 ∈ rates ∧ v = 4800) →
      (¬others → exec (.dramTrainingDone ch rates) s = .next (up v)) ∧ (others → exec (.dramTrainingDone ch rates) s = .next ((up v).enterPhase 2))) ∧
    (6400 ∉ rates → 5600 ∉ rates → 4800 ∉ rates → (¬others → exec (.dramTrainingDone ch rates) s = .next down) ∧
      (others → exec (.dramTrainingDone ch rates) s = .next (down.enterPhase 2)))) ∧
  (∀ us s, s.power = 4 → s.getN Obj.STARTUP_PHASE = 2 → ∃ t, exec (.dramFillDone us) s = .next t ∧ t.dram.mem = [] ∧ t.dram.poisoned = [] ∧
    (∀ a, memRead t.dram.mem a = 0) ∧ (∀ i, (t.chan i).queue = []) ∧ t.getN Obj.FILL_PERMILLE = 1000 ∧ t.getN Obj.FILL_TIME = us ∧
    t.getN Obj.FILL_POSITION = s.getN Obj.DRAM_CAPACITY / 4 ∧
    (s.lostMask = 0 → t.getN Obj.FILL_STATE = 1 ∧ t.getN Obj.STARTUP_PHASE = (if s.straps.bootsel % 4 = 3 then 8 else 3)) ∧
    (s.lostMask ≠ 0 → t.getN Obj.FILL_STATE = 2 ∧ t.getN Obj.STARTUP_PHASE = 7 ∧ t.getN Obj.STARTUP_ERROR = 1 ∧
      t.getN Obj.STARTUP_DETAIL = s.lostMask) ∧
    t = { s with od := t.od, dram := t.dram, boot := t.boot } ∧
    s.sameObjects t [Obj.FILL_STATE, Obj.FILL_PERMILLE, Obj.FILL_POSITION, Obj.FILL_TIME, Obj.STARTUP_PHASE, Obj.STARTUP_PERMILLE,
      Obj.STARTUP_ERROR, Obj.STARTUP_DETAIL])

/-- R277, R278. The refresh rate of a channel is 1 at 85 degrees or less and 2 above; a refresh that queued requests postpone is owed, up to
three; an activate that brings a row's count to DISTURB_THRESHOLD refreshes the rows within DISTURB_RADIUS of it, a remapped one in its spare row,
counts and starts the row at 0; the counts are cleared once per refresh window.
R255, R281. A parity alert after which the channel retrains is noted and the channel stays; a second within one second, or a retraining that
fails, loses it. A second loss of its PLL's lock in one job loses it too. A lost channel keeps no queued write; on a standby the trigger is held and counted. -/
def Obligations.DramCare : Prop :=
  ((∀ ch ts s, ch < 4 → s.channelLost ch = false → (∀ t ∈ ts, t ≤ 85) → exec (.dramTempPoll ch ts) s = .next (s.setN (Obj.MC_REFRESH_RATE + ch) 1)) ∧
  (∀ ch ts s t, ch < 4 → s.channelLost ch = false → t ∈ ts → 85 < t → exec (.dramTempPoll ch ts) s = .next (s.setN (Obj.MC_REFRESH_RATE + ch) 2)) ∧
  (∀ ch busy s, ch < 4 → s.getN (Obj.MC_STATE + ch) = 1 → s.dram.channels.length = 4 → ∃ t, exec (.refresh ch busy) s = .next t ∧
    (∀ b < 4, atD (t.chan ch).due b 0 = if b ∈ busy then min 3 (atD (s.chan ch).due b 0 + 1) else 0) ∧
    (∀ i, i ≠ ch → t.chan i = s.chan i) ∧ t = { s with dram := { s.dram with channels := t.dram.channels } }) ∧
  (∀ ch bank row s n, ch < 4 → s.getN (Obj.MC_STATE + ch) = 1 → bank < bankCount s.straps.dpop → s.dram.channels.length = 4 →
    kvGet (s.chan ch).activates bank = some [(row, n)] → s.getN Obj.DISTURB_THRESHOLD ≤ n + 1 →
    ∃ t, exec (.neighbourRefresh ch bank [row]) s = .next t ∧ s.counts t (Obj.MC_NEIGHBOUR_REFRESHES + ch) ∧
      kvGet (t.chan ch).activates bank = some [(row, 0)] ∧ t.out = s.out ++ (s.neighbourRows row).map fun x =>
        .rowRefresh ch bank x (((s.chan ch).remap.find? fun e => e.row = x && e.bank = bank).map (·.spare))) ∧
  (∀ (s : State) (row x : Nat), row < rowCount s.straps.dpop → (x ∈ s.neighbourRows row ↔
    x ≠ row ∧ x < rowCount s.straps.dpop ∧ row ≤ x + s.getN Obj.DISTURB_RADIUS ∧ x ≤ row + s.getN Obj.DISTURB_RADIUS)) ∧
  (∀ ch bank row s n, ch < 4 → s.getN (Obj.MC_STATE + ch) = 1 → bank < bankCount s.straps.dpop → s.dram.channels.length = 4 →
    kvGet (s.chan ch).activates bank = some [(row, n)] → n + 1 < s.getN Obj.DISTURB_THRESHOLD →
    ∃ t, exec (.neighbourRefresh ch bank [row]) s = .next t ∧ t.od = s.od ∧ t.out = s.out ∧
      kvGet (t.chan ch).activates bank = some [(row, n + 1)]) ∧
  (∀ ch s, ch < 4 → s.dram.channels.length = 4 → ∃ t, exec (.disturbCountClear ch) s = .next t ∧ (t.chan ch).activates = [] ∧
    t = { s with dram := { s.dram with channels := t.dram.channels } })) ∧
  ((∀ ch t s, ch < 4 → s.getN (Obj.MC_STATE + ch) = 1 → (s.chan ch).parityAt = none → exec (.dramParityAlert ch t true) s =
    .next ((s.at t).modChan ch fun c => { c with parityAt := some t })) ∧
  (∀ ch t p s, ch < 4 → s.getN (Obj.MC_STATE + ch) = 1 → (s.chan ch).parityAt = some p → t ≤ p + secCycles →
    exec (.dramParityAlert ch t true) s = .next (((s.at t).modChan ch fun c => { c with parityAt := some t }).loseChannel ch)) ∧
  (∀ ch t s, ch < 4 → s.getN (Obj.MC_STATE + ch) = 1 → exec (.dramParityAlert ch t false) s =
    .next (((s.at t).modChan ch fun c => { c with parityAt := some t }).loseChannel ch)) ∧
  (∀ ch s, ch < 4 → s.coreOn = true → s.channelLost ch = false → s.jobActive = true → (s.chan ch).pllLosses = 0 → s.dram.channels.length = 4 →
    exec (.dramPllLockLoss ch) s = .next (s.modChan ch fun c => { c with pllLosses := 1 })) ∧
  (∀ ch s, ch < 4 → s.coreOn = true → s.channelLost ch = false → s.jobActive = true → 1 ≤ (s.chan ch).pllLosses → s.dram.channels.length = 4 →
    exec (.dramPllLockLoss ch) s =
      .next ((s.modChan ch fun c => { c with pllLosses := c.pllLosses + 1 }).loseChannel ch)) ∧
  (∀ (ch : Nat) (s : State), s.isStandby = true → s.channelLost ch = false → s.getN Obj.PAIR_STATE = 0 →
    s.loseChannel ch = (((s.setN (Obj.MC_STATE + ch) 3).setN (Obj.MC_SPEED + ch) 0).modChan ch fun c => { c with queue := [] }).inc Obj.TRIGGERS_HELD))

/-- R271, R274, R283. A scrub read whose words are all good, of a burst that no write is queued for, or of a lost channel, only moves on: its position and per-mille follow, and at the end of DRAM a pass is
counted and the position is 0.
R279, R280. A row named by REMAP_ADD that exists and is not remapped is copied to a spare and then stands in the table: a full table
refuses it; one already remapped changes nothing. A copy that is done enters its row, counts and is entered in the log. -/
def Obligations.ScrubbingAndRemapping : Prop :=
  ((∀ s, s.coreOn = true → s.getN Obj.FILL_STATE ≠ 0 → (let ch := channelOf (s.getN Obj.SCRUB_POSITION)
      s.channelLost ch = true ∨ ((s.chan ch).queue.any (·.1 = s.getN Obj.SCRUB_POSITION / 128) = false ∧
        ∀ w ∈ wordsOf (s.getN Obj.SCRUB_POSITION) 128, (s.readOutcome w []).1 = .good)) →
    let n := s.getN Obj.SCRUB_POSITION + 128
    let cap := dramCapacity s.straps.dpop
    ∃ t, exec (.scrubRead []) s = .next t ∧ t.dram.mem = s.dram.mem ∧ t.dram.poisoned = s.dram.poisoned ∧ t.log = s.log ∧
      (n < cap → t.getN Obj.SCRUB_POSITION = n ∧ t.getN Obj.SCRUB_PERMILLE = 1000 * n / cap ∧ t.dram = s.dram) ∧
      (cap ≤ n → t.getN Obj.SCRUB_POSITION = 0 ∧ t.getN Obj.SCRUB_PERMILLE = 1000 ∧ s.counts t Obj.SCRUB_PASSES)) ∧
  (∀ fs s, s.coreOn = false → exec (.scrubRead fs) s = .next s)) ∧
  ((∀ c (v : BitVec 32) s, s.mayWrite c Obj.REMAP_ADD → let row := bitsOf v.toNat 17 0
    let bank := bitsOf v.toNat 22 18
    let ch := bitsOf v.toNat 25 24
    bitOf v.toNat 23 = false → bitsOf v.toNat 31 26 = 0 → row < rowCount s.straps.dpop → bank < bankCount s.straps.dpop →
    s.channelLost ch = false → (s.chan ch).copy = none → (s.chan ch).queued = [] → (s.chan ch).remap.length < 16 →
    (∀ e ∈ (s.chan ch).remap, ¬ (e.row = row ∧ e.bank = bank)) → exec (.remapAdd c v) s =
      .next (s.modChan ch fun x => { x with copy := some ⟨row, bank, 4, x.remap.length⟩ })) ∧
  (∀ c (v : BitVec 32) s, s.mayWrite c Obj.REMAP_ADD → bitOf v.toNat 23 = true → exec (.remapAdd c v) s = .next s) ∧
  (∀ ch s x, ch < 4 → s.dram.channels.length = 4 → (s.chan ch).copy = some x → (s.chan ch).queued = [] → s.channelLost ch = false →
    ∃ t, exec (.remapCopyDone (ch, [])) s = .next t ∧ (t.chan ch).copy = none ∧ (t.chan ch).remap = (s.chan ch).remap ++ [⟨x.row, x.bank, x.cause, x.spare⟩] ∧
      t.getN (Obj.REMAP_USED + ch) = (s.chan ch).remap.length + 1 ∧ t.newestLog 2 10 (Obj.REMAP_USED + ch)) ∧
  (∀ ch fs s, (s.chan ch).copy = none → exec (.remapCopyDone (ch, fs)) s = .next s))

/-- R309, R319. A start of an idle channel at an aligned address in DRAM takes its request, burst and line and reads its first descriptor;
a running channel, an address that is not a multiple of 64 or one beyond DRAM refuses it.
R310 to R318. A granted channel with bytes left moves one burst; with a HOST side it waits for Bus Master Enable and halts with the link
down. When the last byte of a descriptor has been written the channel is DONE or begins the next descriptor; an event on the end
pulses its line, and one that falls together with another's counts as a merge. -/
def Obligations.DmaChannels : Prop :=
  ((∀ w c a fs s, s.mayWrite w (Obj.CH_START + c) → c < 32 → s.coreOn = true → s.dmaActive c = false → a % 64 = 0 → a < s.getN Obj.DRAM_CAPACITY →
    let u := ((s.setN (Obj.CH_STATE + c) 1).setN (Obj.CH_HALT_CAUSE + c) 0).setN (Obj.CH_BYTES + c) 0
    let x : DmaChannel := { request := u.getN (Obj.CH_REQUEST + c), burst := u.getN (Obj.CH_BURST + c), line := u.getN (Obj.CH_EVENT_LINE + c) }
    exec (.chStart w c a fs) s = .next ((u.modDma c fun _ => x).dmaBegin c a fs)) ∧
  (∀ w c a fs s, s.mayWrite w (Obj.CH_START + c) → c < 32 → s.dmaActive c = true ∨ a % 64 ≠ 0 ∨ s.getN Obj.DRAM_CAPACITY ≤ a →
    exec (.chStart w c a fs) s = .next s) ∧
  (∀ (s : State) c, s.dmaActive c = true → (s.dmaCh c).desc = none → s.abortChannel c =
    (s.modDma c fun x => { x with pulses := 0, port := [] }).setN (Obj.CH_STATE + c) 5)) ∧
  ((∀ c i s d, (s.dmaCh c).desc = some d → s.coreOn = true → s.dmaActive c = true → s.dmaGranted c = true → (s.dmaCh c).port = [] →
    (s.dmaCh c).moved < d.length →
    (d.host = false → exec (.dmaBurst c i) s = .next (s.dmaMove c d i)) ∧
    (d.host = true → s.host.up = true → s.host.busMaster = true → exec (.dmaBurst c i) s = .next (s.dmaMove c d i)) ∧
    (d.host = true → s.host.up = true → s.host.busMaster = false → exec (.dmaBurst c i) s = .next s) ∧
    (d.host = true → s.host.up = false → exec (.dmaBurst c i) s = .next (s.dmaHostHalt c d))) ∧
  (∀ c x fs s d, (s.dmaCh c).desc = some d → s.dmaActive c = true → (s.dmaCh c).moved = d.length → (s.dmaCh c).port = [] →
    (d.eventOnEnd = false → d.next = 0 → exec (.dmaDescriptorEnd c x fs) s = .next (s.setN (Obj.CH_STATE + c) 3)) ∧
    (d.eventOnEnd = false → d.next ≠ 0 → exec (.dmaDescriptorEnd c x fs) s = .next (s.dmaBegin c d.next fs)) ∧
    (d.eventOnEnd = true → d.next = 0 → exec (.dmaDescriptorEnd c false fs) s =
      .next ((s.pulseLine (s.dmaCh c).line).setN (Obj.CH_STATE + c) 3)) ∧
    (d.eventOnEnd = true → d.next = 0 → exec (.dmaDescriptorEnd c true fs) s =
      .next ((s.inc Obj.EVENT_MERGES).setN (Obj.CH_STATE + c) 3))) ∧
  (∀ (s : State) c cause addr, (s.dmaCh c).desc = none → ∃ t, s.dmaHalt c cause addr = t ∧ t.getN (Obj.CH_STATE + c) = 4 ∧
    t.getN (Obj.CH_HALT_CAUSE + c) = cause ∧ t.getN (Obj.CH_HALT_ADDR + c) = addr ∧ t.newestLog 4 15 (Obj.CH_HALT_CAUSE + c)))

/-- R24, R323 to R325. A write of 1, 2 or 4 bytes to a feed port runs the register over its bytes, lowest first, and counts them; one that a channel
holds at a port is accepted once it finds space. With the core clock stopped nothing is fed.
R24, R323, R327, R328. A written value below the width is taken, another is refused; CU_INIT and CU_POLY start the register at the initial value
of the algorithm with no byte counted; a state read answers the register, or the register with the final XOR; a latch completes with
the oldest captured value and its count of bytes. With the core clock stopped none of these but the reading changes anything. -/
def Obligations.CheckValueUnits : Prop :=
  ((∀ u (v : BitVec 8) s, u < 4 → s.coreOn = true → exec (.cuFeed8 u v) s = .next (s.cuFeed u [v])) ∧
  (∀ u (v : BitVec 16) s, u < 4 → s.coreOn = true → exec (.cuFeed16 u v) s = .next (s.cuFeed u (leBytes 2 v.toNat))) ∧
  (∀ u (v : BitVec 32) s, u < 4 → s.coreOn = true → exec (.cuFeed32 u v) s = .next (s.cuFeed u (leBytes 4 v.toNat))) ∧
  (∀ u (b : BitVec 8) (w : BitVec 16) (d : BitVec 32) s, s.coreOn = false →
    exec (.cuFeed8 u b) s = .next s ∧ exec (.cuFeed16 u w) s = .next s ∧ exec (.cuFeed32 u d) s = .next s) ∧
  (∀ c u s d, u < 4 → (s.dmaCh c).desc = some d → d.dstSpace = 2 → d.dst = u → (s.dmaCh c).port ≠ [] →
    s.cuLevel u + (s.dmaCh c).port.length ≤ 8192 → exec (.cuPortWrite c u) s =
      .next (((s.cuFeed u (s.dmaCh c).port).dmaWrote c (s.dmaCh c).port.length).modDma c fun x => { x with port := [] })) ∧
  (∀ c u s d, (s.dmaCh c).desc = some d → 8192 < s.cuLevel u + (s.dmaCh c).port.length → exec (.cuPortWrite c u) s = .next s) ∧
  (∀ u bs (s : State), u < 4 → ∃ t, s.cuFeed u bs = t ∧
    t.getN (Obj.CU_VALUE + u) = cuRun (s.getN (Obj.CU_POLY + u)) (s.getN (Obj.CU_VALUE + u)) bs ∧ t = { s with od := t.od, cus := t.cus } ∧
    s.sameObjects t [Obj.CU_VALUE + u, Obj.CU_BYTES + u])) ∧
  ((∀ u (v : BitVec 64) s, u < 4 → s.coreOn = true → v.toNat < 2 ^ cuWidth (s.getN (Obj.CU_POLY + u)) →
    exec (.cuValueWrite u v) s = .next (s.setN (Obj.CU_VALUE + u) v.toNat)) ∧
  (∀ u (v : BitVec 64) s, u < 4 → 2 ^ cuWidth (s.getN (Obj.CU_POLY + u)) ≤ v.toNat → exec (.cuValueWrite u v) s = .next s) ∧
  (∀ u s, u < 4 → s.coreOn = true → exec (.cuInit u) s =
    .next ((s.setN (Obj.CU_VALUE + u) (cuInitial (s.getN (Obj.CU_POLY + u)))).setN (Obj.CU_BYTES + u) 0)) ∧
  (∀ u p s, u < 4 → s.coreOn = true → p ≤ 3 → exec (.cuPoly u p) s =
    .next (((s.setN (Obj.CU_POLY + u) p).setN (Obj.CU_VALUE + u) (cuInitial p)).setN (Obj.CU_BYTES + u) 0)) ∧
  (∀ u s, u < 4 → exec (.cuStateRead u false) s = .next (s.emit (.reading (Obj.CU_VALUE + u) (leBytes 8 (s.getN (Obj.CU_VALUE + u))))) ∧
    exec (.cuStateRead u true) s =
      .next (s.emit (.reading (Obj.CU_RESULT + u) (leBytes 8 (s.getN (Obj.CU_VALUE + u) ^^^ cuFinal (s.getN (Obj.CU_POLY + u))))))) ∧
  (∀ u s r n rest, u < 4 → s.coreOn = true → (s.cu u).latches = (r, n) :: rest → exec (.cuLatch u) s =
    .next { ((s.setN (Obj.CU_LATCH + u) r).setN (Obj.CU_LATCH_BYTES + u) n).inc (Obj.CU_LATCH_COUNT + u) with
      cus := modifyAt s.cus u fun (c : CheckUnit) => { c with latches := rest } }) ∧
  (∀ u (v : BitVec 64) p s, s.coreOn = false →
    exec (.cuValueWrite u v) s = .next s ∧ exec (.cuInit u) s = .next s ∧ exec (.cuPoly u p) s = .next s ∧ exec (.cuLatch u) s = .next s))

/-- R330, R331, R332, R335. A frame start opens a frame numbered one on and counts it. A good line joins its frame and the line buffer; one
whose CRC fails is replaced by the line before it, flags the frame and counts; one that finds no room drops the frame whole. Embedded
data is kept up to 16,384 bytes. A packet discarded by its header counts. At the frame end, or when no line comes for ten line periods,
the frame closes, with its flags. -/
def Obligations.CameraPackets : Prop :=
  (∀ p t n s, p < 2 → s.getN (Obj.CAM_STATE + p) = 1 ∨ s.getN (Obj.CAM_STATE + p) = 3 → (s.cam p).frame = none →
    let u : State := (s.at t).modCam p fun c => { c with
      frame := some ⟨(s.cam p).seq + 1, n % 65536, (s.at t).now, 0, (s.at t).clk.cycle, (s.at t).clk.cycle, [], 0, 0, [], (s.at t).camCfg p⟩
      seq := c.seq + 1 }
    exec (.csiFrameStart p t n) s = .next ((u.setN (Obj.CAM_STATE + p) 2).inc (Obj.FRAMES_RECEIVED + p))) ∧
  (∀ p t px s f, p < 2 → s.getN (Obj.CAM_STATE + p) = 2 → let u := State.runPipe 100 t (s.at t)
    let w := 8 + 2 * (f.cfg.dtype - 0x2A)
    (u.cam p).frame = some f → px.length = f.cfg.width → f.received < f.cfg.height → (u.lineTime p).buffered p u.clk.cycle + f.cfg.width ≤ 32768 →
    let g : CamFrame := { f with lines := (px.map fun x => x % 2 ^ w * 2 ^ (16 - w)) :: f.lines, received := f.received + 1, lastAt := u.clk.cycle }
    exec (.csiLine p t false true px) s = .next ((u.lineTime p).modCam p fun c => { c with
      frame := some g, buffer := c.buffer ++ [(u.clk.cycle, f.cfg.width)] })) ∧
  (∀ p t px s f, p < 2 → s.getN (Obj.CAM_STATE + p) = 2 → let u := State.runPipe 100 t (s.at t)
    (u.cam p).frame = some f → f.received < f.cfg.height → (u.lineTime p).buffered p u.clk.cycle + f.cfg.width ≤ 32768 →
    let g : CamFrame := { f with lines := f.lines.headD (List.replicate f.cfg.width 0) :: f.lines, received := f.received + 1, flags := f.flags ||| 16,
                                 lastAt := u.clk.cycle }
    exec (.csiLine p t false false px) s = .next (((u.lineTime p).inc (Obj.CRC_ERRORS + p)).modCam p fun c => { c with
      frame := some g, buffer := c.buffer ++ [(u.clk.cycle, f.cfg.width)] })) ∧
  (∀ p t ok px s f, p < 2 → s.getN (Obj.CAM_STATE + p) = 2 → let u := State.runPipe 100 t (s.at t)
    (u.cam p).frame = some f → f.received < f.cfg.height → 32768 < (u.lineTime p).buffered p u.clk.cycle + f.cfg.width →
    exec (.csiLine p t false ok px) s = .next ((u.lineTime p).dropFrame p)) ∧
  (∀ p bs s f, (s.cam p).frame = some f → exec (.csiEmbeddedData p bs) s =
    .next (s.modCam p fun c => { c with frame := some { f with emb := (f.emb ++ bs).take 16384 } })) ∧
  (∀ p why s, p < 2 → s.getN (Obj.CAM_STATE + p) ≠ 0 → s.getN (Obj.CAM_STATE + p) ≠ 4 → exec (.csiPacketDiscard p why) s =
    .next (s.inc ((if why = .uncorrectableHeader then Obj.ECC_UNCORRECTABLE else Obj.PACKETS_DISCARDED) + p))) ∧
  (∀ p t s f, p < 2 → s.getN (Obj.CAM_STATE + p) = 2 → (s.cam p).frame = some f → f.cfg.height ≤ f.received →
    let g : CamFrame := { f with feTime := (s.at t).now }
    let u := (s.at t).modCam p fun c => { c with frame := none, closed := c.closed ++ [g] }
    exec (.csiFrameEnd p t) s = .next ((((u.setN (Obj.CAM_STATE + p) 1).offerMark p g).offerSpot p g).refreshCams)) ∧
  (∀ p t s f, p < 2 → s.getN (Obj.CAM_STATE + p) = 2 → (s.cam p).frame = some f → f.received < f.cfg.height →
    let g : CamFrame := { f with feTime := (s.at t).now, flags := setBit f.flags 0 }
    let u := ((s.at t).inc (Obj.SHORT_FRAMES + p)).modCam p fun c => { c with frame := none, closed := c.closed ++ [g] }
    exec (.csiFrameEnd p t) s = .next ((((u.setN (Obj.CAM_STATE + p) 1).offerMark p g).offerSpot p g).refreshCams)) ∧
  (∀ p t s f, (s.cam p).frame = some f →
    let lim := if s.getN (Obj.LINE_PERIOD + p) = 0 then 10 * msCycles else nsCycles (10 * s.getN (Obj.LINE_PERIOD + p))
    (f.lastAt + lim ≤ t → exec (.camLineTimeout p t) s = .next ((s.at t).closeFrame p true)) ∧
    (t < f.lastAt + lim → exec (.camLineTimeout p t) s = .next s))

/-- R333, R338, R341. The oldest closed frame is published on the outputs that are on: a complete one on all, an incomplete one on the coding
output alone; the image is written before its record and the slot moves on. A port in state 4 publishes nothing until its restart. -/
def Obligations.FramePublication : Prop :=
  (∀ p s f rest a n, (s.cam p).closed = f :: rest → s.getN (Obj.CAM_STATE + p) ≠ 4 → f.complete = false → f.cfg.outs = [a, ⟨n, 1, true⟩] →
    let u := s.modCam p fun c => { c with closed := rest }
    exec (.camFramePublish p) s = .next (((u.publish p 1 f (codingBytes f.cfg f.ycc f.lines.length)).inc (Obj.FRAMES_PUBLISHED + p)).modCam p
      fun c => { c with drops := 0 })) ∧
  (∀ p s f rest, (s.cam p).closed = f :: rest → s.getN (Obj.CAM_STATE + p) ≠ 4 → f.cfg.outs = [] →
    exec (.camFramePublish p) s = .next (s.modCam p fun c => { c with closed := rest })) ∧
  (∀ p s f rest, (s.cam p).closed = f :: rest → s.getN (Obj.CAM_STATE + p) = 4 →
    exec (.camFramePublish p) s = .next (s.modCam p fun c => { c with closed := rest })) ∧
  (∀ (s : State) p o f img g last, f.cfg.outs[o]? = some g → s.getN (Obj.OUT_LAST_SLOT + (3 * p + o)) = last → last ≠ 0xFF →
    (s.cam p).rings[o]? = some g.base → 0 < g.slots → let slot := (last + 1) % g.slots
    let a := g.base + slot * f.cfg.slotSize o
    s.publish p o f img = ((((s.dramStore (a + 256) img).dramStore a (f.record p o ((s.dramStore (a + 256) img).cam p).drops)).setN
      (Obj.OUT_LAST_SLOT + (3 * p + o)) slot).modCam p fun c => { c with rings := setAt c.rings o g.base })) ∧
  (∀ c p s, s.mayWrite c (Obj.CAM_RESTART + p) → s.getN (Obj.CAM_STATE + p) = 4 →
    exec (.camRestart c p) s = .next (s.setN (Obj.CAM_STATE + p) 0).refreshCams) ∧
  (∀ c p s, s.mayWrite c (Obj.CAM_RESTART + p) → s.getN (Obj.CAM_STATE + p) ≠ 4 → exec (.camRestart c p) s = .next s)

/-- R343, R344. A request for a mark of the table waits for a frame; one for another mark, or while a measurement waits, changes nothing. The
result enters the mark's entry, its X and Y only where the mark was found; a rail mismatch gives RAIL and no frame NO_FRAME.
R345, R346. The strobe of a phase rises and gets its end; without a port that runs and is triggered the finder fails with cause 5. The sums
of a dark frame are kept; those of a lit one give the median. A rail mismatch is cause 3, too few spots cause 4, no frame cause 1. -/
def Obligations.MarksAndSpots : Prop :=
  ((∀ c bs s i, s.mayWrite c Obj.MF_REQUEST → bs.length = 32 → (s.cams.marks.findIdx? fun m => m.id = leAt bs 0 2) = some i → leAt bs 2 1 ≤ 1 →
    leAt bs 3 1 = 0 → 8 ≤ leAt bs 4 2 → leAt bs 4 2 ≤ 512 → leAt bs 6 2 = 0 → leAt bs 24 8 = 0 → s.getN Obj.MF_STATE ≠ 1 →
    s.getN (Obj.CAM_STATE + leAt bs 2 1) ≠ 0 → s.getN (Obj.CAM_STATE + leAt bs 2 1) ≠ 4 → exec (.mfRequest c 0 bs) s =
      .next { s.setN Obj.MF_STATE 1 with
        cams := { s.cams with mf := some ⟨i, leAt bs 2 1, leAt bs 4 2, leAtI bs 8 8, leAtI bs 16 8, s.clk.cycle, none⟩ } }) ∧
  (∀ c off bs s, s.mayWrite c Obj.MF_REQUEST →
    off ≠ 0 ∨ bs.length ≠ 32 ∨ (s.cams.marks.findIdx? fun m => m.id = leAt bs 0 2) = none ∨ s.getN Obj.MF_STATE = 1 →
    exec (.mfRequest c off bs) s = .next s) ∧
  (∀ s r f m o, s.cams.mf = some r → r.frame = some f → s.lay.marks[r.mark]? = some m →
    measureMark (s.camGeometry r.port) (s.getN Obj.MF_MIN_CONTRAST) r m f.vision = o → exec (.mfResult true) s =
    .next { s.setN Obj.MF_STATE 2 with cams := { s.cams with mf := none, marks := modifyAt s.cams.marks r.mark fun x => ⟨x.id, o.status, r.port, o.ratio,
      o.contrast, (o.pos.map (·.1)).getD x.x, (o.pos.map (·.2)).getD x.y, f.seq⟩ } }) ∧
  (∀ s r f m, s.cams.mf = some r → r.frame = some f → s.lay.marks[r.mark]? = some m → exec (.mfResult false) s =
    .next { s.setN Obj.MF_STATE 2 with
      cams := { s.cams with mf := none, marks := modifyAt s.cams.marks r.mark fun x => { x with status := 8, port := r.port, seq := f.seq } } }) ∧
  (∀ s r, s.cams.mf = some r → r.frame = none → exec .mfTimeout s = .next { s.setN Obj.MF_STATE 2 with
    cams := { s.cams with mf := none, marks := modifyAt s.cams.marks r.mark fun x => { x with status := 7, port := r.port } } }) ∧
  (∀ s, s.cams.mf = none → exec .mfTimeout s = .next s)) ∧
  ((∀ s, let p := s.getN Obj.SPOT_PORT
    let ph := s.getN Obj.IMAGE_STATE
    ph ∈ [1, 2] → s.camState p ≠ 0 → s.camState p ≠ 4 → s.getN (Obj.CAM_TRIGGER + p) = 2 → s.on (Obj.CAM_STROBE_ENABLE + p) = true →
    ∃ t e, exec .spotStrobe s = .next t ∧ t.getN Obj.SPOT_STATE = ph ∧ t.cams = { s.cams with spot := { s.cams.spot with
      strobeAt := some s.clk.cycle, frame := none } } ∧ t.pins = { s.pins with strobeEnd := kvSet s.pins.strobeEnd p e } ∧
      t.out = s.out ++ [.strobe p true] ∧ s.clk.cycle + nsCycles (s.getN Obj.SPOT_LEAD) + s.getN Obj.IMAGE_SHOTS * s.getN Obj.FLASH_PERIOD - s.tsettle = e ∧
      t = { s with od := t.od, cams := t.cams, pins := t.pins, out := t.out } ∧ s.sameObjects t [Obj.SPOT_STATE]) ∧
  (∀ s, s.getN Obj.IMAGE_STATE ∈ [1, 2] → s.camState (s.getN Obj.SPOT_PORT) = 0 ∨ s.getN (Obj.CAM_TRIGGER + s.getN Obj.SPOT_PORT) ≠ 2 →
    exec .spotStrobe s = .next (s.spotFail 5)) ∧
  (∀ s f, s.cams.spot.frame = some f → s.getN Obj.SPOT_STATE = 1 → 307200 ≤ 2 * ((s.spotSums f).filter (· ≠ 0xFFFFFFFF)).length →
    exec (.spotSumsDone true) s =
      .next { s with cams := { s.cams with spot := { s.cams.spot with strobeAt := none, frame := none, dark := s.spotSums f } } }) ∧
  (∀ s f, s.cams.spot.frame = some f → s.getN Obj.SPOT_STATE = 2 → 307200 ≤ 2 * ((s.spotSums f).filter (· ≠ 0xFFFFFFFF)).length →
    ∃ t, exec (.spotSumsDone true) s = .next t ∧ t.getN Obj.SPOT_STATE = 3 ∧ t.cams.spot.lit = s.spotSums f ∧ t.cams.spot.dark = s.cams.spot.dark ∧
      t.log = s.log ∧ s.sameObjects t [Obj.SPOT_STATE, Obj.SPOT_MEDIAN]) ∧
  (∀ s f, s.cams.spot.frame = some f → s.getN Obj.SPOT_STATE ∈ [1, 2] → exec (.spotSumsDone false) s = .next (s.spotFail 3)) ∧
  (∀ s f, s.cams.spot.frame = some f → s.getN Obj.SPOT_STATE ∈ [1, 2] → 2 * ((s.spotSums f).filter (· ≠ 0xFFFFFFFF)).length < 307200 →
    exec (.spotSumsDone true) s = .next (s.spotFail 4)) ∧
  (∀ s t, s.cams.spot.strobeAt = some t → s.cams.spot.frame = none → kvGet s.pins.strobeEnd (s.getN Obj.SPOT_PORT) = none →
    exec .spotTimeout s = .next (s.spotFail 1)) ∧
  (∀ s, s.cams.spot.strobeAt = none → exec .spotTimeout s = .next s) ∧
  (∀ (s : State) k, s.getN Obj.IMAGE_STATE ∉ [1, 2] → ∃ t, s.spotFail k = t ∧ t.getN Obj.SPOT_STATE = 4 ∧ t.getN Obj.SPOT_FAILURE = k ∧
    t.head = { s.head with image := none } ∧ s.sameObjects t [Obj.SPOT_STATE, Obj.SPOT_FAILURE]))

/-- R365, R366. A write of a mask adds its items to the queue, and CAL_STATE reads WAITING where it read IDLE. At its turn the lowest item
queued leaves the queue and runs, or ends with status 4 where a prerequisite is missing; an item that needs a gap waits for it. An
ended item has its status and time, and one with a status above 1 is entered in the error log.
R363, R369, R370. Item 0 sets the error of REFCLK in ppb and the increment it suggests, and is implausible above 100,000 ppb; item 1 sets
the skew measured and commits the trims that bring each group to its target. A REFCAL out of range gives status 3.
R209, R371, R372. Item 2 commits the gate offset within its limit, item 3 the gate gain within its change, from the samples of the gate
link once every shot has been sent and decided. In items 3 and 4 a dark sum above the limit gives status 3 and suspects a beam stuck on, and a
shot not fired twice gives status 3. Item 4 gives its results to the beam table together, unless too many beams would go off. -/
def Obligations.CalibrationOfClockAndGate : Prop :=
  ((∀ c m s, s.mayWrite c Obj.CAL_START → 0 < m → m ≤ 0x1FF → s.coreOn = true → s.getN Obj.CAL_STATE = 0 → s.getN Obj.CAL_QUEUE = 0 →
    exec (.calStart c m) s = .next ((s.setN Obj.CAL_QUEUE m).setN Obj.CAL_STATE 1)) ∧
  (∀ c m s, s.mayWrite c Obj.CAL_START → m = 0 ∨ 0x1FF < m → exec (.calStart c m) s = .next s) ∧
  (∀ s i, s.calNext = some i → s.getN Obj.CAL_STATE ≠ 2 → s.coreOn = true → i ∉ [1, 2, 3, 4, 5] ∨ s.calMayGap = true → s.calReady i = true →
    exec .calItemStart s = .next (({ ((s.setN Obj.CAL_QUEUE (clearBit (s.getN Obj.CAL_QUEUE) i)).setN Obj.CAL_ITEM i).setN Obj.CAL_PERMILLE 0 with
      cal := { s.cal with first := none, begun := s.hs.k, cycle := s.clk.cycle, sent := 0, redo := [], tried := [], missed := false } }).setN Obj.CAL_STATE 2)) ∧
  (∀ s i, s.calNext = some i → s.getN Obj.CAL_STATE ≠ 2 → s.coreOn = true → i ∉ [1, 2, 3, 4, 5] ∨ s.calMayGap = true → s.calReady i = false →
    exec .calItemStart s = .next (({ ((s.setN Obj.CAL_QUEUE (clearBit (s.getN Obj.CAL_QUEUE) i)).setN Obj.CAL_ITEM i).setN Obj.CAL_PERMILLE 0 with
      cal := { s.cal with first := none, begun := s.hs.k, cycle := s.clk.cycle, sent := 0, redo := [], tried := [], missed := false } }).calFinish 4)) ∧
  (∀ s i, s.calNext = some i → i ∈ [1, 2, 3, 4, 5] → s.calMayGap = false → exec .calItemStart s = .next s) ∧
  (∀ (s : State) st i, s.getN Obj.CAL_ITEM = i → i < 9 → st < 7 → s.flow.release = false → ∃ t, s.calFinish st = t ∧ t.getN (Obj.CAL_STATUS + i) = st ∧
    t.getN (Obj.CAL_TIME + i) = s.now ∧ t.getN Obj.CAL_STATE = (if s.getN Obj.CAL_QUEUE = 0 then 0 else 1) ∧
    (st = 1 → t.getN Obj.CAL_PERMILLE = 1000 ∧ t.log = s.log) ∧ (2 ≤ st → t.newestLog 2 15 (Obj.CAL_STATUS + i)) ∧ t.stg = s.stg)) ∧
  ((∀ (c : Nat) s, s.calRuns 0 = true → let e : Nat := 40 * (10000000 * s.getN Obj.CAL_REF_SECONDS)
    let err := rneDiv (1000000000 * ((c : Int) - e)) e
    (0 < c → err.natAbs ≤ 100000 → exec (.calRefclkDone c true) s = .next (((s.set Obj.REFCLK_ERROR err).setN Obj.SUGGESTED_INCREMENT
      (rneDivN (171798691840 * e) c)).calFinish 1)) ∧
    (0 < c → 100000 < err.natAbs → exec (.calRefclkDone c true) s = .next (s.calFinish 2)) ∧
    exec (.calRefclkDone c false) s = .next (s.calFinish 3)) ∧
  (∀ edges s, s.calRuns 1 = true → edges.length = 8 → (∀ l ∈ edges, l.length = 64) → let means := edges.map meanI
    let m := means.map (· - means.foldl (· + ·) 0 / 8)
    let off := m.mapIdx fun k x => (s.get (Obj.FIRE_SKEW_TARGET + k) : Rat) - x
    ((∀ x ∈ off, absQ x ≤ 1250) → (∀ l ∈ edges, varianceI l ≤ 2500) → exec (.calStrobeSkewDone edges true) s =
      .next ((((m.mapIdx fun k x => (k, x)).foldl (fun (s : State) p => s.set (Obj.FIRE_SKEW_MEASURED + p.1) (rneQ p.2)) s).commitOwn
        (off.mapIdx fun k x => (Obj.FIRE_TRIM + k, StagedVal.scalar (rneQ (x * 8 / 625))))).calFinish 1)) ∧
    ((∃ x ∈ off, 1250 < absQ x) → exec (.calStrobeSkewDone edges true) s = .next (s.calFinish 2)) ∧
    exec (.calStrobeSkewDone edges false) s = .next (s.calFinish 3)) ∧
  (∀ b s, exec (.refcalPresentChange b) s = .next (s.setN Obj.REFCAL_PRESENT (b2n b))) ∧
  (∀ c s, s.calRuns 0 = false → exec (.calRefclkDone c true) s = .next s)) ∧
  ((∀ xs sum s b, s.calRuns 2 = true → s.calShotsDone = true → s.gateSum xs = some sum →
    let o := f64Div (sum : Rat) (f64Mul (s.getN Obj.GATE_SHOTS) (s.getN Obj.GATE_SPAN))
    f32Bits o = some b → (absQ o ≤ f32Val (s.getN Obj.GATE_OFFSET_LIMIT) → exec (.calGateOffsetDone xs) s =
      .next ((s.commitOwn [(Obj.GATE_OFFSET, .scalar b)]).calFinish 1)) ∧
    (f32Val (s.getN Obj.GATE_OFFSET_LIMIT) < absQ o → exec (.calGateOffsetDone xs) s = .next (s.calFinish 2))) ∧
  (∀ n dark xs d sum s b, s.calRuns 3 = true → s.cal.missed = false → s.calShotsDone = true → s.gateSum dark = some d → s.darkStuck d = false →
    s.gateSum xs = some sum → let g := s.gainOf sum
    let old := f32Val (s.getN Obj.GATE_GAIN)
    f32Bits g = some b → (0 < g → old = 0 ∨ 100 * absQ (g - old) ≤ (s.getN Obj.GATE_GAIN_CHANGE : Rat) * absQ old →
      exec (.calGateGainDone n dark xs) s = .next (((s.at n).commitOwn [(Obj.GATE_GAIN, .scalar b)]).calFinish 1)) ∧
    (g ≤ 0 → exec (.calGateGainDone n dark xs) s = .next ((s.at n).calFinish 2))) ∧
  (∀ n dark xs d s, s.cal.missed = false → s.calShotsDone = true → s.gateSum dark = some d → s.darkStuck d = true → s.gateSum xs ≠ none →
    (s.calRuns 3 = true → exec (.calGateGainDone n dark xs) s = .next ((s.at n).calFinish 3).stuckSuspect) ∧
    (s.calRuns 4 = true → ∀ b, exec (.calBeamEfficiencyDone n dark [(b, xs)]) s = .next ((s.at n).calFinish 3).stuckSuspect)) ∧
  (∀ n dark xs s, s.cal.missed = true → (s.calRuns 3 = true → exec (.calGateGainDone n dark xs) s = .next ((s.at n).calFinish 3)) ∧
    (s.calRuns 4 = true → ∀ bs, exec (.calBeamEfficiencyDone n dark bs) s = .next ((s.at n).calFinish 3))) ∧
  (∀ t dark (beams : List (Nat × Shots)) d vs s, s.calRuns 4 = true → s.cal.missed = false → s.calShotsDone = true → s.gateSum dark = some d →
    s.darkStuck d = false → s.gateSums (beams.map (·.2)) = some vs →
    let res := (((beams.map (·.1)).zip vs).filter fun p => s.measurable p.1).map fun p => (p.1, s.beamThen p.1, s.ecodeOf p.2)
    let new := res.map fun r => (r.1, measuredEntry r.2.1 r.2.2 (s.getN Obj.GATE_EFF_TOLERANCE) (s.getN Obj.GATE_WEAK_LEVEL)
      (s.getN Obj.GATE_FAULT_LIMIT) (s.getN Obj.TURNAROUND_COUNT))
    (1000 * (res.filter fun r => outOfRange r.2.2).length ≤ s.getN Obj.BEAM_OFF_LIMIT * res.length → ∃ n,
      exec (.calBeamEfficiencyDone t dark beams) s = .next (((((s.at t).setN Obj.BEAM_RESULTS_OFF (new.filter fun e => beamState e.2 = 2).length).setN
        Obj.BEAM_RESULTS_CHANGED n).addResults new).calFinish 1)) ∧
    (s.getN Obj.BEAM_OFF_LIMIT * res.length < 1000 * (res.filter fun r => outOfRange r.2.2).length →
      exec (.calBeamEfficiencyDone t dark beams) s = .next ((s.at t).calFinish 2))))

/-- R373, R374. A scan whose stage stood still and that crosses once adds its point; a wide scan, a full set, no single edge or a shot not
fired twice gives status 3. The solution commits gain and offset of every axis with two points or more, each plausible, and empties the set;
without such an axis it ends with status 4. A write of 1 to DEFL_POINTS_CLEAR empties the set.
R375. The dark item commits the mean of each colour phase as its black level, up to the limit; the flat item commits the shading grid of
its port and turns the shading on, unless a gain is out of range; ten seconds without the frames end either with status 3. -/
def Obligations.CalibrationOfDeflectorAndCameras : Prop :=
  ((∀ n dark steps ps d sums s, s.calRuns 5 = true → steps.length = s.getN Obj.DEFL_SCAN_STEPS → ps ≠ [] → s.cal.missed = false →
    s.calShotsDone = true → s.gateSum dark = some d → s.darkStuck d = false → s.gateSums steps = some sums →
    let a := s.getN Obj.DEFL_SCAN_AXIS
    let hi := ps.foldl max (ps.headD 0)
    let lo := ps.foldl min (ps.headD 0)
    let p := rneDiv (ps.foldl (· + ·) 0) ps.length
    let u : Int := if a = 1 then s.get Obj.DEFL_EDGE_Y - p
      else if s.getN Obj.SWEEP_DIRECTION = 1 then p - s.get Obj.DEFL_EDGE_X else s.get Obj.DEFL_EDGE_X - p
    let edge := edgeWord (sums.map fun (x : Int) => f64Sub (x : Rat) s.offsetSum)
    (∀ w, edge = some w → s.cal.points.length < 16 → hi - lo ≤ s.getN Obj.DEFL_STILL_LIMIT → u ≥ -2147483648 → u ≤ 2147483647 →
      exec (.calDeflScanDone n dark steps ps) s =
        .next (({ s.at n with cal := { s.cal with points := s.cal.points ++ [(⟨a, u, w⟩ : DeflPoint)] } }).calFinish 1)) ∧
    (edge = none ∨ 16 ≤ s.cal.points.length ∨ (s.getN Obj.DEFL_STILL_LIMIT : Int) < hi - lo →
      exec (.calDeflScanDone n dark steps ps) s = .next ((s.at n).calFinish 3))) ∧
  (∀ n dark steps ps s, s.calRuns 5 = true → steps.length = s.getN Obj.DEFL_SCAN_STEPS → ps ≠ [] → s.cal.missed = true →
    exec (.calDeflScanDone n dark steps ps) s = .next ((s.at n).calFinish 3)) ∧
  (∀ s a, s.calRuns 6 = true → (∀ x ∈ s.cal.points, x.axis = a) → 2 ≤ s.cal.points.length → a < 2 →
    let f := fitAxis s.cal.points (s.get (Obj.DEFL_GAIN_X + a)) (s.getN Obj.DEFL_FIT_LIMIT)
    (f.ok = true → exec .calDeflSolveDone s =
      .next (({ (s.set (Obj.DEFL_FIT_RMS + a) (rneQ (f64Mul 16 f.rms))).commitOwn [(Obj.DEFL_GAIN_X + a, .scalar f.gain),
        (Obj.DEFL_OFFSET_X + a, .scalar f.offset)] with
          cal := { ((s.set (Obj.DEFL_FIT_RMS + a) (rneQ (f64Mul 16 f.rms))).commitOwn [(Obj.DEFL_GAIN_X + a, .scalar f.gain),
            (Obj.DEFL_OFFSET_X + a, .scalar f.offset)]).cal with points := [] } }).calFinish 1)) ∧
    (f.ok = false → exec .calDeflSolveDone s = .next (s.calFinish 2))) ∧
  (∀ s, s.calRuns 6 = true → s.cal.points.length < 2 → exec .calDeflSolveDone s = .next (s.calFinish 4)) ∧
  (∀ c s, s.mayWrite c Obj.DEFL_POINTS_CLEAR → exec (.deflPointsClear c) s = .next { s with cal := { s.cal with points := [] } })) ∧
  ((∀ fs s, s.calFrames 7 fs = true → let p := s.getN Obj.CAM_CAL_PORT
    let bs := (List.range 4).map fun k => rneQ ((phaseMean fs k fun _ _ => true).getD 0)
    ((∀ b ∈ bs, b ≤ s.getN Obj.CAM_BLACK_LIMIT) → exec (.calCamDarkDone fs) s =
      .next ((s.commitOwn (bs.mapIdx fun k b => (Obj.BLACK_LEVEL + 4 * p + k, .scalar b))).calFinish 1)) ∧
    ((∃ b ∈ bs, (s.getN Obj.CAM_BLACK_LIMIT : Int) < b) → exec (.calCamDarkDone fs) s = .next (s.calFinish 2))) ∧
  (∀ fs s a b c d, s.calFrames 8 fs = true → let p := s.getN Obj.CAM_CAL_PORT
    (List.range 4).map (s.flatGains p fs) = [some a, some b, some c, some d] → exec (.calCamFlatDone fs) s =
      .next ((s.commitOwn [(Obj.SHADING_GRID + p, .image ((a ++ b ++ c ++ d).flatMap (leBytes 2))), (Obj.SHADING_ENABLE + p, .scalar 1)]).calFinish 1)) ∧
  (∀ fs s, s.calFrames 8 fs = true → none ∈ (List.range 4).map (s.flatGains (s.getN Obj.CAM_CAL_PORT) fs) →
    exec (.calCamFlatDone fs) s = .next (s.calFinish 2)) ∧
  (∀ s i, i = 7 ∨ i = 8 → s.calRuns i = true → exec .calCamTimeout s = .next ((s.at (s.cal.cycle + 10 * secCycles)).calFinish 3)) ∧
  (∀ s, s.calRuns 7 = false → s.calRuns 8 = false → exec .calCamTimeout s = .next s))

/-- R242, R244, R257. A fall of PEER_ACT starts the wait of an eligible standby; at its end a standby with whole records claims at the next
decision point, and one without enters the event and stops with HALT cause 4. When PEER_ACT rises beside OWN_ACT, a device of ROLE B
gives way. After its delay a device of ROLE B claims unless its peer is active.
R256, R258. A handover is accepted with the peer ELIGIBLE and raises trigger 8; else it changes nothing. The release that a trigger began ends
with the firing window: OWN_ACT falls, PAIR_STATE is 3 after trigger 8 and 5 after any other, and the release counts. The standby
keeps the trigger and the number of the message. -/
def Obligations.PairActivity : Prop :=
  ((∀ s, s.pins.peerAct = true → s.getN Obj.PAIR_STATE = 4 → exec .peerActFall s = .next ({ s with
    pins := { s.pins with peerAct := false }, pair := { s.pair with peerFellAt := some s.clk.cycle } }).refreshBlk) ∧
  (∀ s, s.pins.peerAct = true → s.getN Obj.PAIR_STATE ≠ 4 →
    exec .peerActFall s = .next ({ s with pins := { s.pins with peerAct := false } }).refreshBlk) ∧
  (∀ s t, s.pair.peerFellAt = some t → s.pins.peerAct = false → s.isStandby = true → s.holdsRecords = true →
    exec .takeoverCheck s = .next { s with pair := { s.pair with claim := true } }) ∧
  (∀ s t, s.pair.peerFellAt = some t → s.pins.peerAct = false → s.isStandby = true → s.holdsRecords = false →
    exec .takeoverCheck s = .next ((({ s with pair := { s.pair with peerFellAt := none } }).logEvent
      ⟨6, 12, 255, 255, Obj.HALT_CAUSE, 4, 0⟩).halt 4 0 12)) ∧
  (∀ s, s.pair.peerFellAt = none → exec .takeoverCheck s = .next s) ∧
  (∀ s, s.pins.peerAct = false → s.pins.ownAct = true → s.getN Obj.PAIR_ROLE = 1 →
    ∃ t, exec .peerActRise s = .next t ∧ t = (({ s with pins := { s.pins with peerAct := true, ownAct := false }
                                                        pair := { s.pair with claim := false, peerFellAt := none } }).setN Obj.PAIR_STATE 0).refreshBlk) ∧
  (∀ s, s.pins.peerAct = false → s.pins.ownAct = false → exec .peerActRise s = .next ({ s with
    pins := { s.pins with peerAct := true }, pair := { s.pair with claim := false, peerFellAt := none } }).refreshBlk) ∧
  (∀ s, s.pair.claimWait = true → s.pins.porstN = true → s.pins.peerAct = false → exec .claimDelay s =
    .next ({ s.setN Obj.PAIR_STATE 1 with pins := { s.pins with ownAct := true }, pair := { s.pair with claimWait := false } }).refreshBlk) ∧
  (∀ s, s.pair.claimWait = true → s.pins.porstN = true → s.pins.peerAct = true →
    exec .claimDelay s = .next { s with pair := { s.pair with claimWait := false } })) ∧
  ((∀ c s, s.mayWrite c Obj.HANDOVER_REQUEST → s.getN Obj.PAIR_STATE = 1 → s.getN Obj.PEER_STATE = 4 →
    exec (.handoverRequest c) s = .next (s.raise ⟨8, 12, 255, 255, 0⟩)) ∧
  (∀ c s, s.mayWrite c Obj.HANDOVER_REQUEST → s.getN Obj.PAIR_STATE ≠ 1 ∨ s.getN Obj.PEER_STATE ≠ 4 → exec (.handoverRequest c) s = .next s) ∧
  (∀ s code kr, s.pair.release = some (code, kr) → s.pair.releasing = true → s.stg.await = [] → s.gateRuns = false → s.imageRuns = false →
    s.getN Obj.CAL_STATE ≠ 2 → s.isStandby = false → s.fp.waiting = [] → ∃ t, exec .ownActRelease s = .next t ∧ t.pins.ownAct = false ∧ t.pair.releasing = false ∧
      t.pair.release = none ∧ t.getN Obj.PAIR_STATE = (if code = 8 then 3 else 5) ∧ s.counts t Obj.RELEASES ∧ t.ledger = s.ledger ∧ t.log = s.log) ∧
  (∀ s, s.pair.release = none → exec .ownActRelease s = .next s.goOn) ∧
  (∀ rx n kr s, s.takes rx → s.isStandby = true → exec (.releaseMessage rx (n, kr)) s =
    .next { s.taken rx with pair := { (s.taken rx).pair with release := some (n, kr) } }) ∧
  (∀ rx n kr s, s.takes rx → s.isStandby = false → exec (.releaseMessage rx (n, kr)) s = .next (s.taken rx)))

/-- R246, R248, R249. A standby that follows applies the record that is next, its first whatever its number; one with bad lanes is asked for again
on each of them; one past the next desynchronises it with cause 1, as a record that has not come by its deadline does; one that it
holds changes nothing. A device that does not follow ignores records. The first
record brings its decision points to the active's, to within the 350 ns in which it arrives. -/
def Obligations.FlashRecords : Prop :=
  (∀ r s, s.follows = true → s.pair.anyRecord = false ∨ r.frame = s.pair.lastRecord + 1 → ∃ t, exec (.flashRecord r []) s = .next t ∧
    t = s.applyRecord r ∧ t.pair.lastRecord = r.frame ∧ t.pair.anyRecord = true) ∧
  (∀ r s, s.follows = true → s.pair.anyRecord = true → s.pair.lastRecord + 1 < r.frame →
    exec (.flashRecord r []) s = .next ((s.inc Obj.RECORD_GAPS).desync 1)) ∧
  (∀ r s, s.follows = true → s.pair.anyRecord = true → r.frame ≤ s.pair.lastRecord → exec (.flashRecord r []) s = .next s) ∧
  (∀ r s l, s.follows = true → exec (.flashRecord r [l]) s =
    .next (s.mirror l 0x31 ([byte l, 0, 0, 0] ++ leBytes 4 (atD s.pair.rxSeq l 0)))) ∧
  (∀ r bad s, s.follows = false → exec (.flashRecord r bad) s = .next s) ∧
  (∀ s, s.follows = true → s.pair.anyRecord = true → s.pair.lastRecord + 3 ≤ s.hs.k →
    exec .recordDeadline s = .next ((s.inc Obj.RECORD_GAPS).desync 1)) ∧
  (∀ s, s.hs.k < s.pair.lastRecord + 3 → exec .recordDeadline s = .next s) ∧
  (∀ (s : State) n, s.getN Obj.PAIR_STATE ∈ [2, 3, 4] → ∃ t, s.desync n = t ∧ t.getN Obj.PAIR_STATE = 0 ∧ t.getN Obj.LAST_DESYNC_CAUSE = n) ∧
  (∀ (s : State) k, ∃ t, s.alignGrid k = t ∧ t.hs.k = k + 2 ∧ t.hs.nextD ≤ s.clk.cycle + s.getN Obj.FLASH_PERIOD ∧
    s.clk.cycle + s.getN Obj.FLASH_PERIOD ≤ t.hs.nextD + 140)

/-- R246, R249, R250. A standby uses a mirrored block as an accepted one, takes the indices of a stream event, keeps the entries of a commit
and the changes of a table until the record that names them, and confirms both on lane 4. On the active a confirmation frees what waited
for it; at the timeout the change proceeds alone and PEER_STATE is 0; a standby that waits too long desynchronises with cause 5. A message with
a bad CRC or a SEQ beyond the next is answered with NAK; one received before changes nothing.
R246, R252. A HEALTH message sets PEER_STATE and is held; without one for 1 ms PEER_STATE is 0xFF. Each millisecond the device's own record of
64 bytes leaves on lane 4. The link is up while all eight lanes are locked and the peer is heard; a lane that locks anew counts SEQ from 0
(the model's choice, assumption 130). A replay answers a NAK with what is held from the number on. The loss of a lane is seen in its port's
state. -/
def Obligations.MirrorTraffic : Prop :=
  ((∀ rx t ring i tag b s, s.takes rx → s.follows = true → exec (.mirrorBlock rx t ring (i, tag) b) s = .next ((s.taken rx).useBlock t ring i tag b)) ∧
  (∀ rx c r rc rr s, s.takes rx → s.follows = true → ∃ t, exec (.streamEvent (rx, .consumers c r rc rr)) s = .next t ∧ t.getN Obj.STREAM_CONSUMER = c ∧
    t.getN Obj.STREAM_RELEASE = r ∧ t.st = { s.st with repairConsumer := rc, repairRelease := rr } ∧ t = { s.taken rx with od := t.od, st := t.st } ∧
    s.sameObjects t [Obj.STREAM_CONSUMER, Obj.STREAM_RELEASE, Obj.STREAM_STATE]) ∧
  (∀ rx es s, s.takes rx → s.follows = true → let u := s.taken rx
    exec (.mirrorCommit rx es) s = .next (({ u with pair := { u.pair with pendCommits := u.pair.pendCommits ++ [es] } }).mirror 4 0x32 (leBytes 4 rx.seq))) ∧
  (∀ rx cs e s, s.takes rx → s.follows = true → (∀ x ∈ cs, beamState x.2.toNat ≠ 3) → let u := s.taken rx
    exec (.beamChanges rx cs e none) s =
      .next (({ u with pair := { u.pair with pendBeams := u.pair.pendBeams ++ [(cs, e, none)] } }).mirror 4 0x32 (leBytes 4 rx.seq))) ∧
  (∀ rx q s, s.takes rx → s.getN Obj.PAIR_STATE = 1 → s.pair.releasing = false → q ∈ s.pair.await → s.stg.await = [] → s.head.attachAwait ≠ some q →
    let u := s.taken rx
    exec (.confirm (rx, q)) s = .next (State.goOn { u with
      pair := { u.pair with await := u.pair.await.filter (· ≠ q) }
      head := { u.head with results := clearAwait q u.head.results, edits := clearAwait q u.head.edits } })) ∧
  (∀ rx q s, s.takes rx → q ∉ s.pair.await → exec (.confirm (rx, q)) s = .next (s.taken rx).goOn) ∧
  (∀ s, s.isStandby = true → exec .confirmTimeout s = .next (s.desync 5).goOn) ∧
  (∀ s, s.getN Obj.PAIR_STATE = 1 → s.isStandby = false → s.pair.await ≠ [] → s.pair.releasing = false →
    exec .confirmTimeout s = .next ((s.setN Obj.PEER_STATE 0).proceedAlone).goOn) ∧
  (∀ (s : State), s.fp.waiting = [] → s.goOn = s) ∧
  (∀ rx s t ring i tag b ev es cs e id d n code kr, s.coreOn = true → ∀ c ∈ [Instr.mirrorBlock rx t ring (i, tag) b, .streamEvent (rx, ev), .mirrorCommit rx es,
      .beamChanges rx cs e id, .checkpoint rx (d, n), .releaseMessage rx (code, kr)], let want := atD s.pair.rxSeq rx.lane 0
    (rx.crcOk = false → exec c s = .next (s.mirror rx.lane 0x31 ([byte rx.lane, 0, 0, 0] ++ leBytes 4 want))) ∧
    (∀ x, 0 < x → x ≤ 2 ^ 31 → want < 2 ^ 32 → rx.crcOk = true → rx.seq = (want + x) % 2 ^ 32 →
      exec c s = .next (s.mirror rx.lane 0x31 ([byte rx.lane, 0, 0, 0] ++ leBytes 4 want))) ∧
    (∀ x, 0 < x → x < 2 ^ 31 → rx.crcOk = true → rx.seq < 2 ^ 32 → (rx.seq + x) % 2 ^ 32 = want → exec c s = .next s) ∧
    (s.takes rx → s.follows = false → s.isStandby = false → exec c s = .next (s.taken rx)))) ∧
  ((∀ rx rec s, s.takes rx → leAt rec 1 1 = s.getN Obj.BEHAVIOUR_LEVEL → let u := s.taken rx
    let v : State := { u.setN Obj.PEER_STATE (leAt rec 0 1) with
      pair := { u.pair with peerHealth := rec, peerAt := some s.clk.cycle, peerStays := false } }
    (leAt rec 0 1 ≠ 2 → exec (.health (rx, rec)) s = .next (v.refreshLink).goOn) ∧
    (leAt rec 0 1 = 2 → s.getN Obj.PEER_STATE ≠ 2 → s.getN Obj.PAIR_STATE = 1 → s.pair.releasing = false → s.pair.await = [] →
      exec (.health (rx, rec)) s = .next ((v.refreshLink).sendCheckpoint).goOn)) ∧
  (∀ s, s.pair.peerAt ≠ none → exec .peerHealthTimeout s =
    .next (State.refreshLink { s.setN Obj.PEER_STATE 0xFF with pair := { s.pair with peerAt := none, peerStays := false } }).goOn) ∧
  (∀ s, s.pair.peerAt = none → exec .peerHealthTimeout s = .next s.goOn) ∧
  (∀ s, s.coreOn = true → ∃ bs, exec .healthSend s = .next (s.mirror 4 0x30 bs) ∧ bs.length = 64 ∧ leAt bs 0 1 = s.getN Obj.PAIR_STATE % 256 ∧
    leAt bs 1 1 = s.getN Obj.BEHAVIOUR_LEVEL % 256 ∧ leAt bs 4 4 = s.getN Obj.JOB_ID % 2 ^ 32 ∧ leAt bs 8 4 = s.pair.lastRecord % 2 ^ 32) ∧
  (∀ (m : BitVec 8) s, s.power = 2 ∨ s.power = 3 → ∃ u : State, exec (.mirrorLinkChange m) s = .next ((u.setN Obj.PLK_LANES_UP m.toNat).refreshLink).goOn ∧
    u = { s with pair := { s.pair with txSeq := u.pair.txSeq, rxSeq := u.pair.rxSeq, replay := u.pair.replay } } ∧
    ∀ l < 8, let new := m.getLsbD l && !bitOf (s.getN Obj.PLK_LANES_UP) l
      (new = true → atD u.pair.txSeq l 0 = 0 ∧ atD u.pair.rxSeq l 0 = 0 ∧ atD u.pair.replay l [] = []) ∧
      (new = false → atD u.pair.txSeq l 0 = atD s.pair.txSeq l 0 ∧ atD u.pair.rxSeq l 0 = atD s.pair.rxSeq l 0 ∧
        atD u.pair.replay l [] = atD s.pair.replay l [])) ∧
  (∀ (s : State), s.getN Obj.PAIR_STATE = 5 → ∃ t, s.refreshLink = t ∧
    t.getN Obj.MIRROR_LINK_STATE = (if s.getN Obj.PLK_LANES_UP = 255 ∧ s.pair.peerAt ≠ none then 1 else 0)) ∧
  (∀ rx l q s m rest, s.takes rx → atD s.pair.replay l [] = m :: rest → m.seq = q → exec (.nak rx (l, q)) s = .next ((s.taken rx).transmit l m)) ∧
  (∀ rx l q s, s.takes rx → atD s.pair.replay l [] = [] → s.isStandby = true → s.getN Obj.PAIR_STATE ≠ 0 →
    exec (.nak rx (l, q)) s = .next (((s.taken rx).inc Obj.RECORD_GAPS).desync 1)) ∧
  (∀ l s, s.power = 2 ∨ s.power = 3 → l < 2 → exec (.laneLockLoss .hst l) s = .next ((s.setN (Obj.HST_LANE_STATE + l) 0).refreshEligible).goOn) ∧
  (∀ l s, s.power = 2 ∨ s.power = 3 →
    exec (.laneLockLoss .plk l) s = .next ((s.setN Obj.PLK_LANES_UP (clearBit (s.getN Obj.PLK_LANES_UP) l)).refreshLink).goOn) ∧
  (∀ l s, s.power = 1 → exec (.laneLockLoss .hst l) s = .next s.goOn))

/-- R262. SYNC_START of an UNSYNCED device with the link up and equal levels begins a transfer: PAIR_STATE 2, item 1, no bytes. Its data takes its
place and counts its bytes; SYNC_PERMILLE never falls and is 999 at most. At the end PAIR_STATE is 3 and SYNC_PERMILLE 1000. -/
def Obligations.Synchronisation : Prop :=
  (∀ c s, s.mayWrite c Obj.SYNC_START → s.maySync = true → exec (.syncStart (some c)) s = .next s.startSync) ∧
  (∀ s, s.on Obj.AUTO_SYNC = true → s.maySync = true → exec (.syncStart none) s = .next s.startSync) ∧
  (∀ s, s.on Obj.AUTO_SYNC = false → exec (.syncStart none) s = .next s) ∧
  (∀ c s, s.mayWrite c Obj.SYNC_START → s.maySync = false → exec (.syncStart (some c)) s = .next s) ∧
  (∀ (s : State), ∃ t, s.startSync = t ∧ t.getN Obj.PAIR_STATE = 2 ∧ t.getN Obj.SYNC_ITEM = 1 ∧ t.getN Obj.SYNC_BYTES = 0 ∧ t.getN Obj.SYNC_PERMILLE = 0 ∧
    t.ledger.entries = [] ∧ t.pair.anyRecord = false ∧ t.lay = {}) ∧
  (∀ rx d n s u i, s.takes rx → s.follows = true → (s.taken rx).storeItem d = (u, i) → s.getN Obj.PAIR_STATE = 2 → ∃ t, exec (.checkpoint rx (d, n)) s = .next t ∧
    t.getN Obj.SYNC_ITEM = max (s.getN Obj.SYNC_ITEM) i ∧ s.getN Obj.SYNC_PERMILLE ≤ t.getN Obj.SYNC_PERMILLE ∧
    (s.getN Obj.SYNC_PERMILLE ≤ 999 → t.getN Obj.SYNC_PERMILLE ≤ 999) ∧ t = { u with od := t.od } ∧
    u.sameObjects t [Obj.SYNC_ITEM, Obj.SYNC_BYTES, Obj.SYNC_PERMILLE]) ∧
  (∀ rx d n s, s.takes rx → s.follows = false → exec (.checkpoint rx (d, n)) s = .next (s.taken rx)) ∧
  (∀ s, s.getN Obj.PAIR_STATE = 2 → exec .syncComplete s = .next ({ (s.restoreFlow.setN Obj.PAIR_STATE 3).setN Obj.SYNC_PERMILLE 1000 with
    pair := { s.pair with armedSinceSync := false } }).refreshEligible) ∧
  (∀ s, s.getN Obj.PAIR_STATE ≠ 2 → exec .syncComplete s = .next s)

/-- R391, R398, R419. PORST_N asserted resets every domain but keeps one-time-programmable memory, the boot flash, the network record and the
waiting commands. Its deassertion samples the straps, starts in POWER_STATE 4 with the main sources selected, and claims at once with
ROLE A and an idle peer. The loss of VAON does as a reset does and drops every PSW and PWR_EN. -/
def Obligations.ResetAndStart : Prop :=
  (∀ s, ∃ t, exec .porstNAssert s = .next t ∧ t.otp = s.otp ∧ t.boot.flashA = s.boot.flashA ∧ t.boot.flashB = s.boot.flashB ∧
    t.boot.netRecord = s.boot.netRecord ∧ t.pins.porstN = false ∧ t.pins.ownAct = false ∧ t.pending = s.pending ∧ t.out = s.out ∧
    t.od = (State.blank s.otp s.boot.flashA s.boot.flashB s.boot.netRecord).od ∧ t.dram.mem = [] ∧ t.log.entries = [] ∧ t.fp.sessions = []) ∧
  (∀ x pa m b s, s.pins.porstN = false → x.roleB = false → ∃ t, exec (.porstNDeassert x pa m b) s = .next t ∧ t.straps = x ∧ t.power = 4 ∧
    t.getN Obj.STARTUP_PHASE = 0 ∧ t.pins.porstN = true ∧ t.pins.peerAct = pa ∧ t.pins.pswM = 0x1F ∧ t.pins.pswB = 0 ∧ t.clk.T = 0 ∧
    t.pins.ownAct = !pa ∧ t.getN Obj.PAIR_STATE = b2n (!pa) ∧ t.otp = s.otp) ∧
  (∀ x pa m b s, s.pins.porstN = true → exec (.porstNDeassert x pa m b) s = .next s) ∧
  (∀ m b s, s.pins.porstN = false → ∃ t, exec (.vaonGood m b) s = .next t ∧ t.pins.pswM = m ∧ t.pins.pswB = ~~~m &&& b ∧ t.pins.pwrEn = true ∧
    t = { s with pins := t.pins, pwr := { s.pwr with mainGood := m, backupGood := b } }) ∧
  (∀ s, ∃ t, exec .vaonLoss s = .next t ∧ t.pins.ownAct = false ∧ t.pins.pwrEn = false ∧ t.pins.pswM = 0 ∧ t.pins.pswB = 0 ∧ t.otp = s.otp ∧
    t.log.entries = [] ∧ t.pair.release = none)

/-- R381, R382, R384. With its source out of range a rail's PSW falls and the other source is engaged after it, with RAIL_SOURCE, its count and a log
entry; it returns by SUPPLY_RETURN or a write of SUPPLY_RETURN_NOW. The island switches between its inputs without a reset. A supply
fault counts and raises trigger 4; at the trip OWN_ACT and PWR_EN fall, POWER_STATE reads 5 and the deflector link stands still.
R386, R397. The last of the PLLs that start-up waits for to lock starts phase 1; the core PLL's lock starts the grid of flash periods. A lost
core lock counts and is a supply fault. TJ is the highest reading and TJ_PEAK the highest seen; a rise to TJ_WARN enters a warning once,
150 degrees raises trigger 5 once per rise, 160 degrees trips. -/
def Obligations.SuppliesAndClocks : Prop :=
  ((∀ r s, r < 5 → s.pins.porstN = true → s.getN (Obj.RAIL_SOURCE + r) = 0 → kvGet s.pwr.engage r = none → s.pwr.backupGood.getLsbD r = true →
    ∃ t, exec (.railSourceFault r) s = .next t ∧ t.pins.pswM = s.pins.pswM &&& ~~~(BitVec.ofNat 5 (2 ^ r)) ∧ kvGet t.pwr.engage r = some 1 ∧ t.od = s.od ∧
      t.log = s.log) ∧
  (∀ r s, r < 5 → s.pins.porstN = true → s.getN (Obj.RAIL_SOURCE + r) = 0 → kvGet s.pwr.engage r = none → s.pwr.backupGood.getLsbD r = false →
    exec (.railSourceFault r) s = .next s) ∧
  (∀ r s, r < 5 → kvGet s.pwr.engage r = some 1 → ∃ t, exec (.switchoverEngage r) s = .next t ∧ t.pins.pswB = s.pins.pswB ||| BitVec.ofNat 5 (2 ^ r) ∧
    t.getN (Obj.RAIL_SOURCE + r) = 1 ∧ s.counts t (Obj.SWITCHOVERS + r) ∧ t.newestLog 1 13 (Obj.SWITCHOVERS + r) ∧ t.power = s.power ∧ t.job = s.job) ∧
  (∀ r s, r < 5 → s.getN (Obj.RAIL_SOURCE + r) = 1 → s.getN Obj.SUPPLY_RETURN = 1 → kvGet s.pwr.engage r = none → exec (.supplyReturn r) s =
    .next ({ s with pwr := { s.pwr with mainGood := s.pwr.mainGood ||| BitVec.ofNat 5 (2 ^ r) } }.beginSwitch r 0)) ∧
  (∀ r s, s.getN Obj.SUPPLY_RETURN ≠ 1 → exec (.supplyReturn r) s = .next s) ∧
  (∀ c (m : BitVec 5) r s, s.mayWrite c Obj.SUPPLY_RETURN_NOW → (List.range 5).filter (fun r => s.getN (Obj.RAIL_SOURCE + r) = 1) = [r] →
    kvGet s.pwr.engage r = none →
    (m.getLsbD r = true → exec (.supplyReturnNow c m) s = .next ({ s with pwr := { s.pwr with mainGood := m } }.beginSwitch r 0)) ∧
    (m.getLsbD r = false → exec (.supplyReturnNow c m) s = .next s)) ∧
  (∀ s, s.getN (Obj.RAIL_SOURCE + 6) = 0 → exec .vaonMainFail s = .next ((s.setN (Obj.RAIL_SOURCE + 6) 1).inc (Obj.SWITCHOVERS + 6))) ∧
  (∀ s, s.getN (Obj.RAIL_SOURCE + 6) = 1 → exec .vaonMainReturn s = .next ((s.setN (Obj.RAIL_SOURCE + 6) 0).inc (Obj.SWITCHOVERS + 6))) ∧
  (∀ r s, s.pins.porstN = true → s.power ≠ 5 →
    exec (.supplyFault r .loadPoint) s = .next ((s.inc Obj.SUPPLY_FAULTS).raise ⟨4, 13, 255, r + 1, r + 1⟩) ∧
    exec (.supplyFault r .noSource) s =
      .next (((s.setN (Obj.RAIL_SOURCE + r) 2).inc Obj.SUPPLY_FAULTS).raise ⟨4, 13, 255, r + 1, r + 1⟩)) ∧
  (∀ r s, s.pins.porstN = true → ∃ t, exec (.supplyTrip r) s = .next t ∧ t.power = 5 ∧ t.pins.ownAct = false ∧ t.pins.pwrEn = false ∧
    t.boot.released = false ∧ t.otp = s.otp ∧ t.log = s.log ∧ t.getN Obj.DEFL_LINK_STATE = 0 ∧
    s.sameObjects t (Obj.POWER_STATE :: Obj.DEFL_LINK_STATE :: (List.range 24).map fun l => Obj.BLK_LANE_STATE + l))) ∧
  ((∀ s, s.power = 4 → s.getN Obj.STARTUP_PHASE = 0 → s.pwr.locking = [.control] →
    exec (.pllLock .control) s = .next (({ s with pwr := { s.pwr with locking := [] } }).enterPhase 1)) ∧
  (∀ s, s.power = 2 → s.pwr.locking = [.core] → exec (.pllLock .core) s = .next ({ s with
    clk := { s.clk with coreLocked := true }, pwr := { s.pwr with locking := [], coreLossSeen := false } }).startGrid) ∧
  (∀ p s, p ∉ s.pwr.locking → exec (.pllLock p) s = .next s) ∧
  (∀ s, s.coreOn = true → exec .corePllLoss s = .next (({ s.inc Obj.CORE_PLL_LOSSES with
      clk := { s.clk with coreLocked := false }
      pwr := { s.pwr with locking := .core :: s.pwr.locking, coreLossSeen := true } }).refreshDefl.supplyFault 0)) ∧
  (∀ s, s.coreOn = false → exec .corePllLoss s = .next s) ∧
  (∀ t0 ts s, s.power ≠ 5 → s.pins.porstN = true → let tj := ts.foldl max t0
    let u : State := (s.set Obj.TJ tj).set Obj.TJ_PEAK (if s.pwr.tjSeen then max (s.get Obj.TJ_PEAK) tj else tj)
    (tj < s.get Obj.TJ_WARN → tj < 2400 → exec (.tjSample (t0 :: ts)) s =
      .next { u with pwr := { s.pwr with tjSeen := true, tjWarned := false, tjHot := false } }) ∧
    (s.get Obj.TJ_WARN ≤ tj → tj < 2400 → s.pwr.tjWarned = false → exec (.tjSample (t0 :: ts)) s =
      .next { u.logEvent ⟨2, 14, 255, 255, Obj.TJ, toUnsigned 64 tj, 0⟩ with pwr := { s.pwr with tjSeen := true, tjWarned := true, tjHot := false } }) ∧
    (s.get Obj.TJ_WARN ≤ tj → 2400 ≤ tj → tj < 2560 → s.pwr.tjWarned = true → s.pwr.tjHot = false → exec (.tjSample (t0 :: ts)) s =
      .next { u.raise ⟨5, 14, 255, 255, 0⟩ with pwr := { (u.raise ⟨5, 14, 255, 255, 0⟩).pwr with tjSeen := true, tjWarned := true, tjHot := true } }) ∧
    (2560 ≤ tj → ∃ t, exec (.tjSample (t0 :: ts)) s = .next t ∧ t.power = 5 ∧ t.pins.ownAct = false ∧ t.pins.pwrEn = false)))

/-- R388 to R390. A request is refused in STARTING, and while the job is in states 1 to 4 or 6, and for DEEP with an eligible peer; one
for the present state changes nothing. Else the steps of Table 18-4 begin and their end sets POWER_STATE; on entry to DEEP sessions,
staging set and DMA channels are gone and the entry counts. An enabled wake source starts the wake, to WAKE_TARGET. -/
def Obligations.PowerStates : Prop :=
  (∀ c s, s.mayWrite c Obj.POWER_REQUEST → s.power = 4 ∨ s.jobActive = true →
    exec (.powerRequestDeep c) s = .next s ∧ exec (.powerRequestControl c) s = .next s ∧ exec (.powerRequestReady c) s = .next s) ∧
  (∀ c s, s.mayWrite c Obj.POWER_REQUEST → s.getN Obj.PAIR_STATE = 1 → s.getN Obj.PEER_STATE = 4 → exec (.powerRequestDeep c) s = .next s) ∧
  (∀ c s, s.mayWrite c Obj.POWER_REQUEST → s.power = 2 → s.jobActive = false → s.pwr.target = none →
    exec (.powerRequestReady c) s = .next s ∧
    exec (.powerRequestControl c) s = .next { s.quiesce with pwr := { s.quiesce.pwr with target := some 1 } } ∧
    (s.getN Obj.PAIR_STATE ≠ 1 → exec (.powerRequestDeep c) s = .next { s.quiesce with pwr := { s.quiesce.pwr with target := some 0 } })) ∧
  (∀ c s, s.mayWrite c Obj.POWER_REQUEST → s.power = 1 → s.jobActive = false → s.pwr.target = none → exec (.powerRequestControl c) s = .next s ∧
    exec (.powerRequestReady c) s = .next { s with pwr := { s.pwr with target := some 2, locking := s.pwr.locking ++ corePlls ++ lanePlls } }) ∧
  (∀ s, s.pwr.target = some 1 → s.power ≠ 0 →
    exec .powerTransitionDone s = .next { s.setN Obj.POWER_STATE 1 with pwr := { s.pwr with target := none } }) ∧
  (∀ s, s.pwr.target = some 0 → s.pins.wakeSeen = 0 → ∃ t, exec .powerTransitionDone s = .next t ∧ t.power = 0 ∧ s.counts t Obj.DEEP_ENTRIES ∧
    t.fp.sessions = [] ∧ t.stg.entries = [] ∧ t.getN Obj.SESSIONS_OPEN = 0 ∧ t.pins.pwrEn = false ∧ (∀ ch < 32, t.getN (Obj.CH_STATE + ch) = 0) ∧
    t.hist = [] ∧ t.head = s.head ∧ t.clk = s.clk ∧ t.otp = s.otp) ∧
  (∀ s, s.pwr.target = some 2 → s.power = 1 → (∀ p ∈ s.pwr.locking, p ∉ corePlls) → exec .powerTransitionDone s = .next
    (({ ((s.setN Obj.POWER_STATE 2).leaveSelfRefresh).takeKeptProducers with
      pwr := { ((s.setN Obj.POWER_STATE 2).leaveSelfRefresh).takeKeptProducers.pwr with target := none } }).readyEntered)) ∧
  (∀ s, s.pwr.target = none → exec .powerTransitionDone s = .next s) ∧
  (∀ w s, s.power = 0 → s.pwr.target = none → let m := (BitVec.ofNat 2 w &&& BitVec.ofNat 2 (s.getN Obj.WAKE_SOURCES)).toNat
    (m ≠ 0 → ∃ t, exec (.wake w) s = .next t ∧ t.getN Obj.LAST_WAKE_SOURCE = m ∧ t.pins.pwrEn = true ∧ t.pwr.target = some (s.getN Obj.WAKE_TARGET) ∧
      t.pwr.locking = .control :: corePlls) ∧
    (m = 0 → exec (.wake w) s = .next s)) ∧
  (∀ s v, s.power = 0 → s.pwr.target = some v → s.pwr.restored = false → exec (.wakeRestoreDone true) s =
    .next ({ s with pwr := { s.pwr with restored := true }, boot := { s.boot with released := true } }).attachAfterWake) ∧
  (∀ s v, s.power = 0 → s.pwr.target = some v → s.pwr.restored = false → ∃ t, exec (.wakeRestoreDone false) s = .next t ∧ t.dram.mem = s.dram.mem ∧
    t.straps = s.straps ∧ t.otp = s.otp ∧ t.getN Obj.FILL_STATE = 1)

/-- R392 to R394. A slot that was read is verified; a good image is released in phase 5 with its version; one that fails sets its status and
the next slot is read, or phase 8 waits with error 2. Ready firmware takes POWER_STATE to WAKE_TARGET; firmware that is late ends
start-up in phase 7 with error 3. A page that fails twice ends the firmware as the watchdog does. -/
def Obligations.StartUp : Prop :=
  (∀ s, s.power = 4 → s.getN Obj.STARTUP_PHASE = 3 → exec (.bootLoadDone true) s = .next { s.enterPhase 4 with boot := { s.boot with loaded := true } }) ∧
  (∀ s x rest, s.power = 4 → s.getN Obj.STARTUP_PHASE = 3 → s.boot.slots = x :: rest → x < 2 → ∃ t, exec (.bootLoadDone false) s = .next t ∧
    t.getN (Obj.IMAGE_STATUS + x) = 7 ∧ t.boot.slots = rest ∧
    (rest = [] → t.getN Obj.STARTUP_PHASE = 8 ∧ t.getN Obj.STARTUP_ERROR = 2) ∧ (rest ≠ [] → t.getN Obj.STARTUP_PHASE = 3)) ∧
  (∀ s x rest, s.power = 4 → s.getN Obj.STARTUP_PHASE = 4 → s.boot.slots = x :: rest → x < 2 → s.imageStatus (s.slotImage x) = 1 →
    ∃ t, exec .bootVerifyDone s = .next t ∧ t.getN Obj.STARTUP_PHASE = 5 ∧ t.getN (Obj.IMAGE_STATUS + x) = 1 ∧ t.getN Obj.BOOT_SLOT = x ∧
      t.getN Obj.FIRMWARE_VERSION = imgVersion (s.slotImage x) ∧ t.boot.released = true ∧ t.boot.runSecurity = imgSecurity (s.slotImage x)) ∧
  (∀ s x rest, s.power = 4 → s.getN Obj.STARTUP_PHASE = 4 → s.boot.slots = x :: rest → x < 2 → s.imageStatus (s.slotImage x) ≠ 1 →
    exec .bootVerifyDone s = .next (s.slotFailed (s.imageStatus (s.slotImage x)))) ∧
  (∀ (s : State) b, imgFormatOk b = true → sha256 (slice b 32 64) = atD s.otp.keys (imgKeySlot b) [] →
    (s.otp.revoked.getLsbD (imgKeySlot b) = true → s.imageStatus b = 4) ∧
    (s.otp.revoked.getLsbD (imgKeySlot b) = false → imgSecurity b < s.otp.securityMin → s.imageStatus b = 5)) ∧
  (∀ n s, s.power = 4 → s.getN Obj.STARTUP_PHASE = 5 → s.straps.ctlmode % 4 = 3 → s.getN Obj.WAKE_TARGET = 1 →
    ∃ t, exec (.firmwareReady n) s = .next t ∧ t.power = 1 ∧ t.getN Obj.STARTUP_PHASE = 6 ∧ t.getN Obj.STARTUP_PERMILLE = 1000 ∧
      t.pwr.attachDue = 1 ∧ t.log = s.log) ∧
  (∀ s, s.power = 4 → s.getN Obj.STARTUP_PHASE = 5 → ∃ t, exec .firmwareReadyTimeout s = .next t ∧ t.boot.released = false ∧
    t.getN Obj.STARTUP_PHASE = 7 ∧ t.getN Obj.STARTUP_ERROR = 3) ∧
  (∀ p s, s.boot.released = true → s.power ≠ 0 → s.power ≠ 5 →
    exec (.pageReloadDone p true) s = .next { s with boot := { s.boot with fails := kvDel s.boot.fails p } }) ∧
  (∀ p s, s.boot.released = true → s.power ≠ 0 → s.power ≠ 5 → kvGet s.boot.fails p = none →
    exec (.pageReloadDone p false) s = .next { s with boot := { s.boot with fails := kvSet s.boot.fails p 1 } }) ∧
  (∀ p s, s.boot.released = true → s.power ≠ 0 → s.power ≠ 5 → kvGet s.boot.fails p = some 1 → exec (.pageReloadDone p false) s =
    .next ({ s with boot := { s.boot with fails := kvSet s.boot.fails p 2 } }).expireWatchdog)

/-- R394 to R396, R405. A command verifies the buffer, boots from it in phase 8 alone, or programs it to the slot that does not run; the end of
the programming writes the slot. ROLLBACK_RAISE raises SECURITY_VERSION_MIN to the running image's, KEY_REVOKE revokes a slot that is
not the running image's and not the last, NET_SAVE writes the record. An expired watchdog counts, raises trigger 6 and stops the firmware of an
active. -/
def Obligations.ImagesAndKeys : Prop :=
  (∀ c s, s.mayWrite c Obj.IMAGE_COMMAND → s.imageBusy = false → exec (.imageVerify c) s =
    .next ((s.setN Obj.IMAGE_BUFFER_STATUS (s.imageStatus s.boot.buffer)).setN Obj.IMAGE_COMMAND_STATE 2)) ∧
  (∀ c s, s.mayWrite c Obj.IMAGE_COMMAND → s.imageBusy = false → s.getN Obj.STARTUP_PHASE = 8 → exec (.imageBoot c) s =
    .next { (s.setN Obj.STARTUP_PHASE 4).setN Obj.IMAGE_COMMAND_STATE 1 with boot := { s.boot with slots := [2], loaded := true } }) ∧
  (∀ c s, s.mayWrite c Obj.IMAGE_COMMAND → s.getN Obj.STARTUP_PHASE ≠ 8 → exec (.imageBoot c) s = .next s) ∧
  (∀ c s, s.mayWrite c Obj.IMAGE_COMMAND → s.imageBusy = false → s.imageStatus s.boot.buffer = 1 → ∀ i ∈ [(Instr.imageProgramA c, 0), (.imageProgramB c, 1)],
    (s.boot.released = false ∨ s.getN Obj.BOOT_SLOT ≠ i.2 → exec i.1 s =
      .next { (s.setN Obj.IMAGE_BUFFER_STATUS 1).setN Obj.IMAGE_COMMAND_STATE 1 with boot := { s.boot with command := 3 + i.2 } }) ∧
    (s.boot.released = true → s.getN Obj.BOOT_SLOT = i.2 → exec i.1 s = .next s)) ∧
  (∀ s, s.boot.command = 3 → ∃ t, exec (.imageProgramDone true) s = .next t ∧ t.boot.flashA = s.boot.buffer ∧ t.boot.flashB = s.boot.flashB ∧
    t.boot.command = 0 ∧ t.getN Obj.IMAGE_COMMAND_STATE = 2 ∧ t.out = s.out ++ [.flash 0 s.boot.buffer]) ∧
  (∀ c s, s.mayWrite c Obj.ROLLBACK_RAISE → s.boot.released = true →
    exec (.rollbackRaise c) s = .next { s with otp := { s.otp with securityMin := max s.otp.securityMin s.boot.runSecurity } }) ∧
  (∀ c k s, s.mayWrite c Obj.KEY_REVOKE → k < 4 → let r := s.otp.revoked ||| BitVec.ofNat 4 (2 ^ k)
    (s.boot.released = false ∨ k ≠ s.boot.runKey → r ≠ 0xF#4 → exec (.keyRevoke c k) s = .next { s with otp := { s.otp with revoked := r } }) ∧
    (s.boot.released = true ∧ k = s.boot.runKey ∨ r = 0xF#4 → exec (.keyRevoke c k) s = .next s)) ∧
  (∀ c s, s.mayWrite c Obj.NET_SAVE → exec (.netSave c) s =
    .next { s.emit (.flash 0x8000000 s.netRecordBytes) with boot := { s.boot with netRecord := s.netRecordBytes } } ∧ s.netRecordBytes.length = 32) ∧
  (∀ p b s, p < 2 → exec (.ctlLinkChange p b) s = .next (s.setN (Obj.CTL_LINK + p) (b2n b))) ∧
  (∀ w s, s.boot.released = true → s.power ≠ 0 → s.power ≠ 5 → s.isStandby = false → ∃ t, exec (.watchdogExpiry w) s = .next t ∧
    t = { (s.inc Obj.WATCHDOG_EXPIRIES).raise ⟨6, 15, 255, 255, 0⟩ with
      boot := { ((s.inc Obj.WATCHDOG_EXPIRIES).raise ⟨6, 15, 255, 255, 0⟩).boot with released := false } }) ∧
  (∀ w s, s.boot.released = false → exec (.watchdogExpiry w) s = .next s)
end

