-- ==== Sys2Proof/Laws/State.lean ====
section
/-! SUPPORT. What the plain updates of State leave unchanged: one lemma per field per update, and what a read of an object finds
after a write of one (R29, R32). -/
namespace Sys2Proof.Machine

/-! ### Association lists -/

theorem kvGet_kvSet_self (l : List (Nat × α)) (k : Nat) (v : α) : kvGet (kvSet l k v) k = some v := by
  induction l with
  | nil => simp [kvSet, kvGet]
  | cons p r ih =>
    obtain ⟨k', v'⟩ := p
    simp only [kvSet]
    split
    · simp [kvGet]
    · split
      · simp [kvGet]
      · rename_i h1 h2
        simp only [kvGet]
        rw [if_neg (by omega)]
        exact ih

theorem kvGet_kvSet_other (l : List (Nat × α)) {k j : Nat} (v : α) (h : j ≠ k) : kvGet (kvSet l k v) j = kvGet l j := by
  induction l with
  | nil => simp [kvSet, kvGet, h.symm]
  | cons p r ih =>
    obtain ⟨k', v'⟩ := p
    simp only [kvSet]
    split
    · simp [kvGet, h.symm]
    · split
      · rename_i h1 h2
        subst h2
        simp [kvGet, h.symm]
      · simp only [kvGet]
        split
        · rfl
        · exact ih

/-! ### Reading an object after a write -/

@[simp] theorem State.get_set_self (s : State) (o : ObjRef) (v : Int) : (s.set o v).get o = v := by
  simp [State.get, State.set, kvGet_kvSet_self]

theorem State.get_set_other (s : State) {o p : ObjRef} (v : Int) (h : p ≠ o) : (s.set o v).get p = s.get p := by
  simp [State.get, State.set, kvGet_kvSet_other _ _ h]

theorem State.get_set (s : State) (o p : ObjRef) (v : Int) : (s.set o v).get p = if p = o then v else s.get p := by
  split
  · next h => subst h; simp
  · next h => exact s.get_set_other v h

@[simp] theorem State.get_setN_self (s : State) (o : ObjRef) (v : Nat) : (s.setN o v).get o = (v : Int) := by
  simp [State.setN]

theorem State.get_setN_other (s : State) {o p : ObjRef} (v : Nat) (h : p ≠ o) : (s.setN o v).get p = s.get p :=
  s.get_set_other v h

theorem State.get_setN (s : State) (o p : ObjRef) (v : Nat) : (s.setN o v).get p = if p = o then (v : Int) else s.get p :=
  s.get_set o p v

@[simp] theorem State.getN_setN_self (s : State) (o : ObjRef) (v : Nat) : (s.setN o v).getN o = v := by
  simp [State.getN]

theorem State.getN_setN_other (s : State) {o p : ObjRef} (v : Nat) (h : p ≠ o) : (s.setN o v).getN p = s.getN p := by
  simp [State.getN, s.get_setN_other v h]

theorem State.getN_setN (s : State) (o p : ObjRef) (v : Nat) : (s.setN o v).getN p = if p = o then v else s.getN p := by
  split
  · next h => subst h; simp
  · next h => exact s.getN_setN_other v h

@[simp] theorem State.get_emit (s : State) (x : Output) (o : ObjRef) : (s.emit x).get o = s.get o := rfl
@[simp] theorem State.getN_emit (s : State) (x : Output) (o : ObjRef) : (s.emit x).getN o = s.getN o := rfl

/-! ### Counters -/

/-- A counter of a dictionary row that is not at its greatest value counts by one. -/
theorem State.get_inc_self (s : State) (o : ObjRef) (r : ObjRow) (hr : objRow o = some r) (hv : s.get o + 1 < 2 ^ (8 * r.type.bytes)) :
    (s.inc o).get o = s.get o + 1 := by
  unfold State.inc State.add
  rw [hr]
  have h1 : ((1 : Nat) : Int) = 1 := rfl
  simp only [h1]
  rw [if_pos hv]
  simp

theorem State.get_add_other (s : State) {o p : ObjRef} (n : Nat) (h : p ≠ o) : (s.add o n).get p = s.get p := by
  unfold State.add
  split
  · rfl
  · dsimp only
    split
    · exact s.get_set_other _ h
    · split
      · exact s.get_set_other _ h
      · exact s.get_set_other _ h

theorem State.get_inc_other (s : State) {o p : ObjRef} (h : p ≠ o) : (s.inc o).get p = s.get p := s.get_add_other 1 h

theorem State.getN_inc_other (s : State) {o p : ObjRef} (h : p ≠ o) : (s.inc o).getN p = s.getN p := by
  simp [State.getN, s.get_inc_other h]

/-- A count changes the objects and nothing else. -/
theorem State.add_eq (s : State) (o : ObjRef) (n : Nat) : s.add o n = { s with od := (s.add o n).od } := by
  unfold State.add
  split
  · rfl
  · dsimp only
    split
    · rfl
    · split <;> rfl

theorem State.inc_eq (s : State) (o : ObjRef) : s.inc o = { s with od := (s.inc o).od } := s.add_eq o 1

/-! ### `set` -/

@[simp] theorem State.set_dom (s : State) (o : ObjRef) (v : Int) : (s.set o v).dom = s.dom := rfl
@[simp] theorem State.set_straps (s : State) (o : ObjRef) (v : Int) : (s.set o v).straps = s.straps := rfl
@[simp] theorem State.set_clk (s : State) (o : ObjRef) (v : Int) : (s.set o v).clk = s.clk := rfl
@[simp] theorem State.set_pins (s : State) (o : ObjRef) (v : Int) : (s.set o v).pins = s.pins := rfl
@[simp] theorem State.set_otp (s : State) (o : ObjRef) (v : Int) : (s.set o v).otp = s.otp := rfl
@[simp] theorem State.set_pwr (s : State) (o : ObjRef) (v : Int) : (s.set o v).pwr = s.pwr := rfl
@[simp] theorem State.set_boot (s : State) (o : ObjRef) (v : Int) : (s.set o v).boot = s.boot := rfl
@[simp] theorem State.set_fp (s : State) (o : ObjRef) (v : Int) : (s.set o v).fp = s.fp := rfl
@[simp] theorem State.set_stg (s : State) (o : ObjRef) (v : Int) : (s.set o v).stg = s.stg := rfl
@[simp] theorem State.set_log (s : State) (o : ObjRef) (v : Int) : (s.set o v).log = s.log := rfl
@[simp] theorem State.set_job (s : State) (o : ObjRef) (v : Int) : (s.set o v).job = s.job := rfl
@[simp] theorem State.set_st (s : State) (o : ObjRef) (v : Int) : (s.set o v).st = s.st := rfl
@[simp] theorem State.set_host (s : State) (o : ObjRef) (v : Int) : (s.set o v).host = s.host := rfl
@[simp] theorem State.set_dram (s : State) (o : ObjRef) (v : Int) : (s.set o v).dram = s.dram := rfl
@[simp] theorem State.set_sram (s : State) (o : ObjRef) (v : Int) : (s.set o v).sram = s.sram := rfl
@[simp] theorem State.set_ptp (s : State) (o : ObjRef) (v : Int) : (s.set o v).ptp = s.ptp := rfl
@[simp] theorem State.set_trg (s : State) (o : ObjRef) (v : Int) : (s.set o v).trg = s.trg := rfl
@[simp] theorem State.set_pair (s : State) (o : ObjRef) (v : Int) : (s.set o v).pair = s.pair := rfl
@[simp] theorem State.set_hs (s : State) (o : ObjRef) (v : Int) : (s.set o v).hs = s.hs := rfl
@[simp] theorem State.set_line (s : State) (o : ObjRef) (v : Int) : (s.set o v).line = s.line := rfl
@[simp] theorem State.set_lay (s : State) (o : ObjRef) (v : Int) : (s.set o v).lay = s.lay := rfl
@[simp] theorem State.set_ras (s : State) (o : ObjRef) (v : Int) : (s.set o v).ras = s.ras := rfl
@[simp] theorem State.set_spool (s : State) (o : ObjRef) (v : Int) : (s.set o v).spool = s.spool := rfl
@[simp] theorem State.set_sweep (s : State) (o : ObjRef) (v : Int) : (s.set o v).sweep = s.sweep := rfl
@[simp] theorem State.set_hist (s : State) (o : ObjRef) (v : Int) : (s.set o v).hist = s.hist := rfl
@[simp] theorem State.set_flow (s : State) (o : ObjRef) (v : Int) : (s.set o v).flow = s.flow := rfl
@[simp] theorem State.set_ledger (s : State) (o : ObjRef) (v : Int) : (s.set o v).ledger = s.ledger := rfl
@[simp] theorem State.set_units (s : State) (o : ObjRef) (v : Int) : (s.set o v).units = s.units := rfl
@[simp] theorem State.set_head (s : State) (o : ObjRef) (v : Int) : (s.set o v).head = s.head := rfl
@[simp] theorem State.set_cams (s : State) (o : ObjRef) (v : Int) : (s.set o v).cams = s.cams := rfl
@[simp] theorem State.set_cal (s : State) (o : ObjRef) (v : Int) : (s.set o v).cal = s.cal := rfl
@[simp] theorem State.set_cus (s : State) (o : ObjRef) (v : Int) : (s.set o v).cus = s.cus := rfl
@[simp] theorem State.set_dma (s : State) (o : ObjRef) (v : Int) : (s.set o v).dma = s.dma := rfl
@[simp] theorem State.set_fit (s : State) (o : ObjRef) (v : Int) : (s.set o v).fit = s.fit := rfl
@[simp] theorem State.set_out (s : State) (o : ObjRef) (v : Int) : (s.set o v).out = s.out := rfl
@[simp] theorem State.set_free (s : State) (o : ObjRef) (v : Int) : (s.set o v).free = s.free := rfl
@[simp] theorem State.set_pending (s : State) (o : ObjRef) (v : Int) : (s.set o v).pending = s.pending := rfl

/-! ### `setN` -/

@[simp] theorem State.setN_dom (s : State) (o : ObjRef) (v : Nat) : (s.setN o v).dom = s.dom := rfl
@[simp] theorem State.setN_straps (s : State) (o : ObjRef) (v : Nat) : (s.setN o v).straps = s.straps := rfl
@[simp] theorem State.setN_clk (s : State) (o : ObjRef) (v : Nat) : (s.setN o v).clk = s.clk := rfl
@[simp] theorem State.setN_pins (s : State) (o : ObjRef) (v : Nat) : (s.setN o v).pins = s.pins := rfl
@[simp] theorem State.setN_otp (s : State) (o : ObjRef) (v : Nat) : (s.setN o v).otp = s.otp := rfl
@[simp] theorem State.setN_pwr (s : State) (o : ObjRef) (v : Nat) : (s.setN o v).pwr = s.pwr := rfl
@[simp] theorem State.setN_boot (s : State) (o : ObjRef) (v : Nat) : (s.setN o v).boot = s.boot := rfl
@[simp] theorem State.setN_fp (s : State) (o : ObjRef) (v : Nat) : (s.setN o v).fp = s.fp := rfl
@[simp] theorem State.setN_stg (s : State) (o : ObjRef) (v : Nat) : (s.setN o v).stg = s.stg := rfl
@[simp] theorem State.setN_log (s : State) (o : ObjRef) (v : Nat) : (s.setN o v).log = s.log := rfl
@[simp] theorem State.setN_job (s : State) (o : ObjRef) (v : Nat) : (s.setN o v).job = s.job := rfl
@[simp] theorem State.setN_st (s : State) (o : ObjRef) (v : Nat) : (s.setN o v).st = s.st := rfl
@[simp] theorem State.setN_host (s : State) (o : ObjRef) (v : Nat) : (s.setN o v).host = s.host := rfl
@[simp] theorem State.setN_dram (s : State) (o : ObjRef) (v : Nat) : (s.setN o v).dram = s.dram := rfl
@[simp] theorem State.setN_sram (s : State) (o : ObjRef) (v : Nat) : (s.setN o v).sram = s.sram := rfl
@[simp] theorem State.setN_ptp (s : State) (o : ObjRef) (v : Nat) : (s.setN o v).ptp = s.ptp := rfl
@[simp] theorem State.setN_trg (s : State) (o : ObjRef) (v : Nat) : (s.setN o v).trg = s.trg := rfl
@[simp] theorem State.setN_pair (s : State) (o : ObjRef) (v : Nat) : (s.setN o v).pair = s.pair := rfl
@[simp] theorem State.setN_hs (s : State) (o : ObjRef) (v : Nat) : (s.setN o v).hs = s.hs := rfl
@[simp] theorem State.setN_line (s : State) (o : ObjRef) (v : Nat) : (s.setN o v).line = s.line := rfl
@[simp] theorem State.setN_lay (s : State) (o : ObjRef) (v : Nat) : (s.setN o v).lay = s.lay := rfl
@[simp] theorem State.setN_ras (s : State) (o : ObjRef) (v : Nat) : (s.setN o v).ras = s.ras := rfl
@[simp] theorem State.setN_spool (s : State) (o : ObjRef) (v : Nat) : (s.setN o v).spool = s.spool := rfl
@[simp] theorem State.setN_sweep (s : State) (o : ObjRef) (v : Nat) : (s.setN o v).sweep = s.sweep := rfl
@[simp] theorem State.setN_hist (s : State) (o : ObjRef) (v : Nat) : (s.setN o v).hist = s.hist := rfl
@[simp] theorem State.setN_flow (s : State) (o : ObjRef) (v : Nat) : (s.setN o v).flow = s.flow := rfl
@[simp] theorem State.setN_ledger (s : State) (o : ObjRef) (v : Nat) : (s.setN o v).ledger = s.ledger := rfl
@[simp] theorem State.setN_units (s : State) (o : ObjRef) (v : Nat) : (s.setN o v).units = s.units := rfl
@[simp] theorem State.setN_head (s : State) (o : ObjRef) (v : Nat) : (s.setN o v).head = s.head := rfl
@[simp] theorem State.setN_cams (s : State) (o : ObjRef) (v : Nat) : (s.setN o v).cams = s.cams := rfl
@[simp] theorem State.setN_cal (s : State) (o : ObjRef) (v : Nat) : (s.setN o v).cal = s.cal := rfl
@[simp] theorem State.setN_cus (s : State) (o : ObjRef) (v : Nat) : (s.setN o v).cus = s.cus := rfl
@[simp] theorem State.setN_dma (s : State) (o : ObjRef) (v : Nat) : (s.setN o v).dma = s.dma := rfl
@[simp] theorem State.setN_fit (s : State) (o : ObjRef) (v : Nat) : (s.setN o v).fit = s.fit := rfl
@[simp] theorem State.setN_out (s : State) (o : ObjRef) (v : Nat) : (s.setN o v).out = s.out := rfl
@[simp] theorem State.setN_free (s : State) (o : ObjRef) (v : Nat) : (s.setN o v).free = s.free := rfl
@[simp] theorem State.setN_pending (s : State) (o : ObjRef) (v : Nat) : (s.setN o v).pending = s.pending := rfl

/-! ### `emit` -/

@[simp] theorem State.emit_od (s : State) (x : Output) : (s.emit x).od = s.od := rfl
@[simp] theorem State.emit_dom (s : State) (x : Output) : (s.emit x).dom = s.dom := rfl
@[simp] theorem State.emit_straps (s : State) (x : Output) : (s.emit x).straps = s.straps := rfl
@[simp] theorem State.emit_clk (s : State) (x : Output) : (s.emit x).clk = s.clk := rfl
@[simp] theorem State.emit_pins (s : State) (x : Output) : (s.emit x).pins = s.pins := rfl
@[simp] theorem State.emit_otp (s : State) (x : Output) : (s.emit x).otp = s.otp := rfl
@[simp] theorem State.emit_pwr (s : State) (x : Output) : (s.emit x).pwr = s.pwr := rfl
@[simp] theorem State.emit_boot (s : State) (x : Output) : (s.emit x).boot = s.boot := rfl
@[simp] theorem State.emit_fp (s : State) (x : Output) : (s.emit x).fp = s.fp := rfl
@[simp] theorem State.emit_stg (s : State) (x : Output) : (s.emit x).stg = s.stg := rfl
@[simp] theorem State.emit_log (s : State) (x : Output) : (s.emit x).log = s.log := rfl
@[simp] theorem State.emit_job (s : State) (x : Output) : (s.emit x).job = s.job := rfl
@[simp] theorem State.emit_st (s : State) (x : Output) : (s.emit x).st = s.st := rfl
@[simp] theorem State.emit_host (s : State) (x : Output) : (s.emit x).host = s.host := rfl
@[simp] theorem State.emit_dram (s : State) (x : Output) : (s.emit x).dram = s.dram := rfl
@[simp] theorem State.emit_sram (s : State) (x : Output) : (s.emit x).sram = s.sram := rfl
@[simp] theorem State.emit_ptp (s : State) (x : Output) : (s.emit x).ptp = s.ptp := rfl
@[simp] theorem State.emit_trg (s : State) (x : Output) : (s.emit x).trg = s.trg := rfl
@[simp] theorem State.emit_pair (s : State) (x : Output) : (s.emit x).pair = s.pair := rfl
@[simp] theorem State.emit_hs (s : State) (x : Output) : (s.emit x).hs = s.hs := rfl
@[simp] theorem State.emit_line (s : State) (x : Output) : (s.emit x).line = s.line := rfl
@[simp] theorem State.emit_lay (s : State) (x : Output) : (s.emit x).lay = s.lay := rfl
@[simp] theorem State.emit_ras (s : State) (x : Output) : (s.emit x).ras = s.ras := rfl
@[simp] theorem State.emit_spool (s : State) (x : Output) : (s.emit x).spool = s.spool := rfl
@[simp] theorem State.emit_sweep (s : State) (x : Output) : (s.emit x).sweep = s.sweep := rfl
@[simp] theorem State.emit_hist (s : State) (x : Output) : (s.emit x).hist = s.hist := rfl
@[simp] theorem State.emit_flow (s : State) (x : Output) : (s.emit x).flow = s.flow := rfl
@[simp] theorem State.emit_ledger (s : State) (x : Output) : (s.emit x).ledger = s.ledger := rfl
@[simp] theorem State.emit_units (s : State) (x : Output) : (s.emit x).units = s.units := rfl
@[simp] theorem State.emit_head (s : State) (x : Output) : (s.emit x).head = s.head := rfl
@[simp] theorem State.emit_cams (s : State) (x : Output) : (s.emit x).cams = s.cams := rfl
@[simp] theorem State.emit_cal (s : State) (x : Output) : (s.emit x).cal = s.cal := rfl
@[simp] theorem State.emit_cus (s : State) (x : Output) : (s.emit x).cus = s.cus := rfl
@[simp] theorem State.emit_dma (s : State) (x : Output) : (s.emit x).dma = s.dma := rfl
@[simp] theorem State.emit_fit (s : State) (x : Output) : (s.emit x).fit = s.fit := rfl
@[simp] theorem State.emit_free (s : State) (x : Output) : (s.emit x).free = s.free := rfl
@[simp] theorem State.emit_pending (s : State) (x : Output) : (s.emit x).pending = s.pending := rfl

/-! ### `add` -/

@[simp] theorem State.add_dom (s : State) (o : ObjRef) (n : Nat) : (s.add o n).dom = s.dom := by rw [s.add_eq o n]
@[simp] theorem State.add_straps (s : State) (o : ObjRef) (n : Nat) : (s.add o n).straps = s.straps := by rw [s.add_eq o n]
@[simp] theorem State.add_clk (s : State) (o : ObjRef) (n : Nat) : (s.add o n).clk = s.clk := by rw [s.add_eq o n]
@[simp] theorem State.add_pins (s : State) (o : ObjRef) (n : Nat) : (s.add o n).pins = s.pins := by rw [s.add_eq o n]
@[simp] theorem State.add_otp (s : State) (o : ObjRef) (n : Nat) : (s.add o n).otp = s.otp := by rw [s.add_eq o n]
@[simp] theorem State.add_pwr (s : State) (o : ObjRef) (n : Nat) : (s.add o n).pwr = s.pwr := by rw [s.add_eq o n]
@[simp] theorem State.add_boot (s : State) (o : ObjRef) (n : Nat) : (s.add o n).boot = s.boot := by rw [s.add_eq o n]
@[simp] theorem State.add_fp (s : State) (o : ObjRef) (n : Nat) : (s.add o n).fp = s.fp := by rw [s.add_eq o n]
@[simp] theorem State.add_stg (s : State) (o : ObjRef) (n : Nat) : (s.add o n).stg = s.stg := by rw [s.add_eq o n]
@[simp] theorem State.add_log (s : State) (o : ObjRef) (n : Nat) : (s.add o n).log = s.log := by rw [s.add_eq o n]
@[simp] theorem State.add_job (s : State) (o : ObjRef) (n : Nat) : (s.add o n).job = s.job := by rw [s.add_eq o n]
@[simp] theorem State.add_st (s : State) (o : ObjRef) (n : Nat) : (s.add o n).st = s.st := by rw [s.add_eq o n]
@[simp] theorem State.add_host (s : State) (o : ObjRef) (n : Nat) : (s.add o n).host = s.host := by rw [s.add_eq o n]
@[simp] theorem State.add_dram (s : State) (o : ObjRef) (n : Nat) : (s.add o n).dram = s.dram := by rw [s.add_eq o n]
@[simp] theorem State.add_sram (s : State) (o : ObjRef) (n : Nat) : (s.add o n).sram = s.sram := by rw [s.add_eq o n]
@[simp] theorem State.add_ptp (s : State) (o : ObjRef) (n : Nat) : (s.add o n).ptp = s.ptp := by rw [s.add_eq o n]
@[simp] theorem State.add_trg (s : State) (o : ObjRef) (n : Nat) : (s.add o n).trg = s.trg := by rw [s.add_eq o n]
@[simp] theorem State.add_pair (s : State) (o : ObjRef) (n : Nat) : (s.add o n).pair = s.pair := by rw [s.add_eq o n]
@[simp] theorem State.add_hs (s : State) (o : ObjRef) (n : Nat) : (s.add o n).hs = s.hs := by rw [s.add_eq o n]
@[simp] theorem State.add_line (s : State) (o : ObjRef) (n : Nat) : (s.add o n).line = s.line := by rw [s.add_eq o n]
@[simp] theorem State.add_lay (s : State) (o : ObjRef) (n : Nat) : (s.add o n).lay = s.lay := by rw [s.add_eq o n]
@[simp] theorem State.add_ras (s : State) (o : ObjRef) (n : Nat) : (s.add o n).ras = s.ras := by rw [s.add_eq o n]
@[simp] theorem State.add_spool (s : State) (o : ObjRef) (n : Nat) : (s.add o n).spool = s.spool := by rw [s.add_eq o n]
@[simp] theorem State.add_sweep (s : State) (o : ObjRef) (n : Nat) : (s.add o n).sweep = s.sweep := by rw [s.add_eq o n]
@[simp] theorem State.add_hist (s : State) (o : ObjRef) (n : Nat) : (s.add o n).hist = s.hist := by rw [s.add_eq o n]
@[simp] theorem State.add_flow (s : State) (o : ObjRef) (n : Nat) : (s.add o n).flow = s.flow := by rw [s.add_eq o n]
@[simp] theorem State.add_ledger (s : State) (o : ObjRef) (n : Nat) : (s.add o n).ledger = s.ledger := by rw [s.add_eq o n]
@[simp] theorem State.add_units (s : State) (o : ObjRef) (n : Nat) : (s.add o n).units = s.units := by rw [s.add_eq o n]
@[simp] theorem State.add_head (s : State) (o : ObjRef) (n : Nat) : (s.add o n).head = s.head := by rw [s.add_eq o n]
@[simp] theorem State.add_cams (s : State) (o : ObjRef) (n : Nat) : (s.add o n).cams = s.cams := by rw [s.add_eq o n]
@[simp] theorem State.add_cal (s : State) (o : ObjRef) (n : Nat) : (s.add o n).cal = s.cal := by rw [s.add_eq o n]
@[simp] theorem State.add_cus (s : State) (o : ObjRef) (n : Nat) : (s.add o n).cus = s.cus := by rw [s.add_eq o n]
@[simp] theorem State.add_dma (s : State) (o : ObjRef) (n : Nat) : (s.add o n).dma = s.dma := by rw [s.add_eq o n]
@[simp] theorem State.add_fit (s : State) (o : ObjRef) (n : Nat) : (s.add o n).fit = s.fit := by rw [s.add_eq o n]
@[simp] theorem State.add_out (s : State) (o : ObjRef) (n : Nat) : (s.add o n).out = s.out := by rw [s.add_eq o n]
@[simp] theorem State.add_free (s : State) (o : ObjRef) (n : Nat) : (s.add o n).free = s.free := by rw [s.add_eq o n]
@[simp] theorem State.add_pending (s : State) (o : ObjRef) (n : Nat) : (s.add o n).pending = s.pending := by rw [s.add_eq o n]

/-! ### `inc` -/

@[simp] theorem State.inc_dom (s : State) (o : ObjRef) : (s.inc o).dom = s.dom := by rw [s.inc_eq o]
@[simp] theorem State.inc_straps (s : State) (o : ObjRef) : (s.inc o).straps = s.straps := by rw [s.inc_eq o]
@[simp] theorem State.inc_clk (s : State) (o : ObjRef) : (s.inc o).clk = s.clk := by rw [s.inc_eq o]
@[simp] theorem State.inc_pins (s : State) (o : ObjRef) : (s.inc o).pins = s.pins := by rw [s.inc_eq o]
@[simp] theorem State.inc_otp (s : State) (o : ObjRef) : (s.inc o).otp = s.otp := by rw [s.inc_eq o]
@[simp] theorem State.inc_pwr (s : State) (o : ObjRef) : (s.inc o).pwr = s.pwr := by rw [s.inc_eq o]
@[simp] theorem State.inc_boot (s : State) (o : ObjRef) : (s.inc o).boot = s.boot := by rw [s.inc_eq o]
@[simp] theorem State.inc_fp (s : State) (o : ObjRef) : (s.inc o).fp = s.fp := by rw [s.inc_eq o]
@[simp] theorem State.inc_stg (s : State) (o : ObjRef) : (s.inc o).stg = s.stg := by rw [s.inc_eq o]
@[simp] theorem State.inc_log (s : State) (o : ObjRef) : (s.inc o).log = s.log := by rw [s.inc_eq o]
@[simp] theorem State.inc_job (s : State) (o : ObjRef) : (s.inc o).job = s.job := by rw [s.inc_eq o]
@[simp] theorem State.inc_st (s : State) (o : ObjRef) : (s.inc o).st = s.st := by rw [s.inc_eq o]
@[simp] theorem State.inc_host (s : State) (o : ObjRef) : (s.inc o).host = s.host := by rw [s.inc_eq o]
@[simp] theorem State.inc_dram (s : State) (o : ObjRef) : (s.inc o).dram = s.dram := by rw [s.inc_eq o]
@[simp] theorem State.inc_sram (s : State) (o : ObjRef) : (s.inc o).sram = s.sram := by rw [s.inc_eq o]
@[simp] theorem State.inc_ptp (s : State) (o : ObjRef) : (s.inc o).ptp = s.ptp := by rw [s.inc_eq o]
@[simp] theorem State.inc_trg (s : State) (o : ObjRef) : (s.inc o).trg = s.trg := by rw [s.inc_eq o]
@[simp] theorem State.inc_pair (s : State) (o : ObjRef) : (s.inc o).pair = s.pair := by rw [s.inc_eq o]
@[simp] theorem State.inc_hs (s : State) (o : ObjRef) : (s.inc o).hs = s.hs := by rw [s.inc_eq o]
@[simp] theorem State.inc_line (s : State) (o : ObjRef) : (s.inc o).line = s.line := by rw [s.inc_eq o]
@[simp] theorem State.inc_lay (s : State) (o : ObjRef) : (s.inc o).lay = s.lay := by rw [s.inc_eq o]
@[simp] theorem State.inc_ras (s : State) (o : ObjRef) : (s.inc o).ras = s.ras := by rw [s.inc_eq o]
@[simp] theorem State.inc_spool (s : State) (o : ObjRef) : (s.inc o).spool = s.spool := by rw [s.inc_eq o]
@[simp] theorem State.inc_sweep (s : State) (o : ObjRef) : (s.inc o).sweep = s.sweep := by rw [s.inc_eq o]
@[simp] theorem State.inc_hist (s : State) (o : ObjRef) : (s.inc o).hist = s.hist := by rw [s.inc_eq o]
@[simp] theorem State.inc_flow (s : State) (o : ObjRef) : (s.inc o).flow = s.flow := by rw [s.inc_eq o]
@[simp] theorem State.inc_ledger (s : State) (o : ObjRef) : (s.inc o).ledger = s.ledger := by rw [s.inc_eq o]
@[simp] theorem State.inc_units (s : State) (o : ObjRef) : (s.inc o).units = s.units := by rw [s.inc_eq o]
@[simp] theorem State.inc_head (s : State) (o : ObjRef) : (s.inc o).head = s.head := by rw [s.inc_eq o]
@[simp] theorem State.inc_cams (s : State) (o : ObjRef) : (s.inc o).cams = s.cams := by rw [s.inc_eq o]
@[simp] theorem State.inc_cal (s : State) (o : ObjRef) : (s.inc o).cal = s.cal := by rw [s.inc_eq o]
@[simp] theorem State.inc_cus (s : State) (o : ObjRef) : (s.inc o).cus = s.cus := by rw [s.inc_eq o]
@[simp] theorem State.inc_dma (s : State) (o : ObjRef) : (s.inc o).dma = s.dma := by rw [s.inc_eq o]
@[simp] theorem State.inc_fit (s : State) (o : ObjRef) : (s.inc o).fit = s.fit := by rw [s.inc_eq o]
@[simp] theorem State.inc_out (s : State) (o : ObjRef) : (s.inc o).out = s.out := by rw [s.inc_eq o]
@[simp] theorem State.inc_free (s : State) (o : ObjRef) : (s.inc o).free = s.free := by rw [s.inc_eq o]
@[simp] theorem State.inc_pending (s : State) (o : ObjRef) : (s.inc o).pending = s.pending := by rw [s.inc_eq o]

end Sys2Proof.Machine
end

