-- ==== Sys2Proof/Laws/Ops.lean ====
section
/-! SUPPORT. What each shared operation of Machine/Ops.lean can do, said once: the gate before a write, the error log, device
time, job state changes, held triggers and HALT. -/
namespace Sys2Proof.Machine

/-! ### The gate before a write -/

theorem State.gate_of_mayWrite {s : State} {c : Caller} {o : ObjRef} (f : State → Wr) (h : s.mayWrite c o) : s.gate c o f = f s := by
  obtain ⟨h1, h2⟩ := h
  unfold State.gate
  rw [h1]
  by_cases hv : c.via = .spi
  · simp [hv, h2 hv]
  · simp [hv]

/-- A write that the gate stops changes nothing. -/
theorem State.gate_denied {s : State} {c : Caller} {o : ObjRef} (f : State → Wr)
    (h : s.answers c.via = false ∨ (c.via = .spi ∧ spiWritable s o = false)) : s.gate c o f = (s, stAccess) := by
  unfold State.gate State.deny
  rcases h with h | ⟨h1, h2⟩
  · simp [h]
  · simp [h1, h2]

@[simp] theorem State.deny_fst (s : State) (n : Nat) : (s.deny n).1 = s := rfl
@[simp] theorem State.ok_fst (s : State) : s.ok.1 = s := rfl

/-! ### The error log -/

theorem State.logEvent_eq (s : State) (e : Ev) :
    s.logEvent e = { s with od := (s.logEvent e).od, log := (s.logEvent e).log } := by
  unfold State.logEvent
  split
  · dsimp only
    split
    · simp
    · simp [State.setN, State.set]
  · simp [State.setN, State.set]

theorem State.get_logEvent_other (s : State) (e : Ev) {o : ObjRef} (h : o ∉ logObjects e.cls) : (s.logEvent e).get o = s.get o := by
  simp only [logObjects, List.mem_cons, List.not_mem_nil, or_false, not_or] at h
  obtain ⟨h1, h2, h3, h4, h5⟩ := h
  unfold State.logEvent
  split
  · dsimp only
    split
    · have : ∀ (u : State) l, ({ u with log := l } : State).get o = u.get o := fun _ _ => rfl
      rw [this, State.get_inc_other _ h5, State.get_inc_other _ h2, State.get_inc_other _ h1]
    · have : ∀ (u : State) l, ({ u with log := l } : State).get o = u.get o := fun _ _ => rfl
      rw [this, State.get_setN_other _ _ h4, State.get_setN_other _ _ h3, State.get_inc_other _ h2, State.get_inc_other _ h1]
  · have : ∀ (u : State) l, ({ u with log := l } : State).get o = u.get o := fun _ _ => rfl
    rw [this, State.get_setN_other _ _ h4, State.get_setN_other _ _ h3, State.get_inc_other _ h2, State.get_inc_other _ h1]

theorem State.newestLog_logEvent (s : State) (e : Ev) : (s.logEvent e).newestLog e.cls e.subsys e.obj := by
  unfold State.logEvent
  split
  · next x rest hx =>
    dsimp only
    split
    · next hm =>
      simp only [mergesInto, Bool.and_eq_true, decide_eq_true_eq] at hm
      exact ⟨_, _, rfl, hm.1.1.1.1.1.2, hm.1.1.1.1.2, hm.1.2⟩
    · exact ⟨_, _, rfl, rfl, rfl, rfl⟩
  · exact ⟨_, _, rfl, rfl, rfl, rfl⟩

@[simp] theorem State.logEvent_dom (s : State) (e : Ev) : (s.logEvent e).dom = s.dom := by rw [s.logEvent_eq e]
@[simp] theorem State.logEvent_straps (s : State) (e : Ev) : (s.logEvent e).straps = s.straps := by rw [s.logEvent_eq e]
@[simp] theorem State.logEvent_clk (s : State) (e : Ev) : (s.logEvent e).clk = s.clk := by rw [s.logEvent_eq e]
@[simp] theorem State.logEvent_pins (s : State) (e : Ev) : (s.logEvent e).pins = s.pins := by rw [s.logEvent_eq e]
@[simp] theorem State.logEvent_otp (s : State) (e : Ev) : (s.logEvent e).otp = s.otp := by rw [s.logEvent_eq e]
@[simp] theorem State.logEvent_pwr (s : State) (e : Ev) : (s.logEvent e).pwr = s.pwr := by rw [s.logEvent_eq e]
@[simp] theorem State.logEvent_boot (s : State) (e : Ev) : (s.logEvent e).boot = s.boot := by rw [s.logEvent_eq e]
@[simp] theorem State.logEvent_fp (s : State) (e : Ev) : (s.logEvent e).fp = s.fp := by rw [s.logEvent_eq e]
@[simp] theorem State.logEvent_stg (s : State) (e : Ev) : (s.logEvent e).stg = s.stg := by rw [s.logEvent_eq e]
@[simp] theorem State.logEvent_job (s : State) (e : Ev) : (s.logEvent e).job = s.job := by rw [s.logEvent_eq e]
@[simp] theorem State.logEvent_st (s : State) (e : Ev) : (s.logEvent e).st = s.st := by rw [s.logEvent_eq e]
@[simp] theorem State.logEvent_host (s : State) (e : Ev) : (s.logEvent e).host = s.host := by rw [s.logEvent_eq e]
@[simp] theorem State.logEvent_dram (s : State) (e : Ev) : (s.logEvent e).dram = s.dram := by rw [s.logEvent_eq e]
@[simp] theorem State.logEvent_sram (s : State) (e : Ev) : (s.logEvent e).sram = s.sram := by rw [s.logEvent_eq e]
@[simp] theorem State.logEvent_ptp (s : State) (e : Ev) : (s.logEvent e).ptp = s.ptp := by rw [s.logEvent_eq e]
@[simp] theorem State.logEvent_trg (s : State) (e : Ev) : (s.logEvent e).trg = s.trg := by rw [s.logEvent_eq e]
@[simp] theorem State.logEvent_pair (s : State) (e : Ev) : (s.logEvent e).pair = s.pair := by rw [s.logEvent_eq e]
@[simp] theorem State.logEvent_hs (s : State) (e : Ev) : (s.logEvent e).hs = s.hs := by rw [s.logEvent_eq e]
@[simp] theorem State.logEvent_line (s : State) (e : Ev) : (s.logEvent e).line = s.line := by rw [s.logEvent_eq e]
@[simp] theorem State.logEvent_lay (s : State) (e : Ev) : (s.logEvent e).lay = s.lay := by rw [s.logEvent_eq e]
@[simp] theorem State.logEvent_ras (s : State) (e : Ev) : (s.logEvent e).ras = s.ras := by rw [s.logEvent_eq e]
@[simp] theorem State.logEvent_spool (s : State) (e : Ev) : (s.logEvent e).spool = s.spool := by rw [s.logEvent_eq e]
@[simp] theorem State.logEvent_sweep (s : State) (e : Ev) : (s.logEvent e).sweep = s.sweep := by rw [s.logEvent_eq e]
@[simp] theorem State.logEvent_hist (s : State) (e : Ev) : (s.logEvent e).hist = s.hist := by rw [s.logEvent_eq e]
@[simp] theorem State.logEvent_flow (s : State) (e : Ev) : (s.logEvent e).flow = s.flow := by rw [s.logEvent_eq e]
@[simp] theorem State.logEvent_ledger (s : State) (e : Ev) : (s.logEvent e).ledger = s.ledger := by rw [s.logEvent_eq e]
@[simp] theorem State.logEvent_units (s : State) (e : Ev) : (s.logEvent e).units = s.units := by rw [s.logEvent_eq e]
@[simp] theorem State.logEvent_head (s : State) (e : Ev) : (s.logEvent e).head = s.head := by rw [s.logEvent_eq e]
@[simp] theorem State.logEvent_cams (s : State) (e : Ev) : (s.logEvent e).cams = s.cams := by rw [s.logEvent_eq e]
@[simp] theorem State.logEvent_cal (s : State) (e : Ev) : (s.logEvent e).cal = s.cal := by rw [s.logEvent_eq e]
@[simp] theorem State.logEvent_cus (s : State) (e : Ev) : (s.logEvent e).cus = s.cus := by rw [s.logEvent_eq e]
@[simp] theorem State.logEvent_dma (s : State) (e : Ev) : (s.logEvent e).dma = s.dma := by rw [s.logEvent_eq e]
@[simp] theorem State.logEvent_fit (s : State) (e : Ev) : (s.logEvent e).fit = s.fit := by rw [s.logEvent_eq e]
@[simp] theorem State.logEvent_out (s : State) (e : Ev) : (s.logEvent e).out = s.out := by rw [s.logEvent_eq e]
@[simp] theorem State.logEvent_free (s : State) (e : Ev) : (s.logEvent e).free = s.free := by rw [s.logEvent_eq e]
@[simp] theorem State.logEvent_pending (s : State) (e : Ev) : (s.logEvent e).pending = s.pending := by rw [s.logEvent_eq e]

end Sys2Proof.Machine
end

