-- ==== Sys2Proof/Laws/Memory.lean ====
section
/-! SUPPORT. DRAM: every write keeps the canonical form (assumption 5) and a read after it finds what was written; what the
operations over words and bytes leave unchanged (R265, R272, R273, R276, R281). -/
namespace Sys2Proof.Machine

/-! ### The list of bytes -/

/-- Every address of a canonical list is above a bound. -/
def memAbove (m : List Host.Cell) (n : Nat) : Prop := ∀ p ∈ m, n < p.1

theorem memWf_tail {p : Host.Cell} {m : List Host.Cell} (h : memWf (p :: m) = true) : memWf m = true := by
  cases m with
  | nil => rfl
  | cons q r => simp only [memWf, Bool.and_eq_true] at h; exact h.2

theorem memWf_above {p : Host.Cell} {m : List Host.Cell} (h : memWf (p :: m) = true) : memAbove m p.1 := by
  induction m generalizing p with
  | nil => intro q hq; cases hq
  | cons q r ih =>
    simp only [memWf, Bool.and_eq_true, decide_eq_true_eq] at h
    intro x hx
    cases hx with
    | head => exact h.1.2
    | tail _ hx => exact Nat.lt_trans h.1.2 (ih h.2 x hx)

theorem memWf_head {p : Host.Cell} {m : List Host.Cell} (h : memWf (p :: m) = true) : p.2 ≠ unlistedByte := by
  cases m with
  | nil => simpa [memWf] using h
  | cons q r => simp only [memWf, Bool.and_eq_true, bne_iff_ne] at h; exact h.1.1

theorem memWf_cons {p : Host.Cell} {m : List Host.Cell} (h0 : p.2 ≠ unlistedByte) (h1 : memAbove m p.1) (h2 : memWf m = true) :
    memWf (p :: m) = true := by
  cases m with
  | nil => simpa [memWf] using h0
  | cons q r => simp [memWf, h0, h1 q List.mem_cons_self, h2]

/-- A write adds no address but its own. -/
theorem memAbove_memWrite {m : List Host.Cell} {n a : Nat} (b : Byte) (h : memAbove m n) (ha : n < a) : memAbove (memWrite m a b) n := by
  induction m with
  | nil => simp only [memWrite]; split <;> intro p hp <;> simp_all
  | cons q r ih =>
    have hr : memAbove r n := fun p hp => h p (List.mem_cons_of_mem _ hp)
    have hq := h q List.mem_cons_self
    simp only [memWrite]
    intro p hp
    split at hp
    · split at hp
      · exact h p hp
      · simp only [List.mem_cons] at hp
        rcases hp with rfl | rfl | hp
        · exact ha
        · exact hq
        · exact hr p hp
    · split at hp
      · split at hp
        · exact hr p hp
        · simp only [List.mem_cons] at hp
          rcases hp with rfl | hp
          · exact ha
          · exact hr p hp
      · simp only [List.mem_cons] at hp
        rcases hp with rfl | hp
        · exact hq
        · exact ih hr p hp

/-- A write of one byte keeps the canonical form. -/
theorem memWf_memWrite {m : List Host.Cell} (a : Nat) (b : Byte) (h : memWf m = true) : memWf (memWrite m a b) = true := by
  induction m with
  | nil =>
    simp only [memWrite]
    split
    · rfl
    · next hb => simpa [memWf] using hb
  | cons q r ih =>
    have hr := memWf_tail h
    have hq := memWf_above h
    simp only [memWrite]
    split
    · next ha =>
      split
      · exact h
      · next hb =>
        refine memWf_cons hb (fun p hp => ?_) h
        cases hp with
        | head => exact ha
        | tail _ hp => exact Nat.lt_trans ha (hq p hp)
    · split
      · next ha =>
        split
        · exact hr
        · next hb => exact memWf_cons hb (by rw [ha]; exact hq) hr
      · next h1 h2 => exact memWf_cons (memWf_head h) (memAbove_memWrite b hq (by omega)) (ih hr)

/-- A write of bytes keeps the canonical form. -/
theorem memWf_memWriteList {m : List Host.Cell} (a : Nat) (bs : Bytes) (h : memWf m = true) : memWf (memWriteList m a bs) = true := by
  induction bs generalizing m a with
  | nil => exact h
  | cons b r ih => exact ih (a + 1) (memWf_memWrite a b h)

/-- Below its least address a canonical list reads as unlisted. -/
theorem memRead_above {m : List Host.Cell} {n : Nat} (h : memAbove m n) : memRead m n = unlistedByte := by
  cases m with
  | nil => rfl
  | cons q r =>
    have := h q List.mem_cons_self
    simp only [memRead]
    rw [if_neg (by omega), if_pos this]

/-- A read after a write of the same byte finds it. -/
theorem memRead_memWrite_self {m : List Host.Cell} (a : Nat) (b : Byte) (h : memWf m = true) : memRead (memWrite m a b) a = b := by
  induction m with
  | nil => simp only [memWrite]; split <;> simp_all [memRead]
  | cons q r ih =>
    have hr := memWf_tail h
    have hq := memWf_above h
    simp only [memWrite]
    split
    · next ha =>
      split
      · next hb => simp only [memRead]; rw [if_neg (by omega), if_pos ha, hb]
      · simp [memRead]
    · split
      · next ha =>
        split
        · next hb => rw [hb]; exact memRead_above (by rw [ha]; exact hq)
        · simp [memRead]
      · next h1 h2 =>
        simp only [memRead]
        rw [if_neg (by omega), if_neg (by omega)]
        exact ih hr

/-- A write leaves every other byte alone. -/
theorem memRead_memWrite_other {m : List Host.Cell} {a x : Nat} (b : Byte) (h : memWf m = true) (hx : x ≠ a) :
    memRead (memWrite m a b) x = memRead m x := by
  induction m with
  | nil =>
    simp only [memWrite]
    split
    · rfl
    · simp only [memRead]; rw [if_neg (Ne.symm hx)]; split <;> rfl
  | cons q r ih =>
    have hr := memWf_tail h
    have hq := memWf_above h
    simp only [memWrite]
    split
    · next ha =>
      split
      · rfl
      · simp only [memRead]
        rw [if_neg (Ne.symm hx)]
        split
        · rw [if_neg (by omega), if_pos (by omega)]
        · rfl
    · split
      · next ha =>
        have hx' : ¬ q.1 = x := by omega
        split
        · simp only [memRead]
          rw [if_neg hx']
          split
          · exact memRead_above fun p hp => Nat.lt_trans (by assumption) (hq p hp)
          · rfl
        · simp only [memRead]
          rw [if_neg (Ne.symm hx), if_neg hx', ha]
      · simp only [memRead]
        rw [ih hr]

/-- A read outside the bytes written finds what was there. -/
theorem memRead_memWriteList_other {m : List Host.Cell} {a x : Nat} (bs : Bytes) (h : memWf m = true) (hx : x < a ∨ a + bs.length ≤ x) :
    memRead (memWriteList m a bs) x = memRead m x := by
  induction bs generalizing m a with
  | nil => rfl
  | cons b r ih =>
    simp only [List.length_cons] at hx
    simp only [memWriteList]
    rw [ih (memWf_memWrite a b h) (by omega), memRead_memWrite_other b h (by omega)]

/-- A read inside the bytes written finds them. -/
theorem memRead_memWriteList_self {m : List Host.Cell} {a i : Nat} (bs : Bytes) (h : memWf m = true) (hi : i < bs.length) :
    memRead (memWriteList m a bs) (a + i) = bs[i] := by
  induction bs generalizing m a i with
  | nil => simp at hi
  | cons b r ih =>
    simp only [memWriteList]
    cases i with
    | zero =>
      show memRead (memWriteList (memWrite m a b) (a + 1) r) a = b
      rw [memRead_memWriteList_other r (memWf_memWrite a b h) (by omega), memRead_memWrite_self a b h]
    | succ i =>
      rw [show a + (i + 1) = a + 1 + i by omega, ih (memWf_memWrite a b h) (by simpa using hi)]
      rfl

/-! ### Operations on the state -/

/-- The fill leaves the canonical form, and so does the reset. -/
theorem State.memCanonical_blank (o : Otp) (a b n : Bytes) : (State.blank o a b n).memCanonical = true := rfl

/-- What a write of part of a word or of a whole word can do: DRAM, its poison and its watch. -/
theorem State.dramWriteWord_eq (s : State) (wa off : Nat) (bs : Bytes) : ∃ mem poisoned watch, (s.dramWriteWord wa off bs).1 =
    { s with dram := { s.dram with mem := mem, poisoned := poisoned, watch := watch } } ∧ (memWf s.dram.mem = true → memWf mem = true) := by
  unfold State.dramWriteWord
  dsimp only
  split
  · exact ⟨s.dram.mem, s.dram.poisoned, s.dram.watch, rfl, id⟩
  · split
    · exact ⟨_, _, _, rfl, memWf_memWriteList _ _⟩
    · split
      · exact ⟨s.dram.mem, s.dram.poisoned, s.dram.watch, rfl, id⟩
      · exact ⟨_, s.dram.poisoned, s.dram.watch, rfl, memWf_memWriteList _ _⟩

/-- What a write of bytes word by word can do. -/
theorem State.dramWriteAux_eq (n : Nat) (s : State) (a : Nat) (bs : Bytes) (bad : List Nat) : ∃ mem poisoned watch,
    (State.dramWriteAux n s a bs bad).1 = { s with dram := { s.dram with mem := mem, poisoned := poisoned, watch := watch } } ∧
    (memWf s.dram.mem = true → memWf mem = true) := by
  induction n generalizing s a bs bad with
  | zero => exact ⟨s.dram.mem, s.dram.poisoned, s.dram.watch, rfl, id⟩
  | succ n ih =>
    simp only [State.dramWriteAux]
    split
    · exact ⟨s.dram.mem, s.dram.poisoned, s.dram.watch, rfl, id⟩
    · obtain ⟨mem, p, w, e, h⟩ := s.dramWriteWord_eq (a / 8) (a % 8) (bs.take (min (8 - a % 8) bs.length))
      obtain ⟨mem', p', w', e', h'⟩ := ih (s.dramWriteWord (a / 8) (a % 8) (bs.take (min (8 - a % 8) bs.length))).1
        (a + min (8 - a % 8) bs.length) (bs.drop (min (8 - a % 8) bs.length))
        (bad ++ (s.dramWriteWord (a / 8) (a % 8) (bs.take (min (8 - a % 8) bs.length))).2)
      refine ⟨mem', p', w', ?_, fun hm => h' ?_⟩
      · rw [e', e]
      · rw [e]; exact h hm

/-- The acceptance of a write touches one counter and the queue of its channel (R273). -/
theorem State.acceptWrite_eq (s : State) (a n : Nat) : ∃ od channels,
    s.acceptWrite a n = { s with od := od, dram := { s.dram with channels := channels } } := by
  unfold State.acceptWrite
  dsimp only
  split
  · exact ⟨s.od, s.dram.channels, rfl⟩
  · split
    · rw [s.inc_eq]; exact ⟨_, _, rfl⟩
    · exact ⟨s.od, _, rfl⟩

/-- What a write of bytes burst by burst can do. -/
theorem State.dramWriteBursts_eq (n : Nat) (s : State) (a : Nat) (bs : Bytes) (bad : List Nat) : ∃ od mem poisoned watch channels,
    (State.dramWriteBursts n s a bs bad).1 =
      { s with od := od, dram := { s.dram with mem := mem, poisoned := poisoned, watch := watch, channels := channels } } ∧
    (memWf s.dram.mem = true → memWf mem = true) := by
  induction n generalizing s a bs bad with
  | zero => exact ⟨s.od, s.dram.mem, s.dram.poisoned, s.dram.watch, s.dram.channels, rfl, id⟩
  | succ n ih =>
    simp only [State.dramWriteBursts]
    split
    · exact ⟨s.od, s.dram.mem, s.dram.poisoned, s.dram.watch, s.dram.channels, rfl, id⟩
    · obtain ⟨od, ch, e0⟩ := s.acceptWrite_eq a (min (128 - a % 128) bs.length)
      obtain ⟨mem, p, w, e, h⟩ := State.dramWriteAux_eq 17 (s.acceptWrite a (min (128 - a % 128) bs.length)) a
        (bs.take (min (128 - a % 128) bs.length)) bad
      obtain ⟨od', mem', p', w', ch', e', h'⟩ := ih (State.dramWriteAux 17 (s.acceptWrite a (min (128 - a % 128) bs.length)) a
          (bs.take (min (128 - a % 128) bs.length)) bad).1
        (a + min (128 - a % 128) bs.length) (bs.drop (min (128 - a % 128) bs.length))
        (State.dramWriteAux 17 (s.acceptWrite a (min (128 - a % 128) bs.length)) a (bs.take (min (128 - a % 128) bs.length)) bad).2
      refine ⟨od', mem', p', w', ch', ?_, fun hm => h' ?_⟩
      · rw [e', e, e0]
      · rw [e, e0]
        rw [e0] at h
        exact h hm

/-- What DRAM_WRITE's operation can do. -/
theorem State.dramStore_eq (s : State) (a : Nat) (bs : Bytes) : ∃ od mem poisoned watch channels, s.dramStore a bs =
    { s with od := od, dram := { s.dram with mem := mem, poisoned := poisoned, watch := watch, channels := channels } } ∧
    (memWf s.dram.mem = true → memWf mem = true) :=
  State.dramWriteBursts_eq _ s a bs []

theorem State.dramWrite_memCanonical {s : State} (a : Nat) (bs : Bytes) (h : s.memCanonical = true) : (s.dramWrite a bs).1.memCanonical = true := by
  obtain ⟨_, _, _, _, _, e, k⟩ := State.dramWriteBursts_eq (bs.length / 128 + 2) s a bs []
  unfold State.dramWrite State.memCanonical
  rw [e]
  exact k h

theorem State.dramStore_memCanonical {s : State} (a : Nat) (bs : Bytes) (h : s.memCanonical = true) : (s.dramStore a bs).memCanonical = true :=
  s.dramWrite_memCanonical a bs h

/-- What poisoning a word can do (R272). -/
theorem State.poisonWordAt_eq (s : State) (wa : Nat) : ∃ mem poisoned, s.poisonWordAt wa =
    { s with dram := { s.dram with mem := mem, poisoned := poisoned } } ∧ (memWf s.dram.mem = true → memWf mem = true) := by
  unfold State.poisonWordAt
  split
  · exact ⟨s.dram.mem, s.dram.poisoned, rfl, id⟩
  · exact ⟨_, _, rfl, memWf_memWriteList _ _⟩

theorem State.poisonWordAt_memCanonical {s : State} (wa : Nat) (h : s.memCanonical = true) : (s.poisonWordAt wa).memCanonical = true := by
  obtain ⟨_, _, e, k⟩ := s.poisonWordAt_eq wa
  unfold State.memCanonical
  rw [e]
  exact k h

/-- A word just poisoned reads as poisoned. -/
theorem State.poisonWordAt_mem (s : State) (wa : Nat) : wa ∈ (s.poisonWordAt wa).dram.poisoned := by
  unfold State.poisonWordAt
  split
  · assumption
  · exact List.mem_cons_self

/-- A change of a channel's record touches nothing else. -/
@[simp] theorem State.modChan_mem (s : State) (ch : Nat) (f : Channel → Channel) : (s.modChan ch f).dram.mem = s.dram.mem := rfl
@[simp] theorem State.modChan_od (s : State) (ch : Nat) (f : Channel → Channel) : (s.modChan ch f).od = s.od := rfl
@[simp] theorem State.modChan_log (s : State) (ch : Nat) (f : Channel → Channel) : (s.modChan ch f).log = s.log := rfl
@[simp] theorem State.modChan_otp (s : State) (ch : Nat) (f : Channel → Channel) : (s.modChan ch f).otp = s.otp := rfl

/-- A lost channel takes no write (R281). -/
theorem State.dramWriteWord_lost (s : State) (wa off : Nat) (bs : Bytes) (h : s.channelLost (channelOf (8 * wa)) = true) :
    s.dramWriteWord wa off bs = (s, []) := by
  simp [State.dramWriteWord, h]

/-- A whole word written where its channel stands reads back and is no longer poisoned (R272, R273). -/
theorem State.dramWriteWord_whole (s : State) (wa : Nat) (bs : Bytes) (h : s.channelLost (channelOf (8 * wa)) = false) (hl : bs.length = 8) :
    (s.dramWriteWord wa 0 bs).1.dram.mem = memWriteList s.dram.mem (8 * wa) bs ∧ wa ∉ (s.dramWriteWord wa 0 bs).1.dram.poisoned := by
  simp [State.dramWriteWord, h, hl]

end Sys2Proof.Machine
end

