-- ==== Sys2Proof/Laws/Triggers.lean ====
section
/-! SUPPORT. What a change of JOB_STATE, HALT, desynchronisation, a mirror message and a release trigger can change: for each operation
the fields that it may touch, and all others as they were (R53, R246, R251, R254 to R256, R401, R404). -/
namespace Sys2Proof.Machine

theorem State.snapshot_eq (s : State) : ∃ od, s.snapshot = { s with od := od } := ⟨_, rfl⟩

theorem State.putEntry_eq (s : State) (e : StagedEntry) : ∃ od dom, s.putEntry e = { s with od := od, dom := dom } := by
  unfold State.putEntry
  split <;> exact ⟨_, _, rfl⟩

theorem State.putEntries_eq (l : List StagedEntry) (s : State) : ∃ od dom, l.foldl State.putEntry s = { s with od := od, dom := dom } := by
  induction l generalizing s with
  | nil => exact ⟨_, _, rfl⟩
  | cons e r ih =>
    obtain ⟨od, dom, h⟩ := s.putEntry_eq e
    obtain ⟨od', dom', h'⟩ := ih (s.putEntry e)
    exact ⟨od', dom', by rw [List.foldl_cons, h', h]⟩

theorem State.takeStripe_eq (s : State) (f : ObjRef → Bool) : ∃ od dom stg, s.takeStripe f = { s with od := od, dom := dom, stg := stg } := by
  obtain ⟨od, dom, h⟩ := State.putEntries_eq (s.stg.atStripe.filter (f ·.obj)) s
  unfold State.takeStripe
  dsimp only
  rw [h]
  exact ⟨_, _, _, rfl⟩

/-- The state of the job changes objects, values staged for a stripe and the live progress, and nothing else. -/
theorem State.setJobState_eq (s : State) (v : Nat) : ∃ od dom stg job, s.setJobState v = { s with od := od, dom := dom, stg := stg, job := job } := by
  unfold State.setJobState
  dsimp only
  generalize h1 : (if v = jobRunning ∧ (s.setN Obj.JOB_STATE v).power = 2 then (s.setN Obj.JOB_STATE v).setN Obj.POWER_STATE 3
    else if (v = jobDone ∨ v = jobAborted ∨ v = jobFailed) ∧ (s.setN Obj.JOB_STATE v).power = 3 then
      (s.setN Obj.JOB_STATE v).setN Obj.POWER_STATE 2 else s.setN Obj.JOB_STATE v) = s1
  have e1 : ∃ od, s1 = { s with od := od } := by
    rw [← h1]; split
    · exact ⟨_, rfl⟩
    · split <;> exact ⟨_, rfl⟩
  obtain ⟨od1, rfl⟩ := e1
  generalize h2 : (if v = jobDone then _ else _ : State) = s2
  have e2 : ∃ od job, s2 = { s with od := od, job := job } := by
    rw [← h2]; split
    · rw [State.inc_eq]; exact ⟨_, _, rfl⟩
    · exact ⟨_, _, rfl⟩
  obtain ⟨od2, job2, rfl⟩ := e2
  split
  · obtain ⟨od, dom, stg, h⟩ := State.takeStripe_eq ({ s with od := od2, job := job2 } : State) fun _ => true
    rw [h]
    exact ⟨_, _, _, _, rfl⟩
  · exact ⟨_, _, _, _, rfl⟩

@[simp] theorem State.setJobState_otp (s : State) (v : Nat) : (s.setJobState v).otp = s.otp := by obtain ⟨_, _, _, _, h⟩ := s.setJobState_eq v; rw [h]
@[simp] theorem State.setJobState_dram (s : State) (v : Nat) : (s.setJobState v).dram = s.dram := by obtain ⟨_, _, _, _, h⟩ := s.setJobState_eq v; rw [h]
@[simp] theorem State.setJobState_log (s : State) (v : Nat) : (s.setJobState v).log = s.log := by obtain ⟨_, _, _, _, h⟩ := s.setJobState_eq v; rw [h]
@[simp] theorem State.setJobState_pair (s : State) (v : Nat) : (s.setJobState v).pair = s.pair := by obtain ⟨_, _, _, _, h⟩ := s.setJobState_eq v; rw [h]
@[simp] theorem State.setJobState_pins (s : State) (v : Nat) : (s.setJobState v).pins = s.pins := by obtain ⟨_, _, _, _, h⟩ := s.setJobState_eq v; rw [h]
@[simp] theorem State.setJobState_out (s : State) (v : Nat) : (s.setJobState v).out = s.out := by obtain ⟨_, _, _, _, h⟩ := s.setJobState_eq v; rw [h]
@[simp] theorem State.setJobState_clk (s : State) (v : Nat) : (s.setJobState v).clk = s.clk := by obtain ⟨_, _, _, _, h⟩ := s.setJobState_eq v; rw [h]
@[simp] theorem State.setJobState_pending (s : State) (v : Nat) : (s.setJobState v).pending = s.pending := by obtain ⟨_, _, _, _, h⟩ := s.setJobState_eq v; rw [h]

/-- HALT changes the job as its end does, the log's note of the subsystem and objects; it makes no entry of its own (R404). -/
theorem State.halt_eq (s : State) (c d b : Nat) : ∃ od dom stg job h, s.halt c d b =
    { s with od := od, dom := dom, stg := stg, job := job, log := { s.log with haltSub := h } } := by
  unfold State.halt
  dsimp only
  split
  · obtain ⟨_, _, _, _, h⟩ := s.beginQuiet.setJobState_eq jobFailed
    rw [h]
    exact ⟨_, _, _, _, _, rfl⟩
  · split
    · exact ⟨_, _, _, _, _, rfl⟩
    · exact ⟨_, _, _, _, _, rfl⟩

theorem State.halt_entries (s : State) (c d b : Nat) : (s.halt c d b).log.entries = s.log.entries := by
  obtain ⟨_, _, _, _, _, h⟩ := s.halt_eq c d b; rw [h]

/-- A later HALT with a cause no lower than the one recorded changes nothing (R404). -/
theorem State.halt_later (s : State) (c d b : Nat) (h : s.getN Obj.HALT_CAUSE ≠ 0) (hc : s.getN Obj.HALT_CAUSE ≤ c) : s.halt c d b = s := by
  unfold State.halt
  simp only [h, if_false]
  rw [if_neg (by omega)]

/-- A mirror message is one output, and the lane's SEQ, its replay buffer and its scrambler move (R246). -/
theorem State.mirror_eq (s : State) (l t : Nat) (b : Bytes) : ∃ xs, s.mirror l t b =
    { s with out := s.out ++ [.plk l t (atD s.pair.txSeq l 0) b xs], pair := (s.mirror l t b).pair, line := (s.mirror l t b).line } := ⟨_, rfl⟩

@[simp] theorem State.mirror_od (s : State) (l t : Nat) (b : Bytes) : (s.mirror l t b).od = s.od := rfl
@[simp] theorem State.mirror_otp (s : State) (l t : Nat) (b : Bytes) : (s.mirror l t b).otp = s.otp := rfl
@[simp] theorem State.mirror_dram (s : State) (l t : Nat) (b : Bytes) : (s.mirror l t b).dram = s.dram := rfl
@[simp] theorem State.mirror_log (s : State) (l t : Nat) (b : Bytes) : (s.mirror l t b).log = s.log := rfl
@[simp] theorem State.mirror_job (s : State) (l t : Nat) (b : Bytes) : (s.mirror l t b).job = s.job := rfl
@[simp] theorem State.mirror_pins (s : State) (l t : Nat) (b : Bytes) : (s.mirror l t b).pins = s.pins := rfl
@[simp] theorem State.mirror_get (s : State) (l t : Nat) (b : Bytes) (o : ObjRef) : (s.mirror l t b).get o = s.get o := rfl

theorem State.tellJob_eq (s : State) : ∃ out pair line, s.tellJob = { s with out := out, pair := pair, line := line } := by
  unfold State.tellJob
  split <;> exact ⟨_, _, _, rfl⟩

theorem State.setHold_eq (s : State) : ∃ out pair line job, s.setHold = { s with out := out, pair := pair, line := line, job := job } := by
  unfold State.setHold
  split
  · obtain ⟨_, _, _, h⟩ := ({ s with job := { s.job with hold := true } } : State).tellJob_eq
    exact ⟨_, _, _, _, h⟩
  · exact ⟨_, _, _, _, rfl⟩

/-- The log event as an update of objects and log. -/
theorem State.logEvent_ex (s : State) (e : Ev) : ∃ od log, s.logEvent e = { s with od := od, log := log } := ⟨_, _, s.logEvent_eq e⟩

/-- Desynchronisation changes objects and the log alone (R251). -/
theorem State.desync_eq (s : State) (c : Nat) : ∃ od log, s.desync c = { s with od := od, log := log } := by
  unfold State.desync
  split
  · dsimp only
    obtain ⟨od, log, h⟩ := ((((s.setN Obj.PAIR_STATE 0).inc Obj.DESYNCS).setN Obj.LAST_DESYNC_CAUSE c)).logEvent_ex
      ⟨if (((s.setN Obj.PAIR_STATE 0).inc Obj.DESYNCS).setN Obj.LAST_DESYNC_CAUSE c).on Obj.AUTO_SYNC then 2 else 4, 12, 255, 255, Obj.PAIR_STATE, c, 0⟩
    rw [h, State.inc_eq]
    exact ⟨_, _, rfl⟩
  · exact ⟨_, _, rfl⟩

/-- A device that holds nothing of the active does not desynchronise. -/
theorem State.desync_idle (s : State) (c : Nat) (h : s.getN Obj.PAIR_STATE ∉ [2, 3, 4]) : s.desync c = s := by
  unfold State.desync
  rw [if_neg h]

/-- A held trigger: objects, the log, and where it stops or holds the job, that (R401). -/
theorem State.holdTrigger_eq (s : State) (t : Trig) : ∃ od dom stg job log out pair line, s.holdTrigger t =
    { s with od := od, dom := dom, stg := stg, job := job, log := log, out := out, pair := pair, line := line } := by
  unfold State.holdTrigger
  dsimp only
  have e (v : Ev) : ∃ od log, (s.inc Obj.TRIGGERS_HELD).logEvent v = { s with od := od, log := log } := by
    obtain ⟨od, log, h⟩ := (s.inc Obj.TRIGGERS_HELD).logEvent_ex v
    rw [h, State.inc_eq]
    exact ⟨_, _, rfl⟩
  split
  · obtain ⟨_, _, h⟩ := e (t.event 2); rw [h]; exact ⟨_, _, _, _, _, _, _, _, rfl⟩
  · obtain ⟨od, log, h⟩ := e (t.event 4)
    rw [h]
    obtain ⟨_, _, _, _, h'⟩ := ({ s with od := od, log := log } : State).setHold_eq
    rw [h']; exact ⟨_, _, _, _, _, _, _, _, rfl⟩
  · obtain ⟨od, log, h⟩ := e (t.event 6)
    rw [h]
    obtain ⟨_, _, _, _, _, h'⟩ := ({ s with od := od, log := log } : State).halt_eq 1 (2 ^ t.index) t.subsys
    rw [h']; exact ⟨_, _, _, _, _, _, _, _, rfl⟩
  · obtain ⟨od, log, h⟩ := e (t.event 6)
    rw [h]
    obtain ⟨_, _, _, _, _, h'⟩ := ({ s with od := od, log := log } : State).halt_eq 2 t.index t.subsys
    rw [h']; exact ⟨_, _, _, _, _, _, _, _, rfl⟩
  · obtain ⟨_, _, h⟩ := e (t.event 4); rw [h]; exact ⟨_, _, _, _, _, _, _, _, rfl⟩
  · obtain ⟨od, log, h⟩ := e (t.event 6)
    rw [h]
    obtain ⟨_, _, _, _, _, h'⟩ := ({ s with od := od, log := log } : State).halt_eq 3 0 t.subsys
    rw [h']; exact ⟨_, _, _, _, _, _, _, _, rfl⟩
  · obtain ⟨_, _, h⟩ := e (t.event 2); rw [h]; exact ⟨_, _, _, _, _, _, _, _, rfl⟩

/-- The release begins: objects, the log, the message RELEASE (R256). -/
theorem State.startRelease_eq (s : State) (t : Trig) : ∃ od log out pair line, s.startRelease t =
    { s with od := od, log := log, out := out, pair := pair, line := line } := by
  unfold State.startRelease
  split
  · dsimp only
    obtain ⟨od, log, h⟩ := (s.inc Obj.TRIGGERS_HELD).logEvent_ex (t.event 5)
    rw [h, State.inc_eq]
    split <;> exact ⟨_, _, _, _, _, rfl⟩
  · obtain ⟨od, log, h⟩ := s.logEvent_ex (t.event 5)
    rw [h]
    exact ⟨_, _, _, _, _, rfl⟩

/-- What a trigger can change, whoever it reaches: objects and staged values, the job, the log, the mirror link (R254, R255, R401). -/
theorem State.raise_eq (s : State) (t : Trig) : ∃ od dom stg job log out pair line, s.raise t =
    { s with od := od, dom := dom, stg := stg, job := job, log := log, out := out, pair := pair, line := line } := by
  unfold State.raise
  split
  · dsimp only
    split
    · obtain ⟨_, _, h⟩ := (s.inc Obj.TRIGGERS_HELD).desync_eq 7
      rw [h, State.inc_eq]; exact ⟨_, _, _, _, _, _, _, _, rfl⟩
    · rw [State.inc_eq]; exact ⟨_, _, _, _, _, _, _, _, rfl⟩
  · split
    · obtain ⟨_, _, h⟩ := s.logEvent_ex (t.event 6)
      obtain ⟨_, _, _, _, _, h'⟩ := (s.logEvent (t.event 6)).halt_eq 5 0 t.subsys
      rw [h', h]; exact ⟨_, _, _, _, _, _, _, _, rfl⟩
    · split
      · obtain ⟨_, _, _, _, _, h⟩ := s.startRelease_eq t
        rw [h]; exact ⟨_, _, _, _, _, _, _, _, rfl⟩
      · exact s.holdTrigger_eq t

@[simp] theorem State.raise_otp (s : State) (t : Trig) : (s.raise t).otp = s.otp := by obtain ⟨_, _, _, _, _, _, _, _, h⟩ := s.raise_eq t; rw [h]
@[simp] theorem State.raise_dram (s : State) (t : Trig) : (s.raise t).dram = s.dram := by obtain ⟨_, _, _, _, _, _, _, _, h⟩ := s.raise_eq t; rw [h]
@[simp] theorem State.raise_pins (s : State) (t : Trig) : (s.raise t).pins = s.pins := by obtain ⟨_, _, _, _, _, _, _, _, h⟩ := s.raise_eq t; rw [h]
@[simp] theorem State.raise_clk (s : State) (t : Trig) : (s.raise t).clk = s.clk := by obtain ⟨_, _, _, _, _, _, _, _, h⟩ := s.raise_eq t; rw [h]
@[simp] theorem State.raise_hs (s : State) (t : Trig) : (s.raise t).hs = s.hs := by obtain ⟨_, _, _, _, _, _, _, _, h⟩ := s.raise_eq t; rw [h]
@[simp] theorem State.raise_head (s : State) (t : Trig) : (s.raise t).head = s.head := by obtain ⟨_, _, _, _, _, _, _, _, h⟩ := s.raise_eq t; rw [h]
@[simp] theorem State.raise_ledger (s : State) (t : Trig) : (s.raise t).ledger = s.ledger := by obtain ⟨_, _, _, _, _, _, _, _, h⟩ := s.raise_eq t; rw [h]
@[simp] theorem State.raise_pending (s : State) (t : Trig) : (s.raise t).pending = s.pending := by obtain ⟨_, _, _, _, _, _, _, _, h⟩ := s.raise_eq t; rw [h]
@[simp] theorem State.raise_boot (s : State) (t : Trig) : (s.raise t).boot = s.boot := by obtain ⟨_, _, _, _, _, _, _, _, h⟩ := s.raise_eq t; rw [h]
@[simp] theorem State.raise_pwr (s : State) (t : Trig) : (s.raise t).pwr = s.pwr := by obtain ⟨_, _, _, _, _, _, _, _, h⟩ := s.raise_eq t; rw [h]

end Sys2Proof.Machine
end

