-- ==== Sys2Proof/WellFormed.lean ====
section
/-! DEFINITION. What a command must meet to be one the surroundings can give: port, lane, channel and unit numbers inside
the ranges of the spec's tables, and fields that fit the bytes that carry them. -/
namespace Sys2Proof

/-- A value fits `n` bits. -/
def fits (n v : Nat) : Bool := v < 2 ^ n

/-- A caller names a control port's session (never 0) or the SPI session 0xFFFF (R39, R43). -/
def Caller.wf (c : Caller) : Bool :=
  match c.via with
  | .spi => c.session = 0xFFFF
  | _ => 0 < c.session && c.session < 0xFFFF

/-- An object reference is an index of 16 bits and a sub-index of 8 (R29). -/
def objWf (o : ObjRef) : Bool := fits 24 o

/-- The fields of a datagram fit Table 02-3. -/
def Datagram.wf (d : Datagram) : Bool :=
  fits 16 d.dport && fits 32 d.magic && fits 8 d.version && fits 16 d.session && fits 32 d.seq && fits 16 d.length &&
  fits 16 d.reserved && (d.tag.length = 0 || d.tag.length = 16)

/-- A request names a session, or is a datagram. -/
def Request.wf : Request → Bool
  | .write c v => c.wf && fits 32 v
  | .message _ _ d => d.wf

/-- A descriptor's fields fit Table 03-10. -/
def Desc.wf (d : Desc) : Bool := fits 32 d.index && fits 64 d.addr && fits 32 d.length && fits 32 d.reserved && fits 32 d.tag

/-- A header's fields fit Table 03-1. -/
def BlockImage.wf (b : BlockImage) : Bool :=
  fits 32 b.magic && fits 8 b.version && fits 32 b.jobId && fits 32 b.stripe && fits 16 b.band && fits 16 b.resv2 &&
  fits 32 b.seq && fits 32 b.payloadLength && fits 32 b.rawLength && fits 32 b.itemCount && fits 32 b.aux &&
  b.unknownType.all fun x => x.toNat = 0 || 7 < x.toNat

/-- A configuration request names a size of PCI Express, or an aligned base. -/
def ConfigRequest.wf : ConfigRequest → Bool
  | .maxPayload n => n = 128 || n = 256 || n = 512
  | .maxReadRequest n => n ∈ [128, 256, 512, 1024, 2048, 4096]
  | .bar0 a => a % 65536 = 0 && fits 64 a
  | .busMaster _ | .read _ => true

/-- A fetch of a well-formed descriptor. -/
def Fetch.wf (f : Fetch) : Bool := f.desc.wf && f.image.wf

/-- SerDes lanes: 24 of BLK, 2 of HST, 8 of PLK. -/
def LanePort.lanes : LanePort → Nat
  | .blk => 24
  | .hst => 2
  | .plk => 8

/-- A message of PLK4 to PLK7 (R246). -/
def Receipt.wf (x : Receipt) : Bool := 4 ≤ x.lane && x.lane < 8 && fits 32 x.seq

/-- Whether a command's operands are inside the ranges that the spec gives them. -/
def Instr.wf : Instr → Bool
  | .read _ _ d | .write _ _ d | .readBlock _ _ d | .writeBlock _ _ d | .subscribe _ _ d => d.wf
  | .malformedTypeMessage _ _ t d => fits 8 t && d.wf
  | .sessionOpen v _ n _ => v ≠ .spi && n.length = 8
  | .sessionClose c n => c.wf && fits 16 n
  | .sessionTimeout n => fits 16 n
  | .authKey c k => c.wf && k.length = 32
  | .objectWrite c o t _ => c.wf && objWf o && fits 8 t
  | .rcRead c o => c.wf && objWf o
  | .notifyOnChange n o => fits 16 n && objWf o
  | .notifyPeriodic n o => fits 16 n && objWf o
  | .commit r | .abortJob r | .abortDma r | .abortCompression r | .abortCamera r | .abortCalibration r | .discardStaging r => r.wf
  | .abortDramFill _ _ d => d.wf
  | .start c | .hold c | .resume c | .fitStage c | .turnaroundRelease c | .headAttachFactory c
  | .headAttachKeep c | .gateCheckStart c | .gateCheckStop c | .imageStart c | .handoverRequest c | .deflPointsClear c
  | .imageVerify c | .imageBoot c | .imageProgramA c | .imageProgramB c | .rollbackRaise c | .netSave c
  | .powerRequestDeep c | .powerRequestControl c | .powerRequestReady c => c.wf
  | .abortQuiet | .jobAutoStart | .progressSnapshot | .writeback
  | .fitComplete | .firingCheck | .frameSync | .ackTimeout | .tempStale | .cmdUnechoed | .i2cStretchTimeout | .beamEpoch
  | .burnishRepairWait | .peerActFall | .takeoverCheck | .peerActRise | .claimDelay | .ownActRelease | .recordDeadline
  | .confirmTimeout | .healthSend | .peerHealthTimeout | .syncComplete | .hjAssign | .mfTimeout | .spotStrobe | .spotTimeout
  | .timeTick | .ptpAnnounceTimeout | .calItemStart | .calDeflSolveDone | .calCamTimeout | .porstNAssert | .corePllLoss
  | .bootVerifyDone | .firmwareReadyTimeout | .powerTransitionDone | .vaonMainFail | .vaonMainReturn | .healthIndexUpdate
  | .vaonLoss => true
  | .busMasterEnable q => q.wf
  | .streamProducer v | .repairProducer v | .hjProducer v => fits 32 v
  | .barAccessError o n w => fits 16 o && 0 < n && w.all (fits (8 * n))
  | .jobBlock f | .stripeBlock f | .celldefBlock f | .bandBlock f | .haloBlock f | .marksBlock f | .endBlock f
  | .blockRefetch _ f | .repairBlock _ f => f.wf
  | .hostPortReset _ | .imagePhaseDone _ | .gateBeamMeasured _ _ | .gateDarkDone _ | .deflLinkChange _ | .posFaultClear
  | .posFault _ | .flashDecision _ | .flashCompute _ => true
  | .hostLinkUp w s => 1 ≤ w && w ≤ 8 && 1 ≤ s && s ≤ 5
  | .tileDispatch c | .tileComplete c _ | .shadowTest c | .shadowTestResult c _ => c < 48
  | .factorCompute r _ a => r < 4 && a.length = 3
  | .fitField c f => c.wf && f < 64
  | .windowLoad l w _ => l < 6400 && w < 128
  | .positionSample _ _ _ | .posTimeout _ | .deflectorWord _ => true
  | .laneLockLoss p l => l < p.lanes
  | .acknowledgement h _ m => h < 2 && m.rxCrc.length = 24
  | .headAttachComplete m => m.bytes.length ≤ 16777216
  | .beamEdit c _ => c.wf
  | .defectAck c n => c.wf && fits 32 n
  | .flashRecord r bad => fits 32 r.frame && r.laneCrc.length = 24 && bad.all (· < 4)
  | .mirrorBlock x _ _ (i, t) b => x.wf && fits 32 i && fits 32 t && b.wf
  | .streamEvent (x, _) => x.wf
  | .mirrorCommit x es => x.wf && es.all fun e => objWf e.1
  | .beamChanges x cs _ _ => x.wf && cs.all fun c => c.1 < 307200
  | .confirm (x, q) => x.wf && fits 32 q
  | .checkpoint x _ => x.wf
  | .health (x, r) => x.wf && r.length = 64
  | .nak x (l, q) => x.lane < 8 && fits 32 x.seq && l < 8 && fits 32 q
  | .releaseMessage x (t, k) => x.wf && 1 ≤ t && t ≤ 8 && fits 32 k
  | .mirrorLinkChange _ => true
  | .syncStart c => c.all Caller.wf
  | .dramTrainingDone c _ | .refresh c _ | .neighbourRefresh c _ _ | .disturbCountClear c | .remapCopyDone (c, _)
  | .dramParityAlert c _ _ | .dramPllLockLoss c => c < 4
  | .dramFillDone _ => true
  | .dramTempPoll c ts => c < 4 && !ts.isEmpty
  | .scrubRead _ | .memtestRead _ _ => true
  | .sramScrub (_, ms) => ms.all fun m => m.region < 4 && m.flips.length = 3
  | .remapAdd c _ => c.wf
  | .compressionUnitDone l _ _ => l < 16
  | .spoolLaneWait r => r < 4
  | .hjResume c _ => c.wf
  | .chStart c n a _ => c.wf && n < 32 && fits 64 a
  | .dmaBurst c _ => c < 32
  | .dmaDescriptorEnd c _ _ => c < 32
  | .cuFeed8 u _ | .cuFeed16 u _ | .cuFeed32 u _ | .cuValueWrite u _ | .cuInit u | .cuStateRead u _ | .cuLatch u => u < 4
  | .cuPortWrite c u => c < 32 && u < 4
  | .cuPoly u p => u < 4 && p < 4
  | .csiFrameStart p _ _ | .csiFrameEnd p _ | .csiLine p _ _ _ _ | .csiEmbeddedData p _ | .csiPacketDiscard p _
  | .camLineTimeout p _ | .camFramePublish p => p < 2
  | .camRestart c p => c.wf && p < 2
  | .mfRequest c _ _ => c.wf
  | .mfResult _ | .spotSumsDone _ => true
  | .timeIncrement c _ | .timeStep c _ => c.wf
  | .timeSet c v => c.wf && v.length = 16
  | .ptpSync p _ _ | .ptpFollowUp p _ | .ptpDelayResp p _ | .ptpPdelayReq p _ _ _ | .ptpPdelayResp p _ _ _
  | .ptpAnnounce p _ _ => p < 2
  | .ptpDelayReqSend _ | .ptpPdelayReqSend _ => true
  | .comparatorMatch c => c < 8
  | .pulseEnd (.tto k) => k < 4
  | .pulseEnd (.strobe p) => p < 2
  | .tciEdge k _ _ => k < 4
  | .tciAck c k _ => c.wf && k < 4
  | .calStart c m => c.wf && fits 16 m
  | .calRefclkDone _ _ | .calStrobeSkewDone _ _ | .calGateOffsetDone _ | .calGateGainDone _ _ _ | .calBeamEfficiencyDone _ _ _
  | .calDeflScanDone _ _ _ _ | .calCamDarkDone _ | .calCamFlatDone _ => true
  | .porstNDeassert st _ _ _ => fits 9 st.nid && fits 2 st.bootsel && fits 2 st.ctlmode && fits 2 st.dpop
  | .pllLock (.dram c) => c < 4
  | .pllLock (.lane p l) => l < p.lanes
  | .pllLock _ => true
  | .bootLoadDone _ | .firmwareReady _ | .imageProgramDone _ | .wakeRestoreDone _ | .tjSample _ | .watchdogExpiry _
  | .gateRxLinkChange _ | .refcalPresentChange _ | .vaonGood _ _ => true
  | .keyRevoke c s => c.wf && s < 4
  | .wake n => n < 4
  | .railSourceFault r | .switchoverEngage r | .supplyReturn r | .supplyTrip r | .supplyFault r _ => r < 7
  | .supplyReturnNow c _ => c.wf
  | .descriptorFetch d => d.wf
  | .regionWakeDone r _ => r < 4
  | .hstLaneLock l => l < 2
  | .ctlLinkChange p _ => p < 2
  | .pageReloadDone _ _ => true

end Sys2Proof
end

