-- ==== Sys2Proof/Tests/Slice0.lean ====
section
/-! SUPPORT. Tests: ill-formed commands that the check refuses, small examples of the spec, and for every statement with
hypotheses states and operands that meet them (one theorem per statement or group of clauses). -/
namespace Sys2Proof.Tests
open Sys2Proof Sys2Proof.Machine
set_option maxRecDepth 4000
set_option Elab.async false

/-! ### Small states and operands -/

/-- A single device in READY that is active, with its ports answering. -/
def live : State :=
  let s := ((State.reset.setN Obj.POWER_STATE 2).setN Obj.STARTUP_PHASE 6).setN Obj.PAIR_STATE 1
  { s with pins := { s.pins with porstN := true, ownAct := true }, clk := { coreLocked := true }
           boot := { s.boot with released := true, loaded := true } }

/-- The same device as an eligible standby. -/
def standby : State :=
  let s := live.setN Obj.PAIR_STATE 4
  { s with pins := { s.pins with ownAct := false, peerAct := true } }

/-- A peer of the control ports. -/
def peer : Source := ⟨0x0A000002, 5000⟩

/-- A session of that peer. -/
def sess : Session := ⟨1, .ctl0, peer, [1, 2, 3, 4, 5, 6, 7, 8], [], 0, [0], false, false, [], [], 1⟩

/-- The device with that session open. -/
def open1 : State := { live with fp := { live.fp with sessions := [sess] } }

/-- That session as a caller. -/
def ctl : Caller := ⟨.ctl0, 1⟩

/-- A request of that session with a right CRC. -/
def msg (type seq : Nat) (payload : Bytes) : Datagram :=
  let d : Datagram := ⟨47300, false, 20 + payload.length, 0x5046, 1, 0, 0, 1, seq, payload.length, 0, payload, [], 0⟩
  { d with crc := crc32c (dgCovered d type) }

/-- A head. -/
def headId : HeadIdentity := ⟨[0x48], 77, 1, 32, 100, 60, 80, 5, 8, 0⟩

/-- The device with that head attached. -/
def withHead : State := { live with head := { live.head with identity := some headId } }

/-- A stream block of a type at slot 0 of a job 7, with right CRCs. -/
def blk (t : BlockType) (stripe seq items rawLength : Nat) (box : Box) (aux : Nat) (p : Bytes) : BlockImage :=
  let b : BlockImage := ⟨0x46554946, 1, 0, 0, 7, stripe, 0, 0, seq, p.length, rawLength, items, aux, box, crc32c p, 0, p, none⟩
  { b with headerCrc := crc32c (headerBytes t b) }

/-- A fetch of a block by the descriptor of an index. -/
def fetch (r : Ring) (i : Nat) (b : BlockImage) : Fetch := { desc := ⟨r, i, 0, 64 + b.payloadLength, 0, 9⟩, error := false, image := b }

/-- The next state of an outcome. -/
def after : Host.Outcome State Fault Refusal → State
  | .next s => s
  | _ => State.reset

/-- A message that arrives whole on PLK4, with the first SEQ. -/
def rx4 : Receipt := ⟨4, 0, true⟩

/-- The caller of the SPI service port. -/
def spi : Caller := ⟨.spi, 0⟩

/-! ### Ill-formed commands -/

theorem test_wf_caller : (Instr.start ⟨.ctl0, 0⟩).wf = false ∧ (Instr.start ⟨.ctl1, 0xFFFF⟩).wf = false ∧ (Instr.start ⟨.spi, 1⟩).wf = false ∧
    (Instr.start ctl).wf = true ∧ (Instr.start ⟨.spi, 0xFFFF⟩).wf = true := by decide

theorem test_wf_datagram : (∀ d ∈ [{ msg 1 1 [] with dport := 65536 }, { msg 1 1 [] with magic := 2 ^ 32 }, { msg 1 1 [] with version := 256 },
    { msg 1 1 [] with session := 65536 }, { msg 1 1 [] with seq := 2 ^ 32 }, { msg 1 1 [] with length := 65536 },
    { msg 1 1 [] with reserved := 65536 }, { msg 1 1 [] with tag := [0] }],
    ∀ i ∈ [Instr.read .ctl0 peer d, .write .ctl0 peer d, .readBlock .ctl0 peer d, .writeBlock .ctl0 peer d, .subscribe .ctl0 peer d,
      .malformedTypeMessage .ctl0 peer 8 d, .commit (.message .ctl0 peer d), .abortDramFill .ctl0 peer d], i.wf = false) ∧
    (Instr.malformedTypeMessage .ctl0 peer 256 (msg 1 1 [])).wf = false ∧ (Instr.read .ctl0 peer (msg 1 1 [])).wf = true := by decide +kernel

theorem test_wf_sessions : ∀ i ∈ [Instr.sessionOpen .spi peer [1, 2, 3, 4, 5, 6, 7, 8] false, .sessionOpen .ctl0 peer [1] false, .sessionClose ctl 65536,
    .sessionTimeout 65536, .authKey ctl [1], .objectWrite ctl (2 ^ 24) 1 [], .objectWrite ctl Obj.JOB_CONTROL 256 [], .rcRead ctl (2 ^ 24),
    .notifyOnChange 65536 1, .notifyOnChange 1 (2 ^ 24), .notifyPeriodic 65536 1, .notifyPeriodic 1 (2 ^ 24), .commit (.write ctl (2 ^ 32)),
    .abortJob (.write ⟨.ctl0, 0⟩ 1), .discardStaging (.write ctl (2 ^ 32))], i.wf = false := by decide +kernel

/-- A MARKS block without entries. -/
def noMarks : BlockImage := blk .marks 0 0 0 0 boxZero 0 []

theorem test_wf_blocks : (∀ b ∈ [{ noMarks with magic := 2 ^ 32 }, { noMarks with version := 256 }, { noMarks with jobId := 2 ^ 32 },
    { noMarks with stripe := 2 ^ 32 }, { noMarks with band := 65536 }, { noMarks with resv2 := 65536 }, { noMarks with seq := 2 ^ 32 },
    { noMarks with payloadLength := 2 ^ 32 }, { noMarks with rawLength := 2 ^ 32 }, { noMarks with itemCount := 2 ^ 32 },
    { noMarks with aux := 2 ^ 32 }, { noMarks with unknownType := some 7 }], (Instr.marksBlock (fetch .stream 0 b)).wf = false ∧
      (Instr.mirrorBlock rx4 .marks .stream (0, 0) b).wf = false) ∧
    (∀ d ∈ [(⟨.stream, 2 ^ 32, 0, 64, 0, 0⟩ : Desc), ⟨.stream, 0, 2 ^ 64, 64, 0, 0⟩, ⟨.stream, 0, 0, 2 ^ 32, 0, 0⟩, ⟨.stream, 0, 0, 64, 2 ^ 32, 0⟩,
      ⟨.stream, 0, 0, 64, 0, 2 ^ 32⟩], (Instr.descriptorFetch d).wf = false ∧ (Instr.jobBlock { fetch .stream 0 noMarks with desc := d }).wf = false) ∧
    (Instr.marksBlock (fetch .stream 0 noMarks)).wf = true ∧ (Instr.streamProducer (2 ^ 32)).wf = false ∧ (Instr.repairProducer (2 ^ 32)).wf = false ∧
    (Instr.hjProducer (2 ^ 32)).wf = false ∧ (Instr.barAccessError 65536 1 none).wf = false ∧ (Instr.barAccessError 0 0 none).wf = false ∧
    (Instr.barAccessError 0 1 (some 256)).wf = false ∧ (Instr.busMasterEnable (.maxPayload 100)).wf = false ∧
    (Instr.busMasterEnable (.maxReadRequest 0)).wf = false ∧ (Instr.busMasterEnable (.bar0 4)).wf = false ∧
    (Instr.hostLinkUp 0 1).wf = false ∧ (Instr.hostLinkUp 9 1).wf = false ∧ (Instr.hostLinkUp 1 0).wf = false ∧ (Instr.hostLinkUp 1 6).wf = false :=
  by decide +kernel

theorem test_wf_units : ∀ i ∈ [Instr.tileDispatch 48, .tileComplete 48 ⟨none, none, none, [], 0⟩, .shadowTest 48, .shadowTestResult 48 0,
    .factorCompute 4 0 [true, true, true], .factorCompute 0 0 [true], .fitField ctl 64, .windowLoad 6400 0 ⟨false, 0, false⟩, .windowLoad 0 128 ⟨false, 0, false⟩,
    .laneLockLoss .blk 24, .laneLockLoss .hst 2, .laneLockLoss .plk 8, .defectAck ctl (2 ^ 32),
    .compressionUnitDone 16 true [], .spoolLaneWait 4, .regionWakeDone 4 true, .hstLaneLock 2] , i.wf = false := by decide +kernel

/-- An acknowledgement. -/
def ack0 : AckMessage := ⟨0, 0, 0, 0, 0, 20, 0, 0, 0, List.replicate 24 0, 0, 0⟩
/-- A flash record of frame 1. -/
def rec0 : FlashRecord := ⟨1, 0, 15, 0, 0, -1, 0, List.replicate 24 0, [], [], []⟩

theorem test_wf_pair : ∀ i ∈ [Instr.acknowledgement 2 0 ack0, .acknowledgement 0 0 { ack0 with rxCrc := [] }, .flashRecord { rec0 with frame := 2 ^ 32 } [],
    .flashRecord { rec0 with laneCrc := [] } [], .flashRecord rec0 [4], .mirrorBlock rx4 .marks .stream (2 ^ 32, 0) noMarks,
    .mirrorBlock rx4 .marks .stream (0, 2 ^ 32) noMarks, .mirrorCommit ⟨4, 2 ^ 32, true⟩ [], .mirrorCommit rx4 [(2 ^ 24, 0)],
    .beamChanges ⟨3, 0, true⟩ [] 0 none, .beamChanges rx4 [(307200, 0)] 0 none, .confirm (rx4, 2 ^ 32), .confirm (⟨8, 0, true⟩, 0), .health (rx4, []), .nak rx4 (8, 0),
    .nak rx4 (0, 2 ^ 32), .releaseMessage rx4 (0, 0), .releaseMessage rx4 (9, 0), .releaseMessage rx4 (1, 2 ^ 32), .streamEvent (⟨0, 0, true⟩, .repaired 0),
    .checkpoint ⟨0, 0, true⟩ (.counts [] 0, 0), .syncStart (some ⟨.ctl0, 0⟩)], i.wf = false := by decide +kernel

theorem test_wf_memory_and_dma : ∀ i ∈ [Instr.dramTrainingDone 4 [6400, 5600, 4800], .refresh 4 [], .neighbourRefresh 4 0 [], .disturbCountClear 4, .remapCopyDone (4, []), .sramScrub ([], [⟨4, 0, [0, 0, 0]⟩]), .sramScrub ([], [⟨0, 0, []⟩]),
    .dramParityAlert 4 0 true, .dramPllLockLoss 4, .dramTempPoll 4 [20], .dramTempPoll 0 [], .remapAdd ⟨.ctl0, 0⟩ 0, .hjResume ⟨.ctl0, 0⟩ 0,
    .chStart ctl 32 0 [], .chStart ctl 0 (2 ^ 64) [], .dmaBurst 32 ⟨[], none, [], false⟩, .dmaDescriptorEnd 32 true [], .cuFeed8 4 0, .cuFeed16 4 0,
    .cuFeed32 4 0, .cuValueWrite 4 0, .cuInit 4, .cuStateRead 4 true, .cuLatch 4, .cuPortWrite 32 0, .cuPortWrite 0 4, .cuPoly 4 0, .cuPoly 0 4],
    i.wf = false := by decide +kernel

theorem test_wf_cameras_and_time : ∀ i ∈ [Instr.csiFrameStart 2 0 0, .csiFrameEnd 2 0, .csiLine 2 0 false true [], .csiEmbeddedData 2 [],
    .csiPacketDiscard 2 .otherType, .camLineTimeout 2 0, .camFramePublish 2, .camRestart ctl 2, .mfRequest ⟨.ctl0, 0⟩ 0 [], .timeSet ctl [1],
    .ptpDelayResp 2 ⟨0, 0, 0, 0, 0, false, 0, 0, 0, 0, 0⟩, .comparatorMatch 8, .pulseEnd (.tto 4), .pulseEnd (.strobe 2), .tciEdge 4 0 true,
    .tciAck ctl 4 1, .calStart ctl 65536], i.wf = false := by decide +kernel

theorem test_wf_power : ∀ i ∈ [Instr.porstNDeassert ⟨512, false, 0, 0, false, 0⟩ false 0 0, .porstNDeassert ⟨0, false, 4, 0, false, 0⟩ false 0 0,
    .porstNDeassert ⟨0, false, 0, 4, false, 0⟩ false 0 0, .porstNDeassert ⟨0, false, 0, 0, false, 4⟩ false 0 0, .pllLock (.dram 4), .pllLock (.lane .hst 2),
    .keyRevoke ctl 4, .wake 4, .railSourceFault 7, .switchoverEngage 7, .supplyReturn 7, .supplyTrip 7, .supplyFault 7 .vio, .supplyReturnNow ⟨.ctl0, 0⟩ 0,
    .ctlLinkChange 2 true], i.wf = false := by decide +kernel

/-! ### Whole machine, job start, memory words, values, error log -/

theorem witness_StepRunsTheFront : ({ live with pending := [.timeTick, .abortQuiet] } : State).pending = .timeTick :: [.abortQuiet] ∧ live.pending = [] :=
  ⟨rfl, rfl⟩

theorem witness_ResetState : ∃ r, objRow Obj.FLASH_PERIOD = some r ∧ r.dflt = .val 1000 := 
  ⟨⟨0x260001, 1, 1, "FLASH_PERIOD", .u16, .rs, (.val 1000), (.span 1000 8000), true, false, false, false, 7⟩, by decide +kernel⟩

theorem witness_OneTimeMemoryOnlyRises : ∃ t, step { live with pending := [.rollbackRaise ⟨.ctl0, 1⟩] } = .next t := ⟨_, rfl⟩

theorem witness_MemoryStaysCanonical : ({ live with dram := { live.dram with mem := [⟨8, 1⟩, ⟨9, 255⟩] } } : State).memCanonical = true ∧
    ∃ t, step { live with dram := { live.dram with mem := [⟨8, 1⟩, ⟨9, 255⟩] }, pending := [.scrubRead []] } = .next t := ⟨by decide +kernel, _, rfl⟩

/-- A device whose job has been accepted, in PREPARING. -/
def preparing : State := withHead.setN Obj.JOB_STATE 1

theorem witness_StartIsChecked_rules : live.head.identity = none ∧ withHead.head.identity = some headId ∧
    ((withHead.setN Obj.FIRE_WIDTH 60).setN Obj.FIRE_STAGGER 2).flashMisfit headId = true ∧
    (withHead.setN Obj.FIRE_WIDTH 7).flashMisfit headId = false ∧ (withHead.setN Obj.FIRE_WIDTH 7).getN Obj.FIRE_WIDTH < (rankMin headId.rank).2 ∧
    withHead.flashMisfit headId = false ∧ (rankMin headId.rank).1 ≤ withHead.getN Obj.FLASH_PERIOD ∧ (rankMin headId.rank).2 ≤ withHead.getN Obj.FIRE_WIDTH ∧
    (withHead.setN Obj.FIRE_WIDTH 8).flashMisfit headId = false ∧ (rankMin headId.rank).2 = (withHead.setN Obj.FIRE_WIDTH 8).getN Obj.FIRE_WIDTH := by
  decide +kernel

theorem witness_StartIsChecked : preparing.mayWrite ctl Obj.JOB_CONTROL ∧ preparing.getN Obj.PAIR_STATE = 1 ∧ preparing.pair.releasing = false ∧ preparing.jobState = jobPreparing ∧
    preparing.startConflict = none ∧ (live.setN Obj.JOB_STATE 1).mayWrite ctl Obj.JOB_CONTROL ∧ (live.setN Obj.JOB_STATE 1).getN Obj.PAIR_STATE = 1 ∧
    (live.setN Obj.JOB_STATE 1).jobState = jobPreparing ∧ (live.setN Obj.JOB_STATE 1).startConflict = some 13 := by
  unfold State.mayWrite; decide +kernel

theorem witness_StartIsChecked_auto : (preparing.setN Obj.JOB_AUTO_START 1).jobState = jobPreparing ∧
    (preparing.setN Obj.JOB_AUTO_START 1).on Obj.JOB_AUTO_START = true ∧ (preparing.setN Obj.JOB_AUTO_START 1).getN Obj.PAIR_STATE = 1 ∧
    (preparing.setN Obj.JOB_AUTO_START 1).job.autoTried = false ∧ (preparing.setN Obj.JOB_AUTO_START 1).startConflict = none ∧
    (preparing.setN Obj.JOB_AUTO_START 1).depthReached = false ∧ (preparing.setN Obj.JOB_AUTO_START 1).allSpooled = false ∧
    ({ preparing with job := { preparing.job with autoTried := true } } : State).job.autoTried = true := by decide +kernel

theorem witness_StartIsChecked_auto_ready : let s := (preparing.setN Obj.JOB_AUTO_START 1)
    let u := [0, 1, 2, 3].foldl (fun (s : State) r => s.setN (Obj.REGION_STATE + r) 4) s
    u.depthReached = true ∧ u.jobState = jobPreparing ∧ u.on Obj.JOB_AUTO_START = true ∧ u.getN Obj.PAIR_STATE = 1 ∧ u.job.autoTried = false ∧
      u.startConflict = none := by decide +kernel

/-- The device while the fill runs. -/
def filling : State := (live.setN Obj.POWER_STATE 4).setN Obj.STARTUP_PHASE 2

theorem witness_UnwrittenWordsReadZero : filling.power = 4 ∧ filling.getN Obj.STARTUP_PHASE = 2 ∧ filling.lostMask = 0 ∧
    (filling.setN (Obj.MC_STATE + 3) 3).lostMask ≠ 0 ∧ (filling.setN (Obj.MC_STATE + 3) 3).power = 4 ∧
    2 ^ 34 - 1 < 2 ^ 34 ∧ live.channelLost (channelOf (8 * (2 ^ 34 - 1))) = false ∧ 2 ^ 34 - 1 ∉ live.dram.poisoned ∧
    (∀ j < 8, memRead live.dram.mem (8 * (2 ^ 34 - 1) + j) = 0) := by decide +kernel

/-- Table 11-4 on the greatest word: good, one flipped bit, poisoned, misdirected. -/
theorem witness_WordCode : let d := 2 ^ 64 - 1
    let a := 2 ^ 34 - 1
    d < 2 ^ 64 ∧ a < 2 ^ 34 ∧ readWord (goodWord d a) a = (.good, d) ∧ readWord (goodWord d a ^^^ 2 ^ 79) a = (.corrected, d) ∧
      readWord (poisonWord a) a = (.poisoned, 0) ∧ (readWord (goodWord d a) (a ^^^ 2 ^ 33)).1 = .misdirected := by decide +kernel

/-- Table 02-1: the bytes of values at the ends of their types. -/
theorem witness_ValuesEncode : encodeValue .u16 0xFFFF = [0xFF, 0xFF] ∧ encodeValue .i16 (-32768) = [0, 0x80] ∧ encodeValue .u32 1 = [1, 0, 0, 0] ∧
    encodeValue .time (1000000001 * 2 ^ 32 + 5) = [1, 0, 0, 0, 0, 0, 0, 0, 1, 0, 0, 0, 5, 0, 0, 0] ∧ decodeValue .bool [2] = none := by decide +kernel

/-- Entries of the error log. -/
def entry1 : LogEntry := ⟨5, 2, 3, 0, 255, 255, Obj.TJ, 0, 0, 0⟩
def logged : State := { live with log := { live.log with entries := [entry1] } }

theorem witness_ErrorLogAndTriggers : logged.log.entries = entry1 :: [] ∧ mergesInto ⟨2, 3, 255, 255, Obj.TJ, 0, 0⟩ logged.now entry1 = true ∧
    mergesInto ⟨2, 4, 255, 255, Obj.TJ, 0, 0⟩ logged.now entry1 = false ∧ mergesInto ⟨2, 3, 255, 255, Obj.TJ, 0, 0⟩ (1000000 * 2 ^ 32) entry1 = true ∧
    mergesInto ⟨2, 3, 255, 255, Obj.TJ, 0, 0⟩ (1000000 * 2 ^ 32 + 1) entry1 = false := by decide +kernel

/-- The active of a pair whose standby is eligible. -/
def paired : State := (live.setN Obj.PEER_STATE 4).setN Obj.MIRROR_LINK_STATE 1

theorem witness_Triggers : paired.peerEligible = true ∧ paired.pair.k1 = 0 ∧ paired.pair.release = none ∧ live.getN Obj.PAIR_STATE = 1 ∧
    live.peerEligible = false ∧ live.pair.k1 = 0 ∧ live.getN Obj.HALT_CAUSE = 0 ∧ live.stg.atStripe = [] ∧
    (⟨3, 10, 255, 2, 2⟩ : Trig).code ∈ [3, 4, 6] ∧ (⟨7, 4, 0, 255, 0⟩ : Trig).code ∈ [1, 5, 7] ∧ standby.isStandby = true := by decide +kernel

/-- A further trigger in a release, above and below the code sent; a trigger between a takeover and its first period. -/
theorem witness_Triggers_late : let s : State := { paired with pair := { paired.pair with releasing := true, release := some (5, 9) } }
    let t : State := { live with pair := { live.pair with k1 := 10 }, hs := { live.hs with k := 10 } }
    s.peerEligible = true ∧ s.pair.k1 = 0 ∧ s.pair.release = some (5, 9) ∧ 5 ≤ (⟨5, 1, 0, 255, 0⟩ : Trig).code ∧ (⟨4, 1, 0, 255, 0⟩ : Trig).code < 5 ∧
    t.isStandby = false ∧ 0 < t.pair.k1 ∧ t.hs.k ≤ t.pair.k1 ∧ t.getN Obj.HALT_CAUSE = 0 ∧ t.stg.atStripe = [] := by decide +kernel

/-- The device with its writing sides awake. -/
def awake : State := { live with units := { live.units with writing := [2, 2, 2, 2] } }

theorem witness_Upkeep_marks : awake.coreOn = true ∧ 3 < 4 ∧ atD awake.units.writing 3 0 = 2 ∧ awake.lost 3 = false ∧ (0x100#9 : BitVec 9) ≠ 0 := by
  decide +kernel

theorem witness_Upkeep : live.coreOn = true ∧ (⟨153599, 1, 0⟩ : WordFault).word < 153600 ∧ 153599 ∉ live.sram.tableUe ∧
    sramOutcome 5 (live.beamEntry (2 * 153599) + 2 ^ 32 * live.beamEntry (2 * 153599 + 1)) ⟨153599, 1, 0⟩ = .corrected ∧ standby.coreOn = true ∧
    standby.isStandby = true ∧ live.isStandby = false := by decide +kernel

theorem witness_Upkeep_halted : ({ live with log := { live.log with haltSub := some 15 } } : State).log.haltSub = some 15 ∧ 15 < 16 := by decide +kernel

/-! ### Time, PTP, comparators and captures -/

theorem witness_DeviceTime : ({ live with clk := { live.clk with adjust := [.step (-3)], incNext := some 171798691841 } } : State).clk.adjust = [.step (-3)] ∧
    live.clk.adjust = [] ∧ live.clk.incNext = none ∧ live.mayWrite ctl Obj.TIME_INCREMENT ∧ live.mayWrite ctl Obj.TIME_STEP ∧
    live.mayWrite ctl Obj.TIME_SET ∧ (1000 * 2 ^ 16 : Int).natAbs ≤ live.getN Obj.JUMP_THRESHOLD * 2 ^ 16 ∧
    live.getN Obj.JUMP_THRESHOLD * 2 ^ 16 < (-1000 * 2 ^ 16 - 1 : Int).natAbs ∧ live.getN Obj.TIME_STATE = 0 ∧
    decodeValue .time (encodeValue .time (5 * 2 ^ 32)) = some (5 * 2 ^ 32) ∧ (live.setN Obj.TIME_STATE 1).mayWrite ctl Obj.TIME_SET ∧
    (1000 * 2 ^ 32 - ((live.setN Obj.TIME_STATE 1).now : Int)).natAbs ≤ (live.setN Obj.TIME_STATE 1).getN Obj.JUMP_THRESHOLD * 2 ^ 32 := by
  unfold State.mayWrite; decide +kernel

/-- R349: a tick of 40 ns with the default increment. -/
theorem test_timeTick : ∃ t, exec .timeTick live = .next t ∧ t.clk.T = 171798691840 ∧ t.clk.tickCycle = 16 := ⟨_, rfl, by decide +kernel⟩

/-- A PTP port that follows master 9. -/
def ptp6 : State := (((live.setN Obj.PTP_ENABLE 1).setN Obj.PTP_PORT_STATE 6).setN Obj.PTP_MASTER_ID 9).setN Obj.PTP_MASTER_PORT 1
/-- A message of that master. -/
def pm : PtpMessage := ⟨0, 0, 9, 1, 3, true, 2, 7000, 0, 0, 0⟩

theorem witness_PtpFollowsItsMaster : ptp6.ptpOn 0 = true ∧ ((ptp6.at 100).inc Obj.PTP_RX_EVENTS).ptpWrongDomain pm = false ∧
    ((ptp6.at 100).inc Obj.PTP_RX_EVENTS).ptpFromMaster pm = true ∧ ((ptp6.at 100).inc Obj.PTP_RX_EVENTS).getN Obj.PTP_DELAY_MECHANISM = 1 ∧
    ptp6.ptpWrongDomain pm = false ∧ ptp6.ptpFromMaster pm = true ∧ ptp6.getN Obj.PTP_DELAY_MECHANISM = 1 ∧
    ({ ptp6 with ptp := { ptp6.ptp with sync := some ⟨3, 50, none, 1, 0⟩ } } : State).ptp.sync = some ⟨pm.seqId, 50, none, 1, 0⟩ ∧
    ({ ptp6 with ptp := { ptp6.ptp with sync := some ⟨3, 50, some 40, 1, 0⟩, delayReq := some (3, 60, 0) } } : State).ptp.delayReq = some (pm.seqId, 60, 0) ∧
    ptp6.ptpPort = some 0 ∧ ptp6.getN Obj.PTP_PORT_STATE = 6 := by decide +kernel

/-- The same port in peer-to-peer mode. -/
def ptpPeer : State := { ptp6.setN Obj.PTP_DELAY_MECHANISM 2 with
  ptp := { ptp6.ptp with pdelayReq := some (3, 10, 0), pdelayResp := some ⟨3, 20, 40, 0⟩ } }

theorem witness_PtpFollowsItsMaster_peer : ptpPeer.ptpPort = some 0 ∧ ptpPeer.getN Obj.PTP_DELAY_MECHANISM = 2 ∧ ptpPeer.ptpOn 0 = true ∧
    ((ptpPeer.at 5).inc Obj.PTP_RX_EVENTS).ptpWrongDomain pm = false ∧ ((ptpPeer.at 5).inc Obj.PTP_RX_EVENTS).getN Obj.PTP_DELAY_MECHANISM = 2 ∧
    (ptpPeer.at 5).ptpWrongDomain pm = false ∧ (ptpPeer.at 5).getN Obj.PTP_DELAY_MECHANISM = 2 ∧ ptpPeer.ptp.pdelayReq = some (pm.seqId, 10, 0) ∧
    ptpPeer.ptp.pdelayResp = some ⟨3, 20, 40, 0⟩ := by decide +kernel

/-- An Announce, and a port that has heard one. -/
def ann : PtpAnnounce := ⟨128, 6, 33, 100, 128, 9, 0, 37, 0, 0⟩
def listening : State := { (live.setN Obj.PTP_ENABLE 1).setN Obj.PTP_PORT_STATE 3 with ptp := { live.ptp with masters := [⟨9, 1, ann, 0, none⟩] } }

theorem witness_PtpFollowsItsMaster_announce : listening.ptpOn 0 = true ∧ listening.ptpWrongDomain pm = false ∧ listening.getN Obj.PTP_PORT_STATE = 3 ∧
    ({ listening.ptp with masters := [⟨9, 1, ann, listening.clk.cycle, some 0⟩] } : Ptp).best = some ⟨9, 1, ann, 0, some 0⟩ ∧
    ({ ptp6.ptp with masters := [], sync := none, delayReq := none } : Ptp).best = none := by decide +kernel

/-- A device whose comparator 7 matches now. -/
def matching7 (mode : Nat) : State := (live.setN (Obj.CMP_MODE + 7) mode).setN (Obj.CMP_PERIOD + 7) 1000

theorem witness_ComparatorsAndCaptures : live.pins.porstN = true ∧ (matching7 1).matchCycle 7 = some 0 ∧ (matching7 1).getN (Obj.CMP_OWNER + 7) = 0 ∧
    (matching7 1).getN (Obj.CMP_MODE + 7) = 1 ∧ (matching7 2).matchCycle 7 = some 0 ∧ (matching7 2).getN (Obj.CMP_MODE + 7) = 2 ∧
    kvGet ({ live with pins := { live.pins with ttoEnd := [(3, 500)], strobeEnd := [(1, 500)] } } : State).pins.ttoEnd 3 = some 500 ∧
    kvGet ({ live with pins := { live.pins with ttoEnd := [(3, 500)], strobeEnd := [(1, 500)] } } : State).pins.strobeEnd 1 = some 500 ∧
    (live.setN (Obj.TCI_EDGE + 3) 1).getN (Obj.TCI_EDGE + 3) = 1 ∧ (atD live.trg.tci 3 []).length < 16 := by decide +kernel

/-- A device whose capture queue 3 holds 16 entries. -/
def queued : State := { live.setN (Obj.TCI_EDGE + 3) 3 with trg := { live.trg with tci := [[], [], [], List.replicate 16 (5, true)] } }

theorem witness_ComparatorsAndCaptures_queue : queued.pins.porstN = true ∧ queued.getN (Obj.TCI_EDGE + 3) = 3 ∧ 16 ≤ (atD queued.trg.tci 3 []).length ∧
    queued.mayWrite ctl (Obj.TCI_ACK + 3) ∧ 16 ≤ (atD queued.trg.tci 3 []).length ∧ (atD queued.trg.tci 3 []).length < 17 := by
  unfold State.mayWrite; decide +kernel

/-! ### Faceplate -/

/-- The request of SEQ 1 of the open session stands in its sequence. -/
theorem msg_inSequence (ty : Nat) (p : Bytes) (h : (open1.discards .ctl0 ty (msg ty 1 p)).isNone = true) :
    open1.inSequence .ctl0 peer ty (msg ty 1 p) :=
  ⟨⟨by decide +kernel, Option.isNone_iff_eq_none.mp h, by simp [msg], sess, rfl, rfl, by simp [msg, sess], by simp [msg, sess]⟩, rfl, Or.inl rfl⟩

theorem witness_RequestsAreAnswered : ∀ ty ∈ [1, 2, 3, 4, 6, 7, 8], open1.inSequence .ctl0 peer ty (msg ty 1 [0, 0, 0, 0]) := by
  intro ty h
  simp only [List.mem_cons, List.not_mem_nil, or_false] at h
  rcases h with rfl | rfl | rfl | rfl | rfl | rfl | rfl <;> exact msg_inSequence _ _ (by decide +kernel)

/-- A request on the SPI port. -/
def spiMsg : Datagram := let d : Datagram := { msg 1 1 [] with session := 0xFFFF }
  { d with crc := crc32c (dgCovered d 1) }

theorem witness_RequestsAreAnswered_spi : live.inSequence .spi peer 1 spiMsg :=
  ⟨⟨by decide +kernel, Option.isNone_iff_eq_none.mp (by decide +kernel), by decide +kernel, Or.inr (by decide +kernel)⟩, by decide +kernel, Or.inl (by decide +kernel)⟩

/-- A COMMIT that waits for its confirmation. -/
def committing : State := { open1 with stg := { open1.stg with await := [⟨0, [], false, some (ctl, 1)⟩] } }

theorem witness_RequestsAreAnswered_waiting : committing.commitRuns = true ∧ ∀ ty ∈ [1, 2, 3, 4, 5, 7], committing.nextOfSession .ctl0 peer ty (msg ty 1 [0, 0, 0, 0]) := by
  refine ⟨rfl, fun ty h => ?_⟩
  have e (ty : Nat) (h : (committing.discards .ctl0 ty (msg ty 1 [0, 0, 0, 0])).isNone = true) : committing.nextOfSession .ctl0 peer ty (msg ty 1 [0, 0, 0, 0]) :=
    ⟨by decide +kernel, Option.isNone_iff_eq_none.mp h, by simp [msg], sess, rfl, rfl, by simp [msg, sess], by simp [msg, sess]⟩
  simp only [List.mem_cons, List.not_mem_nil, or_false] at h
  rcases h with rfl | rfl | rfl | rfl | rfl | rfl <;> exact e _ (by decide +kernel)

/-- INDEX and SUB of an object. -/
def refBytes (o : ObjRef) : Bytes := leBytes 2 (o / 256) ++ [byte (o % 256)]

theorem witness_MessagesAct_write : let p : Bytes := [1, 0, 0, 0] ++ refBytes Obj.FLASH_PERIOD ++ [2, 2, 0, 0, 0, 0xD0, 0x07, 0, 0]
    open1.inSequence .ctl0 peer 2 (msg 2 1 p) ∧ parseValues p = some [⟨Obj.FLASH_PERIOD, 2, [0xD0, 0x07]⟩] ∧
    ∃ v st, ((open1.inc Obj.FP_MESSAGES_ACCEPTED).modSession 1 fun (x : Session) => { x with lastSeq := 1, executed := true }).writeEntry
      ctl Obj.FLASH_PERIOD 2 [0xD0, 0x07] = (v, st) ∧ st = 0 :=
  ⟨msg_inSequence _ _ (by decide +kernel), by decide +kernel, _, _, rfl, by decide +kernel⟩

theorem witness_MessagesAct_readBlock : let p : Bytes := refBytes Obj.PEER_HEALTH ++ [0, 63, 0, 0, 0, 1, 0, 0, 0]
    let u := (open1.inc Obj.FP_MESSAGES_ACCEPTED).modSession 1 fun (x : Session) => { x with lastSeq := 1, executed := true }
    open1.inSequence .ctl0 peer 3 (msg 3 1 p) ∧ parseBlock p = some ⟨Obj.PEER_HEALTH, 63, 1⟩ ∧ objKnown Obj.PEER_HEALTH = true ∧
    (objRow Obj.PEER_HEALTH).any (fun r => r.type = .dom && r.access = .ro) = true ∧
    63 + 1 ≤ u.domSize Obj.PEER_HEALTH ∧ u.domUnreadable Obj.PEER_HEALTH 63 1 = false :=
  ⟨msg_inSequence _ _ (by decide +kernel), by decide +kernel⟩

theorem witness_MessagesAct_writeBlock : let p : Bytes := refBytes Obj.SHADING_GRID ++ [0, 7, 9, 0, 0, 1, 0, 0, 0, 5, 0, 0, 0]
    open1.inSequence .ctl0 peer 4 (msg 4 1 p) ∧ parseWriteBlock p = some (⟨Obj.SHADING_GRID, 2311, 1⟩, [5]) ∧ objKnown Obj.SHADING_GRID = true ∧
    (objRow Obj.SHADING_GRID).any (fun r => r.type = .dom && r.access = .rs) = true ∧
    Obj.SHADING_GRID ∉ [Obj.SESSION_OPEN, Obj.AUTH_KEY, Obj.MF_REQUEST, Obj.IMAGE_BUFFER] ∧ 2311 + 1 ≤ domMax Obj.SHADING_GRID ∧ open1.stg.entries = [] :=
  ⟨msg_inSequence _ _ (by decide +kernel), by decide +kernel⟩

theorem witness_MessagesAct_subscribe : let p : Bytes := [1, 0, 0, 0] ++ refBytes Obj.JOB_STATE ++ [2, 10, 0, 0, 0]
    let u := (open1.inc Obj.FP_MESSAGES_ACCEPTED).modSession 1 fun (x : Session) => { x with lastSeq := 1, executed := true }
    let x : Session := { sess with lastSeq := 1, executed := true }
    open1.inSequence .ctl0 peer 7 (msg 7 1 p) ∧ parseSubs p = some [⟨Obj.JOB_STATE, 2, 10⟩] ∧ u.session 1 = some x ∧
    u.subRefusal x ⟨Obj.JOB_STATE, 2, 10⟩ = 0 ∧ x.subs.any (·.obj = Obj.JOB_STATE) = false ∧
    resultLength [u.readLength .ctl0 Obj.JOB_STATE] ≤ payloadMax ∧ (u.readBytes Obj.JOB_STATE false).2 = [0] :=
  ⟨msg_inSequence _ _ (by decide +kernel), by decide +kernel⟩

theorem witness_RepeatedAndBadMessages : open1.noneDue = true ∧ committing.noneDue = true ∧ open1.answers .ctl0 = true ∧ open1.session 1 = some sess ∧ sess.src = peer ∧ sess.stored ≠ [] ∧
    (∀ ty ∈ [1, 2, 3, 4, 5, 7], (open1.discards .ctl0 ty (msg ty 0 [])).isNone = true ∧ (open1.discards .ctl0 ty (msg ty 2 [])).isNone = true) ∧
    (msg 1 0 []).seq = sess.lastSeq ∧ (msg 1 2 []).seq ≠ sess.lastSeq ∧ (msg 1 2 []).seq ≠ (sess.lastSeq + 1) % 2 ^ 32 := by decide +kernel

theorem witness_RepeatedAndBadMessages_crc : let d := { msg 1 1 [] with crc := 0 }
    (d.dport = open1.getN Obj.FACEPLATE_PORT ∧ d.fragment = false) ∧ dgSizeOk d = true ∧ dgHeaderOk d = true ∧ dgCrcOk d 1 = false := by decide +kernel

theorem witness_RepeatedAndBadMessages_tag : let s := open1.setN Obj.AUTH_REQUIRED 1
    s.answers .ctl0 = true ∧ dgSizeOk (msg 1 1 []) = true ∧ dgHeaderOk (msg 1 1 []) = true ∧ dgCrcOk (msg 1 1 []) 1 = true ∧
      s.tagHolds .ctl0 1 (msg 1 1 []) = false := by decide +kernel

/-- The check value of CRC-32C. -/
theorem test_crc32c : crc32c ([0x31, 0x32, 0x33, 0x34, 0x35, 0x36, 0x37, 0x38, 0x39] : Bytes) = 0xE3069283 := by decide +kernel

theorem witness_ReadsAndNotifications_read : let p : Bytes := [1, 0, 0, 0] ++ refBytes Obj.JOB_STATE ++ [0]
    open1.inSequence .ctl0 peer 1 (msg 1 1 p) ∧ parseRefs p = some [Obj.JOB_STATE] ∧ open1.readRefusal .ctl0 Obj.JOB_STATE = 0 ∧
    (objRow Obj.JOB_STATE).any (fun r => r.type = .u8 && r.access = .ro) = true ∧ freeReading Obj.JOB_STATE = false ∧
    Obj.JOB_STATE ∉ [Obj.DIRECTORY_ENTRIES, Obj.DIRECTORY_CRC, Obj.FP_MESSAGES_ACCEPTED] ∧ (∀ t : State, t.computed Obj.JOB_STATE = none) :=
  ⟨msg_inSequence _ _ (by decide +kernel), by decide +kernel, by decide +kernel, by decide +kernel, by decide +kernel, by decide +kernel, fun _ => rfl⟩

theorem witness_ReadsAndNotifications_rc : live.answers ctl.via = true ∧
    (objRow Obj.LINK_CRC_MISMATCHES).any (fun r => r.type = .u32 && r.access = .rc) = true ∧ live.readRefusal ctl.via Obj.LINK_CRC_MISMATCHES = 0 ∧
    live.computed Obj.LINK_CRC_MISMATCHES = none ∧ freeReading Obj.LINK_CRC_MISMATCHES = false ∧
    Obj.LINK_CRC_MISMATCHES ∉ [Obj.DIRECTORY_ENTRIES, Obj.DIRECTORY_CRC] := by decide +kernel

/-- The open session with a subscription to JOB_STATE. -/
def subscribed (mode : Nat) (last : Bytes) : State :=
  { live with clk := { live.clk with cycle := 500000 }
              fp := { live.fp with sessions := [{ sess with subs := [⟨Obj.JOB_STATE, mode, 10, last, some 100000⟩] }] } }

theorem witness_ReadsAndNotifications_notify : (∀ m ∈ [1, 2], (subscribed m [9]).session 1 = some { sess with subs := [⟨Obj.JOB_STATE, m, 10, [9], some 100000⟩] } ∧
    (subscribed m [9]).answers .ctl0 = true ∧ (subscribed m [9]).readBytes Obj.JOB_STATE false = (subscribed m [9], [0]) ∧
    [(⟨Obj.JOB_STATE, m, 10, [9], some 100000⟩ : Subscription)].find? (fun y => y.obj = Obj.JOB_STATE && y.mode = m) =
      some ⟨Obj.JOB_STATE, m, 10, [9], some 100000⟩) ∧ 100000 + 400000 ≤ (subscribed 1 [9]).clk.cycle ∧ 499999 < 100000 + 400000 ∧
    (subscribed 1 [0]).readBytes Obj.JOB_STATE false = (subscribed 1 [0], [0]) := by
  refine ⟨fun m h => ⟨rfl, by decide +kernel +revert, rfl, ?_⟩, by decide +kernel, by decide, rfl⟩
  simp only [List.mem_cons, List.not_mem_nil, or_false] at h
  rcases h with rfl | rfl <;> decide +kernel

theorem witness_SessionsAndKeys_open : live.answers .ctl0 = true ∧ live.getN Obj.AUTH_REQUIRED = 0 ∧ live.fp.sessions.length < 8 ∧
    (∀ x ∈ open1.fp.sessions, ¬ (x.src = peer ∧ x.hostNonce = [9] ∧ x.executed = false)) ∧ open1.fp.sessions = sess :: [] ∧ sess.src = peer ∧
    sess.hostNonce = [1, 2, 3, 4, 5, 6, 7, 8] ∧ sess.executed = false ∧ 8 ≤ ({ live.fp with sessions := List.replicate 8 sess } : Faceplate).sessions.length ∧
    (∀ x ∈ List.replicate 8 sess, ¬ (x.src = peer ∧ x.hostNonce = [9] ∧ x.executed = false)) := by decide +kernel

theorem witness_SessionsAndKeys_close : open1.mayCommand ctl Obj.SESSION_CLOSE ∧ ctl.session = 1 ∧ open1.mayCommand ⟨.spi, 0xFFFF⟩ Obj.SESSION_CLOSE ∧
    2 ≠ ctl.session ∧ open1.session 1 = some sess ∧ open1.stg.owner ≠ 1 ∧ ({ open1 with stg := { open1.stg with owner := 1 } } : State).stg.owner = 1 ∧
    ({ open1 with stg := { open1.stg with owner := 1 } } : State).session 1 = some sess ∧ live.session 1 = none := by
  unfold State.mayCommand State.mayWrite; decide +kernel

/-- The device with a key. -/
def keyed : State := { open1 with fp := { open1.fp with authKey := some (List.replicate 32 7) } }

theorem witness_SessionsAndKeys_key : open1.mayCommand ctl Obj.AUTH_KEY ∧ (List.replicate 32 (7 : Byte)).length = 32 ∧ open1.fp.authKey = none ∧
    keyed.mayCommand ctl Obj.AUTH_KEY ∧ keyed.fp.authKey ≠ none ∧ keyed.session ctl.session = some sess ∧ sess.auth = false ∧
    keyed.mayCommand ⟨.spi, 0xFFFF⟩ Obj.AUTH_KEY := by unfold State.mayCommand State.mayWrite; decide +kernel

/-! ### Staging, commits, job control, aborts -/

/-- The device with one staged entry of the open session, or of another. -/
def staged (owner : Nat) (e : StagedEntry) : State := { open1 with stg := { open1.stg with owner := owner, entries := [e] } }
def periodEntry : StagedEntry := ⟨Obj.FLASH_PERIOD, .scalar 2000, 1⟩

theorem witness_StagingAndCommits : (∀ s ∈ [open1, staged 1 periodEntry, staged 2 periodEntry], s.mayCommand ctl Obj.FLASH_PERIOD ∧
    s.writeRefusal ctl.via Obj.FLASH_PERIOD = 0) ∧ (objRow Obj.FLASH_PERIOD).any (fun r => r.access = .rs && r.type = .u16 && r.range.ok 8000) = true ∧
    decodeValue .u16 [0x40, 0x1F] = some 8000 ∧ keepBits Obj.FLASH_PERIOD 8000 = 8000 ∧ rangeMore Obj.FLASH_PERIOD 8000 = true ∧
    open1.stg.entries = [] ∧ (staged 1 periodEntry).stg.entries = [periodEntry] ∧ (staged 1 periodEntry).stg.owner = ctl.session ∧
    (staged 2 periodEntry).stg.owner ≠ ctl.session := by unfold State.mayCommand State.mayWrite; decide +kernel

theorem witness_Commits : open1.mayCommand ctl Obj.COMMIT ∧ (staged 1 periodEntry).mayCommand ctl Obj.COMMIT ∧
    (staged 1 periodEntry).stg.entries ≠ [] ∧ (staged 1 periodEntry).stg.owner = ctl.session ∧
    (staged 1 periodEntry).conflict (staged 1 periodEntry).stg.entries = none ∧ (staged 1 periodEntry).mirrorsOn = false ∧
    (((((staged 1 periodEntry).discardStaging).inc Obj.COMMITS_ACCEPTED).recordCommit 0 0 0 0).applyEntries [periodEntry]).mirrorsOn = false ∧
    (staged 1 periodEntry).jobActive = false ∧ (staged 2 periodEntry).mayCommand ctl Obj.COMMIT ∧ (staged 2 periodEntry).stg.owner ≠ ctl.session := by
  unfold State.mayCommand State.mayWrite; decide +kernel

/-- A commit of FLASH_PERIOD while the job runs meets rule 1; one of JOB_AUTO_START waits for a flash. -/
theorem witness_Commits_running : let s := (staged 1 periodEntry).setN Obj.JOB_STATE 2
    let t := (staged 1 ⟨Obj.JOB_AUTO_START, .scalar 1, 1⟩).setN Obj.JOB_STATE 2
    s.mayCommand ctl Obj.COMMIT ∧ s.conflict s.stg.entries = some (1, Obj.FLASH_PERIOD, 0) ∧ t.mayCommand ctl Obj.COMMIT ∧ t.stg.entries ≠ [] ∧
      t.conflict t.stg.entries = none ∧ t.mirrorsOn = false ∧ t.jobState = jobRunning ∧ (∀ e ∈ t.stg.entries, stripeObj e.obj = false) := by
  unfold State.mayCommand State.mayWrite; decide +kernel

theorem witness_JobControlAndProgress : (∀ j ∈ [0, 1, 2, 3, 8], (live.setN Obj.JOB_STATE j).mayWrite ctl Obj.JOB_CONTROL ∧
    (live.setN Obj.JOB_STATE j).getN Obj.PAIR_STATE = 1 ∧ (live.setN Obj.JOB_STATE j).jobState = j) ∧ live.pair.releasing = false ∧ standby.mayWrite ctl Obj.JOB_CONTROL ∧
    standby.getN Obj.PAIR_STATE ≠ 1 ∧ live.job.hold = false ∧
    ({ live with job := { live.job with hold := true } } : State).job.hold = true ∧ live.job.permille ≤ 999 ∧ 0 ∉ [jobPreparing, jobRunning, jobHeld] ∧
    8 ∉ [jobPreparing, jobRunning, jobHeld] := by unfold State.mayWrite; decide +kernel

theorem witness_AbortsComplete : (∀ j ∈ [0, 1, 4, 5], (open1.setN Obj.JOB_STATE j).mayCommand ctl Obj.ABORT_JOB ∧ (open1.setN Obj.JOB_STATE j).jobState = j) ∧
    (open1.setN Obj.JOB_STATE 4).getN Obj.PAIR_STATE = 1 ∧ open1.pair.releasing = false ∧ (open1.setN Obj.PAIR_STATE 4).mayCommand ctl Obj.ABORT_JOB ∧
    (∀ o ∈ [Obj.ABORT_DMA, Obj.ABORT_COMPRESSION, Obj.ABORT_CAMERA, Obj.ABORT_CALIBRATION, Obj.DISCARD_STAGING], open1.mayCommand ctl o) := by
  unfold State.mayCommand State.mayWrite; decide +kernel

theorem witness_AbortsComplete_quiet : let s : State := { live.setN Obj.JOB_STATE 6 with job := { live.job with abortAt := some 5 } }
    s.job.abortAt = some 5 ∧ s.jobState = jobAborting ∧ s.st.heldJob = none ∧ s.stg.atStripe = [] := by decide +kernel

theorem witness_AbortsComplete_fill : open1.inSequence .ctl0 peer 6 (msg 6 1 [7, 0, 0, 0, 0, 0, 0, 0]) := msg_inSequence _ _ (by decide +kernel)

/-! ### The stream -/

/-- A computation that gives a value answers with it. -/
theorem ok_of {x : Except ε α} (h : x.toOption = some a) : x = .ok a := by cases x <;> simp_all [Except.toOption]

/-- A fetched block passes its checks. -/
theorem passes {s : State} {f : Fetch} {r : Ring} {t : BlockType} {p : Bytes}
    (h : (f.desc.ring = r ∧ s.readsRing r = true ∧ f.desc.index = s.consumer r ∧ s.st.refetch.any (·.ring = r) = false ∧ descOk f.desc = true ∧
      f.error = false ∧ headerCrcOk t f.image = true ∧ headerFieldsOk t f.image = true ∧ f.desc.length = 64 + f.image.payloadLength) ∧
      (payloadOf f.image).toOption = some p) : s.blockPasses f r t p :=
  ⟨h.1.1, h.1.2.1, h.1.2.2.1, h.1.2.2.2.1, h.1.2.2.2.2.1, h.1.2.2.2.2.2.1, h.1.2.2.2.2.2.2.1, h.1.2.2.2.2.2.2.2.1, h.1.2.2.2.2.2.2.2.2, ok_of h.2⟩

/-- A device that reads its stream ring: index 0 of it holds a block. -/
def reader : State :=
  { ((withHead.setN Obj.HEAD_STATE 2).setN Obj.STREAM_ENABLE 1).setN Obj.STREAM_PRODUCER 1 with
    host := { live.host with up := true, busMaster := true } }

/-- The same device within job 7 of two stripes, whose block of BLOCK_SEQ 1 is next. -/
def inJob : State :=
  { ((reader.setN Obj.JOB_STATE 1).setN Obj.EXPECTED_SEQ 1).setN Obj.JOB_STRIPES 2 with st := { reader.st with reading := true, jobId := 7 } }

/-- The same device with its first stripe accepted. -/
def inStripe : State :=
  { inJob with st := { inJob.st with nextStripe := 1 }, lay := { inJob.lay with stripes := [⟨0, false, 0, 0, 4096, false, []⟩] } }

/-- A device with a repair posted. -/
def posted (s : State) : State := s.setN Obj.REPAIR_PRODUCER 1

/-- Payloads: a JOB of two stripes, stripe 0, a rectangle of one pixel, a mark. -/
def jobP : Bytes := leBytes 4 7 ++ leBytes 4 2 ++ leBytes 8 100 ++ leBytes 4 0 ++ zeros 12
def stripeP : Bytes := leBytes 4 0 ++ zeros 12 ++ leBytes 4 4096 ++ leBytes 4 20480 ++ zeros 8
def rectP : Bytes := leBytes 4 1 ++ zeros 8 ++ leBytes 4 256 ++ leBytes 4 256
def rectBox : Box := ⟨0, 0, 256, 256⟩
def markP : Bytes := leBytes 2 3 ++ [0, 0] ++ leBytes 4 512 ++ leBytes 8 100 ++ leBytes 8 200

def jobF : Fetch := fetch .stream 0 (blk .job 0 0 0 32 boxZero 0 jobP)
def stripeF : Fetch := fetch .stream 0 (blk .stripe 0 1 0 32 boxZero 0 stripeP)
def cellF : Fetch := fetch .stream 0 (blk .celldef 0 1 1 20 rectBox 5 rectP)
def bandF (t : BlockType) : Fetch := fetch .stream 0 (blk t 0 1 1 20 rectBox 0 rectP)
def marksF (r : Ring) : Fetch := fetch r 0 (blk .marks 0 1 1 24 boxZero 0 markP)
def endF : Fetch := fetch .stream 0 (blk .endBlock 0 1 0 0 boxZero 0 [])

theorem witness_StreamBlocks_job : reader.blockPasses jobF .stream .job jobP ∧ (reader.setN Obj.JOB_STATE 8).blockPasses jobF .stream .job jobP ∧
    reader.outsideJob = true ∧ jobF.image.flags = 0 ∧ jobF.image.seq = 0 ∧ jobPayloadOk jobF.image jobP = true ∧ reader.mayTakeJob = true ∧
    (reader.setN Obj.JOB_STATE 8).outsideJob = true ∧ (reader.setN Obj.JOB_STATE 8).mayTakeJob = false :=
  ⟨passes (by decide +kernel), passes (by decide +kernel), by decide +kernel⟩

theorem witness_StreamBlocks_outside : reader.blockPasses (bandF .band) .stream .band rectP ∧ reader.outsideJob = true :=
  ⟨passes (by decide +kernel), by decide +kernel⟩

theorem witness_StreamBlocks_stripe : inJob.blockPasses stripeF .stream .stripe stripeP ∧ inJob.blockInOrder stripeF .stripe ∧ inJob.headKnown = true ∧
    leAt stripeP 0 4 = stripeF.image.stripe ∧ leAt stripeP 4 1 ≤ 1 ∧ (∀ x ∈ slice stripeP 5 3, x = 0) ∧ (∀ x ∈ slice stripeP 24 8, x = 0) ∧
    inJob.stripeGeometryOk stripeP = true := ⟨passes (by decide +kernel), by unfold State.blockInOrder; decide +kernel⟩

theorem witness_StreamBlocks_noHead : let s := { inJob with head := { inJob.head with identity := none } }
    s.blockPasses stripeF .stream .stripe stripeP ∧ s.blockInOrder stripeF .stripe ∧ s.headKnown = false :=
  ⟨passes (by decide +kernel), by unfold State.blockInOrder; decide +kernel⟩

theorem witness_StreamBlocks_celldef : inStripe.blockPasses cellF .stream .celldef rectP ∧
    parseRecords (inStripe.lay.cells.filter (·.id ≠ cellF.image.aux)) 1 cellF.image.bbox rectP cellF.image.itemCount 0 = .ok [.rect 0 0 0 256 256] ∧
    inStripe.blockInOrder cellF .celldef ∧ findCell inStripe.lay.cells cellF.image.aux = none ∧
    cellStoreUsed inStripe.lay.cells + cellF.image.rawLength ≤ inStripe.getN Obj.CELL_STORE_SIZE :=
  ⟨passes (by decide +kernel), ok_of (by decide +kernel), by unfold State.blockInOrder; decide +kernel⟩

/-- The stripe of `inStripe`. -/
def stripe0 : Stripe := ⟨0, false, 0, 0, 4096, false, []⟩

theorem witness_StreamBlocks_band : inStripe.blockPasses (bandF .band) .stream .band rectP ∧ inStripe.blockPasses (bandF .halo) .stream .halo rectP ∧
    parseRecords inStripe.lay.cells 0 rectBox rectP 1 0 = .ok [.rect 0 0 0 256 256] ∧ inStripe.blockInOrder (bandF .band) .band ∧
    inStripe.blockInOrder (bandF .halo) .halo ∧ inStripe.stripeOf 0 = some stripe0 ∧ 0 < stripe0.bands :=
  ⟨passes (by decide +kernel), passes (by decide +kernel), ok_of (by decide +kernel), by unfold State.blockInOrder; decide +kernel⟩

theorem witness_StreamBlocks_marks : inStripe.blockPasses (marksF .stream) .stream .marks markP ∧
    parseMarks markP (marksF .stream).image.itemCount 0 [] = .ok [⟨3, 0, 512, 100, 200⟩] ∧ inStripe.blockInOrder (marksF .stream) .marks ∧
    (marksF .stream).image.flags = 0 ∧ inStripe.mirrorsOn = false ∧ inStripe.cams.mf = none :=
  ⟨passes (by decide +kernel), ok_of (by decide +kernel), by unfold State.blockInOrder; decide +kernel⟩

theorem witness_StreamBlocks_end : let s := inStripe.setN Obj.JOB_STRIPES 1
    s.blockPasses endF .stream .endBlock [] ∧ s.blockInOrder endF .endBlock := ⟨passes (by decide +kernel), by unfold State.blockInOrder; decide +kernel⟩

/-- The BAND block with its payload as one stored DEFLATE block. -/
def packedF : Fetch :=
  let z : Bytes := [1, 20, 0, 235, 255] ++ rectP
  let b : BlockImage := { (bandF .band).image with flags := 1, payloadLength := 25, payload := z, payloadCrc := crc32c z }
  let b : BlockImage := { b with headerCrc := crc32c (headerBytes .band b) }
  { fetch .stream 0 b with desc := ⟨.stream, 0, 64, 89, 0, 9⟩ }

theorem witness_StreamBlocksAccepted_packed : inStripe.blockPasses packedF .stream .band rectP ∧ inStripe.blockInOrder packedF .band ∧
    packedF.image.flags = 1 ∧ inStripe.stripeOf 0 = some stripe0 ∧ 0 < stripe0.bands ∧ parseRecords inStripe.lay.cells 0 rectBox rectP 1 0 = .ok [.rect 0 0 0 256 256] :=
  ⟨passes (by decide +kernel), by unfold State.blockInOrder; decide +kernel, by decide +kernel, by decide +kernel, by decide +kernel, ok_of (by decide +kernel)⟩

/-- A lane at segment `k` of a block of two segments. -/
def inflatingAt (done k : Nat) : State :=
  { inStripe with st := { inStripe.st with inflating := some ⟨.band, packedF, false, [3, 4], done⟩ }
                  spool := { inStripe.spool with lanes := modifyAt inStripe.spool.lanes 3 fun x => { x with unit := some (.fiufen k) } } }

theorem witness_StreamBlocksAccepted_lanes : (∀ d ∈ [0, 1], (inflatingAt d d).coreOn = true ∧ (inflatingAt d d).isActive = true ∧
    (inflatingAt d d).st.stalled = false ∧ 3 < (inflatingAt d d).spool.lanes.length ∧
    (atD (inflatingAt d d).spool.lanes 3 {}).unit = some (.fiufen d)) ∧ 0 + 1 < [3, 4].length ∧ [3, 4].length ≤ 1 + 1 := by decide +kernel

theorem witness_BlockEffects_order : let s := inStripe.setN Obj.EXPECTED_SEQ 2
    s.blockPasses (bandF .band) .stream .band rectP ∧ s.outsideJob = false ∧ (bandF .band).image.seq ≠ s.getN Obj.EXPECTED_SEQ :=
  ⟨passes (by decide +kernel), by decide +kernel⟩

theorem witness_RingsAndRepairs_descriptors : let d : Desc := ⟨.stream, 0, 64, 64, 0, 1⟩
    reader.readsRing .stream = true ∧ d.index = reader.consumer .stream ∧ reader.st.refetch.any (·.ring = .stream) = false ∧ descOk d = true ∧
    descOk { d with addr := 32 } = false ∧ descOk { d with length := 63 } = false ∧ descOk { d with length := 16777280 } = true ∧
    descOk { d with length := 16777281 } = false ∧ (bandF .band).desc.index = inStripe.consumer .stream ∧ inStripe.readsRing .stream = true ∧
    headerCrcOk .band { (bandF .band).image with headerCrc := 0 } = false := by decide +kernel

/-- A device that waits for the second copy of a MARKS block. -/
def refetching : State := { inStripe with st := { inStripe.st with refetch := [⟨.stream, (marksF .stream).desc⟩] } }

theorem witness_RingsAndRepairs_refetch : refetching.st.refetch = [⟨(marksF .stream).desc.ring, (marksF .stream).desc⟩] ∧ refetching.hostReady = true ∧ refetching.st.inflating = none ∧
    (marksF .stream).image.flags = 0 ∧
    payloadOf (marksF .stream).image = .ok markP ∧ refetching.st.stalled = false ∧ headerCrcOk .marks { (marksF .stream).image with headerCrc := 0 } = false ∧ (marksF .stream).error = false ∧
    headerCrcOk .marks (marksF .stream).image = true ∧ headerFieldsOk .marks (marksF .stream).image = true ∧
    (marksF .stream).desc.length = 64 + (marksF .stream).image.payloadLength ∧
    refetching.blockInOrder (marksF .stream) .marks := ⟨rfl, rfl, rfl, rfl, ok_of (by decide +kernel), by unfold State.blockInOrder; decide +kernel⟩

/-- A device that reads a stored block again before its release. -/
def reloading : State := { inStripe with st := { inStripe.st with reload := [⟨1, .stream, 0, 9⟩] } }

theorem witness_RingsAndRepairs_reload : reloading.st.refetch = [] ∧ reloading.hostReady = true ∧ reloading.coreOn = true ∧
    reloading.st.reload.find? (fun y => y.ring = (bandF .band).desc.ring && y.index = (bandF .band).desc.index) = some ⟨1, .stream, 0, 9⟩ ∧
    goodCopy .band (bandF .band) 1 = true := by decide +kernel

/-- A device with pending rejections of a MARKS block and of a BAND block of BLOCK_SEQ 1. -/
def pend (t : BlockType) : Pend := ⟨1, 7, 0, 0, blockCode t, 3, 0, true, false, none, [], none, false, 1⟩
def rejected (t : BlockType) : State := posted { inStripe with st := { inStripe.st with pending := [pend t] } }

theorem witness_RingsAndRepairs_repair : (rejected .marks).blockPasses (marksF .repair) .repair .marks markP ∧
    (posted inStripe).blockPasses (marksF .repair) .repair .marks markP ∧ (marksF .repair).image.seq = (pend .marks).due ∧
    (marksF .repair).image.jobId = (rejected .marks).st.jobId ∧ (rejected .marks).matching .marks (marksF .repair).image = some (pend .marks) ∧
    (posted inStripe).matching .marks (marksF .repair).image = none :=
  ⟨passes (by decide +kernel), passes (by decide +kernel), by decide +kernel⟩

theorem witness_RingsAndRepairs_repairBand : let f := fetch .repair 0 (bandF .band).image
    (rejected .band).blockPasses f .repair .band rectP ∧ (rejected .band).matching .band f.image = some (pend .band) ∧
    (rejected .band).orderFault .band f.image false = none ∧ (rejected .band).stripeOf f.image.stripe = some stripe0 ∧
    f.image.seq = (pend .band).due ∧ f.image.jobId = (rejected .band).st.jobId ∧ f.image.band < stripe0.bands ∧
    parseRecords (rejected .band).lay.cells 0 f.image.bbox rectP 1 0 = .ok [.rect 0 0 0 256 256] :=
  ⟨passes (by decide +kernel), by decide +kernel, by decide +kernel, by decide +kernel, by decide +kernel, by decide +kernel, by decide +kernel,
    ok_of (by decide +kernel)⟩

theorem witness_RepairBlocks_noHead : let s : State := posted { inJob with head := { inJob.head with identity := none }, st := { inJob.st with pending := [pend .stripe] } }
    let f := fetch .repair 0 stripeF.image
    s.blockPasses f .repair .stripe stripeP ∧ s.matching .stripe f.image = some (pend .stripe) ∧ f.image.seq = (pend .stripe).due ∧ f.image.jobId = s.st.jobId ∧
    s.orderFault .stripe f.image false = none ∧ s.headKnown = false :=
  ⟨passes (by decide +kernel), by decide +kernel⟩

/-- A repair with the wrong BLOCK_SEQ of a slot whose block failed before step 5. -/
theorem witness_RepairBlocks_wrong : let r : Pend := { pend .marks with due := 2 }
    let s : State := posted { inStripe with st := { inStripe.st with pending := [r] } }
    s.blockPasses (marksF .repair) .repair .marks markP ∧ s.matching .marks (marksF .repair).image = some r ∧ (marksF .repair).image.seq ≠ r.due :=
  ⟨passes (by decide +kernel), by decide +kernel⟩

theorem witness_HostPortAndProducers : live.power = 2 ∧ live.isActive = true ∧ live.mirrorsOn = false ∧ standby.power = 2 ∧ standby.isActive = false ∧
    (256 + 2 ^ 32 - live.getN Obj.STREAM_CONSUMER) % 2 ^ 32 ≤ live.getN Obj.RING_ENTRIES ∧
    live.getN Obj.RING_ENTRIES < (257 + 2 ^ 32 - live.getN Obj.STREAM_CONSUMER) % 2 ^ 32 ∧
    (64 + 2 ^ 32 - live.st.repairConsumer) % 2 ^ 32 ≤ live.getN Obj.REPAIR_RING_ENTRIES ∧
    live.getN Obj.REPAIR_RING_ENTRIES < (65 + 2 ^ 32 - live.st.repairConsumer) % 2 ^ 32 ∧ (live.setN Obj.POWER_STATE 1).power = 1 := by decide +kernel

theorem witness_HostPortAndProducers_port : ({ reader with st := { reader.st with dirty := true } } : State).st.dirty = true ∧ reader.hostReady = true ∧
    reader.isActive = true ∧ reader.coreOn = true ∧ reader.power = 2 ∧ live.host.up = false ∧
    ¬(2 = 4 ∧ 0 % 4 = 0) ∧ ¬(2 = 8 ∧ 0 = 0x1800) ∧ live.hostReady = false ∧ reader.host.up = true ∧ live.host.busMaster = false ∧
    live.pins.porstN = true ∧ live.power ≠ 0 ∧ live.power ≠ 5 ∧ (∀ ch < 32, live.getN (Obj.CH_STATE + ch) ∉ [1, 2]) := by decide +kernel

/-! ### Headstock -/

/-- A position sample with a right CRC. -/
def sample (x seq : Nat) : BitVec 64 :=
  let b := BitVec.ofNat 64 (x + 2 ^ 56 * seq)
  b ||| BitVec.ofNat 64 (2 ^ 60 * crc4 ((List.range 60).map b.getLsbD))

/-- CRC-4/G-704 over "123456789" gives 7 (R168). -/
theorem test_crc4 : crc4 (([0x31, 0x32, 0x33, 0x34, 0x35, 0x36, 0x37, 0x38, 0x39] : Bytes).flatMap fun b => (List.range 8).map b.getLsbD) = 7 := by
  decide +kernel

/-- A device whose position is VALID, with a sample of cycle 1000 at 5,120. -/
def valid : State := { live.setN Obj.POS_STATE 2 with
  hs := { live.hs with preds := [⟨1000, 5120, 0, 0⟩], past := [(1000, 5120)], p := 5120, xLast := 5120, seqLast := some 3, base := false, k := 8 } }

/-- The position port after idle bit times. -/
def idlePort (n : Nat) (w : Bool) : State := { valid with hs := { valid.hs with port := { idle := n, wait := w } } }

theorem witness_PositionSamples_framing : (idlePort 3 false).coreOn = true ∧ (idlePort 3 false).posState ≠ 0 ∧ (idlePort 3 false).hs.port.busy = false ∧
    (idlePort 3 false).hs.port.wait = false ∧ (0 : BitVec 4) ≠ 0xF#4 ∧ ¬((0 : BitVec 4) = 0#4 ∧ 4 ≤ (idlePort 3 false).hs.port.idle) ∧
    (1 : BitVec 4) ≠ 0xF#4 ∧ ¬((1 : BitVec 4) = 0#4 ∧ 4 ≤ (idlePort 4 false).hs.port.idle) ∧ (idlePort 4 true).posState ≠ 0 ∧
    (idlePort 4 true).hs.port.wait = true ∧ State.reset.coreOn = false := by decide +kernel

theorem witness_StagePosition_sample : let b := sample 6144 4
    valid.coreOn = true ∧ valid.posState = 2 ∧ sampleCrcOk b = true ∧ sampleCrcOk (b ^^^ 1) = false ∧ valid.hs.port.busy = false ∧ valid.hs.base = false ∧ valid.hs.waive = false ∧
    valid.hs.preds.head? = some ⟨1000, 5120, 0, 0⟩ ∧ 1080 ≤ 1000 + valid.posTimeout ∧ valid.hs.seqLast = some ((sampleSeq b + 15) % 16) ∧
    (toSigned 28 (toUnsigned 28 ((sampleX b : Int) - valid.hs.xLast))).natAbs ≤ valid.getN Obj.POS_JUMP_LIMIT ∧
    (((1080, 6144) :: valid.hs.past).take 16).getLast? = some (1000, 5120) ∧ rneDiv ((6144 - 5120) * 2 ^ 24) (1080 - 1000) ≥ -2 ^ 31 ∧
    rneDiv ((6144 - 5120) * 2 ^ 24) (1080 - 1000) < 2 ^ 31 := by decide +kernel

theorem witness_StagePosition_jump : valid.getN Obj.POS_JUMP_LIMIT < (toSigned 28 (toUnsigned 28 ((sampleX (sample (5120 + 65537) 4) : Int) - valid.hs.xLast))).natAbs ∧
    sampleCrcOk (sample (5120 + 65537) 4) = true ∧ (toSigned 28 (toUnsigned 28 ((sampleX (sample (5120 + 65536) 4) : Int) - valid.hs.xLast))).natAbs ≤
      valid.getN Obj.POS_JUMP_LIMIT := by decide +kernel

theorem witness_StagePosition_loss : 1000 + valid.posTimeout < 1081 ∧ 1080 ≤ 1000 + valid.posTimeout ∧ valid.sweepArmed = false ∧
    (live.setN Obj.POS_STATE 4).posState = 4 ∧ valid.posState ≠ 4 := by decide +kernel

/-- A device that tracks: a sweep is armed, the deflector link runs. -/
def tracking : State := { (((valid.setN Obj.DEFL_LINK_STATE 1).setN Obj.SWEEP_STATE 2).setN Obj.SWEEP_LAST_INDEX 100).setN Obj.JOB_STATE 2 with
  hs := { valid.hs with worded := some 1000, targets := [(900, some 5)] } }

theorem witness_DeflectorWords : tracking.getN Obj.DEFL_LINK_STATE = 1 ∧ tracking.gateRuns = false ∧ tracking.posState = 2 ∧ tracking.sweepArmed = true ∧
    tracking.hs.preds = ⟨1000, 5120, 0, 0⟩ :: [] ∧ 1000 + 7 + tracking.getN Obj.DEFL_OUT_DELAY ≤ 1087 ∧ tracking.hs.worded = some 1000 ∧
    (tracking.hs.targets.find? fun x => x.1 ≤ 1087) = some (900, some 5) ∧ live.pins.sysref = none ∧ (live.setN Obj.DEFL_LINK_STATE 1).sweepArmed = false ∧
    -32768 ≤ live.get Obj.DEFL_OFFSET_X ∧ live.get Obj.DEFL_OFFSET_X ≤ 32767 ∧ -32768 ≤ live.get Obj.DEFL_OFFSET_Y ∧ live.get Obj.DEFL_OFFSET_Y ≤ 32767 ∧
    live.getN Obj.DEFL_LINK_STATE ≠ 1 ∧ (live.setN Obj.DEFL_LINK_ENABLE 1).on Obj.DEFL_LINK_ENABLE = true ∧
    (live.setN Obj.DEFL_LINK_ENABLE 1).coreOn = true ∧ State.reset.coreOn = false := by decide +kernel

theorem witness_DecisionPoints : live.coreOn = true ∧ live.getN Obj.PAIR_STATE = 1 ∧ live.pair.releasing = false ∧ live.hs.periods = [] ∧
    live.head.stale < live.getN Obj.TEMP_STALE_LIMIT ∧ ({ live with pair := { live.pair with releasing := true } } : State).pair.releasing = true ∧
    standby.coreOn = true ∧ standby.isStandby = true ∧ standby.pair.claim = false ∧
    (live.setN Obj.POWER_STATE 1).clk.coreLocked = true ∧ (live.setN Obj.POWER_STATE 1).coreOn = false ∧ live.hs.k % 64 = 0 ∧ valid.hs.k % 64 ≠ 0 ∧
    State.reset.clk.coreLocked = false := by decide +kernel

/-- What a decision of the tracking device sees. -/
def seen : Look := ⟨8, 2000, some ⟨1000, 5120, 0, 0⟩, true, true⟩

/-- The tracking device with the index issued last. -/
def tracked (n : Int) : State := { tracking with sweep := { tracking.sweep with ranges := [(0, 100)], nPrev := n } }

theorem witness_DecisionPoints_choose : (tracked 4).sweepArmed = true ∧ (tracked 4).jobState = 2 ∧ seen.q = some ⟨1000, 5120, 0, 0⟩ ∧ seen.ok = true ∧
    seen.awake = true ∧ (tracked 4).sweep.blankRest = false ∧
    ((⟨1000, 5120, 0, 0⟩ : Pred).predict (seen.d + (tracked 4).horizon) + 512) / 1024 = 5 ∧ (tracked 4).isGap 5 = false ∧
    (tracked 4).within 0 0 0 = true ∧ 5 = (tracked 4).sweep.nPrev + 1 ∧ 5 ≤ (tracked 4).get Obj.SWEEP_LAST_INDEX ∧ 5 ≤ (tracked 5).sweep.nPrev ∧
    (tracked 4).within 0 0 16384 = true ∧ (tracked 4).within 0 0 16385 = false := by decide +kernel

/-- A flash period, its frames sent on lane 0. -/
def per : Period := { k := 5, d := 5000, fire := 7000, dec := 1, n := 5, kind := some 1, due := 12000, computed := true, lit := true, sent := 1,
                      crcs := List.replicate 24 0 }
def flashing (p : Period) : State := { valid with hs := { valid.hs with periods := [p] } }

theorem witness_FiringAndSync_check : (flashing per).coreOn = true ∧ (flashing per).isStandby = false ∧ (flashing per).hs.periods = [per] ∧
    per.checks = true ∧ (flashing per).hs.k ≤ per.k + 8 ∧ ((flashing per).at (per.fire - 4)).fireOk per = true ∧
    ((flashing { per with n := 100 }).at (per.fire - 4)).fireOk { per with n := 100 } = false := by decide +kernel

theorem witness_FiringAndSync_sync : let p := { per with check := some true }
    (flashing p).outputsOn = true ∧ p.syncs = true ∧ (flashing p).withheld p = false ∧ p.checks = false ∧ (flashing p).hs.k ≤ p.k + 8 ∧
    (flashing p).pair.k1 = 0 ∧ kvGet (((p.k, p.fire) :: (flashing p).pair.frameSyncs).take 32) 6 = none ∧ (flashing { per with check := some false }).withheld { per with check := some false } = true ∧
    standby.outputsOn = false ∧ (live.setN Obj.FIRE_ROTATE 0).on Obj.FIRE_ROTATE = false := by decide +kernel

theorem witness_SweepOrder : (∀ v ∈ [0, 1], (live.setN Obj.TURNAROUND_HELD v).mayWrite ctl Obj.TURNAROUND_RELEASE ∧
    (live.setN Obj.TURNAROUND_HELD v).getN Obj.TURNAROUND_HELD = v) ∧ live.gateRuns = false ∧ live.calGap = false ∧
    ((live.setN Obj.TURNAROUND_HELD 1).setN Obj.GATE_STATE 2).gateRuns = true ∧
    ({ live with flow := { live.flow with burn := some { stripes := [], waiting := true, after := .jobEnd } } } : State).flow.burn =
      some { stripes := [], waiting := true, after := .jobEnd } ∧
    atD ({ live with units := { live.units with writing := [0, 0, 0, 1], raster := [0, 0, 0, 1] } } : State).units.writing 3 0 = 1 ∧
    atD ({ live with units := { live.units with writing := [0, 0, 0, 1], raster := [0, 0, 0, 1] } } : State).units.raster 3 0 = 1 ∧
    live.lost 3 = false := by unfold State.mayWrite; decide +kernel

/-! ### Head -/

/-- An acknowledgement of that period, with its CRC. -/
def ack1 : AckMessage := let m : AckMessage := { ack0 with frame := 5, fired := 1, rxOk := 1 }
  { m with crc := crc32iso (ackBytes m) }

/-- The device waiting for it. -/
def awaiting : State := (flashing { per with sync := true, check := some true }).setN Obj.HST_LANE_STATE 1

theorem witness_HeadReports_ack : let p := { per with sync := true, check := some true }
    awaiting.coreOn = true ∧ awaiting.getN (Obj.HST_LANE_STATE + 0) = 1 ∧ crc32iso (ackBytes ack1) = ack1.crc ∧
    crc32iso (ackBytes ack1) ≠ { ack1 with crc := ack1.crc + 1 }.crc ∧
    (awaiting.hs.periods.find? fun p => p.k % 2 ^ 32 = ack1.frame && awaiting.hs.k ≤ p.k + 1024) = some p ∧ p.outstanding = true ∧ 12000 ≤ p.due ∧
    awaiting.isStandby = false ∧ (∀ l < 24, laneVerdict p ack1 l = .fired ∨ laneVerdict p ack1 l = .notFired) ∧
    (∀ l ∈ p.sentLanes, ack1.rxOk.getLsbD l = true) ∧
    (live.hs.periods.find? fun p => p.k % 2 ^ 32 = ack1.frame && live.hs.k ≤ p.k + 1024) = none := by decide +kernel

theorem witness_HeadReports_timeout : let s : State := { awaiting with hs := { awaiting.hs with k := 13 } }
    s.coreOn = true ∧ s.isStandby = false ∧ per.outstanding = true ∧ per.k + 8 ≤ s.hs.k := by decide +kernel

theorem witness_HeadReports_others : let s : State := { live with head := { live.head with stale := 64, cmds := [{ beam := 3, periods := 1024 }] } }
    s.coreOn = true ∧ s.getN Obj.TEMP_STALE_LIMIT ≤ s.head.stale ∧ s.head.thermal = none ∧ s.getN Obj.THERMAL_STATE ≠ 2 ∧
    live.head.stale < live.getN Obj.TEMP_STALE_LIMIT ∧ s.head.cmds = { beam := 3, periods := 1024 } :: [] := by decide +kernel

theorem witness_HeadAttach_start : live.mayWrite ctl Obj.HEAD_ATTACH ∧ live.attachRefused = false ∧ (live.setN Obj.JOB_STATE 2).mayWrite ctl Obj.HEAD_ATTACH ∧
    (live.setN Obj.JOB_STATE 2).attachRefused = true := by unfold State.mayWrite; decide +kernel

/-- The register of CRC-32C at 0 stays at 0 over bytes of 0. -/
theorem crcRefl_zeros (n : Nat) : crcRefl 32 0x82F63B78#32 0 (List.replicate n (0 : Byte)) = 0 := by
  unfold crcRefl
  induction n with
  | zero => rfl
  | succ n ih => rw [List.replicate_succ, List.foldl_cons, show crcReflByte 32 0x82F63B78#32 0 0 = 0 by decide]; exact ih

/-- A header of the head identity memory: rank 1, pitch 32, the efficiency table after it, no dead beams (so a CRC of 0, read at 24). -/
def header : Bytes :=
  let h : Bytes := [0x53, 0x56, 0x48, 0x44, 1, 1, 32, 0, 0xE0, 0x01, 0x80, 0x02, 100, 0, 60, 0, 80, 0, 16, 0] ++ zeros 20 ++ leBytes 8 77 ++ zeros 4 ++
    leBytes 4 64 ++ leBytes 4 24
  h ++ leBytes 4 (crc32c h).toNat

/-- Ecodes for every beam, with their CRC: the first three are 1,023, the others 0 or parts of the fourth. -/
def effData : Bytes := [0xFF, 0xFF, 0xFF, 0xFF] ++ List.replicate 383996 0

/-- The first four bytes bring the register to 0, where zeros keep it. -/
theorem crc32c_ones (n : Nat) : crc32c ([0xFF, 0xFF, 0xFF, 0xFF] ++ List.replicate n (0 : Byte)) = 0xFFFFFFFF := by
  have h : crcRefl 32 0x82F63B78#32 0xFFFFFFFF#32 ([0xFF, 0xFF, 0xFF, 0xFF] : Bytes) = 0 := by decide +kernel
  have h2 := crcRefl_zeros n
  unfold crcRefl at h h2
  unfold crc32c crcRefl
  rw [List.foldl_append, h, h2]
  decide

theorem effData_crc : crc32c effData = 0xFFFFFFFF := crc32c_ones _

/-- A head memory whose every check holds. -/
def headMem : HeadMemory := ⟨true, header ++ (effData ++ [0xFF, 0xFF, 0xFF, 0xFF])⟩

/-- Bytes within a list's front are those of the front. -/
theorem slice_front (a b : Bytes) (i n : Nat) (h : i + n ≤ a.length) : slice (a ++ b) i n = slice a i n := by
  unfold slice
  rw [List.drop_append_of_le_length (by omega), List.take_append_of_le_length (by rw [List.length_drop]; omega)]

theorem header_length : header.length = 64 := by decide +kernel

theorem leAt_header (i n : Nat) (h : i + n ≤ 64) : leAt headMem.bytes i n = leAt header i n := by
  unfold leAt headMem
  rw [slice_front _ _ _ _ (by rw [header_length]; exact h)]

theorem headMem_header : memHeader headMem = header := by
  unfold memHeader headMem
  rw [slice_front _ _ _ _ (Nat.le_of_eq header_length)]
  exact List.take_of_length_le (Nat.le_of_eq (by rw [List.drop_zero, header_length]))

theorem effData_length : effData.length = 384000 := by unfold effData; rw [List.length_append, List.length_replicate]; rfl

theorem headMem_effTable : effTable headMem = effData ++ [0xFF, 0xFF, 0xFF, 0xFF] := by
  have h : effAt headMem = 64 := by unfold effAt; rw [leAt_header _ _ (by decide)]; decide +kernel
  unfold effTable headMem slice
  rw [show effAt ⟨true, header ++ (effData ++ [0xFF, 0xFF, 0xFF, 0xFF])⟩ = 64 from h, List.drop_left' header_length,
    List.take_of_length_le (by rw [List.length_append, effData_length]; decide)]

theorem headMem_eff : crcHolds (effTable headMem) 384000 = true := by
  have ht : (effTable headMem).take 384000 = effData := by rw [headMem_effTable, ← effData_length]; exact List.take_left' rfl
  have hd : (effTable headMem).drop 384000 = [0xFF, 0xFF, 0xFF, 0xFF] := by rw [headMem_effTable, ← effData_length]; exact List.drop_left' rfl
  have hl : (effTable headMem).length = 384004 := by rw [headMem_effTable, List.length_append, effData_length]; rfl
  have hv : leAt (effTable headMem) 384000 4 = 0xFFFFFFFF := by unfold leAt slice; rw [hd]; decide
  simp only [crcHolds, ht, hl, hv, effData_crc]; decide

theorem headMem_dead : deadTable headMem = [0, 0, 0, 0] := by
  have h : deadAt headMem = 24 := by unfold deadAt; rw [leAt_header _ _ (by decide)]; decide +kernel
  have n : deadBytes headMem = 4 := by unfold deadBytes; rw [leAt_header _ _ (by decide)]; decide +kernel
  unfold deadTable
  rw [h, n]
  unfold headMem
  rw [slice_front _ _ _ _ (by rw [header_length]; decide)]
  decide +kernel

theorem headMem_good : attachCheck headMem = 0 := by
  unfold attachCheck
  rw [headMem_header, headMem_eff, headMem_dead]
  decide +kernel

/-- A device that reads a head's memory. -/
def attaching : State := { live with head := { live.head with attaching := 1 } }

theorem witness_HeadAttach_good : attachCheck headMem = 0 ∧ deadList (identityOf (memHeader headMem)).deadCount (deadTable headMem) = some [] ∧
    attaching.head.attaching = 1 ∧ attaching.outputsOn = true ∧ headMem.ack = true ∧ attaching.mirrorsOn = false ∧ attaching.st.heldJob = none ∧
    attaching.st.waitHead = none := by
  refine ⟨headMem_good, ?_, rfl, by decide +kernel, rfl, by decide +kernel, rfl, rfl⟩
  rw [headMem_header, headMem_dead]
  decide +kernel

theorem witness_HeadAttach_bad : attachCheck ⟨true, header.set 5 2⟩ = 2 ∧ attachCheck ⟨false, []⟩ = 1 ∧ attachCheck ⟨true, header⟩ = 7 ∧
    (attaching.setN Obj.PAIR_STATE 0).head.attaching ≠ 0 ∧ ({ attaching with pins := { attaching.pins with ownAct := false } } : State).outputsOn = false := by
  decide +kernel

theorem witness_BeamTableChanges_edit : let s : State := { live with head := { live.head with edits := [⟨5, 3, none⟩] } }
    live.mayWrite ctl Obj.BEAM_EDIT ∧ s.mayWrite ctl Obj.BEAM_EDIT ∧ bitsOf (0x00000002_0004AFFF#64).toNat 18 0 < beamCount ∧
    bitsOf (0x00000002_0004AFFF#64).toNat 31 19 = 0 ∧ bitsOf (0x00000002_0004AFFF#64).toNat 63 60 = 0 ∧
    live.isStandby = false ∧ live.head.edits.length < 1024 ∧ live.mirrorsOn = false ∧ beamState (live.beamThen 307199) ≠ 3 ∧ beamState 2 ≠ 3 ∧
    beamState 3 = 3 ∧ beamState (s.beamThen 5) = 3 := by unfold State.mayWrite; decide +kernel

theorem witness_BeamTableChanges_epoch : let s : State := { live with hs := { live.hs with k := 64 }, head := { live.head with edits := [⟨307199, 2, none⟩] } }
    s.coreOn = true ∧ s.getN Obj.PAIR_STATE ∉ [2, 3, 4] ∧ s.hs.k % 64 = 0 ∧ s.head.epochDone ≠ some s.hs.k ∧ s.head.attachTable = none ∧ s.head.results = [] ∧
    s.sram.tableUe = [] ∧ s.head.edits = [⟨307199, 2, none⟩] ∧ 307199 < beamCount ∧ s.head.table.length = 480 ∧ valid.hs.k % 64 ≠ 0 := by decide +kernel

/-- A device that can test beams. -/
def testing : State := (((withHead.setN Obj.HEAD_STATE 2).setN Obj.POS_ENABLE 1).setN Obj.GATE_RX_STATE 1).setN Obj.GATE_GAIN 0x3F800000

theorem witness_BeamTests_start : testing.mayWrite ctl Obj.GATE_CHECK_START ∧ testing.testRefused = false ∧ f32Val (testing.getN Obj.GATE_GAIN) ≠ 0 ∧
    live.mayWrite ctl Obj.GATE_CHECK_START ∧ live.testRefused = true ∧ testing.mayWrite ctl Obj.IMAGE_START ∧ testing.jobState ∉ [1, 2, 4, 6] ∧
    live.mayWrite ctl Obj.IMAGE_START ∧ (testing.setN Obj.GATE_STATE 2).mayWrite ctl Obj.GATE_CHECK_STOP ∧
    (testing.setN Obj.GATE_STATE 2).getN Obj.GATE_STATE ∈ [1, 2] ∧ testing.flow.release = false := by unfold State.mayWrite; decide +kernel

/-- A gate check, and an image, under way. -/
def gating (g : Gate) (v : Nat) : State := { testing.setN Obj.GATE_STATE v with head := { testing.head with gate := some g } }
def imaging (g : Gate) (v : Nat) : State := { testing.setN Obj.IMAGE_STATE v with
  head := { testing.head with image := some g }, cams := { testing.cams with spot := { testing.cams.spot with dark := [1], lit := [1] } } }

/-- A check of gate samples: their first one counted is `v`, the others 0. -/
def gateShots (v : BitVec 16) : Shots :=
  List.replicate (testing.getN Obj.GATE_SHOTS) (List.replicate (testing.getN Obj.GATE_DELAY) 1 ++ v :: List.replicate (testing.getN Obj.GATE_SPAN - 1) 0)

/-- The test frames of a measurement of beam 3, decided with the lanes of `m`, or not yet. -/
def frames (n : Nat) (beam m : Option Nat) : List Period :=
  (List.range n).reverse.map fun i => { per with k := i + 1, kind := some 3, beam := beam, shot := some i, decided := m.map (BitVec.ofNat 24) }

/-- A gate check of beam 3 with its frames sent. -/
def gated (failed : List Nat) (m : Option Nat) : State :=
  let s := gating { waiting := [3], failed := failed } 2
  { s with hs := { s.hs with periods := frames (s.getN Obj.GATE_SHOTS) (some 3) m } }

theorem witness_GateChecks_sum : testing.getN Obj.GATE_RX_STATE = 1 ∧ (gateShots 5).length = testing.getN Obj.GATE_SHOTS ∧
    (∀ l ∈ gateShots 5, testing.getN Obj.GATE_DELAY + testing.getN Obj.GATE_SPAN ≤ l.length) ∧
    (gating { sent := 4 } 1).gateSum (gateShots 2500) = some 10000 ∧ (gating { sent := 4 } 1).gateSum (gateShots 2501) = some 10004 ∧
    (gating { sent := 4 } 1).darkStuck 10004 = true := by decide +kernel

theorem witness_GateChecks_measured : ∀ m ∈ [(some 0xFFFFFF, some true), (some 0, some false), (none, none)], ∀ failed ∈ [[], [3]],
    (gated failed m.1).gateSum (gateShots 5) = some 20 ∧ (gated failed m.1).head.gate = some { waiting := [3], failed := failed } ∧
    (gated failed m.1).getN Obj.GATE_STATE = 2 ∧ (gated failed m.1).shotsFired (some 3) ((gated failed m.1).getN Obj.GATE_SHOTS) (fun _ => [laneOf 3]) = m.2 := by
  decide +kernel

theorem witness_FullArrayImage_fired : ∀ v ∈ [1, 2], ∀ m ∈ [(some 0xFFFFFF, some true), (some 0, some false), (none, none)],
    let s : State := { imaging { sent := 16 } v with hs := { live.hs with periods := frames 16 none m.1 } }
    s.getN Obj.IMAGE_SHOTS = 16 ∧ s.shotsFired none (s.getN Obj.IMAGE_SHOTS) Period.sentLanes = m.2 := by decide +kernel

theorem witness_BeamTests_gate : (gating { sent := 4 } 1).head.gate = some { sent := 4 } ∧ (gating { sent := 4 } 1).getN Obj.GATE_STATE = 1 ∧
    (gating { sent := 4 } 1).getN Obj.GATE_SHOTS ≤ 4 ∧ (gating { sent := 4 } 1).darkStuck 10000 = false ∧ (gating { sent := 4 } 1).darkStuck 10001 = true ∧
    (gating { waiting := [3] } 2).getN Obj.GATE_STATE = 2 ∧ (gating { waiting := [3] } 2).head.gate = some { waiting := [3] } ∧
    (gating { waiting := [3], failed := [3] } 2).head.gate = some { waiting := [3], failed := [3] } ∧
    3 ∈ (gating { waiting := [3], failed := [3] } 2).head.gate.elim [] (·.failed) := by decide +kernel

theorem witness_BeamTests_image : (imaging { sent := 16 } 1).getN Obj.IMAGE_STATE = 1 ∧ (imaging { sent := 16 } 1).getN Obj.IMAGE_SHOTS ≤ 16 ∧
    (imaging { sent := 16 } 1).cams.spot.dark ≠ [] ∧ (imaging { sent := 16 } 2).cams.spot.lit ≠ [] ∧ (imaging { sent := 16 } 2).getN Obj.IMAGE_STATE = 2 ∧
    (imaging { sent := 16, repeated := true } 2).head.image = some { sent := 16, repeated := true } := by decide +kernel

/-! ### Raster side, correction, fits, doses, window -/

/-- A stripe of 32 pixels, complete and empty, and a device that rasterizes it. -/
def stripe32 : Stripe := ⟨0, false, 0, 0, 32, true, []⟩
def rastering : State := { withHead.setN Obj.JOB_STATE 1 with
  lay := { live.lay with stripes := [stripe32] }, units := { live.units with raster := [2, 2, 2, 2] } }

/-- A tile of region 0 in hand, its one part free or on cell 0. -/
def tile0 (c : Option Nat) : TileJob := ⟨⟨0, 0, 0⟩, 0, [{ x0 := 0, y0 := 0, side := 64, cell := c }], false, [], 0, false⟩
def handling (c : Option Nat) : State := { rastering with ras := { rastering.ras with tiles := [tile0 c] } }

theorem witness_TilesAndShadowTests_part : (handling none).rasterOn (0 / 12) = true ∧ atD (handling none).units.raster (0 / 12) 0 = 2 ∧
    (handling none).cellRetired 0 = false ∧ (handling none).cellBusy 0 = false ∧ ((handling none).assignPart 0).isSome = true ∧
    ((rastering.setN Obj.CELL_STATE 3).cellRetired 0) = true := by decide +kernel

theorem witness_TilesAndShadowTests_next : let s := rastering.setN Obj.TILE_CLOCK_GATING 0
    s.rasterOn (47 / 12) = true ∧ atD s.units.raster (47 / 12) 0 = 2 ∧ s.cellRetired 47 = false ∧ s.cellBusy 47 = false ∧ s.assignPart 47 = none ∧
    ((s.takeNext (47 / 12)).bind fun u => u.assignPart 47).isSome = true := by decide +kernel

/-- Deliveries of a cell and its area unit: right, a unit that disagrees, a coverage sum that disagrees. -/
def noFault : CellFault := ⟨none, none, none, [], 0⟩
def unitFault : CellFault := ⟨none, some 10, none, [], 0⟩
def bothFault : CellFault := ⟨none, some (2 ^ 28), none, [], 0⟩
def sumFault : CellFault := ⟨none, none, none, [(0, 128, 0), (1, 128, 0), (2, 128, 0), (3, 128, 0)], 0⟩

theorem witness_TilesAndShadowTests_complete : let s := handling (some 0)
    let t := tile0 (some 0)
    let p : Part := { x0 := 0, y0 := 0, side := 64, cell := some 0 }
    (s.ras.tiles.find? fun t => t.parts.any (·.cell = some 0)) = some t ∧ t.parts.find? (·.cell = some 0) = some p ∧ s.rasterOn t.region = true ∧
    noFault.valueRails ≤ t.valueRails ∧ (s.compute t p 0 noFault).1.windOk = true ∧ (s.compute t p 0 noFault).1.sumOk = true ∧
    (s.compute t p 0 unitFault).1.windOk = false ∧ (s.compute t p 0 unitFault).1.sumOk = true ∧
    (s.compute t p 0 sumFault).1.windOk = true ∧ (s.compute t p 0 sumFault).1.sumOk = false ∧
    (s.compute t p 0 bothFault).1.windOk = false ∧ (s.compute t p 0 bothFault).1.sumOk = false := by decide +kernel

theorem witness_TilesAndShadowTests_shadow : live.getN Obj.SHADOW_TEST_ENABLE = 1 ∧ live.coreOn = true ∧ live.cellRetired 47 = false ∧
    live.lost (47 / 12) = false ∧ live.cellBusy 47 = false ∧ atD live.ras.refRun 47 none = none ∧
    atD ({ live with ras := { live.ras with refRun := setAt live.ras.refRun 47 (some 15) } } : State).ras.refRun 47 none = some 15 := by decide +kernel

theorem witness_TilesAndShadowTests_wrong : Config.refTileCrc 15 + 1 ≠ Config.refTileCrc 15 := by
  generalize Config.refTileCrc 15 = x
  intro h
  bv_omega

/-- A device that corrects, with one kernel term. -/
def correcting : State := ((rastering.setN Obj.PEC_ENABLE 1).setN Obj.TERM_ETA 32768).setN Obj.TERM_SIGMA 256

theorem witness_FactorsAndFits_factors : correcting.factorStripe 3 0 = some stripe32 ∧ correcting.getN Obj.PEC_ENABLE = 1 ∧
    correcting.kernelR ≠ 0 ∧ correcting.rasterOn 3 = true ∧ correcting.getN (Obj.CORR_BLOCK_STATE + 3) ≠ 1 ∧
    (correcting.newRows 3 stripe32 0).1 ≠ correcting.factorRows 3 stripe32.number 0 ∧ railTries [true, true, true] = some 0 ∧
    railTries [false, true, true] = some 1 ∧ railTries [false, false, false] = none ∧
    (correcting.setN (Obj.REGION_STATE + 3) 4).lost 3 = true ∧ correcting.coreOn = true ∧ correcting.jobState ∈ [1, 2, 3, 4] ∧ correcting.job.abortAt = none := by decide +kernel

/-- Three marks of a field, displaced by one pixel in X. -/
def fit3 : FitJob := ⟨⟨63, 0, 65536, 0, 65536, 0, 0, 16, [], []⟩, 1, [⟨0, 0, 256, 0⟩, ⟨65536, 0, 256, 0⟩, ⟨0, 65536, 256, 0⟩]⟩

theorem witness_FactorsAndFits_fit : live.mayWrite ctl Obj.FIT_FIELD ∧ live.getN Obj.FIT_STATUS ≠ 1 ∧ (live.setN Obj.FIT_STATUS 1).mayWrite ctl Obj.FIT_FIELD ∧
    (live.setN Obj.FIT_STATUS 1).getN Obj.FIT_STATUS = 1 ∧ ({ live with fit := some { fit3 with points := [] } } : State).fit = some { fit3 with points := [] } ∧
    ({ fit3 with points := [] } : FitJob).points.length < fitTerms fit3.order ∧ (live.setN Obj.FIT_STATUS 2).mayWrite ctl Obj.FIT_STAGE ∧
    (live.setN Obj.FIT_STATUS 2).getN Obj.FIT_STATUS = 2 ∧ (live.setN Obj.FIT_STATUS 2).stg.entries = [] ∧ live.getN Obj.FIT_FIELD_LAST < 64 ∧
    live.mayWrite ctl Obj.FIT_STAGE ∧ live.getN Obj.FIT_STATUS ≠ 2 := by unfold State.mayWrite; decide +kernel

/-- R138: the fit of a shift is that shift: A is 65,536 in units of 1/256 of 1/256 pixel, all else 0. -/
theorem test_fit : fitResult fit3 (live.getN Obj.FIT_MAX_RESIDUAL) = (2, some ([65536, 0, 0], [0, 0, 0]), some [0, 0, 0]) := by
  decide +kernel

theorem witness_DosesOfVisits : 512 ≤ 1535 ∧ 1535 ≤ 1535 ∧ 1 ≤ 1 ∧ 15 ≤ 15 ∧ splitDose 1500 1535 1 3 15 = (15, 1439) ∧ splitDose 0 512 1 0 15 = (0, 0) := by
  decide +kernel

theorem witness_FlashesAndWindow_compute : (flashing { per with computed := false }).coreOn = true ∧ (flashing { per with computed := false }).isStandby = false ∧
    (flashing { per with computed := false }).openPeriod = some { per with computed := false } ∧ standby.coreOn = true ∧ standby.isStandby = true ∧
    (∀ p ∈ (flashing per).hs.periods, p.computed = true) := by decide +kernel

/-- A device with a beam pitch of 16 pixels whose loader works on the last lines of a stripe of 4 pixels, their tile spooled. -/
def loading : State :=
  { ((((withHead.setN Obj.BEAM_PITCH 16).setN Obj.JOB_STATE 2).setN Obj.SWEEP_STATE 1).setN Obj.SWEEP_LENGTH 4).setN Obj.SWEEP_LAST_INDEX 7683 with
    lay := { live.lay with stripes := [{ stripe32 with xEnd := 4 }] }, units := { live.units with writing := [2, 2, 2, 2] }
    ras := { live.ras with front := List.replicate 4 (0, 1) }
    sweep := { live.sweep with ranges := [(0, 3)], reached := 3600 }, spool := { live.spool with tiles := [{ key := ⟨0, 0, 159⟩, region := 3, vals := [] }] } }

theorem witness_FlashesAndWindow_load : 10207 < loading.lines ∧ loading.loaderOn (loading.regionOfLine 10207) = true ∧
    loading.loadValues 10207 0 = some [0, 0, 0, 0] ∧ loading.loadTarget 10207 0 = some 0 ∧ loading.loadTarget 10207 1 = none := by decide +kernel

/-- A device with two defect records. -/
def defective : State := { live with ledger := { live.ledger with defects := [⟨0, 0, 9, 0, 1, 0, none, false⟩, ⟨1, 0, 9, 0, 1, 0, none, false⟩] } }

theorem witness_FlashesAndWindow_defects : defective.mayWrite ctl Obj.DEFECT_ACK ∧ 2 ≤ defective.ledger.defects.length ∧
    defective.ledger.defects.length < 3 := by unfold State.mayWrite; decide +kernel

/-! ### Memory side, DMA, check units -/

/-- A device whose lane 0 works on a unit. -/
def packing (u : LaneUnit) : State := { live with spool := { live.spool with lanes := { unit := some u } :: live.spool.lanes.drop 1 } }

/-- A tile of zeros. -/
def zeroTile : SpoolTile := { key := ⟨0, 0, 0⟩, region := 0, vals := [] }

theorem witness_CompressionWork_units : (atD (packing (.spool zeroTile)).spool.lanes 0 {}).unit = some (.spool zeroTile) ∧
    (packing (.spool zeroTile)).coreOn = true ∧ 0 < (packing (.spool zeroTile)).spool.lanes.length ∧
    (atD (packing (.residual 0)).spool.lanes 0 {}).unit = some (.residual 0) ∧ (packing (.residual 0)).coreOn = true ∧
    (atD (packing (.fiufen 2)).spool.lanes 0 {}).unit = some (.fiufen 2) ∧ (packing (.fiufen 2)).coreOn = true ∧ live.spool.redo = [] ∧
    ({ live with spool := { live.spool with waiting := [zeroTile] } } : State).spool.waiting = zeroTile :: [] ∧ zeroTile.region = 0 ∧
    ({ live with spool := { live.spool with redo := [(3, .spool zeroTile)] } } : State).spool.redo = (3, .spool zeroTile) :: [] := by decide +kernel

/-- A device whose lane 0 works on a segment of host job 5. -/
def hosting : State :=
  { live with spool := { live.spool with lanes := { unit := some (.host 5), host := some (jobOf 5 (zeros 32)) } :: live.spool.lanes.drop 1 } }

theorem witness_CompressionLanes_host : (atD hosting.spool.lanes 0 {}).unit = some (.host 5) ∧ hosting.coreOn = true ∧
    (hosting.unitTaken 0).hostJob 5 = some (jobOf 5 (zeros 32)) := by decide +kernel

/-- A device with one descriptor in its host job ring. -/
def hostJob (d : Bytes) : State := { live.setN Obj.HJ_PRODUCER 1 with dram := { live.dram with mem := memWriteList [] (live.hjAddr 0) d } }

/-- Descriptors: operation 1, level 3; operation 3. -/
def jobDesc (op level : Nat) : Bytes := [BitVec.ofNat 8 op, BitVec.ofNat 8 level] ++ zeros 30

theorem witness_CompressionWork_jobs : (∀ op ∈ [1, 2, 3], let s := hostJob (jobDesc op 3)
      s.coreOn = true ∧ s.getN Obj.HJ_CONSUMER ≠ s.getN Obj.HJ_PRODUCER ∧ (List.range 16).find? s.hostLane = some 0 ∧
      ((s.setN Obj.HJ_CONSUMER 1).readMem ((s.setN Obj.HJ_CONSUMER 1).hjAddr 0) 32 []).2 = some (jobDesc op 3) ∧ leAt (jobDesc op 3) 0 1 = op ∧
      leAt (jobDesc op 3) 1 1 ≤ 3 ∧ leAt (jobDesc op 3) 8 8 % 32 = 0 ∧ leAt (jobDesc op 3) 16 8 % 32 = 0) ∧
    live.getN Obj.HJ_CONSUMER = live.getN Obj.HJ_PRODUCER ∧ live.mayWrite ctl Obj.HJ_RESUME := by unfold State.mayWrite; decide +kernel

/-- Start-up in a phase, with channels that are up. -/
def starting (phase : Nat) (up : List Nat) : State :=
  up.foldl (fun s ch => s.setN (Obj.MC_STATE + ch) 1) ({ live.setN Obj.POWER_STATE 4 with boot := State.reset.boot }.setN Obj.STARTUP_PHASE phase)

theorem witness_DramStartUp_training : (∀ up ∈ [[], [0, 1, 2]], let s := starting 1 up
      s.pins.porstN = true ∧ s.power = 4 ∧ s.getN Obj.STARTUP_PHASE = 1 ∧ s.pwr.locking.contains (.dram 3) = false ∧ s.getN (Obj.MC_STATE + 3) ≠ 1 ∧
      s.channelLost 3 = false) ∧ (starting 1 []).getN (Obj.MC_STATE + 0) ≠ 1 ∧ (starting 1 []).channelLost 0 = false ∧
    (∀ i < 4, i ≠ 3 → (starting 1 [0, 1, 2]).getN (Obj.MC_STATE + i) = 1) := by decide +kernel

theorem witness_DramStartUp_fill : (starting 2 [0, 1, 2, 3]).power = 4 ∧ (starting 2 []).getN Obj.STARTUP_PHASE = 2 ∧ (starting 2 [0, 1, 2, 3]).lostMask = 0 ∧
    ((starting 2 [0, 1, 2]).setN (Obj.MC_STATE + 3) 3).lostMask = 8 := by decide +kernel

/-- A device with four channels up. -/
def dramUp : State := ((((live.setN Obj.MC_STATE 1).setN (Obj.MC_STATE + 1) 1).setN (Obj.MC_STATE + 2) 1).setN (Obj.MC_STATE + 3) 1).setN Obj.DRAM_CAPACITY (2 ^ 35)

theorem witness_DramCare_refresh : dramUp.channelLost 3 = false ∧ (∀ t ∈ ([85, -40] : List Int), t ≤ 85) ∧ (86 : Int) ∈ ([85, 86] : List Int) ∧
    dramUp.getN (Obj.MC_STATE + 3) = 1 ∧ dramUp.dram.channels.length = 4 ∧ 15 < bankCount dramUp.straps.dpop ∧
    (let n := dramUp.getN Obj.DISTURB_THRESHOLD
     let s := (dramUp.modChan 3 fun c => { c with activates := [(15, [(7, n - 1)])] })
     kvGet (s.chan 3).activates 15 = some [(7, n - 1)] ∧ s.getN Obj.DISTURB_THRESHOLD ≤ n - 1 + 1 ∧ n - 2 + 1 < s.getN Obj.DISTURB_THRESHOLD ∧
     kvGet ((dramUp.modChan 3 fun c => { c with activates := [(15, [(7, n - 2)])] }).chan 3).activates 15 = some [(7, n - 2)]) := by decide +kernel

theorem witness_DramRefresh_rows : 65535 < rowCount dramUp.straps.dpop ∧ dramUp.neighbourRows 65535 ≠ [] ∧
    65534 ∈ dramUp.neighbourRows 65535 := by decide +kernel

theorem witness_DramCare_loss : dramUp.getN (Obj.MC_STATE + 3) = 1 ∧ (dramUp.chan 3).parityAt = none ∧
    ((dramUp.modChan 3 fun c => { c with parityAt := some 100 }).chan 3).parityAt = some 100 ∧ 100 + secCycles ≤ 100 + secCycles ∧ dramUp.coreOn = true ∧
    dramUp.channelLost 3 = false ∧ (dramUp.setN Obj.JOB_STATE 2).jobActive = true ∧ (dramUp.chan 3).pllLosses = 0 ∧
    ((dramUp.modChan 3 fun c => { c with pllLosses := 1 }).chan 3).pllLosses = 1 ∧ (dramUp.setN Obj.PAIR_STATE 0).isStandby = true ∧
    (dramUp.setN Obj.PAIR_STATE 0).getN Obj.PAIR_STATE = 0 := by decide +kernel

theorem witness_ScrubbingAndRemapping_scrub : (∀ n ∈ [0, 2 ^ 35 - 128], let s := (dramUp.setN Obj.FILL_STATE 1).setN Obj.SCRUB_POSITION n
      s.coreOn = true ∧ s.getN Obj.FILL_STATE ≠ 0 ∧ s.channelLost (channelOf (s.getN Obj.SCRUB_POSITION)) = false ∧
      (∀ w ∈ wordsOf (s.getN Obj.SCRUB_POSITION) 128, (s.readOutcome w []).1 = .good) ∧ s.getN Obj.SCRUB_POSITION = n) ∧
    (dramUp.chan 0).queue = [] ∧ (dramUp.setN Obj.MC_STATE 3).channelLost 0 = true ∧
    0 + 128 < dramCapacity dramUp.straps.dpop ∧ dramCapacity dramUp.straps.dpop ≤ 2 ^ 35 - 128 + 128 ∧ State.reset.coreOn = false := by decide +kernel

theorem witness_ScrubbingAndRemapping_remap : let v : BitVec 32 := 0x033CFFFF
    dramUp.mayWrite ctl Obj.REMAP_ADD ∧ bitOf v.toNat 23 = false ∧ bitsOf v.toNat 31 26 = 0 ∧ bitsOf v.toNat 17 0 < rowCount dramUp.straps.dpop ∧
    bitsOf v.toNat 22 18 < bankCount dramUp.straps.dpop ∧ dramUp.channelLost (bitsOf v.toNat 25 24) = false ∧
    (dramUp.chan (bitsOf v.toNat 25 24)).copy = none ∧ (dramUp.chan (bitsOf v.toNat 25 24)).queued = [] ∧
    (dramUp.chan (bitsOf v.toNat 25 24)).remap = [] ∧ bitOf (0x00800000#32).toNat 23 = true ∧
    (let s := dramUp.modChan 3 fun c => { c with copy := some ⟨65535, 15, 4, 0⟩ }
     s.dram.channels.length = 4 ∧ (s.chan 3).copy = some ⟨65535, 15, 4, 0⟩ ∧ (s.chan 3).queued = [] ∧ s.channelLost 3 = false) := by
  unfold State.mayWrite; decide +kernel

/-- A device whose DMA channel c runs a descriptor, of which some bytes have moved. -/
def copying (c : Nat) (d : DmaDesc) (moved : Nat) : State :=
  (dramUp.setN (Obj.CH_STATE + c) 1).modDma c fun x => { x with desc := some d, moved := moved, burst := 64 }

theorem witness_DmaChannels_start : dramUp.mayWrite ctl (Obj.CH_START + 31) ∧ dramUp.coreOn = true ∧ dramUp.dmaActive 31 = false ∧
    (2 ^ 35 - 64) % 64 = 0 ∧ 2 ^ 35 - 64 < dramUp.getN Obj.DRAM_CAPACITY ∧ dramUp.getN Obj.DRAM_CAPACITY ≤ 2 ^ 35 ∧ 32 % 64 ≠ 0 ∧
    (dramUp.setN (Obj.CH_STATE + 31) 2).mayWrite ctl (Obj.CH_START + 31) ∧ (dramUp.setN (Obj.CH_STATE + 31) 2).dmaActive 31 = true ∧
    ((dramUp.setN (Obj.CH_STATE + 31) 2).dmaCh 31).desc = none := by unfold State.mayWrite; decide +kernel

theorem witness_DmaChannels_burst : (∀ d ∈ [(⟨0, 128, 0, 4096, 0⟩ : DmaDesc), ⟨1, 128, 0, 4096, 0⟩], let s := copying 2 d 64
      (s.dmaCh 2).desc = some d ∧ s.coreOn = true ∧ s.dmaActive 2 = true ∧ s.dmaGranted 2 = true ∧ (s.dmaCh 2).port = [] ∧ (s.dmaCh 2).moved < d.length) ∧
    (⟨0, 128, 0, 4096, 0⟩ : DmaDesc).host = false ∧ (⟨1, 128, 0, 4096, 0⟩ : DmaDesc).host = true ∧
    ({ copying 2 ⟨1, 128, 0, 4096, 0⟩ 64 with host := { live.host with up := true, busMaster := true } } : State).host.up = true ∧
    (copying 2 ⟨1, 128, 0, 4096, 0⟩ 64).host.busMaster = false ∧ (copying 2 ⟨1, 128, 0, 4096, 0⟩ 64).host.up = false := by decide +kernel

theorem witness_DmaChannels_end : (∀ d ∈ [(⟨0, 128, 0, 4096, 0⟩ : DmaDesc), ⟨0, 128, 0, 4096, 64⟩, ⟨0x4000, 128, 0, 4096, 0⟩], let s := copying 2 d 128
      (s.dmaCh 2).desc = some d ∧ s.dmaActive 2 = true ∧ (s.dmaCh 2).moved = d.length ∧ (s.dmaCh 2).port = []) ∧
    (⟨0, 128, 0, 4096, 0⟩ : DmaDesc).eventOnEnd = false ∧ (⟨0, 128, 0, 4096, 64⟩ : DmaDesc).eventOnEnd = false ∧
    (⟨0x4000, 128, 0, 4096, 0⟩ : DmaDesc).eventOnEnd = true ∧ (dramUp.dmaCh 2).desc = none := by decide +kernel

theorem witness_CheckValueUnits_port : let d : DmaDesc := ⟨8, 128, 0, 3, 0⟩
    let s := (copying 2 d 4).modDma 2 fun x => { x with port := [1, 2, 3, 4] }
    (s.dmaCh 2).desc = some d ∧ d.dstSpace = 2 ∧ d.dst = 3 ∧ (s.dmaCh 2).port ≠ [] ∧ s.cuLevel 3 + (s.dmaCh 2).port.length ≤ 8192 ∧
    8192 < ({ s with cus := [{}, {}, {}, { drain := 8189 }] } : State).cuLevel 3 + (s.dmaCh 2).port.length ∧
    ({ s with cus := [{}, {}, {}, { drain := 8188 }] } : State).cuLevel 3 + (s.dmaCh 2).port.length ≤ 8192 := by decide +kernel

theorem witness_CheckUnits_core : live.coreOn = true ∧ State.reset.coreOn = false := by decide +kernel

theorem witness_CheckValueUnits_values : (0xFFFF#64).toNat < 2 ^ cuWidth ((live.setN Obj.CU_POLY 2).getN (Obj.CU_POLY + 0)) ∧
    2 ^ cuWidth ((live.setN Obj.CU_POLY 2).getN (Obj.CU_POLY + 0)) ≤ (0x10000#64).toNat ∧
    (({ live with cus := [{ latches := [(1, 2)] }, {}, {}, {}] } : State).cu 0).latches = (1, 2) :: [] := by decide +kernel

/-- Table 14-1: the check values of the four algorithms. -/
theorem test_cuFeed : ∀ x ∈ [(0, 0xE3069283), (1, 0xCBF43926), (2, 0x29B1), (3, 0x995DC9BBDF1939FA)],
    ((after (exec (.cuPoly 3 x.1) live)).cuFeed 3 [0x31, 0x32, 0x33, 0x34, 0x35, 0x36, 0x37, 0x38, 0x39]).cuResult 3 = x.2 := by
  decide +kernel

/-! ### Cameras and calibration -/

/-- A frame's configuration and a frame of it; a device whose port 1 receives it. -/
def cfg1 : CamCfg := ⟨0, 0x2B, 4, 2, 0, [0, 0, 0, 0], [4096, 4096, 4096, 4096], [], 0, false, [], [4096, 4096, 4096], [], [], [0, 0],
  [⟨0, 1, false⟩, ⟨4096, 2, true⟩], 0, 0⟩
def frame1 (received flags : Nat) : CamFrame :=
  { seq := 1, number := 1, fsTime := 0, startAt := 0, lastAt := 0, lines := List.replicate received [0, 0, 0, 0], received := received, flags := flags, cfg := cfg1 }
def receiving (v : Nat) (c : Cam) : State := { live.setN (Obj.CAM_STATE + 1) v with cams := { live.cams with ports := [{}, c] } }

theorem witness_CameraPackets_lines : let s := receiving 2 { frame := some (frame1 1 0) }
    let u := State.runPipe 100 50 (s.at 50)
    s.getN (Obj.CAM_STATE + 1) = 2 ∧ (u.cam 1).frame = some (frame1 1 0) ∧ [1, 2, 3, 4].length = (frame1 1 0).cfg.width ∧
    (frame1 1 0).received < (frame1 1 0).cfg.height ∧ (u.lineTime 1).buffered 1 u.clk.cycle + (frame1 1 0).cfg.width ≤ 32768 ∧
    (s.cam 1).frame = some (frame1 1 0) ∧ (frame1 2 0).cfg.height ≤ (frame1 2 0).received := by decide +kernel

theorem witness_CameraPackets_full : let s := receiving 2 { frame := some (frame1 1 0), buffer := [(49, 4096), (49, 32768 - 4096)] }
    let u := State.runPipe 100 50 (s.at 50)
    (u.cam 1).frame = some (frame1 1 0) ∧ 32768 < (u.lineTime 1).buffered 1 u.clk.cycle + (frame1 1 0).cfg.width := by decide +kernel

theorem witness_CameraPackets_others : (receiving 1 {}).getN (Obj.CAM_STATE + 1) = 1 ∧ ((receiving 1 {}).cam 1).frame = none ∧
    (receiving 3 {}).getN (Obj.CAM_STATE + 1) = 3 ∧ (receiving 1 {}).getN (Obj.CAM_STATE + 1) ≠ 4 ∧
    (let s := receiving 2 { frame := some (frame1 1 0) }
     let lim := if s.getN (Obj.LINE_PERIOD + 1) = 0 then 10 * msCycles else nsCycles (10 * s.getN (Obj.LINE_PERIOD + 1))
     (s.cam 1).frame = some (frame1 1 0) ∧ (frame1 1 0).lastAt + lim ≤ 4000000 ∧ 3999999 < (frame1 1 0).lastAt + lim) := by decide +kernel

theorem witness_FramePublication : let s := receiving 1 { closed := [frame1 1 1], rings := [0, 4096, 0] }
    let d := (receiving 1 { closed := [{ frame1 2 0 with cfg := { cfg1 with outs := [] } }] })
    (s.cam 1).closed = frame1 1 1 :: [] ∧ s.getN (Obj.CAM_STATE + 1) ≠ 4 ∧ (frame1 1 1).complete = false ∧
    (frame1 1 1).cfg.outs = [⟨0, 1, false⟩, ⟨4096, 2, true⟩] ∧ (d.cam 1).closed = { frame1 2 0 with cfg := { cfg1 with outs := [] } } :: [] ∧
    (receiving 4 { closed := [frame1 1 1] }).getN (Obj.CAM_STATE + 1) = 4 ∧ ((receiving 4 { closed := [frame1 1 1] }).cam 1).closed = frame1 1 1 :: [] := by
  decide +kernel

theorem witness_FramePublication_slot : let s := (receiving 1 { closed := [frame1 1 1], rings := [0, 4096, 0] }).setN (Obj.OUT_LAST_SLOT + (3 * 1 + 1)) 1
    (frame1 1 1).cfg.outs[1]? = some ⟨4096, 2, true⟩ ∧ s.getN (Obj.OUT_LAST_SLOT + (3 * 1 + 1)) = 1 ∧ 1 ≠ 0xFF ∧ (s.cam 1).rings[1]? = some 4096 ∧ 0 < 2 ∧
    (1 + 1) % 2 = 0 ∧ (receiving 4 {}).mayWrite ctl (Obj.CAM_RESTART + 1) ∧ live.mayWrite ctl (Obj.CAM_RESTART + 1) ∧
    live.getN (Obj.CAM_STATE + 1) ≠ 4 := by unfold State.mayWrite; decide +kernel

/-- A device with a mark 7 and a request for it. -/
def finding (f : Option CamFrame) : State := { (live.setN (Obj.CAM_STATE + 1) 1).setN Obj.MF_STATE 1 with
  lay := { live.lay with marks := [⟨7, 1, 256, 0, 0⟩] }, cams := { live.cams with marks := [{ id := 7 }], mf := some ⟨0, 1, 8, 0, 0, 0, f⟩ } }

/-- Such a request. -/
def request (search : Nat) : Bytes := leBytes 2 7 ++ [1, 0] ++ leBytes 2 search ++ zeros 26

theorem witness_MarksAndSpots_request : (∀ n ∈ [8, 512], let s := (finding none).setN Obj.MF_STATE 0
      s.mayWrite ctl Obj.MF_REQUEST ∧ (request n).length = 32 ∧ (s.cams.marks.findIdx? fun m => m.id = leAt (request n) 0 2) = some 0 ∧
      leAt (request n) 2 1 ≤ 1 ∧ leAt (request n) 3 1 = 0 ∧ 8 ≤ leAt (request n) 4 2 ∧ leAt (request n) 4 2 ≤ 512 ∧ leAt (request n) 6 2 = 0 ∧
      leAt (request n) 24 8 = 0 ∧ s.getN Obj.MF_STATE ≠ 1 ∧ s.getN (Obj.CAM_STATE + leAt (request n) 2 1) ≠ 0 ∧
      s.getN (Obj.CAM_STATE + leAt (request n) 2 1) ≠ 4) ∧
    (finding none).mayWrite ctl Obj.MF_REQUEST ∧ (finding none).getN Obj.MF_STATE = 1 ∧
    (live.cams.marks.findIdx? fun m => m.id = leAt (request 8) 0 2) = none := by unfold State.mayWrite; decide +kernel

theorem witness_MarksAndSpots_result : (finding (some (frame1 2 0))).cams.mf = some ⟨0, 1, 8, 0, 0, 0, some (frame1 2 0)⟩ ∧
    (finding (some (frame1 2 0))).lay.marks[0]? = some ⟨7, 1, 256, 0, 0⟩ ∧ (finding none).cams.mf = some ⟨0, 1, 8, 0, 0, 0, none⟩ ∧
    live.cams.mf = none := by decide +kernel

/-- A device whose spot finder works on a phase. -/
def spots (phase : Nat) (f : Option CamFrame) : State := { (live.setN Obj.SPOT_STATE phase).setN Obj.IMAGE_STATE phase with
  cams := { live.cams with spot := { live.cams.spot with frame := f, strobeAt := some 0 } } }

theorem witness_MarksAndSpots_strobe : let s := ((spots 1 none).setN Obj.CAM_STATE 1).setN Obj.CAM_TRIGGER 2 |>.setN Obj.CAM_STROBE_ENABLE 1
    s.getN Obj.IMAGE_STATE ∈ [1, 2] ∧ s.camState (s.getN Obj.SPOT_PORT) ≠ 0 ∧ s.camState (s.getN Obj.SPOT_PORT) ≠ 4 ∧
    s.getN (Obj.CAM_TRIGGER + s.getN Obj.SPOT_PORT) = 2 ∧ s.on (Obj.CAM_STROBE_ENABLE + s.getN Obj.SPOT_PORT) = true ∧
    (spots 2 none).getN Obj.IMAGE_STATE ∈ [1, 2] ∧ (spots 2 none).camState ((spots 2 none).getN Obj.SPOT_PORT) = 0 := by decide +kernel

/-- With the geometry at one point every beam has the same sum. -/
theorem spotSums_point (s : State) (f : CamFrame) (a b : Int) (g : s.spotGeometry = [a, 0, 0, b, 0, 0]) :
    s.spotSums f = List.replicate 307200 (spotSum [a, 0, 0, b, 0, 0] (s.getN Obj.SPOT_BOX) f.vision 0 0) := by
  rw [List.eq_replicate_iff]
  unfold State.spotSums
  rw [g]
  refine ⟨by rw [List.length_flatMap]; simp only [List.length_map, List.length_range]; decide +kernel, fun x hx => ?_⟩
  simp only [List.mem_flatMap, List.mem_map] at hx
  obtain ⟨r, -, c, -, rfl⟩ := hx
  simp [spotSum, atD]

theorem witness_MarksAndSpots_few : ∀ phase ∈ [1, 2], let s := spots phase (some (frame1 2 0))
    s.cams.spot.frame = some (frame1 2 0) ∧ s.getN Obj.SPOT_STATE = phase ∧ 2 * ((s.spotSums (frame1 2 0)).filter (· ≠ 0xFFFFFFFF)).length < 307200 := by
  intro phase h
  have g : (spots phase (some (frame1 2 0))).spotGeometry = [0, 0, 0, 0, 0, 0] := by
    simp only [List.mem_cons, List.not_mem_nil, or_false] at h; rcases h with rfl | rfl <;> decide +kernel
  have e : spotSum [0, 0, 0, 0, 0, 0] ((spots phase (some (frame1 2 0))).getN Obj.SPOT_BOX) (frame1 2 0).vision 0 0 = 0xFFFFFFFF := by
    simp only [List.mem_cons, List.not_mem_nil, or_false] at h; rcases h with rfl | rfl <;> decide +kernel
  refine ⟨rfl, ?_, ?_⟩
  · simp only [List.mem_cons, List.not_mem_nil, or_false] at h; rcases h with rfl | rfl <;> decide +kernel
  · rw [spotSums_point _ _ _ _ g, e, List.filter_eq_nil_iff.2 (fun x hx => by rw [List.eq_of_mem_replicate hx]; decide)]
    decide

/-- A frame of five lines of five pixels, and the device whose spots all lie at its middle. -/
def frame5 : CamFrame := { frame1 0 0 with lines := List.replicate 5 [9, 9, 9, 9, 9], received := 5, cfg := { cfg1 with width := 5, height := 5 } }
def middle (phase : Nat) : State := { spots phase (some frame5) with
  dom := [(Obj.SPOT_GEOMETRY, leBytes 4 131072 ++ zeros 8 ++ leBytes 4 131072 ++ zeros 8)] }

theorem witness_MarksAndSpots_sums : ∀ phase ∈ [1, 2], (middle phase).cams.spot.frame = some frame5 ∧ (middle phase).getN Obj.SPOT_STATE = phase ∧
    307200 ≤ 2 * (((middle phase).spotSums frame5).filter (· ≠ 0xFFFFFFFF)).length := by
  intro phase h
  have g : (middle phase).spotGeometry = [131072, 0, 0, 131072, 0, 0] := by
    simp only [List.mem_cons, List.not_mem_nil, or_false] at h; rcases h with rfl | rfl <;> decide +kernel
  have e : spotSum [131072, 0, 0, 131072, 0, 0] ((middle phase).getN Obj.SPOT_BOX) frame5.vision 0 0 ≠ 0xFFFFFFFF := by
    simp only [List.mem_cons, List.not_mem_nil, or_false] at h; rcases h with rfl | rfl <;> decide +kernel
  refine ⟨rfl, ?_, ?_⟩
  · simp only [List.mem_cons, List.not_mem_nil, or_false] at h; rcases h with rfl | rfl <;> decide +kernel
  · rw [spotSums_point _ _ _ _ g, List.filter_eq_self.2 (fun x hx => by rw [List.eq_of_mem_replicate hx]; simpa using e), List.length_replicate]
    decide

theorem witness_MarksAndSpots_timeout : (spots 1 none).cams.spot.strobeAt = some 0 ∧ (spots 1 none).cams.spot.frame = none ∧
    kvGet (spots 1 none).pins.strobeEnd ((spots 1 none).getN Obj.SPOT_PORT) = none ∧ live.cams.spot.strobeAt = none ∧
    live.getN Obj.IMAGE_STATE ∉ [1, 2] := by decide +kernel

/-- A device on which a calibration item runs. -/
def cal (i : Nat) : State := ((testing.setN Obj.CAL_STATE 2).setN Obj.CAL_ITEM i).setN Obj.GATE_REF_DOSE 65536

theorem witness_CalibrationOfClockAndGate_start : live.mayWrite ctl Obj.CAL_START ∧ live.coreOn = true ∧ live.getN Obj.CAL_STATE = 0 ∧
    live.getN Obj.CAL_QUEUE = 0 ∧ (live.setN Obj.CAL_QUEUE 3).calNext = some 0 ∧ (live.setN Obj.CAL_QUEUE 2).calNext = some 1 ∧
    (live.setN Obj.CAL_QUEUE 3).calReady 0 = false ∧ ((live.setN Obj.CAL_QUEUE 3).setN Obj.REFCAL_PRESENT 1).calReady 0 = true ∧
    (live.setN Obj.CAL_QUEUE 2).calMayGap = true ∧ (live.setN Obj.CAL_QUEUE 2).calReady 1 = false ∧ (testing.setN Obj.CAL_QUEUE 2).calReady 1 = true ∧
    (testing.setN Obj.CAL_QUEUE 2).calNext = some 1 ∧ (testing.setN Obj.CAL_QUEUE 2).calMayGap = true ∧
    ((testing.setN Obj.CAL_QUEUE 2).setN Obj.SWEEP_STATE 2).calMayGap = false ∧ (cal 8).getN Obj.CAL_ITEM = 8 ∧ (cal 8).flow.release = false := by
  unfold State.mayWrite; decide +kernel

theorem witness_CalibrationOfClockAndGate_clock : (cal 0).calRuns 0 = true ∧ (let e : Nat := 40 * (10000000 * (cal 0).getN Obj.CAL_REF_SECONDS)
      (rneDiv (1000000000 * ((4000400000 : Int) - e)) e).natAbs ≤ 100000 ∧ 100000 < (rneDiv (1000000000 * ((4000400004 : Int) - e)) e).natAbs) ∧
    live.calRuns 0 = false := by decide +kernel

/-- Edges of the eight groups, half of them early and half late. -/
def edges (x : Int) : List (List Int) := List.replicate 4 (List.replicate 64 x) ++ List.replicate 4 (List.replicate 64 (-x))

/-- The offsets of item 1 for such edges. -/
def offsets (x : Int) : List Rat :=
  let means := (edges x).map meanI
  (means.map (· - means.foldl (· + ·) 0 / 8)).mapIdx fun k x => ((cal 1).get (Obj.FIRE_SKEW_TARGET + k) : Rat) - x

theorem witness_CalibrationOfClockAndGate_skew : (cal 1).calRuns 1 = true ∧ (edges 1250).length = 8 ∧ (∀ l ∈ edges 1250, l.length = 64) ∧
    (∀ x ∈ offsets 1250, absQ x ≤ 1250) ∧ (∀ l ∈ edges 1250, varianceI l ≤ 2500) ∧ (edges 1251).length = 8 ∧ (∀ l ∈ edges 1251, l.length = 64) ∧
    (∃ x ∈ offsets 1251, 1250 < absQ x) := by decide +kernel

/-- Item `i` with every shot sent. -/
def calDone (i : Nat) : State := { cal i with cal := { live.cal with sent := 2000000 } }

/-- Samples of the gate link with a sum of `x`. -/
def samples (x : Nat) : Shots :=
  let one (a : Nat) : List (BitVec 16) := List.replicate (testing.getN Obj.GATE_DELAY) 1 ++ BitVec.ofNat 16 a :: List.replicate (testing.getN Obj.GATE_SPAN - 1) (BitVec.ofNat 16 (x / 800))
  one (x / 800 + x % 800) :: List.replicate (testing.getN Obj.GATE_SHOTS - 1) (one (x / 800))

theorem witness_GateItems_sums : ∀ i ∈ [2, 3, 4, 5], ∀ x ∈ [0, 60, 61, 72, 10000, 10001, 100000, 800000, 800001],
    (calDone i).gateSum (samples x) = some (x : Int) ∧ (calDone i).cal.missed = false := by decide +kernel

theorem witness_CalibrationOfClockAndGate_offset : let s := calDone 2
    s.calRuns 2 = true ∧ s.calShotsDone = true ∧ s.gateSum (samples 800000) = some 800000 ∧ s.gateSum (samples 800001) = some 800001 ∧
    (let o (x : Int) := f64Div (x : Rat) (f64Mul (s.getN Obj.GATE_SHOTS) (s.getN Obj.GATE_SPAN))
     f32Bits (o 800000) = some 0x447A0000 ∧ absQ (o 800000) ≤ f32Val (s.getN Obj.GATE_OFFSET_LIMIT) ∧ (f32Bits (o 800001)).isSome = true ∧
     f32Val (s.getN Obj.GATE_OFFSET_LIMIT) < absQ (o 800001)) := by decide +kernel

theorem witness_CalibrationOfClockAndGate_gain : let s := calDone 3
    let old := f32Val (s.getN Obj.GATE_GAIN)
    s.calRuns 3 = true ∧ s.cal.missed = false ∧ s.calShotsDone = true ∧ s.gateSum (samples 10000) = some 10000 ∧ s.darkStuck 10000 = false ∧
    s.gateSum (samples 10001) = some 10001 ∧ s.darkStuck 10001 = true ∧ s.gateSum (samples 72) = some 72 ∧ (f32Bits (s.gainOf 72)).isSome = true ∧
    0 < s.gainOf 72 ∧ 100 * absQ (s.gainOf 72 - old) ≤ (s.getN Obj.GATE_GAIN_CHANGE : Rat) * absQ old ∧ s.gateSum (samples 0) = some 0 ∧
    f32Bits (s.gainOf 0) = some 0 ∧ s.gainOf 0 ≤ 0 ∧ f32Val ((s.setN Obj.GATE_GAIN 0).getN Obj.GATE_GAIN) = 0 := by decide +kernel

theorem witness_GateItems_missed : ∀ i ∈ [3, 4, 5], let s : State := { cal i with cal := { live.cal with missed := true } }
    s.calRuns i = true ∧ s.cal.missed = true := by decide +kernel

/-- Item 4 never has more shots than GATE_SHOTS for each beam and for the dark sum. -/
theorem calTotal_le (s : State) (i : s.getN Obj.CAL_ITEM = 4) : s.calTotal ≤ 307201 * s.getN Obj.GATE_SHOTS := by
  have h : s.calBeams.length ≤ 307200 := by
    have := List.length_filter_le s.measurable (List.range beamCount)
    rw [List.length_range] at this
    exact this
  simp only [State.calTotal, i]
  exact Nat.mul_le_mul_right _ (Nat.add_le_add_left h 1)

/-- Every shot is sent and none is left or to be repeated. -/
theorem calShotsDone_of (s : State) (h : s.calTotal ≤ s.cal.sent) (r : s.cal.redo = []) (p : s.hs.periods = []) : s.calShotsDone = true := by
  simp [State.calShotsDone, h, r, p]

theorem witness_GateItems_shots : (calDone 4).calShotsDone = true :=
  calShotsDone_of _ (Nat.le_trans (calTotal_le _ (by decide +kernel)) (by decide +kernel)) (by decide +kernel) (by decide +kernel)

theorem witness_CalibrationOfClockAndGate_efficiency : let s := calDone 4
    let res (sums : List (Nat × Int)) := (sums.filter fun p => s.measurable p.1).map fun p => (p.1, s.beamThen p.1, s.ecodeOf p.2)
    let bad (sums : List (Nat × Int)) := ((res sums).filter fun r => outOfRange r.2.2).length
    s.calRuns 4 = true ∧ s.cal.missed = false ∧ s.gateSum (samples 0) = some 0 ∧ s.darkStuck 0 = false ∧
    s.gateSums [samples 60, samples 61] = some [60, 61] ∧ s.gateSums [samples 60, samples 0] = some [60, 0] ∧
    1000 * bad [(0, 60), (307199, 61)] ≤ s.getN Obj.BEAM_OFF_LIMIT * (res [(0, 60), (307199, 61)]).length ∧
    s.getN Obj.BEAM_OFF_LIMIT * (res [(0, 60), (307199, 0)]).length < 1000 * bad [(0, 60), (307199, 0)] := by decide +kernel

/-- A device that scans the deflector in 16 steps along axis 1; the sums of a scan. -/
def scanning : State := ((calDone 5).setN Obj.DEFL_SCAN_STEPS 16).setN Obj.DEFL_SCAN_AXIS 1
def scan (n : Nat) : List Nat := List.replicate n 0 ++ List.replicate (16 - n) 100000

theorem witness_CalibrationOfDeflectorAndCameras_scan : scanning.calRuns 5 = true ∧ scanning.cal.missed = false ∧ scanning.calShotsDone = true ∧
    scanning.gateSum (samples 0) = some 0 ∧ scanning.darkStuck 0 = false ∧
    (∀ n ∈ [8, 16], ((scan n).map samples).length = scanning.getN Obj.DEFL_SCAN_STEPS ∧ scanning.gateSums ((scan n).map samples) = some ((scan n).map Int.ofNat)) ∧
    (edgeWord (((scan 8).map Int.ofNat).map fun (x : Int) => f64Sub (x : Rat) scanning.offsetSum)).isSome = true ∧
    scanning.getN Obj.DEFL_SCAN_AXIS = 1 ∧ scanning.cal.points.length < 16 ∧ scanning.get Obj.DEFL_EDGE_Y - rneDiv (0 + 64) 2 ≥ -2147483648 ∧
    scanning.get Obj.DEFL_EDGE_Y - rneDiv (0 + 64) 2 ≤ 2147483647 ∧ (64 : Int) - 0 ≤ scanning.getN Obj.DEFL_STILL_LIMIT ∧
    (scanning.getN Obj.DEFL_STILL_LIMIT : Int) < 65 - 0 ∧
    edgeWord (((scan 16).map Int.ofNat).map fun (x : Int) => f64Sub (x : Rat) scanning.offsetSum) = none := by decide +kernel

/-- A device that solves for the deflector with two points of axis 1. -/
def solving (w : Int) : State := { cal 6 with cal := { live.cal with points := [⟨1, 0, 0⟩, ⟨1, 4096, w⟩] } }

theorem witness_CalibrationOfDeflectorAndCameras_solve : (∀ w ∈ [131072, 0], (solving w).calRuns 6 = true ∧ (∀ x ∈ (solving w).cal.points, x.axis = 1) ∧
      2 ≤ (solving w).cal.points.length) ∧
    (fitAxis (solving 131072).cal.points ((solving 131072).get (Obj.DEFL_GAIN_X + 1)) ((solving 131072).getN Obj.DEFL_FIT_LIMIT)).ok = true ∧
    (fitAxis (solving 0).cal.points ((solving 0).get (Obj.DEFL_GAIN_X + 1)) ((solving 0).getN Obj.DEFL_FIT_LIMIT)).ok = false ∧
    (cal 6).calRuns 6 = true ∧ (cal 6).cal.points.length < 2 ∧ live.mayWrite ctl Obj.DEFL_POINTS_CLEAR := by unfold State.mayWrite; decide +kernel

/-- A device that calibrates a camera of 33 by 33 pixels with one frame, of one value. -/
def camCal (i : Nat) : State := (((cal i).setN Obj.CAM_CAL_FRAMES 1).setN Obj.CAM_WIDTH 33).setN Obj.CAM_HEIGHT 33
def flat (n v : Nat) : List (List Nat) := List.replicate n (List.replicate n v)

theorem witness_CalibrationOfDeflectorAndCameras_dark : (camCal 7).calFrames 7 [flat 2 16384] = true ∧
    (∀ b ∈ (List.range 4).map fun k => rneQ ((phaseMean [flat 2 16384] k fun _ _ => true).getD 0), b ≤ (camCal 7).getN Obj.CAM_BLACK_LIMIT) ∧
    (∃ b ∈ (List.range 4).map fun k => rneQ ((phaseMean [flat 2 16385] k fun _ _ => true).getD 0), ((camCal 7).getN Obj.CAM_BLACK_LIMIT : Int) < b) ∧
    (camCal 8).calRuns 8 = true ∧ live.calRuns 7 = false ∧ live.calRuns 8 = false := by decide +kernel

theorem witness_CalibrationOfDeflectorAndCameras_dim : (camCal 8).calFrames 8 [flat 33 1023] = true ∧ (camCal 8).getN Obj.CAM_CAL_PORT = 0 ∧
    none ∈ (List.range 4).map ((camCal 8).flatGains 0 [flat 33 1023]) := by decide +kernel

/-- Values of one pixel value and one of them at least have that mean. -/
theorem mean_const (v : Nat) (k : Nat) (inside : Nat → Nat → Bool) (x y : Nat) (hx : x < 33) (hy : y < 33) (hp : phaseOf x y = k) (hi : inside x y = true) :
    phaseMean [flat 33 v] k inside = some (v : Rat) := by
  have all : ∀ a ∈ ((flat 33 v).mapIdx fun y row => (row.mapIdx fun x v => (x, v)).filterMap fun p =>
      if phaseOf p.1 y = k && inside p.1 y then some p.2 else none).flatten, a = v := by
    intro a ha
    simp only [List.mem_flatten, List.mem_mapIdx, flat, List.getElem_replicate] at ha
    obtain ⟨l, ⟨i, -, rfl⟩, h⟩ := ha
    simp only [List.mem_filterMap, List.mem_mapIdx, List.getElem_replicate] at h
    obtain ⟨p, ⟨j, -, rfl⟩, h⟩ := h
    split at h <;> simp_all
  have mem : v ∈ ((flat 33 v).mapIdx fun y row => (row.mapIdx fun x v => (x, v)).filterMap fun p =>
      if phaseOf p.1 y = k && inside p.1 y then some p.2 else none).flatten := by
    simp only [List.mem_flatten, List.mem_mapIdx, flat, List.getElem_replicate, List.length_replicate]
    refine ⟨_, ⟨y, hy, rfl⟩, ?_⟩
    simp only [List.mem_filterMap, List.mem_mapIdx, List.getElem_replicate, List.length_replicate]
    exact ⟨(x, v), ⟨x, hx, rfl⟩, by simp [hp, hi]⟩
  have fold : ∀ n a : Nat, (List.replicate n v).foldl (· + ·) a = a + n * v := by
    intro n
    induction n with
    | zero => simp
    | succ n ih => intro a; rw [List.replicate_succ, List.foldl_cons, ih]; rw [Nat.succ_mul]; omega
  simp only [phaseMean, List.map_cons, List.map_nil]
  have h : ∃ n, n ≠ 0 ∧ phaseSum (flat 33 v) k inside = (n * v, n) := by
    generalize hl : ((flat 33 v).mapIdx fun y row => (row.mapIdx fun x v => (x, v)).filterMap fun p =>
      if phaseOf p.1 y = k && inside p.1 y then some p.2 else none).flatten = l at all mem
    refine ⟨l.length, fun h => ?_, ?_⟩
    · rw [List.length_eq_zero_iff.1 h] at mem; simp at mem
    · simp only [phaseSum, hl]
      rw [List.eq_replicate_iff.2 ⟨rfl, all⟩, fold]; simp
  obtain ⟨n, h0, h⟩ := h
  have hn : (n : Rat) ≠ 0 := by exact_mod_cast h0
  simp only [h, sumMap, List.foldl_cons, List.foldl_nil, Nat.zero_add, h0, if_false]
  congr 1
  rw [Rat.div_def, Rat.natCast_mul, Rat.mul_comm (n : Rat), Rat.mul_assoc, Rat.mul_inv_cancel _ hn, Rat.mul_one]

theorem witness_CalibrationOfDeflectorAndCameras_flat : (camCal 8).calFrames 8 [flat 33 1024] = true ∧ (camCal 8).getN Obj.CAM_CAL_PORT = 0 ∧
    (List.range 4).map ((camCal 8).flatGains 0 [flat 33 1024]) = List.replicate 4 (some (List.replicate 289 4096)) := by
  refine ⟨by decide +kernel, by decide +kernel, ?_⟩
  have near : ∀ k < 4, ∀ i < 17, ∃ x < 33, nearGrid 33 i x = true ∧ x % 2 = k % 2 := by decide +kernel
  have hw : (camCal 8).getN Obj.CAM_WIDTH = 33 := by decide +kernel
  have hh : (camCal 8).getN Obj.CAM_HEIGHT = 33 := by decide +kernel
  have hb : ∀ k < 4, (camCal 8).getN (Obj.BLACK_LEVEL + 4 * 0 + k) = 0 := by decide +kernel
  have mean : ∀ k < 4, ∀ i < 17, ∀ j < 17, (camCal 8).flatMean 0 k [flat 33 1024] i j = some 1024 := by
    intro k hk i hi j hj
    obtain ⟨x, hx, nx, px⟩ := near k hk i hi
    obtain ⟨y, hy, ny, py⟩ := near (k / 2) (by omega) j hj
    simp only [State.flatMean, show Obj.CAM_WIDTH + 0 = Obj.CAM_WIDTH from rfl, show Obj.CAM_HEIGHT + 0 = Obj.CAM_HEIGHT from rfl, hw, hh, hb k hk]
    rw [mean_const 1024 k _ x y hx hy (by unfold phaseOf; omega) (by simp [nx, ny])]
    decide +kernel
  rw [List.eq_replicate_iff]
  refine ⟨by simp, fun g hg => ?_⟩
  simp only [List.mem_map, List.mem_range] at hg
  obtain ⟨k, hk, rfl⟩ := hg
  have gs : ((List.range 17).flatMap fun j => (List.range 17).map fun i => gridGain 1024 ((camCal 8).flatMean 0 k [flat 33 1024] i j)) = List.replicate 289 4096 := by
    rw [List.eq_replicate_iff]
    refine ⟨by rw [List.length_flatMap]; simp only [List.length_map, List.length_range]; decide +kernel, fun z hz => ?_⟩
    simp only [List.mem_flatMap, List.mem_map, List.mem_range] at hz
    obtain ⟨j, hj, i, hi, rfl⟩ := hz
    rw [mean k hk i hi j hj]
    decide +kernel
  simp only [State.flatGains, mean k hk 8 (by decide) 8 (by decide), gs]
  decide +kernel

/-! ### Pair -/

/-- An eligible standby whose peer's ACT has fallen; records up to a period. -/
def fell (last : Nat) : State := { standby with pins := { standby.pins with peerAct := false }, pair := { standby.pair with peerFellAt := some 1000, lastRecord := last }
                                                hs := { standby.hs with k := 8, nextD := 5000 } }

theorem witness_PairActivity_act : standby.pins.peerAct = true ∧ standby.getN Obj.PAIR_STATE = 4 ∧ (standby.setN Obj.PAIR_STATE 0).getN Obj.PAIR_STATE ≠ 4 ∧
    (fell 8).pair.peerFellAt = some 1000 ∧ (fell 8).pins.peerAct = false ∧ (fell 8).getN Obj.PAIR_STATE = 4 ∧ (fell 8).isStandby = true ∧ (fell 8).holdsRecords = true ∧
    (fell 0).holdsRecords = false ∧ (fell 0).getN Obj.PAIR_STATE = 4 ∧ live.pair.peerFellAt = none ∧ live.pins.peerAct = false ∧ live.pins.ownAct = true ∧
    (live.setN Obj.PAIR_ROLE 1).getN Obj.PAIR_ROLE = 1 ∧ (fell 8).pins.ownAct = false ∧
    ({ live with pair := { live.pair with claimWait := true } } : State).pair.claimWait = true ∧ live.pins.porstN = true ∧ standby.pins.porstN = true := by
  decide +kernel

/-- A device that releases by a trigger. -/
def releasing (code : Nat) : State := { live with pair := { live.pair with release := some (code, 7), releasing := true } }

theorem witness_PairActivity_release : live.mayWrite ctl Obj.HANDOVER_REQUEST ∧ live.getN Obj.PAIR_STATE = 1 ∧ (live.setN Obj.PEER_STATE 4).getN Obj.PEER_STATE = 4 ∧
    (live.setN Obj.PEER_STATE 4).mayWrite ctl Obj.HANDOVER_REQUEST ∧ live.getN Obj.PEER_STATE ≠ 4 ∧
    (∀ c ∈ [8, 3], (releasing c).pair.release = some (c, 7) ∧ (releasing c).pair.releasing = true ∧ (releasing c).stg.await = [] ∧
      (releasing c).gateRuns = false ∧ (releasing c).imageRuns = false ∧ (releasing c).getN Obj.CAL_STATE ≠ 2 ∧ (releasing c).isStandby = false ∧ (releasing c).fp.waiting = []) ∧
    live.pair.release = none ∧ standby.isStandby = true ∧ live.isStandby = false := by unfold State.mayWrite; decide +kernel

/-- A flash record of a period. -/
def record (k : Nat) : FlashRecord := ⟨k, 0, 15, 0, 0, -1, 0, List.replicate 24 0, [], [], []⟩

/-- A standby that has applied the record of period 5. -/
def following (k : Nat) : State := { standby with pair := { standby.pair with anyRecord := true, lastRecord := 5 }, hs := { standby.hs with k := k } }

theorem witness_FlashRecords : standby.follows = true ∧ standby.pair.anyRecord = false ∧ (following 8).follows = true ∧ (record 6).frame = 5 + 1 ∧
    (following 8).pair.anyRecord = true ∧ (following 8).pair.lastRecord + 1 < (record 7).frame ∧ (record 5).frame ≤ (following 8).pair.lastRecord ∧
    live.follows = false ∧ (following 8).pair.lastRecord + 3 ≤ (following 8).hs.k ∧ (following 7).hs.k < (following 7).pair.lastRecord + 3 ∧
    (∀ v ∈ [2, 3, 4], (standby.setN Obj.PAIR_STATE v).getN Obj.PAIR_STATE ∈ [2, 3, 4]) := by decide +kernel

/-- An active that awaits a confirmation. -/
def confirming : State := { live with pair := { live.pair with await := [9] } }

/-- A message on lane 4 in sequence, with the next SEQ; one with a bad CRC, one beyond the next, one received before. -/
theorem witness_MirrorMessages_taken : live.takes rx4 ∧ standby.takes rx4 ∧ confirming.takes rx4 ∧ (standby.setN Obj.PAIR_STATE 2).takes rx4 ∧
    (⟨4, 0, false⟩ : Receipt).crcOk = false ∧ atD live.pair.rxSeq 4 0 = 0 ∧ (⟨4, 2 ^ 31, true⟩ : Receipt).seq = (atD live.pair.rxSeq 4 0 + 2 ^ 31) % 2 ^ 32 ∧
    ((⟨4, 2 ^ 32 - 1, true⟩ : Receipt).seq + 1) % 2 ^ 32 = atD live.pair.rxSeq 4 0 := by unfold State.takes; decide +kernel

theorem witness_MirrorTraffic_confirm : standby.follows = true ∧ (∀ x ∈ [((0 : Nat), (2 : BitVec 32))], beamState x.2.toNat ≠ 3) ∧ live.follows = false ∧
    confirming.getN Obj.PAIR_STATE = 1 ∧ confirming.pair.releasing = false ∧ 9 ∈ confirming.pair.await ∧ confirming.stg.await = [] ∧
    confirming.head.attachAwait ≠ some 9 ∧ 8 ∉ confirming.pair.await ∧ standby.isStandby = true ∧ confirming.isStandby = false ∧
    confirming.pair.await ≠ [] := by decide +kernel

theorem witness_MirrorLink_checkpoint : let hb := [2, BitVec.ofNat 8 (live.getN Obj.BEHAVIOUR_LEVEL)] ++ zeros 62
    leAt hb 1 1 = live.getN Obj.BEHAVIOUR_LEVEL ∧ leAt hb 0 1 = 2 ∧ live.getN Obj.PEER_STATE ≠ 2 ∧ live.getN Obj.PAIR_STATE = 1 ∧ live.pair.releasing = false ∧
    live.pair.await = [] ∧ live.fp.waiting = [] := by decide +kernel

theorem witness_MirrorTraffic_link : live.coreOn = true ∧
    (∀ v ∈ [4, 1], let hb := [BitVec.ofNat 8 v, BitVec.ofNat 8 (live.getN Obj.BEHAVIOUR_LEVEL)] ++ zeros 62
      leAt hb 1 1 = live.getN Obj.BEHAVIOUR_LEVEL ∧ leAt hb 0 1 ≠ 2) ∧
    ({ live with pair := { live.pair with peerAt := some 0 } } : State).pair.peerAt ≠ none ∧ live.pair.peerAt = none ∧ live.power = 2 ∧
    (live.setN Obj.POWER_STATE 1).power = 1 ∧ (live.setN Obj.POWER_STATE 3).power = 3 ∧ (live.setN Obj.PAIR_STATE 5).getN Obj.PAIR_STATE = 5 ∧
    atD ({ live with pair := { live.pair with replay := [⟨3, 0x30, [], 0⟩] :: live.pair.replay.drop 1 } } : State).pair.replay 0 [] = ⟨3, 0x30, [], 0⟩ :: [] ∧
    atD standby.pair.replay 7 [] = [] ∧ standby.coreOn = true ∧ standby.isStandby = true ∧ standby.getN Obj.PAIR_STATE ≠ 0 := by decide +kernel

/-- An unsynced device whose link is up. -/
def unsynced : State := { (standby.setN Obj.PAIR_STATE 0).setN Obj.MIRROR_LINK_STATE 1 with
  pair := { standby.pair with peerHealth := [1, BitVec.ofNat 8 (standby.getN Obj.BEHAVIOUR_LEVEL)] ++ zeros 62 } }

theorem witness_Synchronisation : unsynced.mayWrite ctl Obj.SYNC_START ∧ unsynced.maySync = true ∧ (unsynced.setN Obj.AUTO_SYNC 1).on Obj.AUTO_SYNC = true ∧
    (unsynced.setN Obj.AUTO_SYNC 1).maySync = true ∧ (live.setN Obj.AUTO_SYNC 0).on Obj.AUTO_SYNC = false ∧ live.mayWrite ctl Obj.SYNC_START ∧
    live.maySync = false ∧ (standby.setN Obj.PAIR_STATE 2).follows = true ∧ (standby.setN Obj.PAIR_STATE 2).getN Obj.PAIR_STATE = 2 ∧
    ((standby.setN Obj.PAIR_STATE 2).storeItem (.counts [] 0)).2 ≤ 9 ∧ (standby.setN Obj.PAIR_STATE 2).getN Obj.SYNC_PERMILLE ≤ 999 ∧ live.follows = false ∧
    live.getN Obj.PAIR_STATE ≠ 2 := by unfold State.mayWrite; decide +kernel

/-! ### Power, clocks, boot -/

/-- The straps of a single device: CTLMODE 3, BOOTSEL as given. -/
def straps (bootsel : Nat) : Straps := ⟨0, false, bootsel, 3, false, 0⟩

theorem witness_ResetAndStart : State.reset.pins.porstN = false ∧ (straps 0).roleB = false ∧ live.pins.porstN = true := by decide +kernel

/-- The device with supplies. -/
def supplied (b : BitVec 5) : State := { live with pins := { live.pins with pswM := 0x1F }, pwr := { live.pwr with mainGood := 0x1F, backupGood := b } }

theorem witness_SuppliesAndClocks_switch : let s := supplied 0x10
    s.pins.porstN = true ∧ s.getN (Obj.RAIL_SOURCE + 4) = 0 ∧ kvGet s.pwr.engage 4 = none ∧ s.pwr.backupGood.getLsbD 4 = true ∧
    s.getN (Obj.RAIL_SOURCE + 0) = 0 ∧ kvGet s.pwr.engage 0 = none ∧ s.pwr.backupGood.getLsbD 0 = false ∧
    kvGet ({ s with pwr := { s.pwr with engage := [(4, 1)] } } : State).pwr.engage 4 = some 1 ∧
    (let t := (s.setN (Obj.RAIL_SOURCE + 4) 1).setN Obj.SUPPLY_RETURN 1
     t.getN (Obj.RAIL_SOURCE + 4) = 1 ∧ t.getN Obj.SUPPLY_RETURN = 1 ∧ kvGet t.pwr.engage 4 = none ∧ t.mayWrite ctl Obj.SUPPLY_RETURN_NOW ∧
     (List.range 5).filter (fun r => t.getN (Obj.RAIL_SOURCE + r) = 1) = [4] ∧ (0x10#5).getLsbD 4 = true ∧ (0x0F#5).getLsbD 4 = false) ∧
    (s.setN Obj.SUPPLY_RETURN 0).getN Obj.SUPPLY_RETURN ≠ 1 ∧ s.getN (Obj.RAIL_SOURCE + 6) = 0 ∧
    (s.setN (Obj.RAIL_SOURCE + 6) 1).getN (Obj.RAIL_SOURCE + 6) = 1 ∧ s.power ≠ 5 := by unfold State.mayWrite; decide +kernel

theorem witness_SuppliesAndClocks_plls :
    (let s : State := { starting 0 [] with pwr := { live.pwr with locking := [.control] } }
     s.power = 4 ∧ s.getN Obj.STARTUP_PHASE = 0 ∧ s.pwr.locking = [.control]) ∧
    (let s : State := { live with pwr := { live.pwr with locking := [.core] } }
     s.power = 2 ∧ s.pwr.locking = [.core]) ∧
    Pll.control ∉ live.pwr.locking ∧ live.coreOn = true ∧ State.reset.coreOn = false := by decide +kernel

theorem witness_SuppliesAndClocks_tj : let w := live.get Obj.TJ_WARN
    let s : State := { live with pwr := { live.pwr with tjWarned := true } }
    live.power ≠ 5 ∧ live.pins.porstN = true ∧ ([w - 1].foldl max (-640)) < w ∧ w ≤ [w].foldl max 0 ∧ [w].foldl max 0 < 2400 ∧ live.pwr.tjWarned = false ∧
    w ≤ [(2400 : Int)].foldl max 0 ∧ 2400 ≤ [(2400 : Int)].foldl max 0 ∧ [(2559 : Int)].foldl max 2400 < 2560 ∧ s.pwr.tjWarned = true ∧
    s.pwr.tjHot = false ∧ 2560 ≤ [(0 : Int)].foldl max 2560 := by decide +kernel

/-- A device in a power state, with a transition under way. -/
def powered (v : Nat) (t : Option Nat) : State := { live.setN Obj.POWER_STATE v with pwr := { live.pwr with target := t } }

theorem witness_PowerStates_request : (∀ v ∈ [4], (powered v none).mayWrite ctl Obj.POWER_REQUEST ∧ (powered v none).power = v) ∧
    (live.setN Obj.JOB_STATE 4).mayWrite ctl Obj.POWER_REQUEST ∧ (live.setN Obj.JOB_STATE 4).jobActive = true ∧
    (live.setN Obj.PEER_STATE 4).mayWrite ctl Obj.POWER_REQUEST ∧ (live.setN Obj.PEER_STATE 4).getN Obj.PAIR_STATE = 1 ∧
    (live.setN Obj.PEER_STATE 4).getN Obj.PEER_STATE = 4 ∧
    (∀ v ∈ [1, 2], (powered v none).mayWrite ctl Obj.POWER_REQUEST ∧ (powered v none).power = v ∧ (powered v none).jobActive = false ∧
      (powered v none).pwr.target = none) ∧ standby.mayWrite ctl Obj.POWER_REQUEST ∧ standby.power = 2 ∧ standby.jobActive = false ∧
    standby.pwr.target = none ∧ standby.getN Obj.PAIR_STATE ≠ 1 := by unfold State.mayWrite; decide +kernel

theorem witness_PowerStates_done : (powered 2 (some 1)).pwr.target = some 1 ∧ (powered 2 (some 1)).power ≠ 0 ∧ (powered 1 (some 0)).pwr.target = some 0 ∧
    (powered 1 (some 0)).pins.wakeSeen = 0 ∧ (powered 1 (some 2)).pwr.target = some 2 ∧ (powered 1 (some 2)).power = 1 ∧
    (∀ p ∈ (powered 1 (some 2)).pwr.locking, p ∉ corePlls) ∧ live.pwr.target = none := by decide +kernel

theorem witness_PowerStates_wake : (powered 0 none).power = 0 ∧ (powered 0 none).pwr.target = none ∧
    (BitVec.ofNat 2 3 &&& BitVec.ofNat 2 (((powered 0 none).setN Obj.WAKE_SOURCES 2).getN Obj.WAKE_SOURCES)).toNat = 2 ∧
    (BitVec.ofNat 2 1 &&& BitVec.ofNat 2 (((powered 0 none).setN Obj.WAKE_SOURCES 2).getN Obj.WAKE_SOURCES)).toNat = 0 ∧
    (powered 0 (some 2)).power = 0 ∧ (powered 0 (some 2)).pwr.target = some 2 ∧ (powered 0 (some 2)).pwr.restored = false := by decide +kernel

/-- An image of 4,096 bytes of 0 for key slot 0, with the given security version and signature. The key is the base point of the curve, so
its private key is 1; the signature was made outside the model for security version 0, with the nonce 1. -/
def image (security : Nat) (sig : Bytes) : Bytes :=
  [0x48, 0x54, 0x46, 0x57, 1, 0, 0, 0] ++ leBytes 4 1 ++ leBytes 4 security ++ leBytes 4 4096 ++ zeros 12 ++ beBytes 32 p256G.1 ++ beBytes 32 p256G.2 ++
  zeros 32 ++ sig ++ zeros 64 ++ zeros 4096
def signature : Bytes := beBytes 32 0x6b17d1f2e12c4247f8bce6e563a440f277037d812deb33a0f4a13945d898c296 ++
  beBytes 32 0xcac3bc28ba61739c39b492671f7e1c36a4076330cca0c9dd99b5b9e960543e48

/-- Its key, and the hash that the signature covers (computed outside the model). -/
def imageKey : Bytes := beBytes 32 p256G.1 ++ beBytes 32 p256G.2
def imageHash : Bytes := beBytes 32 0x5fabea35d935315440f7ab81bbd9db442d03e5af9eb5963ca51480a387bb7bb2

/-- A start in a phase, with two slots and the factory key of such images. -/
def booting (phase : Nat) (slots : List Nat) (img : Bytes) (revoked : BitVec 4) (minimum : Nat) : State := { starting phase [] with
  otp := ⟨minimum, revoked, [sha256 imageKey, [], [], []]⟩
  boot := { flashA := img, flashB := [], netRecord := [], buffer := img, slots := slots }, straps := straps 0 }

theorem image_hash : sha256 (slice (image 0 signature) 0 128 ++ slice (image 0 signature) 256 (imgLength (image 0 signature))) = imageHash := by
  decide +kernel

theorem image_signed : ecdsaVerify imageKey imageHash signature = true := by decide +kernel

theorem image_format : imgFormatOk (image 0 signature) = true := by decide +kernel

/-- Table 18-8: the signed image is good. -/
theorem image_good (s : State) (h : s.otp = ⟨0, 0, [sha256 imageKey, [], [], []]⟩) : s.imageStatus (image 0 signature) = 1 := by
  have k : slice (image 0 signature) 32 64 = imageKey := by decide +kernel
  have g : slice (image 0 signature) 128 64 = signature := by decide +kernel
  have i : imgKeySlot (image 0 signature) = 0 := by decide +kernel
  unfold State.imageStatus
  rw [h, image_hash, k, g, i, image_signed, image_format]
  simp [atD]

theorem witness_StartUp_load : (∀ v ∈ [3, 4, 5], (booting v [0, 1] [] 0 0).power = 4 ∧ (booting v [0, 1] [] 0 0).getN Obj.STARTUP_PHASE = v ∧
      (booting v [0, 1] [] 0 0).boot.slots = 0 :: [1] ∧ (booting v [1] [] 0 0).boot.slots = 1 :: []) ∧
    (booting 4 [0, 1] [] 0 0).imageStatus ((booting 4 [0, 1] [] 0 0).slotImage 0) ≠ 1 ∧ (booting 5 [] [] 0 0).straps.ctlmode % 4 = 3 ∧
    ((booting 5 [] [] 0 0).setN Obj.WAKE_TARGET 1).getN Obj.WAKE_TARGET = 1 := by decide +kernel

theorem witness_StartUp_good : (booting 4 [0] (image 0 signature) 0 0).power = 4 ∧ (booting 4 [0] (image 0 signature) 0 0).getN Obj.STARTUP_PHASE = 4 ∧
    (booting 4 [0] (image 0 signature) 0 0).boot.slots = 0 :: [] ∧
    (booting 4 [0] (image 0 signature) 0 0).imageStatus ((booting 4 [0] (image 0 signature) 0 0).slotImage 0) = 1 :=
  ⟨by decide +kernel, by decide +kernel, rfl, image_good _ rfl⟩

theorem witness_StartUp_checks : (∀ v ∈ [0, 1], imgFormatOk (image v signature) = true ∧ imgSecurity (image v signature) = v ∧ imgKeySlot (image v signature) = 0 ∧
      slice (image v signature) 32 64 = imageKey) ∧
    atD (booting 4 [0] [] 1 0).otp.keys 0 [] = sha256 imageKey ∧ (booting 4 [0] [] 1 0).otp.revoked.getLsbD 0 = true ∧
    (booting 4 [0] [] 0 2).otp.revoked.getLsbD 0 = false ∧ 1 < (booting 4 [0] [] 0 2).otp.securityMin := by decide +kernel

theorem witness_StartUp_pages : live.boot.released = true ∧ live.power ≠ 0 ∧ live.power ≠ 5 ∧ kvGet live.boot.fails 7 = none ∧
    kvGet ({ live with boot := { live.boot with fails := [(7, 1)] } } : State).boot.fails 7 = some 1 := by decide +kernel

/-- The device READY with the signed image in the buffer. -/
def holding : State := { live with otp := (booting 4 [] [] 0 0).otp, boot := { live.boot with buffer := image 0 signature } }

theorem witness_ImagesAndKeys_commands : live.mayWrite ctl Obj.IMAGE_COMMAND ∧ live.imageBusy = false ∧
    (let s := booting 8 [] [] 0 0
     s.mayWrite spi Obj.IMAGE_COMMAND ∧ s.imageBusy = false ∧ s.getN Obj.STARTUP_PHASE = 8) ∧ live.getN Obj.STARTUP_PHASE ≠ 8 ∧
    ({ live with boot := { live.boot with command := 3 } } : State).boot.command = 3 := by unfold State.mayWrite; decide +kernel

theorem witness_ImagesAndKeys_program : holding.mayWrite ctl Obj.IMAGE_COMMAND ∧ holding.imageBusy = false ∧ holding.imageStatus holding.boot.buffer = 1 ∧
    holding.boot.released = true ∧ holding.getN Obj.BOOT_SLOT ≠ 1 ∧ holding.getN Obj.BOOT_SLOT = 0 :=
  ⟨by unfold State.mayWrite; decide +kernel, by decide +kernel, image_good _ rfl, by decide +kernel, by decide +kernel, by decide +kernel⟩

theorem witness_ImagesAndKeys_keys : live.mayWrite ctl Obj.ROLLBACK_RAISE ∧ live.mayWrite ctl Obj.KEY_REVOKE ∧ live.mayWrite ctl Obj.NET_SAVE ∧
    (∀ k ∈ [0, 3], k ≠ 1 → (0#4 ||| BitVec.ofNat 4 (2 ^ k)) ≠ 0xF#4) ∧ (0x7#4 ||| BitVec.ofNat 4 (2 ^ 3)) = 0xF#4 ∧ holding.otp.revoked = 0 ∧
    holding.boot.released = true ∧ 0 = holding.boot.runKey ∧ 3 ≠ holding.boot.runKey := by unfold State.mayWrite; decide +kernel

theorem witness_ImagesAndKeys_watchdog : live.boot.released = true ∧ live.power ≠ 0 ∧ live.power ≠ 5 ∧ live.isStandby = false ∧
    State.reset.boot.released = false := by decide +kernel

/-- FIPS 180-4: SHA-256 of "abc" begins 0xBA7816BF. -/
theorem test_sha256 : (sha256 [0x61, 0x62, 0x63]).take 4 = [0xBA, 0x78, 0x16, 0xBF] := by decide +kernel

/-- RFC 6979, appendix A.2.5: the signature of "sample" with P-256 and SHA-256 verifies; one with another s does not. -/
theorem test_ecdsa :
    let pub := beBytes 32 0x60FED4BA255A9D31C961EB74C6356D68C049B8923B61FA6CE669622E60F29FB6 ++
      beBytes 32 0x7903FE1008B8BC99A41AE9E95628BC64F2F1B20C2D7E9F5177A3C294D4462299
    let r := beBytes 32 0xEFD48B2AACB6A8FD1140DD9CD45E81D69D2C877B56AAF991C34D0EA84EAF3716
    let m : Bytes := [0x73, 0x61, 0x6D, 0x70, 0x6C, 0x65]
    ecdsaVerify pub (sha256 m) (r ++ beBytes 32 0xF7CB1C942D657C41D436C7A1B6E29F65F3E900DBB9AFF4064DC4AB2F843ACDA8) = true ∧
    ecdsaVerify pub (sha256 m) (r ++ beBytes 32 0xF7CB1C942D657C41D436C7A1B6E29F65F3E900DBB9AFF4064DC4AB2F843ACDA9) = false := by
  decide +kernel

end Sys2Proof.Tests
end

section
/-! SUPPORT. Rasterizer proofs: the dispatch of tiles to cells (R94), the count of area-check failures (R103 to R105) and the reference
tiles of idle cells (R108), each said once as an equation per case; with them the statement TilesAndShadowTests is settled. -/
namespace Sys2Proof.Machine

/-! ### Dispatch of tiles -/

/-- A cell that TILE_DISPATCH serves (R94): in service, without a part, on an awake raster side. -/
structure State.DispatchReady (s : State) (j : Nat) : Prop where
  inRange : j < 48
  rasterOn : s.rasterOn (j / 12) = true
  awake : atD s.units.raster (j / 12) 0 = 2
  inService : s.cellRetired j = false
  free : s.cellBusy j = false

theorem execTileDispatch_of_ready {s : State} {j : Nat} (h : s.DispatchReady j) :
    execTileDispatch j s = match s.assignPart j with
      | some u => .next u.advanceRaster
      | none => match s.takeNext (j / 12) with
        | none => .next s
        | some u => .next ((u.assignPart j).getD u).advanceRaster := by
  obtain ⟨inRange, rasterOn, awake, inService, free⟩ := h
  have guard : ¬(48 ≤ j ∨ !s.rasterOn (j / 12) ∨ atD s.units.raster (j / 12) 0 ≠ 2 ∨ s.cellRetired j ∨ s.cellBusy j) := by
    simp [rasterOn, awake, inService, free, inRange]
  exact if_neg guard

theorem execTileDispatch_of_part {s u : State} {j : Nat} (h : s.DispatchReady j) (hu : s.assignPart j = some u) :
    execTileDispatch j s = .next u.advanceRaster := by
  rw [execTileDispatch_of_ready h, hu]

theorem execTileDispatch_of_tile {s u v : State} {j : Nat} (h : s.DispatchReady j) (noPart : s.assignPart j = none)
    (hu : s.takeNext (j / 12) = some u) (hv : u.assignPart j = some v) : execTileDispatch j s = .next v.advanceRaster := by
  rw [execTileDispatch_of_ready h, noPart, hu]
  simp only [hv, Option.getD_some]

theorem execTileDispatch_of_retired {s : State} {j : Nat} (h : s.cellRetired j = true) : execTileDispatch j s = .next s :=
  if_pos (by simp [h])

/-! ### Completed computations -/

/-- The state once cell `j` has delivered a computation of `t`: the run counts, and the tile keeps its worst rails (R136). -/
def State.delivered (s : State) (t : TileJob) (j : Nat) (f : CellFault) : State :=
  { s with ras := { s.ras with runs := modifyAt s.ras.runs j (· + 1)
                               tiles := s.ras.tiles.map fun (x : TileJob) =>
                                 if x.key = t.key then { x with valueRails := max x.valueRails f.valueRails } else x } }

/-- Each of the two checks of the area unit that fails counts once (R105, assumption 50). -/
def State.countChecks (s : State) (region : Nat) (a : RunOut) : State :=
  let s := if a.windOk then s else s.inc (Obj.AREA_CHECK_FAILS + region)
  if a.sumOk then s else s.inc (Obj.AREA_CHECK_FAILS + region)

theorem State.countChecks_of_pass (s : State) (region : Nat) {a : RunOut} (wind : a.windOk = true) (sum : a.sumOk = true) :
    s.countChecks region a = s := by
  simp [State.countChecks, wind, sum]

theorem State.countChecks_of_one (s : State) (region : Nat) {a : RunOut} (h : a.windOk ≠ a.sumOk) :
    s.countChecks region a = s.inc (Obj.AREA_CHECK_FAILS + region) := by
  cases wind : a.windOk with
  | true =>
    have sum : a.sumOk = false := by simpa [wind] using h.symm
    simp [State.countChecks, wind, sum]
  | false =>
    have sum : a.sumOk = true := by simpa [wind] using h.symm
    simp [State.countChecks, wind, sum]

theorem State.countChecks_of_both (s : State) (region : Nat) {a : RunOut} (wind : a.windOk = false) (sum : a.sumOk = false) :
    s.countChecks region a = (s.inc (Obj.AREA_CHECK_FAILS + region)).inc (Obj.AREA_CHECK_FAILS + region) := by
  simp [State.countChecks, wind, sum]

/-- A delivery counts its failed checks, then resolves its part (R105) and takes the value step (R136). -/
theorem execTileComplete_eq {s : State} {j : Nat} {t : TileJob} {p : Part} (f : CellFault)
    (tile : (s.ras.tiles.find? fun t => t.parts.any (·.cell = some j)) = some t)
    (part : t.parts.find? (·.cell = some j) = some p) (rasterOn : s.rasterOn t.region = true) :
    execTileComplete j f s =
      .next ((((s.delivered t j f).countChecks t.region (s.compute t p j f).1).resolvePart t p
        (p.runs ++ [(s.compute t p j f).1])).valueStep t.key j).advanceRaster := by
  simp only [execTileComplete, tile, part, rasterOn]
  rfl

/-! ### Reference tiles -/

theorem State.on_of_getN_eq_one {s : State} {o : ObjRef} (h : s.getN o = 1) : s.on o = true := by
  have : s.get o = 1 := by unfold State.getN at h; omega
  simp [State.on, this]

/-- An idle cell in service whose reference tests are enabled (R108). -/
structure State.ShadowReady (s : State) (j : Nat) : Prop where
  inRange : j < 48
  enabled : s.on Obj.SHADOW_TEST_ENABLE = true
  coreOn : s.coreOn = true
  inService : s.cellRetired j = false
  kept : s.lost (j / 12) = false
  free : s.cellBusy j = false
  idle : atD s.ras.refRun j none = none

theorem execShadowTest_of_ready {s : State} {j : Nat} (h : s.ShadowReady j) :
    execShadowTest j s =
      .next { s with ras := { s.ras with refRun := setAt s.ras.refRun j (some (atD s.ras.refNext j 0))
                                         refNext := setAt s.ras.refNext j ((atD s.ras.refNext j 0 + 1) % 16) } } := by
  obtain ⟨inRange, enabled, coreOn, inService, kept, free, idle⟩ := h
  exact if_neg (by simp [inRange, enabled, coreOn, inService, kept, free, idle])

/-- The state once cell `j` has computed its reference tile: the cell is free of it, and the run counts. -/
def State.referenceDone (s : State) (j : Nat) : State :=
  { s with ras := { s.ras with refRun := setAt s.ras.refRun j none, runs := modifyAt s.ras.runs j (· + 1) } }

theorem execShadowTestResult_of_run {s : State} {j i : Nat} (crc : BitVec 32) (h : atD s.ras.refRun j none = some i) :
    execShadowTestResult j crc s = if crc = Config.refTileCrc i then .next (s.referenceDone j)
      else .next ((((s.referenceDone j).inc Obj.SHADOW_TEST_FAILS).chargeCell j ⟨0, i, 0⟩ 4 0).advanceRaster) := by
  simp only [execShadowTestResult, h]
  rfl

theorem execShadowTestResult_of_no_run {s : State} {j : Nat} (crc : BitVec 32) (h : atD s.ras.refRun j none = none) :
    execShadowTestResult j crc s = .next s := by
  simp only [execShadowTestResult, h]

/-! ### The statement -/

/-- Settles O37: each clause is one case of TILE_DISPATCH, TILE_COMPLETE, SHADOW_TEST or SHADOW_TEST_RESULT. A computation that fails both
checks of its area unit counts twice (assumption 50). -/
theorem tilesAndShadowTests : Obligations.TilesAndShadowTests := by
  unfold Obligations.TilesAndShadowTests
  refine ⟨⟨?part, ?tile, ?retired, ?complete⟩, ?start, ?right, ?wrong, ?noRun⟩
  case part =>
    intro j s u inRange rasterOn awake inService free hu
    exact execTileDispatch_of_part ⟨inRange, rasterOn, awake, inService, free⟩ hu
  case tile =>
    intro j s u v inRange rasterOn awake inService free noPart hu hv
    exact execTileDispatch_of_tile ⟨inRange, rasterOn, awake, inService, free⟩ noPart hu hv
  case retired =>
    intro j s retired
    exact execTileDispatch_of_retired retired
  case complete =>
    intro j f s t p tile part rasterOn _
    have done : exec (.tileComplete j f) s = _ := execTileComplete_eq f tile part rasterOn
    refine ⟨fun wind sum => ?_, fun one => ?_, fun wind sum => ?_⟩
    · rwa [State.countChecks_of_pass _ _ wind sum] at done
    · rwa [State.countChecks_of_one _ _ one] at done
    · rwa [State.countChecks_of_both _ _ wind sum] at done
  case start =>
    intro j s inRange enabled coreOn inService kept free idle
    exact execShadowTest_of_ready ⟨inRange, State.on_of_getN_eq_one enabled, coreOn, inService, kept, free, idle⟩
  case right =>
    intro j s i run
    exact (execShadowTestResult_of_run _ run).trans (if_pos rfl)
  case wrong =>
    intro j c s i run wrong
    exact (execShadowTestResult_of_run c run).trans (if_neg wrong)
  case noRun =>
    intro j c s idle
    exact execShadowTestResult_of_no_run c idle

end Sys2Proof.Machine
end

section
/-! SUPPORT. Correction and fit proofs: the factors of a coarse column (R128), the density columns of a lost region (R125), the compare of
their rails (R135), the figures that a fit shows (R137, R138) and the staging of its coefficients (R44, R139); with them the statement
FactorsAndFits is settled. -/
namespace Sys2Proof.Machine

/-! ### Factors of a coarse column -/

/-- A correction block that is in service, for a kernel that reaches beyond its own cell (R126, R135). -/
structure State.CorrectionServes (s : State) (r : Nat) : Prop where
  inRange : r < 4
  enabled : s.on Obj.PEC_ENABLE = true
  kernel : s.kernelR ≠ 0
  inService : s.getN (Obj.CORR_BLOCK_STATE + r) ≠ 1

/-- The end of a column's compute (R135): three computations that disagree charge the block at once and leave the rows out (`u`); else the
rows stand (`v`), and one failure is charged where the first computation disagreed. -/
def columnCompared (r : Nat) (tries : Option Nat) (u v : State) : State :=
  match tries with
  | none => (u.chargeCorrection r true).advanceRaster
  | some n => (if 0 < n then v.chargeCorrection r false else v).advanceRaster

theorem execFactorCompute_of_column {s : State} {r col n : Nat} {st : Stripe} {rows : List (Option Nat)} (rails : List Bool)
    (serves : s.CorrectionServes r) (rasterOn : s.rasterOn r = true) (stripe : s.factorStripe r col = some st)
    (computed : s.newRows r st col = (rows, n)) :
    execFactorCompute r col rails s = .next (columnCompared r (railTries rails) (s.countColumn r)
      (((s.countColumn r).putRows r st.number col rows).add (Obj.FACTOR_CLAMPS + r) n)) := by
  obtain ⟨inRange, enabled, kernel, inService⟩ := serves
  have kept : s.lost r = false := by
    simp only [State.rasterOn, Bool.and_eq_true, Bool.not_eq_true'] at rasterOn
    exact rasterOn.1.1.2
  have guard : ¬(4 ≤ r ∨ (col : Int) < 0 ∨ (!s.on Obj.PEC_ENABLE) = true ∨ s.kernelR = 0) := by simp [inRange, enabled, kernel]
  have awake : ¬((!s.rasterOn r) = true ∨ s.getN (Obj.CORR_BLOCK_STATE + r) = 1) := by simp [rasterOn, inService]
  simp only [execFactorCompute]
  rw [if_neg guard, if_neg (by rw [kept]; decide), if_neg awake, Int.toNat_natCast, stripe]
  simp only [computed, columnCompared]
  cases railTries rails with
  | none => rfl
  | some n => rfl

theorem execFactorCompute_of_lost {s : State} {r : Nat} (col : Nat) (rails : List Bool) (serves : s.CorrectionServes r)
    (lost : s.lost r = true) : execFactorCompute r col rails s = .next (s.densityColumn r rails) := by
  obtain ⟨inRange, enabled, kernel, -⟩ := serves
  have guard : ¬(4 ≤ r ∨ (col : Int) < 0 ∨ !s.on Obj.PEC_ENABLE ∨ s.kernelR = 0) := by simp [inRange, enabled, kernel]
  exact (if_neg guard).trans (if_pos lost)

/-- A density column of a block in service counts, and charges what its rails say (R125). -/
theorem State.densityColumn_of_tries {s : State} {r n : Nat} {rails : List Bool} (serves : s.CorrectionServes r) (coreOn : s.coreOn = true)
    (job : s.jobState ∈ [1, 2, 3, 4]) (noAbort : s.job.abortAt = none) (tries : railTries rails = some n) :
    s.densityColumn r rails =
      if n = 0 then s.countColumn r else ((s.countColumn r).chargeCorrection r false).advanceRaster := by
  obtain ⟨-, -, kernel, inService⟩ := serves
  have guard : ¬(!s.coreOn ∨ s.kernelR = 0 ∨ s.getN (Obj.CORR_BLOCK_STATE + r) = 1 ∨ !(s.jobState ∈ [1, 2, 3, 4]) ∨ s.job.abortAt.isSome) := by
    simp [coreOn, kernel, inService, job, noAbort]
  rw [State.densityColumn, if_neg guard, tries]
  cases n <;> rfl

/-! ### The start of a fit -/

theorem execFitField_of_ready {s : State} {c : Caller} {f : Nat} (h : s.mayWrite c Obj.FIT_FIELD) (inRange : f ≤ 63)
    (idle : s.getN Obj.FIT_STATUS ≠ 1) :
    execFitField c f s = .next { (s.setN Obj.FIT_STATUS 1).setN Obj.FIT_FIELD_LAST f with
      fit := some ⟨s.fitField f, s.getN Obj.FIT_ORDER, s.fitPoints (s.fitField f)⟩ } := by
  rw [execFitField, writeFitField, State.gate_of_mayWrite _ h, if_neg (by omega), if_neg idle, State.ok_fst]

theorem execFitField_of_running {s : State} {c : Caller} (f : Nat) (h : s.mayWrite c Obj.FIT_FIELD) (running : s.getN Obj.FIT_STATUS = 1) :
    execFitField c f s = .next s := by
  rw [execFitField, writeFitField, State.gate_of_mayWrite _ h, if_pos running]
  split <;> rfl

/-! ### The figures of a fit -/

theorem foldN_succ {σ : Type} (n : Nat) (f : σ → Nat → σ) (s : σ) : foldN (n + 1) f s = f (foldN n f s) n := by
  simp [foldN, List.range_succ]

/-- A run of writes keeps a reflexive, transitive relation that each write keeps. -/
theorem foldN_rel {σ : Type} {R : σ → σ → Prop} (refl : ∀ s, R s s) (trans : ∀ {s t u}, R s t → R t u → R s u) {f : σ → Nat → σ}
    (step : ∀ s i, R s (f s i)) (n : Nat) (s : σ) : R s (foldN n f s) := by
  induction n with
  | zero => exact refl s
  | succ n ih => exact foldN_succ n f s ▸ trans ih (step _ n)

/-- From `s` to `t` only figures of the last fit are shown, the objects from FIT_RMS up, with the free values that takes. -/
structure State.ShowsFigures (s t : State) : Prop where
  state : t = { s with od := t.od, free := t.free }
  below : ∀ p < Obj.FIT_RMS, t.get p = s.get p

theorem State.ShowsFigures.refl (s : State) : s.ShowsFigures s := ⟨rfl, fun _ _ => rfl⟩

theorem State.ShowsFigures.trans {s t u : State} (st : s.ShowsFigures t) (tu : t.ShowsFigures u) : s.ShowsFigures u where
  state := by
    rw [tu.state, st.state]
  below p hp := (tu.below p hp).trans (st.below p hp)

theorem State.ShowsFigures.getN {s t : State} (h : s.ShowsFigures t) {p : ObjRef} (hp : p < Obj.FIT_RMS) : t.getN p = s.getN p := by
  simp [State.getN, h.below p hp]

theorem State.showsFigures_set (s : State) {o : ObjRef} (v : Int) (h : Obj.FIT_RMS ≤ o) : s.ShowsFigures (s.set o v) :=
  ⟨rfl, fun _ hp => s.get_set_other v (Nat.ne_of_lt (Nat.lt_of_lt_of_le hp h))⟩

theorem State.showsFigures_freeNat (s : State) : s.ShowsFigures s.freeNat.2 := ⟨rfl, fun _ _ => rfl⟩

theorem State.showsFigures_showI32 (s : State) {o : ObjRef} (v : Option Int) (h : Obj.FIT_RMS ≤ o) : s.ShowsFigures (s.showI32 o v) := by
  have free : s.ShowsFigures (s.freeNat.2.set o (toSigned 32 s.freeNat.1)) := s.showsFigures_freeNat.trans (State.showsFigures_set _ _ h)
  cases v with
  | none => exact free
  | some x =>
    rw [State.showI32]
    split
    · exact s.showsFigures_set x h
    · exact free

theorem State.showsFigures_showFit (s : State) {o : ObjRef} (cs : Option (List Int)) (h : Obj.FIT_RMS ≤ o) : s.ShowsFigures (s.showFit o cs) :=
  foldN_rel State.ShowsFigures.refl State.ShowsFigures.trans (fun s _ => s.showsFigures_showI32 _ (Nat.le_add_right_of_le h)) 10 s

theorem State.showsFigures_showResiduals (s : State) (rs : Option (List Nat)) : s.ShowsFigures (s.showResiduals rs) := by
  have shown (u : State) (a b : Int) : u.ShowsFigures ((u.set Obj.FIT_RMS a).set Obj.FIT_MAX b) :=
    (u.showsFigures_set a (Nat.le_refl _)).trans (State.showsFigures_set _ b (by decide))
  cases rs with
  | none => exact (s.showsFigures_freeNat.trans s.freeNat.2.showsFigures_freeNat).trans (shown _ _ _)
  | some l => exact shown _ _ _

/-! ### Coefficients that fit I32 -/

theorem State.get_foldN_set (s : State) (o : ObjRef) (g : Nat → Int) {n i : Nat} (h : i < n) :
    (foldN n (fun s i => s.set (o + i) (g i)) s).get (o + i) = g i := by
  induction n with
  | zero => omega
  | succ n ih =>
    rw [foldN_succ, State.get_set]
    split
    · next last => rw [Nat.add_left_cancel last]
    · next earlier => exact ih (Nat.lt_of_le_of_ne (Nat.le_of_lt_succ h) fun last => earlier (congrArg (o + ·) last))

theorem State.get_foldN_set_below (s : State) {o p : ObjRef} (g : Nat → Int) (n : Nat) (h : p < o) :
    (foldN n (fun s i => s.set (o + i) (g i)) s).get p = s.get p := by
  induction n with
  | zero => rfl
  | succ n ih => rw [foldN_succ, State.get_set_other _ _ (Nat.ne_of_lt (Nat.lt_add_right n h)), ih]

@[simp] theorem State.foldN_set_free (s : State) (o : ObjRef) (g : Nat → Int) (n : Nat) :
    (foldN n (fun s i => s.set (o + i) (g i)) s).free = s.free := by
  induction n with
  | zero => rfl
  | succ n ih => rw [foldN_succ, State.set_free, ih]

theorem atD_inI32 {cs : List Int} (h : ∀ x ∈ cs, -2 ^ 31 ≤ x ∧ x < 2 ^ 31) (i : Nat) : -2 ^ 31 ≤ atD cs i 0 ∧ atD cs i 0 < 2 ^ 31 := by
  rw [atD, List.getD_eq_getElem?_getD]
  cases hx : cs[i]? with
  | none => decide
  | some x => exact h x (List.mem_of_getElem? hx)

/-- Coefficients that fit I32 are shown as they are, without a free value. -/
theorem State.showFit_some (s : State) (o : ObjRef) {cs : List Int} (h : ∀ x ∈ cs, -2 ^ 31 ≤ x ∧ x < 2 ^ 31) :
    s.showFit o (some cs) = foldN 10 (fun s i => s.set (o + i) (atD cs i 0)) s := by
  have shown (u : State) (i : Nat) : u.showI32 (o + i) (some (atD cs i 0)) = u.set (o + i) (atD cs i 0) := if_pos (atD_inI32 h i)
  simp only [State.showFit, Option.map_some, shown]

/-- The residual figures stand below the coefficients, and leave them as they are. -/
theorem State.get_showResiduals_above (s : State) (rs : List Nat) {p : ObjRef} (h : Obj.FIT_MAX < p) :
    (s.showResiduals (some rs)).get p = s.get p := by
  have rms : p ≠ Obj.FIT_RMS := Nat.ne_of_gt (Nat.lt_trans (by decide) h)
  rw [State.showResiduals, State.get_setN_other _ _ (Nat.ne_of_gt h), State.get_setN_other _ _ rms]

theorem fitA_lt_fitB {i : Nat} (h : i < 10) : Obj.FIT_A + i < Obj.FIT_B :=
  Nat.lt_of_lt_of_le (Nat.add_lt_add_left h Obj.FIT_A) (by decide)

/-! ### The end of a fit -/

/-- The state when a fit ends with status `st`, before its figures are shown. -/
def State.fitEnded (s : State) (j : FitJob) (st : Nat) : State :=
  (({ s with fit := none } : State).setN Obj.FIT_STATUS st).setN Obj.FIT_MARKS_USED j.points.length

/-- The figures of a fit are shown: FIT_A, FIT_B, FIT_RMS and FIT_MAX (R138). -/
def State.showFigures (s : State) (cs : Option (List Int × List Int)) (rs : Option (List Nat)) : State :=
  ((s.showFit Obj.FIT_A (cs.map (·.1))).showFit Obj.FIT_B (cs.map (·.2))).showResiduals rs

theorem execFitComplete_of_fit {s : State} {j : FitJob} {st : Nat} {cs : Option (List Int × List Int)} {rs : Option (List Nat)}
    (fit : s.fit = some j) (result : fitResult j (s.getN Obj.FIT_MAX_RESIDUAL) = (st, cs, rs)) :
    execFitComplete s = .next ((s.fitEnded j st).showFigures cs rs) := by
  simp only [execFitComplete, fit, result]
  rfl

theorem State.showsFigures_showFigures (s : State) (cs : Option (List Int × List Int)) (rs : Option (List Nat)) :
    s.ShowsFigures (s.showFigures cs rs) :=
  ((s.showsFigures_showFit _ (by decide)).trans (State.showsFigures_showFit _ _ (by decide))).trans (State.showsFigures_showResiduals _ rs)

/-- Whatever its figures, a fit that ends leaves its status and its marks, no fit running, and the staging set as it was. -/
theorem State.fitEnded_showFigures (s : State) (j : FitJob) (st : Nat) (cs : Option (List Int × List Int)) (rs : Option (List Nat)) :
    let t := (s.fitEnded j st).showFigures cs rs
    t.getN Obj.FIT_STATUS = st ∧ t.getN Obj.FIT_MARKS_USED = j.points.length ∧ t.fit = none ∧ t.stg = s.stg := by
  have shown := (s.fitEnded j st).showsFigures_showFigures cs rs
  refine ⟨?status, ?marks, ?fit, ?staging⟩
  case status =>
    rw [shown.getN (by decide), State.fitEnded, State.getN_setN_other _ _ (by decide), State.getN_setN_self]
  case marks => rw [shown.getN (by decide), State.fitEnded, State.getN_setN_self]
  case fit => rw [shown.state]; rfl
  case staging => rw [shown.state]; rfl

theorem State.showFigures_coefficients (s : State) {a b : List Int} (rs : List Nat) (h : ∀ x ∈ a ++ b, -2 ^ 31 ≤ x ∧ x < 2 ^ 31) :
    let t := s.showFigures (some (a, b)) (some rs)
    (∀ i < 10, t.get (Obj.FIT_A + i) = atD a i 0 ∧ t.get (Obj.FIT_B + i) = atD b i 0) ∧ t.free = s.free := by
  have showA (u : State) := u.showFit_some Obj.FIT_A fun x hx => h x (List.mem_append_left b hx)
  have showB (u : State) := u.showFit_some Obj.FIT_B fun x hx => h x (List.mem_append_right a hx)
  simp only [State.showFigures, Option.map_some, showA, showB]
  refine ⟨fun i hi => ⟨?coefA, ?coefB⟩, ?free⟩
  case coefA =>
    rw [State.get_showResiduals_above _ _ (Nat.lt_add_right i (by decide)), State.get_foldN_set_below _ _ _ (fitA_lt_fitB hi),
      State.get_foldN_set _ _ _ hi]
  case coefB => rw [State.get_showResiduals_above _ _ (Nat.lt_add_right i (by decide)), State.get_foldN_set _ _ _ hi]
  case free => simp [State.showResiduals]

theorem fitResult_of_few {j : FitJob} (limit : Nat) (few : j.points.length < fitTerms j.order) : fitResult j limit = (3, none, none) :=
  if_pos few

/-! ### Staging of scalar values (R44) -/

/-- The staging set holds exactly the values `l`, in their order, for the session that staged them. -/
structure State.StagedExactly (s : State) (session : Nat) (l : List (ObjRef × Int)) : Prop where
  values : (s.stg.entries.map fun e => (e.obj, e.val)) = l.map fun p => (p.1, .scalar p.2)
  owner : l ≠ [] → s.stg.owner = session
  count : l ≠ [] → s.getN Obj.STAGED_ENTRIES = l.length

/-- Where no object has two entries, the entry found for an object is the one that the set holds. -/
theorem find?_obj_of_mem {es : List StagedEntry} (distinct : (es.map (·.obj)).Nodup) {e : StagedEntry} (h : e ∈ es) :
    es.find? (·.obj = e.obj) = some e := by
  induction es with
  | nil => exact absurd h List.not_mem_nil
  | cons x xs ih =>
    obtain ⟨first, rest⟩ := List.nodup_cons.mp distinct
    rcases List.mem_cons.mp h with rfl | later
    · exact List.find?_cons_of_pos (decide_eq_true rfl)
    · have other : x.obj ≠ e.obj := fun same => first (List.mem_map.mpr ⟨e, later, same.symm⟩)
      rw [List.find?_cons_of_neg (by rw [decide_eq_true_eq]; exact other), ih rest later]

section
variable {s : State} {session : Nat} {l : List (ObjRef × Int)} (staged : s.StagedExactly session l)
include staged

theorem State.StagedExactly.length : s.stg.entries.length = l.length := by
  simpa using congrArg List.length staged.values

theorem State.StagedExactly.objs : s.stg.entries.map (·.obj) = l.map (·.1) := by
  simpa [Function.comp_def] using congrArg (List.map Prod.fst) staged.values

/-- A value of an object that the set does not hold joins it at its end. -/
theorem State.StagedExactly.stage {o : ObjRef} (v : Int) (fresh : o ∉ l.map (·.1)) (room : l.length < stagingMax) :
    (s.stage session o (.scalar v)).1.StagedExactly session (l ++ [(o, v)]) := by
  have mine : ¬((!s.stg.entries.isEmpty) = true ∧ s.stg.owner ≠ session) := by
    rintro ⟨held, other⟩
    refine other (staged.owner ?_)
    rintro rfl
    simp [List.length_eq_zero_iff.mp staged.length] at held
  have absent : ¬(s.stg.entries.any (·.obj = o)) = true := by
    rw [← staged.objs] at fresh
    simpa using fresh
  have fits : ¬stagingMax ≤ s.stg.entries.length := by rw [staged.length]; omega
  rw [State.stage, if_neg mine, if_neg absent, if_neg fits, State.ok_fst]
  refine ⟨?values, ?owner, ?count⟩
  case values => simp [State.setStaging, staged.values]
  case owner => simp [State.setStaging]
  case count =>
    intro _
    have same (u : State) (g : Staging) : ({ u with stg := g } : State).getN Obj.STAGED_ENTRIES = u.getN Obj.STAGED_ENTRIES := rfl
    rw [State.setStaging, same, State.getN_setN_self]
    simp [staged.length]

/-- Values of distinct objects that the set does not hold join it in their order. -/
theorem State.StagedExactly.stageAll (es : List (ObjRef × Int)) (distinct : ((l ++ es).map (·.1)).Nodup) (room : (l ++ es).length ≤ stagingMax) :
    (es.foldl (fun s e => (s.stage session e.1 (.scalar e.2)).1) s).StagedExactly session (l ++ es) := by
  induction es generalizing s l with
  | nil => simpa using staged
  | cons e es ih =>
    have fresh : e.1 ∉ l.map (·.1) := by
      rw [List.map_append, List.nodup_append] at distinct
      exact fun he => distinct.2.2 _ he _ (List.mem_map_of_mem List.mem_cons_self) rfl
    have next := staged.stage e.2 fresh (by simp only [List.length_append, List.length_cons] at room; omega)
    rw [List.append_cons] at distinct room ⊢
    exact ih next distinct room

/-- Each object of the set has the value that was staged for it. -/
theorem State.StagedExactly.stagedVal_of_mem (distinct : (l.map (·.1)).Nodup) {o : ObjRef} {v : Int} (h : (o, v) ∈ l) :
    s.stagedVal o = some (.scalar v) := by
  have held : (o, StagedVal.scalar v) ∈ s.stg.entries.map fun e => (e.obj, e.val) := by
    rw [staged.values]
    exact List.mem_map.mpr ⟨_, h, rfl⟩
  obtain ⟨e, he, pair⟩ := List.mem_map.mp held
  obtain ⟨rfl, val⟩ := Prod.mk.inj pair
  rw [State.stagedVal, find?_obj_of_mem (staged.objs ▸ distinct) he, Option.map_some, val]

end

/-! ### Staging of a fit -/

/-- The entries of FIT_STAGE: the twenty coefficients of the last fit, for the objects of its field (R139). -/
def State.fitEntries (s : State) : List (ObjRef × Int) :=
  (List.range 10).map (fun i => (Obj.FIELD_A + 256 * s.getN Obj.FIT_FIELD_LAST + i, s.get (Obj.FIT_A + i))) ++
    (List.range 10).map fun i => (Obj.FIELD_B + 256 * s.getN Obj.FIT_FIELD_LAST + i, s.get (Obj.FIT_B + i))

theorem State.fitEntries_length (s : State) : s.fitEntries.length = 20 := by
  simp [State.fitEntries]

theorem State.fitEntries_objs (s : State) :
    s.fitEntries.map (·.1) = (List.range 20).map (Obj.FIELD_A + 256 * s.getN Obj.FIT_FIELD_LAST + ·) := by
  have upper (n : Nat) : Obj.FIELD_B + n = Obj.FIELD_A + n + 10 := Nat.add_right_comm Obj.FIELD_A 10 n
  have split : List.range 20 = List.range 10 ++ (List.range 10).map (10 + ·) := by decide
  simp only [State.fitEntries, split, List.map_append, List.map_map, Function.comp_def, upper, Nat.add_assoc]

theorem State.fitEntries_distinct (s : State) : (s.fitEntries.map (·.1)).Nodup := by
  rw [s.fitEntries_objs]
  exact List.pairwise_map.mpr (List.pairwise_lt_range.imp fun h => Nat.ne_of_lt (Nat.add_lt_add_left h _))

theorem State.mem_fitEntries (s : State) {i : Nat} (h : i < 10) :
    (Obj.FIELD_A + 256 * s.getN Obj.FIT_FIELD_LAST + i, s.get (Obj.FIT_A + i)) ∈ s.fitEntries ∧
    (Obj.FIELD_B + 256 * s.getN Obj.FIT_FIELD_LAST + i, s.get (Obj.FIT_B + i)) ∈ s.fitEntries :=
  ⟨List.mem_append_left _ (List.mem_map.mpr ⟨i, List.mem_range.mpr h, rfl⟩),
    List.mem_append_right _ (List.mem_map.mpr ⟨i, List.mem_range.mpr h, rfl⟩)⟩

theorem execFitStage_of_passed {s : State} {c : Caller} (h : s.mayWrite c Obj.FIT_STAGE) (passed : s.getN Obj.FIT_STATUS = 2)
    (empty : s.stg.entries = []) :
    execFitStage c s = .next (s.fitEntries.foldl (fun s e => (s.stage c.session e.1 (.scalar e.2)).1) s) := by
  have free : ¬((!s.stg.entries.isEmpty) = true ∧ s.stg.owner ≠ c.session) := by simp [empty]
  have fits : ¬stagingMax < s.stg.entries.length + (s.fitEntries.filter fun e => !s.stg.entries.any (·.obj = e.1)).length := by
    have atMost : (s.fitEntries.filter fun e => !s.stg.entries.any (·.obj = e.1)).length ≤ 20 :=
      s.fitEntries_length ▸ List.length_filter_le _ _
    rw [empty] at atMost ⊢
    exact Nat.not_lt.mpr (Nat.le_trans (Nat.add_le_add_left atMost 0) (by decide))
  rw [execFitStage, writeFitStage, State.gate_of_mayWrite _ h, if_neg (by decide), if_neg (not_not_intro passed), if_neg free,
    ← State.fitEntries, if_neg fits, State.ok_fst]

theorem execFitStage_of_not_passed {s : State} {c : Caller} (h : s.mayWrite c Obj.FIT_STAGE) (status : s.getN Obj.FIT_STATUS ≠ 2) :
    execFitStage c s = .next s := by
  rw [execFitStage, writeFitStage, State.gate_of_mayWrite _ h, if_neg (by decide), if_pos status, State.deny_fst]

/-- FIT_STAGE puts the twenty coefficients of a fit that passed into the empty staging set. -/
theorem State.fitEntries_staged (s : State) (session : Nat) (empty : s.stg.entries = []) :
    (s.fitEntries.foldl (fun s e => (s.stage session e.1 (.scalar e.2)).1) s).StagedExactly session s.fitEntries :=
  have before : s.StagedExactly session [] := ⟨by simp [empty], (absurd rfl ·), (absurd rfl ·)⟩
  before.stageAll s.fitEntries s.fitEntries_distinct (by simp [s.fitEntries_length, stagingMax])

/-! ### The statement -/

/-- Settles O38: each clause is one case of FACTOR_COMPUTE, FIT_FIELD, FIT_COMPLETE or FIT_STAGE. -/
theorem factorsAndFits : Obligations.FactorsAndFits := by
  unfold Obligations.FactorsAndFits
  refine ⟨⟨?factors, ?densities⟩, ?start, ?running, ?few, ?passed, ?stage, ?noStage⟩
  case factors =>
    intro r col rails s st rows n inRange enabled kernel rasterOn inService stripe computed
    have serves : s.CorrectionServes r := ⟨inRange, State.on_of_getN_eq_one enabled, kernel, inService⟩
    have done : exec (.factorCompute r col rails) s = _ := execFactorCompute_of_column rails serves rasterOn stripe computed
    refine ⟨fun agree => ?_, fun first => ?_, fun never => ?_⟩
    · rwa [agree] at done
    · rwa [first] at done
    · rwa [never] at done
  case densities =>
    intro r col rails s inRange enabled kernel lost coreOn inService job noAbort
    have serves : s.CorrectionServes r := ⟨inRange, State.on_of_getN_eq_one enabled, kernel, inService⟩
    have done : exec (.factorCompute r col rails) s = _ := execFactorCompute_of_lost col rails serves lost
    refine ⟨fun agree => ?_, fun first => ?_⟩
    · rwa [State.densityColumn_of_tries serves coreOn job noAbort agree] at done
    · rwa [State.densityColumn_of_tries serves coreOn job noAbort first] at done
  case start =>
    intro c f s mayWrite inRange idle
    exact execFitField_of_ready mayWrite inRange idle
  case running =>
    intro c f s mayWrite running
    exact execFitField_of_running f mayWrite running
  case few =>
    intro s j fit few
    exact ⟨_, execFitComplete_of_fit fit (fitResult_of_few _ few), s.fitEnded_showFigures j 3 none none⟩
  case passed =>
    intro s j a b rs fit result inI32
    obtain ⟨status, marks, ended, staging⟩ := s.fitEnded_showFigures j 2 (some (a, b)) (some rs)
    obtain ⟨coefficients, free⟩ := (s.fitEnded j 2).showFigures_coefficients rs inI32
    exact ⟨_, execFitComplete_of_fit fit result, status, marks, coefficients, ended, free, staging⟩
  case stage =>
    intro c s mayWrite passed empty _
    have staged := s.fitEntries_staged c.session empty
    have nonempty : s.fitEntries ≠ [] := List.ne_nil_of_length_pos (by simp [s.fitEntries_length])
    refine ⟨_, execFitStage_of_passed mayWrite passed empty, staged.owner nonempty, staged.length.trans s.fitEntries_length,
      (staged.count nonempty).trans s.fitEntries_length, fun i hi => ?_⟩
    obtain ⟨inA, inB⟩ := s.mem_fitEntries hi
    exact ⟨staged.stagedVal_of_mem s.fitEntries_distinct inA, staged.stagedVal_of_mem s.fitEntries_distinct inB⟩
  case noStage =>
    intro c s mayWrite status
    exact execFitStage_of_not_passed mayWrite status

end Sys2Proof.Machine
end

section
/-! SUPPORT. Proofs of the doses of visits (R149, R150): how near the rounded quotient lies to the exact one, and the code of a visit as that
quotient under its cap; with them the statement DosesOfVisits is settled. -/
namespace Sys2Proof.Machine

/-! ### The rounded quotient -/

/-- The rounded quotient lies within half a divisor of the dividend. -/
theorem rneDivN_nearest (a : Nat) {b : Nat} (pos : 0 < b) :
    2 * (rneDivN a b * b) ≤ 2 * a + b ∧ 2 * a ≤ 2 * (rneDivN a b * b) + b := by
  have division : a / b * b + a % b = a := Nat.div_add_mod' a b
  have remainder : a % b < b := Nat.mod_lt a pos
  have up : (a / b + 1) * b = a / b * b + b := Nat.succ_mul _ _
  simp only [rneDivN]
  split
  case isTrue => omega
  case isFalse =>
    split
    case isTrue => omega
    case isFalse =>
      split
      case isTrue => omega
      case isFalse => omega

/-! ### The code and the dose of a visit -/

/-- The visits that are left less the reserve, over which the dose that is left is spread (R149). -/
def visitsToSpread (k h : Nat) : Nat := max 1 (k - min h (k - 1))

theorem visitsToSpread_pos (k h : Nat) : 0 < visitsToSpread k h := Nat.le_max_left 1 _

theorem splitDose_of_done {rem : Int} (den k h cap : Nat) (done : rem ≤ 0) : splitDose rem den k h cap = (0, 0) := by
  simp [splitDose, done, rneDivN]

theorem splitDose_code {rem : Int} (den k h cap : Nat) (left : 0 < rem) :
    (splitDose rem den k h cap).1 = min cap (rneDivN (16 * rem.toNat) (den * visitsToSpread k h)) :=
  if_neg (Int.not_le.mpr left)

theorem splitDose_dose (rem : Int) (den k h cap : Nat) :
    (splitDose rem den k h cap).2 = rneDivN ((splitDose rem den k h cap).1 * den) 16 := rfl

theorem splitDose_code_le_cap (rem : Int) (den k h cap : Nat) : (splitDose rem den k h cap).1 ≤ cap := by
  by_cases left : 0 < rem
  · rw [splitDose_code den k h cap left]
    exact Nat.min_le_left _ _
  · rw [splitDose_of_done den k h cap (Int.not_lt.mp left)]
    exact Nat.zero_le cap

/-- A code of at most 15 with a slot of at most 1,535 gives at most 1,439. -/
theorem splitDose_dose_le (rem : Int) {den : Nat} (k h : Nat) {cap : Nat} (slot : den ≤ 1535) (codes : cap ≤ 15) :
    (splitDose rem den k h cap).2 ≤ 1439 := by
  have product : (splitDose rem den k h cap).1 * den ≤ 15 * 1535 :=
    Nat.mul_le_mul (Nat.le_trans (splitDose_code_le_cap rem den k h cap) codes) slot
  have nearest := (rneDivN_nearest ((splitDose rem den k h cap).1 * den) (by decide : 0 < 16)).1
  rw [splitDose_dose]
  omega

section
variable {rem : Int} {den : Nat} (k h cap : Nat) (left : 0 < rem) (slot : 0 < den)
include left slot

/-- The code is at most half a step above the dose that is left, spread over its visits. -/
theorem splitDose_code_mul_le : 2 * ((splitDose rem den k h cap).1 * (den * visitsToSpread k h)) ≤
    32 * rem.toNat + den * visitsToSpread k h := by
  have nearest := (rneDivN_nearest (16 * rem.toNat) (Nat.mul_pos slot (visitsToSpread_pos k h))).1
  have capped := Nat.mul_le_mul_right (den * visitsToSpread k h)
    (Nat.min_le_right cap (rneDivN (16 * rem.toNat) (den * visitsToSpread k h)))
  rw [splitDose_code den k h cap left]
  omega

/-- A code that the cap does not hold back is at most half a step below it. -/
theorem le_splitDose_code_mul (free : (splitDose rem den k h cap).1 < cap) :
    32 * rem.toNat ≤ 2 * ((splitDose rem den k h cap).1 * (den * visitsToSpread k h)) + den * visitsToSpread k h := by
  have nearest := (rneDivN_nearest (16 * rem.toNat) (Nat.mul_pos slot (visitsToSpread_pos k h))).2
  have code := splitDose_code den k h cap left
  rw [Nat.min_eq_right (by omega)] at code
  rw [code]
  omega

/-- Over one visit the half step is at most half the slot, whatever the number of visits. -/
theorem splitDose_code_mul_den_le : 2 * ((splitDose rem den k h cap).1 * den) ≤ 32 * rem.toNat + den := by
  refine Nat.le_of_mul_le_mul_right ?_ (visitsToSpread_pos k h)
  calc 2 * ((splitDose rem den k h cap).1 * den) * visitsToSpread k h
      = 2 * ((splitDose rem den k h cap).1 * (den * visitsToSpread k h)) := by rw [Nat.mul_assoc, Nat.mul_assoc]
    _ ≤ 32 * rem.toNat + den * visitsToSpread k h := splitDose_code_mul_le k h cap left slot
    _ ≤ 32 * rem.toNat * visitsToSpread k h + den * visitsToSpread k h :=
        Nat.add_le_add_right (Nat.le_mul_of_pos_right _ (visitsToSpread_pos k h)) _
    _ = (32 * rem.toNat + den) * visitsToSpread k h := (Nat.add_mul _ _ _).symm

/-- A visit overshoots by half a step of the code, at most 767.5 sixteenths, and half a unit of the dose. -/
theorem splitDose_overshoot_le (slotMax : den ≤ 1535) : ((splitDose rem den k h cap).2 : Int) ≤ rem + 48 := by
  have code := splitDose_code_mul_den_le k h cap left slot
  have nearest := (rneDivN_nearest ((splitDose rem den k h cap).1 * den) (by decide : 0 < 16)).1
  rw [splitDose_dose]
  omega

end

/-! ### The statement -/

/-- Settles O39: the code is a rounded quotient under the cap, and the dose a rounded product of it. -/
theorem dosesOfVisits : Obligations.DosesOfVisits := by
  unfold Obligations.DosesOfVisits
  intro rem den k h cap slotMin slotMax _ codes
  have slot : 0 < den := Nat.lt_of_lt_of_le (by decide) slotMin
  refine ⟨splitDose_code_le_cap rem den k h cap, splitDose_dose_le rem k h slotMax codes, ?done, ?overshoot, ?rounded, ?clamped⟩
  case done =>
    intro done
    rw [splitDose_of_done den k h cap done]
    exact ⟨rfl, rfl⟩
  case overshoot =>
    intro left
    have bound := splitDose_overshoot_le k h cap left slot slotMax
    omega
  case rounded =>
    intro left free
    have above := splitDose_code_mul_le k h cap left slot
    have below := le_splitDose_code_mul k h cap left slot free
    rw [visitsToSpread] at above below
    omega
  case clamped =>
    intro left clamped _
    have above := splitDose_code_mul_le k h cap left slot
    rw [clamped, visitsToSpread] at above
    omega

end Sys2Proof.Machine
end

section
/-! SUPPORT. Proofs of the order of sweeps: the release of a turnaround (R161), the end of a Burnish pass's wait (R230) and the wake of a
region's halves (R26), each said once as an equation per case; with them the statement SweepOrder is settled. -/
namespace Sys2Proof.Machine

theorem State.on_of_getN_eq_zero {s : State} {o : ObjRef} (h : s.getN o = 0) : s.on o = false := by
  have : s.get o ≠ 1 := by unfold State.getN at h; omega
  simp [State.on, this]

/-! ### The release of a turnaround -/

section
variable {s : State} {c : Caller} (mayWrite : s.mayWrite c Obj.TURNAROUND_RELEASE)
include mayWrite

theorem execTurnaroundRelease_of_held (held : s.on Obj.TURNAROUND_HELD = true) :
    execTurnaroundRelease c s =
      .next (if s.gateRuns || s.calGap then { s with flow := { s.flow with release := true } } else s.endTurnaround) := by
  rw [execTurnaroundRelease, writeTurnaroundRelease, State.gate_of_mayWrite _ mayWrite, if_neg (by simp [held])]
  split
  case isTrue => rw [State.ok_fst]
  case isFalse => rw [State.ok_fst]

theorem execTurnaroundRelease_of_not_held (free : s.on Obj.TURNAROUND_HELD = false) : execTurnaroundRelease c s = .next s := by
  rw [execTurnaroundRelease, writeTurnaroundRelease, State.gate_of_mayWrite _ mayWrite, if_pos (by simp [free]), State.ok_fst]

end

/-! ### The wait of a Burnish pass -/

theorem execBurnishRepairWait_of_waiting {s : State} {b : Burn} (burn : s.flow.burn = some b) (waiting : b.waiting = true) :
    execBurnishRepairWait s =
      .next ({ s with flow := { s.flow with burn := some { b with waiting := false, waited := true } } }).settle := by
  simp only [execBurnishRepairWait, burn]
  exact if_pos waiting

/-! ### The wake of a region's halves -/

theorem execRegionWakeDone_of_writing {s : State} {r : Nat} (inRange : r < 4) (kept : s.lost r = false)
    (waking : atD s.units.writing r 0 = 1) :
    execRegionWakeDone r true s = .next ((s.inc (Obj.REGION_WAKES + r)).setWriting r 2) := by
  rw [execRegionWakeDone, if_neg (by simp [inRange, kept]), if_pos rfl, if_pos waking]

theorem execRegionWakeDone_of_raster {s : State} {r : Nat} (inRange : r < 4) (kept : s.lost r = false)
    (waking : atD s.units.raster r 0 = 1) :
    execRegionWakeDone r false s = .next ((s.inc (Obj.REGION_WAKES + r)).setRaster r 2).advanceRaster := by
  rw [execRegionWakeDone, if_neg (by simp [inRange, kept]), if_neg Bool.false_ne_true, if_pos waking]

/-! ### The statement -/

/-- Settles O32: each clause is one case of TURNAROUND_RELEASE, BURNISH_REPAIR_WAIT or REGION_WAKE_DONE. -/
theorem sweepOrder : Obligations.SweepOrder := by
  unfold Obligations.SweepOrder
  refine ⟨?atOnce, ?later, ?free, ?burnish, ?writing, ?raster⟩
  case atOnce =>
    intro c s mayWrite held noGate noGap
    have done : exec (.turnaroundRelease c) s = _ := execTurnaroundRelease_of_held mayWrite (State.on_of_getN_eq_one held)
    rwa [noGate, noGap] at done
  case later =>
    intro c s mayWrite held gate
    have done : exec (.turnaroundRelease c) s = _ := execTurnaroundRelease_of_held mayWrite (State.on_of_getN_eq_one held)
    rwa [gate] at done
  case free =>
    intro c s mayWrite free
    exact execTurnaroundRelease_of_not_held mayWrite (State.on_of_getN_eq_zero free)
  case burnish =>
    intro s b burn waiting
    exact execBurnishRepairWait_of_waiting burn waiting
  case writing =>
    intro r s inRange kept waking
    exact execRegionWakeDone_of_writing inRange kept waking
  case raster =>
    intro r s inRange kept waking
    exact execRegionWakeDone_of_raster inRange kept waking

end Sys2Proof.Machine
end

section
/-! SUPPORT. Proofs of flashes, the window and defect records: the computation of a period's flash (R154, R189), the load of a window word
(R147, R148, R297) and the acknowledgement of defects (R238), each said once as an equation per case; with them the statement
FlashesAndWindow is settled. -/
namespace Sys2Proof.Machine

/-! ### The flash of a period -/

theorem execFlashCompute_of_active {s : State} (f : FlashFaults) {p : Period} (coreOn : s.coreOn = true) (active : s.isStandby = false)
    (opened : s.openPeriod = some p) : execFlashCompute f s = .next (s.computeActive p f) := by
  rw [execFlashCompute, if_neg (by simp [coreOn]), if_neg (by simp [active])]
  simp only [opened]

theorem execFlashCompute_of_standby {s : State} (f : FlashFaults) (coreOn : s.coreOn = true) (standby : s.isStandby = true) :
    execFlashCompute f s = .next { s with pair := { s.pair with ownFaults := some f } } := by
  rw [execFlashCompute, if_neg (by simp [coreOn]), if_pos standby]

theorem State.openPeriod_of_computed {s : State} (computed : ∀ p ∈ s.hs.periods, p.computed = true) : s.openPeriod = none :=
  List.find?_eq_none.mpr fun p hp => by simp [computed p hp]

/-- With no period open the active computes nothing, whether its core runs or not. -/
theorem execFlashCompute_of_no_period {s : State} (f : FlashFaults) (active : s.isStandby = false) (closed : s.openPeriod = none) :
    execFlashCompute f s = .next s := by
  rw [execFlashCompute]
  split
  case isTrue => rfl
  case isFalse =>
    rw [if_neg (by simp [active])]
    simp only [closed]

/-! ### The load of a window word -/

/-- A word of a line that the loader can load (R147): the region's loader works, the word `q` is the line's next, and its values `vs`
can be taken. -/
structure State.LoadReady (s : State) (line word q : Nat) (vs : List Int) : Prop where
  inRange : line < s.lines
  loaderOn : s.loaderOn (s.regionOfLine line) = true
  target : s.loadTarget line word = some q
  values : s.loadValues line q = some vs

/-- The load of a word waits for the next flash boundary (R148). -/
def State.queueLoad (s : State) (line q : Nat) (vs : List Int) : State :=
  { s with sweep := { s.sweep with loads := s.sweep.loads ++ [(line, q, vs)] } }

section
variable {s : State} {line word q : Nat} {vs : List Int} (ready : s.LoadReady line word q vs)
include ready

theorem execWindowLoad_of_ready (f : LoadFault) :
    execWindowLoad line word f s =
      let k := (s.tileOf line (4 * q : Nat)).1
      let s := s.add Obj.LOADER_MISMATCHES (min 2 f.inflateMismatches)
      let u := s.queueLoad line q vs
      if 2 ≤ f.inflateMismatches then .next s
      else if f.crcFail then .next (s.loadCrcFail k f.retained)
      else .next (if u.burnishing then u else u.countLoaded k (u.wordCoords q).length) := by
  obtain ⟨inRange, loaderOn, target, values⟩ := ready
  rw [execWindowLoad, if_neg (by simp [inRange, loaderOn])]
  simp only [target, values]
  rfl

theorem execWindowLoad_of_two_mismatches {f : LoadFault} (two : 2 ≤ f.inflateMismatches) :
    execWindowLoad line word f s = .next (s.add Obj.LOADER_MISMATCHES 2) := by
  rw [execWindowLoad_of_ready ready]
  simp only [if_pos two, Nat.min_eq_left two]

theorem execWindowLoad_of_crc_fail {n : Nat} (k : Bool) (few : n < 2) :
    execWindowLoad line word ⟨true, n, k⟩ s =
      .next ((s.add Obj.LOADER_MISMATCHES n).loadCrcFail (s.tileOf line (4 * q : Nat)).1 k) := by
  rw [execWindowLoad_of_ready ready]
  simp only [if_neg (Nat.not_le.mpr few), Nat.min_eq_right (Nat.le_of_lt few), if_true]

theorem execWindowLoad_of_good {n : Nat} (k : Bool) (few : n < 2) :
    execWindowLoad line word ⟨false, n, k⟩ s =
      let u := (s.add Obj.LOADER_MISMATCHES n).queueLoad line q vs
      .next (if u.burnishing then u else u.countLoaded (s.tileOf line (4 * q : Nat)).1 (u.wordCoords q).length) := by
  rw [execWindowLoad_of_ready ready]
  simp only [if_neg (Nat.not_le.mpr few), Nat.min_eq_right (Nat.le_of_lt few), if_neg Bool.false_ne_true]

end

theorem execWindowLoad_of_no_target {s : State} {line word : Nat} (f : LoadFault) (target : s.loadTarget line word = none) :
    execWindowLoad line word f s = .next s := by
  rw [execWindowLoad]
  split
  case isTrue => rfl
  case isFalse => simp only [target]

/-! ### The acknowledgement of defects -/

/-- Nothing but the ledger's entries differs, and no entry is added or removed. -/
structure State.OnlyEntries (s t : State) : Prop where
  state : t = { s with ledger := t.ledger }
  defects : t.ledger.defects = s.ledger.defects
  entries : t.ledger.entries.length = s.ledger.entries.length

theorem State.OnlyEntries.refl (s : State) : s.OnlyEntries s := ⟨rfl, rfl, rfl⟩

theorem State.OnlyEntries.trans {s t u : State} (first : s.OnlyEntries t) (second : t.OnlyEntries u) : s.OnlyEntries u where
  state := by rw [second.state, first.state]
  defects := second.defects.trans first.defects
  entries := second.entries.trans first.entries

theorem State.onlyEntries_modEntry (s : State) (i : Nat) (f : Entry → Entry) : s.OnlyEntries (s.modEntry i f) :=
  ⟨rfl, rfl, List.length_modify f _ i⟩

/-- A record of an entry is taken off the records that the entry has left (R238). -/
def State.ackRecord (s : State) (d : Defect) : State :=
  match d.entry with
  | some i => s.modEntry i fun e => { e with left := e.left - 1 }
  | none => s

theorem State.onlyEntries_ackRecord (s : State) (d : Defect) : s.OnlyEntries (s.ackRecord d) := by
  rw [State.ackRecord]
  split
  case h_1 => exact s.onlyEntries_modEntry _ _
  case h_2 => exact .refl s

theorem State.onlyEntries_ackRecords (s : State) (ds : List Defect) : s.OnlyEntries (ds.foldl State.ackRecord s) := by
  induction ds generalizing s with
  | nil => exact .refl s
  | cons d ds ih => exact (s.onlyEntries_ackRecord d).trans (ih _)

theorem State.ackDefects_eq (s : State) (n : Nat) :
    s.ackDefects n = (s.ledger.defects.take n).foldl State.ackRecord
      { s with ledger := { s.ledger with defects := s.ledger.defects.drop n } } := rfl

/-- An acknowledgement of `n` records drops the `n` oldest and keeps the entries. -/
theorem State.onlyEntries_ackDefects (s : State) (n : Nat) :
    State.OnlyEntries { s with ledger := { s.ledger with defects := s.ledger.defects.drop n } } (s.ackDefects n) := by
  rw [s.ackDefects_eq]
  exact State.onlyEntries_ackRecords _ _

section
variable {s : State} {c : Caller} {n : Nat} (mayWrite : s.mayWrite c Obj.DEFECT_ACK)
include mayWrite

theorem execDefectAck_of_records (pos : 0 < n) (records : n ≤ s.ledger.defects.length) :
    execDefectAck c n s = .next (s.ackDefects n) := by
  rw [execDefectAck, writeDefectAck, State.gate_of_mayWrite _ mayWrite, if_neg (by omega), State.ok_fst]

theorem execDefectAck_of_out_of_range (range : n = 0 ∨ s.ledger.defects.length < n) : execDefectAck c n s = .next s := by
  rw [execDefectAck, writeDefectAck, State.gate_of_mayWrite _ mayWrite, if_pos range, State.deny_fst]

end

/-! ### The statement -/

/-- Settles O40: each clause is one case of FLASH_COMPUTE, WINDOW_LOAD or DEFECT_ACK. -/
theorem flashesAndWindow : Obligations.FlashesAndWindow := by
  unfold Obligations.FlashesAndWindow
  refine ⟨⟨?active, ?standby, ?computed⟩, ⟨?good, ?twoMismatches, ?crcFail, ?noTarget⟩, ?acknowledged, ?refused⟩
  case active =>
    intro f s p coreOn active opened
    exact execFlashCompute_of_active f coreOn active opened
  case standby =>
    intro f s coreOn standby
    exact execFlashCompute_of_standby f coreOn standby
  case computed =>
    intro f s active computed
    exact execFlashCompute_of_no_period f active (State.openPeriod_of_computed computed)
  case good =>
    intro line word s q vs inRange loaderOn target values n few k
    have done : exec (.windowLoad line word ⟨false, n, k⟩) s = _ := execWindowLoad_of_good ⟨inRange, loaderOn, target, values⟩ k few
    rwa [State.queueLoad, State.add_sweep] at done
  case twoMismatches =>
    intro line word f s q vs inRange loaderOn target values two
    exact execWindowLoad_of_two_mismatches ⟨inRange, loaderOn, target, values⟩ two
  case crcFail =>
    intro line word n k s q vs inRange loaderOn target values few
    exact execWindowLoad_of_crc_fail ⟨inRange, loaderOn, target, values⟩ k few
  case noTarget =>
    intro line word f s target
    exact execWindowLoad_of_no_target f target
  case acknowledged =>
    intro c n s mayWrite pos records
    obtain ⟨state, defects, entries⟩ := s.onlyEntries_ackDefects n
    exact ⟨_, execDefectAck_of_records mayWrite pos records, defects, entries, state⟩
  case refused =>
    intro c n s mayWrite range
    exact execDefectAck_of_out_of_range mayWrite range

end Sys2Proof.Machine
end

section
/-! SUPPORT. What the work around the position and the decision points leaves to the headstock: the readiness of the pair, the wake of the
writing sides and the epoch of the beams change neither its record nor its objects, those of the indexes 2600 to 26FF. -/
namespace Sys2Proof.Machine

/-! ### Objects of the headstock -/

/-- An object of the headstock: indexes 2600 to 26FF. -/
abbrev ofHeadstock (o : ObjRef) : Prop := o / 65536 = 0x26

/-- From `s` to `t` the headstock and its objects stay: objects of other parts may differ, and the units, the pair, the head and the
on-chip stores. -/
structure State.KeepsHeadstock (s t : State) : Prop where
  state : t = { s with od := t.od, units := t.units, pair := t.pair, head := t.head, sram := t.sram }
  objects : ∀ o, ofHeadstock o → t.get o = s.get o

namespace State.KeepsHeadstock
variable {s t u : State}

theorem refl (s : State) : s.KeepsHeadstock s := ⟨rfl, fun _ _ => rfl⟩

theorem trans (st : s.KeepsHeadstock t) (tu : t.KeepsHeadstock u) : s.KeepsHeadstock u where
  state := by rw [tu.state, st.state]
  objects o ho := (tu.objects o ho).trans (st.objects o ho)

theorem hs (h : s.KeepsHeadstock t) : t.hs = s.hs := by rw [h.state]
theorem sweep (h : s.KeepsHeadstock t) : t.sweep = s.sweep := by rw [h.state]
theorem log (h : s.KeepsHeadstock t) : t.log = s.log := by rw [h.state]
theorem out (h : s.KeepsHeadstock t) : t.out = s.out := by rw [h.state]
theorem free (h : s.KeepsHeadstock t) : t.free = s.free := by rw [h.state]
theorem pins (h : s.KeepsHeadstock t) : t.pins = s.pins := by rw [h.state]

theorem getN (h : s.KeepsHeadstock t) {o : ObjRef} (ho : ofHeadstock o) : t.getN o = s.getN o := by
  simp only [State.getN, h.objects o ho]

/-- A count of the headstock made before stands. -/
theorem counts (h : t.KeepsHeadstock u) {o : ObjRef} (ho : ofHeadstock o) (ht : s.counts t o) : s.counts u o :=
  fun r hr hv => (h.objects o ho).trans (ht r hr hv)

end State.KeepsHeadstock

theorem State.keepsHeadstock_set (s : State) {o : ObjRef} (v : Int) (h : ¬ofHeadstock o) : s.KeepsHeadstock (s.set o v) :=
  ⟨rfl, fun _ hp => s.get_set_other v fun same => h (same ▸ hp)⟩

theorem State.keepsHeadstock_setN (s : State) {o : ObjRef} (v : Nat) (h : ¬ofHeadstock o) : s.KeepsHeadstock (s.setN o v) :=
  s.keepsHeadstock_set v h

theorem State.keepsHeadstock_inc (s : State) {o : ObjRef} (h : ¬ofHeadstock o) : s.KeepsHeadstock (s.inc o) :=
  ⟨by rw [s.inc_eq], fun _ hp => s.get_inc_other fun same => h (same ▸ hp)⟩

/-- A fold keeps the headstock where each of its steps does. -/
theorem State.keepsHeadstock_foldl {α : Type} {f : State → α → State} {l : List α}
    (step : ∀ (s : State), ∀ x ∈ l, s.KeepsHeadstock (f s x)) (s : State) :
    s.KeepsHeadstock (l.foldl f s) := by
  induction l generalizing s with
  | nil => exact .refl s
  | cons x l ih => exact (step s x List.mem_cons_self).trans (ih (fun s y hy => step s y (List.mem_cons_of_mem x hy)) _)

theorem State.counts_inc (s : State) (o : ObjRef) : s.counts (s.inc o) o := fun r hr hv => s.get_inc_self o r hr hv

/-! ### Readiness and wakes -/

theorem State.keepsHeadstock_refreshEligible (s : State) : s.KeepsHeadstock s.refreshEligible := by
  have set (v : Nat) : s.KeepsHeadstock (s.setN Obj.PAIR_STATE v) := s.keepsHeadstock_setN v (by decide)
  unfold State.refreshEligible
  split
  case isTrue =>
    split
    case isTrue => exact set 4
    case isFalse =>
      split
      case isTrue => exact (set 3).trans ⟨rfl, fun _ _ => rfl⟩
      case isFalse => exact .refl s
  case isFalse => exact .refl s

theorem not_ofHeadstock_of_region {o : ObjRef} {r : Nat} (h : r < 4) (low : o + 4 < 0x260000) : ¬ofHeadstock (o + r) :=
  have below : o + r < 65536 * 0x26 := Nat.lt_trans (Nat.add_lt_add_left h o) low
  Nat.ne_of_lt (Nat.div_lt_of_lt_mul below)

theorem State.keepsHeadstock_recountRegion (s : State) {r : Nat} (h : r < 4) : s.KeepsHeadstock (s.recountRegion r) := by
  have set (s : State) {o : ObjRef} (v : Nat) (low : o + 4 < 0x260000) : s.KeepsHeadstock (s.setN (o + r) v) :=
    s.keepsHeadstock_setN v (not_ofHeadstock_of_region h low)
  have counted (a b c : Nat) : s.KeepsHeadstock (((s.setN (Obj.RASTER_BLOCKS_IN_SERVICE + r) a).setN (Obj.GOUGE_CELLS_IN_SERVICE + r) b).setN
      (Obj.SLOT_LANES_IN_SERVICE + r) c) :=
    ((set _ a (by decide)).trans (set _ b (by decide))).trans (set _ c (by decide))
  unfold State.recountRegion
  dsimp only
  split
  case isTrue => exact counted _ _ _
  case isFalse => exact (counted _ _ _).trans (set _ _ (by decide))

theorem State.keepsHeadstock_setWriting (s : State) {r : Nat} (v : Nat) (h : r < 4) : s.KeepsHeadstock (s.setWriting r v) :=
  have write : s.KeepsHeadstock { s with units := { s.units with writing := setAt s.units.writing r v } } := ⟨rfl, fun _ _ => rfl⟩
  write.trans (State.keepsHeadstock_recountRegion _ h)

theorem State.keepsHeadstock_wakeWriting (s : State) : s.KeepsHeadstock s.wakeWriting := by
  refine State.keepsHeadstock_foldl (fun s r hr => ?_) s
  split
  case isTrue =>
    have inRange : r < 4 := by simp only [regions, List.mem_cons, List.not_mem_nil, or_false] at hr; omega
    exact s.keepsHeadstock_setWriting 1 inRange
  case isFalse => exact .refl s

theorem State.keepsHeadstock_wakeCheck (s : State) : s.KeepsHeadstock s.wakeCheck := by
  unfold State.wakeCheck
  split
  case isTrue => exact .refl s
  case isFalse =>
    dsimp only
    split
    case isTrue => exact s.keepsHeadstock_wakeWriting
    case isFalse => exact .refl s

end Sys2Proof.Machine
end

section
/-! SUPPORT. Proofs of the position port (R167 to R172): what its bit times bring, what a sample does once it is whole, and what a loss of
the position does, each said once; with them the statement StagePosition is settled. -/
namespace Sys2Proof.Machine

/-! ### Device time -/

@[simp] theorem State.at_hs (s : State) (t : Nat) : (s.at t).hs = s.hs := rfl

/-- A cycle that device time has reached does not move it. -/
theorem State.at_of_le {s : State} {t : Nat} (h : t ≤ s.clk.cycle) : s.at t = s := by
  rw [State.at, Nat.max_eq_left h]

theorem State.le_at_cycle (s : State) (t : Nat) : t ≤ (s.at t).clk.cycle := Nat.le_max_right _ t

theorem State.now_congr {s t : State} (clk : t.clk = s.clk) (step : t.getN Obj.TIME_INCREMENT = s.getN Obj.TIME_INCREMENT) :
    t.now = s.now := by
  simp only [State.now, clk, step]

/-! ### The record of the headstock -/

/-- The state with another record of the headstock. -/
def State.withHs (s : State) (h : Headstock) : State := { s with hs := h }

@[simp] theorem State.withHs_hs (s : State) (h : Headstock) : (s.withHs h).hs = h := rfl
@[simp] theorem State.get_withHs (s : State) (h : Headstock) (o : ObjRef) : (s.withHs h).get o = s.get o := rfl

/-! ### Bit times of the port -/

/-- The state with the port's receiver at `p`. -/
def State.withPort (s : State) (p : PosPort) : State := s.withHs { s.hs with port := p }

@[simp] theorem State.withPort_port (s : State) (p : PosPort) : (s.withPort p).hs.port = p := rfl
@[simp] theorem State.withPort_withPort (s : State) (p q : PosPort) : (s.withPort p).withPort q = s.withPort q := rfl

theorem State.portBits_of_none {s : State} {p : PosPort} {d : BitVec 4} (t : Nat) (ds : List (BitVec 4)) (h : s.hs.port.bit d = (p, .none)) :
    State.portBits t (d :: ds) s = State.portBits t ds (s.withPort p) := by
  simp only [State.portBits, h]
  rfl

theorem State.portBits_of_framing {s : State} {p : PosPort} {d : BitVec 4} (t : Nat) (h : s.hs.port.bit d = (p, .framing)) :
    State.portBits t [d] s = (s.withPort p).inc Obj.POS_FRAMING_ERRORS := by
  simp only [State.portBits, h]
  rfl

theorem State.portBits_of_sample {s : State} {p : PosPort} {d : BitVec 4} {b : BitVec 64} (t : Nat) (h : s.hs.port.bit d = (p, .sample b)) :
    State.portBits t [d] s = (s.withPort p).takeSample t b := by
  simp only [State.portBits, h, State.withPort, State.withHs, List.length_nil, Nat.mul_zero, Nat.zero_div, Nat.sub_zero]

theorem PosPort.bit_of_idle {p : PosPort} (busy : p.busy = false) :
    p.bit 0xF#4 = ({ idle := min 4 (p.idle + 1), wait := p.wait && min 4 (p.idle + 1) < 4 }, .none) := by
  simp [PosPort.bit, busy]

theorem PosPort.bit_of_waiting {p : PosPort} {d : BitVec 4} (busy : p.busy = false) (wait : p.wait = true) (level : d ≠ 0xF#4) :
    p.bit d = ({ wait := true }, .none) := by
  rw [PosPort.bit, if_neg (by simp [busy]), if_neg level, if_pos wait]

theorem PosPort.bit_of_neither {p : PosPort} {d : BitVec 4} (busy : p.busy = false) (wait : p.wait = false) (level : d ≠ 0xF#4)
    (start : ¬(d = 0#4 ∧ 4 ≤ p.idle)) : p.bit d = ({ wait := true }, .framing) := by
  rw [PosPort.bit, if_neg (by simp [busy]), if_neg level, if_neg (by simp [wait]), if_neg start]

theorem PosPort.bit_of_start {p : PosPort} (busy : p.busy = false) (wait : p.wait = false) (idle : 4 ≤ p.idle) :
    p.bit 0#4 = ({ wait := false, busy := true }, .none) := by
  rw [PosPort.bit, if_neg (by simp [busy]), if_neg (by decide), if_neg (by simp [wait]), if_pos ⟨rfl, idle⟩]

/-- The receiver while the data bit times of a sample arrive, `data` so far. -/
def dataPort (data : List (BitVec 4)) : PosPort := { wait := false, busy := true, data := data }

theorem bit_dataPort_of_more {data : List (BitVec 4)} (d : BitVec 4) (more : data.length + 1 < 16) :
    (dataPort data).bit d = (dataPort (data ++ [d]), .none) := by
  rw [PosPort.bit, if_pos (by rfl)]
  exact if_pos (by rw [List.length_append]; exact more)

theorem bit_dataPort_of_last {data : List (BitVec 4)} (d : BitVec 4) (last : data.length + 1 = 16) :
    (dataPort data).bit d = ({ wait := false }, .sample (sampleOf (data ++ [d]))) := by
  rw [PosPort.bit, if_pos (by rfl)]
  exact if_neg (by rw [List.length_append]; exact Nat.not_lt.mpr (Nat.le_of_eq last.symm))

/-- The data bit times that are left make the sample whole at the last of them. -/
theorem State.portBits_of_data (t : Nat) {ds : List (BitVec 4)} (some : ds ≠ []) {data : List (BitVec 4)} (s : State)
    (all : data.length + ds.length = 16) :
    State.portBits t ds (s.withPort (dataPort data)) = (s.withPort { wait := false }).takeSample t (sampleOf (data ++ ds)) := by
  induction ds generalizing data with
  | nil => exact absurd rfl some
  | cons d ds ih =>
    cases ds with
    | nil => exact State.portBits_of_sample t (bit_dataPort_of_last d all)
    | cons e es =>
      simp only [List.length_cons] at all
      rw [State.portBits_of_none t _ (bit_dataPort_of_more d (by omega)), List.append_cons data d (e :: es)]
      exact ih (List.cons_ne_nil e es) (data := data ++ [d]) (by simp only [List.length_append, List.length_cons, List.length_nil]; omega)

/-- Four idle bit times and a start bit bring a receiver that is not busy to the data of a sample. -/
theorem State.portBits_of_start (t : Nat) (ds : List (BitVec 4)) {s : State} (busy : s.hs.port.busy = false) :
    State.portBits t (0xF#4 :: 0xF#4 :: 0xF#4 :: 0xF#4 :: 0#4 :: ds) s = State.portBits t ds (s.withPort (dataPort [])) := by
  have full : min 4 (min 4 (min 4 (min 4 (s.hs.port.idle + 1) + 1) + 1) + 1) = 4 := by omega
  have awake {waits : Bool} : (waits && decide (min 4 (min 4 (min 4 (min 4 (s.hs.port.idle + 1) + 1) + 1) + 1) < 4)) = false := by
    rw [full, decide_eq_false (Nat.lt_irrefl 4), Bool.and_false]
  rw [State.portBits_of_none t _ (PosPort.bit_of_idle busy), State.portBits_of_none t _ (PosPort.bit_of_idle (by rfl)),
    State.portBits_of_none t _ (PosPort.bit_of_idle (by rfl)), State.portBits_of_none t _ (PosPort.bit_of_idle (by rfl)),
    State.portBits_of_none t _ (PosPort.bit_of_start (by rfl) awake (Nat.le_of_eq full.symm))]
  simp only [State.withPort_withPort]
  rfl

/-! ### The bits of a sample -/

/-- The nibbles of a number make it up again. -/
theorem foldr_nibbles (n x : Nat) : ((List.range n).map fun j => x / 16 ^ j % 16).foldr (fun d r => d + 16 * r) 0 = x % 16 ^ n := by
  induction n generalizing x with
  | zero => simp [Nat.mod_one]
  | succ n ih =>
    have shifted : (List.range n).map ((fun j => x / 16 ^ j % 16) ∘ Nat.succ) = (List.range n).map fun j => x / 16 / 16 ^ j % 16 := by
      refine List.map_congr_left fun j _ => ?_
      rw [Function.comp_apply, Nat.pow_succ', Nat.div_div_eq_div_mul]
    rw [List.range_succ_eq_map, List.map_cons, List.map_map, shifted, List.foldr_cons, ih, Nat.pow_succ' (m := 16), Nat.mod_mul]
    simp

theorem toNat_nibble (b : BitVec 64) (j : Nat) : ((b >>> (4 * j)).setWidth 4).toNat = b.toNat / 16 ^ j % 16 := by
  rw [BitVec.toNat_setWidth, BitVec.toNat_ushiftRight, Nat.shiftRight_eq_div_pow, Nat.pow_mul]

/-- The sixteen data bit times of a sample carry its bits. -/
theorem sampleOf_nibbles (b : BitVec 64) : sampleOf ((List.range 16).map fun j => (b >>> (4 * j)).setWidth 4) = b := by
  have digits := foldr_nibbles 16 b.toNat
  rw [List.foldr_map] at digits
  simp only [sampleOf, List.foldr_map, toNat_nibble]
  rw [digits, Nat.mod_eq_of_lt (Nat.lt_of_lt_of_eq b.isLt (by decide)), BitVec.ofNat_toNat, BitVec.setWidth_eq]

/-! ### A sample received whole -/

theorem execPositionSample_of_on {s : State} (t idle : Nat) (levels : List (BitVec 4)) (coreOn : s.coreOn = true) (enabled : s.posState ≠ 0) :
    execPositionSample t idle levels s = .next ((State.portBits t (List.replicate idle 0xF#4 ++ levels) s).at t) := by
  rw [execPositionSample, if_neg (by simp [coreOn, enabled])]

theorem execPositionSample_of_off {s : State} (t idle : Nat) (levels : List (BitVec 4)) (off : s.coreOn = false ∨ s.posState = 0) :
    execPositionSample t idle levels s = .next (s.at t) := by
  rw [execPositionSample, if_pos (off.imp_left (by simp [·]))]

/-- The bit times of a whole sample hand it over at the end of the last of them (R167). -/
theorem execPositionSample_of_sample {s : State} (t : Nat) (b : BitVec 64) (coreOn : s.coreOn = true) (enabled : s.posState ≠ 0)
    (busy : s.hs.port.busy = false) :
    execPositionSample t 0 (sampleLevels b) s = .next (((s.withPort { wait := false }).takeSample t b).at t) := by
  have start := State.portBits_of_start t ((List.range 16).map fun j => (b >>> (4 * j)).setWidth 4) busy
  have data := State.portBits_of_data t (ds := (List.range 16).map fun j => (b >>> (4 * j)).setWidth 4) (by simp) s
    (data := []) (by rw [List.length_map, List.length_range]; rfl)
  rw [List.nil_append, sampleOf_nibbles] at data
  rw [execPositionSample_of_on t 0 _ coreOn enabled]
  exact congrArg (fun u : State => Host.Outcome.next (u.at t)) (start.trans data)

theorem State.takeSample_of_bad_crc {b : BitVec 64} (s : State) (t : Nat) (crc : sampleCrcOk b = false) :
    s.takeSample t b = (s.at t).inc Obj.POS_CRC_ERRORS := by
  rw [State.takeSample]
  exact if_pos (by simp [crc])

/-- The last good sample lies within POS_TIMEOUT before cycle `t`. -/
theorem State.sampleStale_of_recent {s : State} {t : Nat} {q : Pred} (last : s.hs.preds.head? = some q) (recent : t ≤ q.t + s.posTimeout) :
    s.sampleStale t = false := by
  simp only [State.sampleStale, last, decide_eq_false_iff_not]
  exact Nat.not_lt.mpr recent

section
variable {s : State} {t : Nat} {b : BitVec 64} (crc : sampleCrcOk b = true) (recent : s.sampleStale t = false)
include crc recent

theorem State.takeSample_of_jump (jump : (s.at t).unwrap (sampleX b) = none) :
    s.takeSample t b = (s.at t).jumpDiscard.refreshEligible := by
  have recent' : (s.at t).sampleStale t = false := recent
  simp only [State.takeSample, crc, recent', Bool.not_true, Bool.false_eq_true, if_false, Bool.false_and, jump]

theorem State.takeSample_of_good {p : Int} (good : (s.at t).unwrap (sampleX b) = some p) (valid : s.posState = 2) :
    s.takeSample t b =
      ((((s.at t).goodSample t b p).countSample (!decide (s.hs.count = 0))).wakeCheck).refreshEligible := by
  have recent' : (s.at t).sampleStale t = false := recent
  have valid' : (s.at t).posState = 2 := valid
  simp only [State.takeSample, crc, recent', Bool.not_true, Bool.not_false, Bool.false_eq_true, if_false, Bool.false_and, Bool.true_and, good,
    valid', Nat.reduceEqDiff, State.at_hs]

end

/-! ### A good sample -/

/-- The record of the headstock after a good sample of cycle `t` that moves the position to `p`, with the velocity `v` (R171). -/
def Headstock.sampled (h : Headstock) (t : Nat) (b : BitVec 64) (p v : Int) : Headstock :=
  { h with preds := ((⟨t, p, sampleY b, v⟩ : Pred) :: h.preds).take 16, past := ((t, p) :: h.past).take 16, p := p, xLast := sampleX b,
           seqLast := some (sampleSeq b), base := false, waive := false, jumps := 0 }

/-- The objects of 2602 show a good sample, and it is counted (R169, R171). -/
def State.showSample (s : State) (b : BitVec 64) (p v : Int) : State :=
  (((((s.inc Obj.POS_SAMPLES_GOOD).set Obj.POS_SWEEP_PIXEL (toSigned 32 (toUnsigned 32 (p / 1024)))).set Obj.POS_SWEEP_FRACTION (p % 1024)).set
    Obj.POS_Y (sampleY b)).set Obj.POS_VELOCITY v).setN Obj.POS_TIME s.now

theorem State.velocity_of_oldest {t t0 : Nat} {p p0 : Int} {past : List (Nat × Int)} (s : State) (oldest : past.getLast? = some (t0, p0))
    (order : t0 < t) (low : rneDiv ((p - p0) * 2 ^ 24) (t - t0) ≥ -2 ^ 31) (high : rneDiv ((p - p0) * 2 ^ 24) (t - t0) < 2 ^ 31) :
    s.velocity t p past = (rneDiv ((p - p0) * 2 ^ 24) (t - t0), s) := by
  simp only [State.velocity, oldest]
  exact if_pos ⟨order, low, high⟩

theorem sampleSeq_next (b : BitVec 64) : sampleSeq b = ((sampleSeq b + 15) % 16 + 1) % 16 := by
  have : sampleSeq b < 16 := BitVec.isLt _
  omega

/-- A good sample whose number follows the last one's, on a base that is set. -/
theorem State.goodSample_of_next {s : State} {t : Nat} {b : BitVec 64} {p v : Int} (base : s.hs.base = false)
    (order : s.hs.seqLast = some ((sampleSeq b + 15) % 16)) (velocity : s.velocity t p (((t, p) :: s.hs.past).take 16) = (v, s)) :
    s.goodSample t b p = (s.withHs (s.hs.sampled t b p v)).showSample b p v := by
  simp only [State.goodSample, order, if_pos (sampleSeq_next b), base, Bool.false_eq_true, if_false, velocity, State.showSample]
  refine congrArg (State.setN _ Obj.POS_TIME) (State.now_congr ?clk ?step)
  case clk =>
    simp only [State.set_clk, State.inc_clk]
    rfl
  case step =>
    simp (disch := decide) only [State.getN, State.get_set_other, State.get_inc_other]
    rfl

theorem State.showSample_eq (s : State) (b : BitVec 64) (p v : Int) : s.showSample b p v = { s with od := (s.showSample b p v).od } := by
  rw [State.showSample, State.inc_eq]
  rfl

theorem State.get_showSample_other (s : State) (b : BitVec 64) (p v : Int) {o : ObjRef} (h : o ∉ [Obj.POS_SAMPLES_GOOD, Obj.POS_SWEEP_PIXEL,
    Obj.POS_SWEEP_FRACTION, Obj.POS_Y, Obj.POS_VELOCITY, Obj.POS_TIME]) : (s.showSample b p v).get o = s.get o := by
  simp only [List.mem_cons, List.not_mem_nil, or_false, not_or] at h
  obtain ⟨good, pixel, fraction, y, velocity, time⟩ := h
  rw [State.showSample, State.get_setN_other _ _ time, State.get_set_other _ _ velocity, State.get_set_other _ _ y,
    State.get_set_other _ _ fraction, State.get_set_other _ _ pixel, State.get_inc_other _ good]

theorem State.get_showSample (s : State) (b : BitVec 64) (p v : Int) : let u := s.showSample b p v
    u.get Obj.POS_SWEEP_PIXEL = toSigned 32 (toUnsigned 32 (p / 1024)) ∧ u.get Obj.POS_SWEEP_FRACTION = p % 1024 ∧
    u.get Obj.POS_Y = sampleY b ∧ u.get Obj.POS_VELOCITY = v ∧ u.getN Obj.POS_TIME = s.now := by
  dsimp only [State.showSample]
  refine ⟨?pixel, ?fraction, ?y, ?velocity, State.getN_setN_self _ _ _⟩
  all_goals simp (disch := decide) only [State.get_setN_other, State.get_set_other, State.get_set_self]

theorem State.counts_showSample (s : State) (b : BitVec 64) (p v : Int) : s.counts (s.showSample b p v) Obj.POS_SAMPLES_GOOD := by
  intro r row room
  simp (disch := decide) only [State.showSample, State.get_setN_other, State.get_set_other]
  exact s.counts_inc _ r row room

/-- A sample shown in VALID changes the record and objects alone, and the position stays VALID. -/
theorem State.showSample_keeps (s : State) (t : Nat) (b : BitVec 64) (p v : Int) (valid : s.posState = 2) :
    let u := (s.withHs (s.hs.sampled t b p v)).showSample b p v
    u.hs = s.hs.sampled t b p v ∧ u.free = s.free ∧ u.log = s.log ∧ u.posState = 2 := by
  dsimp only
  refine ⟨by rw [State.showSample_eq]; rfl, by rw [State.showSample_eq]; rfl, by rw [State.showSample_eq]; rfl, ?state⟩
  case state =>
    rw [State.posState, State.getN, State.get_showSample_other _ _ _ _ (by decide)]
    exact valid

/-- In VALID a good sample does not move the position state (Table 07-3). -/
theorem State.countSample_of_valid {s : State} (inTime : Bool) (valid : s.posState = 2) : s.countSample inTime = s := by
  simp [State.countSample, valid]

/-- In VALID a good sample sets the record and the objects of 2602, and the wake and the readiness that follow keep both. -/
theorem State.takeSample_of_next {s : State} {t : Nat} {b : BitVec 64} {p v : Int} (crc : sampleCrcOk b = true)
    (recent : s.sampleStale t = false) (good : s.unwrap (sampleX b) = some p) (valid : s.posState = 2) (base : s.hs.base = false)
    (order : s.hs.seqLast = some ((sampleSeq b + 15) % 16))
    (velocity : (s.at t).velocity t p (((t, p) :: s.hs.past).take 16) = (v, s.at t)) : let u := s.takeSample t b
    u.hs.p = p ∧ u.hs.xLast = sampleX b ∧ u.hs.preds = ((⟨t, p, sampleY b, v⟩ : Pred) :: s.hs.preds).take 16 ∧
    u.get Obj.POS_SWEEP_PIXEL = toSigned 32 (toUnsigned 32 (p / 1024)) ∧ u.get Obj.POS_SWEEP_FRACTION = p % 1024 ∧
    u.get Obj.POS_Y = sampleY b ∧ u.get Obj.POS_VELOCITY = v ∧ u.getN Obj.POS_TIME = (s.at t).now ∧ u.posState = 2 ∧
    s.counts u Obj.POS_SAMPLES_GOOD ∧ u.free = s.free ∧ u.log = s.log := by
  have shown : (s.at t).goodSample t b p = (((s.at t).withHs ((s.at t).hs.sampled t b p v)).showSample b p v) :=
    State.goodSample_of_next base order velocity
  obtain ⟨record, free, log, state⟩ := State.showSample_keeps (s.at t) t b p v valid
  obtain ⟨pixel, fraction, y, speed, time⟩ := ((s.at t).withHs ((s.at t).hs.sampled t b p v)).get_showSample b p v
  have counted : s.counts (((s.at t).withHs ((s.at t).hs.sampled t b p v)).showSample b p v) Obj.POS_SAMPLES_GOOD :=
    ((s.at t).withHs ((s.at t).hs.sampled t b p v)).counts_showSample b p v
  have kept : (((s.at t).withHs ((s.at t).hs.sampled t b p v)).showSample b p v).KeepsHeadstock (s.takeSample t b) := by
    rw [State.takeSample_of_good crc recent good valid, shown, State.countSample_of_valid _ state]
    exact (State.keepsHeadstock_wakeCheck _).trans (State.keepsHeadstock_refreshEligible _)
  dsimp only
  rw [kept.hs, record]
  exact ⟨rfl, rfl, rfl, (kept.objects _ (by decide)).trans pixel, (kept.objects _ (by decide)).trans fraction,
    (kept.objects _ (by decide)).trans y, (kept.objects _ (by decide)).trans speed, (kept.getN (by decide)).trans time,
    (kept.getN (by decide)).trans state, kept.counts (by decide) counted, kept.free.trans free, kept.log.trans log⟩

/-! ### The jump check -/

section
variable {s : State} {x : Nat} (base : s.hs.base = false) (waive : s.hs.waive = false)
include base waive

theorem State.unwrap_of_near (near : (toSigned 28 (toUnsigned 28 ((x : Int) - s.hs.xLast))).natAbs ≤ s.getN Obj.POS_JUMP_LIMIT) :
    s.unwrap x = some (s.hs.p + toSigned 28 (toUnsigned 28 ((x : Int) - s.hs.xLast))) := by
  simp only [State.unwrap, base, waive, Bool.false_eq_true, if_false]
  exact if_neg (by simpa only [Bool.not_false, Bool.true_and, decide_eq_true_eq, Int.ofNat_lt] using Nat.not_lt.mpr near)

theorem State.unwrap_of_jump (jump : s.getN Obj.POS_JUMP_LIMIT < (toSigned 28 (toUnsigned 28 ((x : Int) - s.hs.xLast))).natAbs) :
    s.unwrap x = none := by
  simp only [State.unwrap, base, waive, Bool.false_eq_true, if_false]
  exact if_pos (by simpa only [Bool.not_false, Bool.true_and, decide_eq_true_eq, Int.ofNat_lt] using jump)

end

/-! ### The loss of the position -/

/-- The record of the headstock after a loss, before it is entered in the log. -/
theorem State.losePosition_step (s : State) (v : Nat) : s.losePosition v =
    (((s.leaveValid.setN Obj.POS_STATE v).inc Obj.POS_LOSSES).withHs
      { ((s.leaveValid.setN Obj.POS_STATE v).inc Obj.POS_LOSSES).hs with
        waive := ((s.leaveValid.setN Obj.POS_STATE v).inc Obj.POS_LOSSES).hs.waive || v = 3, jumps := 0 }).logEvent
      ⟨2, 8, 255, 255, Obj.POS_LOSSES, v, 0⟩ := rfl

/-- A loss changes of the headstock's record the time of the loss, the waived check and the count of jumps (R172, R179). -/
theorem State.losePosition_eq (s : State) (v : Nat) : ∃ lostAt, s.losePosition v =
    { s with od := (s.losePosition v).od, log := (s.losePosition v).log,
             hs := { s.hs with lostAt := lostAt, waive := s.hs.waive || v = 3, jumps := 0 } } := by
  unfold State.losePosition State.leaveValid
  dsimp only
  rw [State.logEvent_eq, State.inc_eq]
  split
  case isTrue => exact ⟨_, rfl⟩
  case isFalse => exact ⟨_, rfl⟩

@[simp] theorem State.leaveValid_get (s : State) (o : ObjRef) : s.leaveValid.get o = s.get o := by
  unfold State.leaveValid
  split <;> rfl

theorem State.get_losePosition_other (s : State) (v : Nat) {o : ObjRef} (state : o ≠ Obj.POS_STATE) (losses : o ≠ Obj.POS_LOSSES)
    (log : o ∉ logObjects 2) : (s.losePosition v).get o = s.get o := by
  rw [State.losePosition_step, State.get_logEvent_other _ _ log, State.get_withHs, State.get_inc_other _ losses, State.get_setN_other _ _ state,
    State.leaveValid_get]

theorem State.losePosition_posState (s : State) (v : Nat) : (s.losePosition v).posState = v := by
  rw [State.posState, State.getN, State.losePosition_step, State.get_logEvent_other _ _ (show _ ∉ logObjects 2 by decide),
    State.get_withHs, State.get_inc_other _ (by decide),
    State.get_setN_self]
  rfl

theorem State.losePosition_counts (s : State) (v : Nat) : s.counts (s.losePosition v) Obj.POS_LOSSES := by
  have before : (s.leaveValid.setN Obj.POS_STATE v).get Obj.POS_LOSSES = s.get Obj.POS_LOSSES := by
    rw [State.get_setN_other _ _ (by decide), State.leaveValid_get]
  intro r row room
  rw [State.losePosition_step, State.get_logEvent_other _ _ (show _ ∉ logObjects 2 by decide), State.get_withHs, ← before]
  exact State.counts_inc _ _ r row (before ▸ room)

theorem State.losePosition_newestLog (s : State) (v : Nat) : (s.losePosition v).newestLog 2 8 Obj.POS_LOSSES :=
  State.newestLog_logEvent _ _

/-- The readiness of the pair, looked at after a loss, leaves what the loss did. -/
theorem State.keepsHeadstock_newestLog {s t : State} {c sub : Nat} {o : ObjRef} (h : s.KeepsHeadstock t) (newest : s.newestLog c sub o) :
    t.newestLog c sub o := by
  rw [State.newestLog, h.log]
  exact newest

/-! ### A discarded jump -/

/-- The state once a jump has been discarded and counted. -/
def State.jumpCounted (s : State) : State := (s.inc Obj.POS_JUMPS).withHs { s.hs with jumps := s.hs.jumps + 1 }

theorem State.jumpDiscard_of_valid {s : State} (valid : s.posState = 2) :
    s.jumpDiscard = if 2 ≤ s.hs.jumps then s.jumpCounted.losePosition 3 else s.jumpCounted := by
  have still : s.jumpCounted.posState = 2 := by
    rw [← valid]
    exact s.getN_inc_other (by decide)
  have third : 3 ≤ s.hs.jumps + 1 ↔ 2 ≤ s.hs.jumps := by omega
  calc s.jumpDiscard
      = if s.jumpCounted.posState = 2 ∧ 3 ≤ s.hs.jumps + 1 then s.jumpCounted.losePosition 3 else s.jumpCounted := rfl
    _ = if 2 ≤ s.hs.jumps then s.jumpCounted.losePosition 3 else s.jumpCounted := by simp only [still, true_and, third]

theorem State.counts_jumpCounted (s : State) : s.counts s.jumpCounted Obj.POS_JUMPS := s.counts_inc _

/-- What a discarded jump does in VALID: it is counted, the position stays, and the third in a row loses it (R169, R172). -/
theorem State.jumpDiscard_effect {s : State} (valid : s.posState = 2) :
    s.counts s.jumpDiscard Obj.POS_JUMPS ∧ s.jumpDiscard.hs.p = s.hs.p ∧ s.jumpDiscard.hs.preds = s.hs.preds ∧
    s.jumpDiscard.posState = if 2 ≤ s.hs.jumps then 3 else 2 := by
  rw [State.jumpDiscard_of_valid valid]
  split
  case isTrue =>
    obtain ⟨lostAt, record⟩ := s.jumpCounted.losePosition_eq 3
    refine ⟨fun r row room => ?_, by rw [record]; rfl, by rw [record]; rfl, State.losePosition_posState _ _⟩
    rw [State.get_losePosition_other _ _ (by decide) (by decide) (by decide)]
    exact s.counts_jumpCounted r row room
  case isFalse => exact ⟨s.counts_jumpCounted, rfl, rfl, (s.getN_inc_other (by decide)).trans valid⟩

/-! ### Timeout and fault -/

theorem execPosTimeout_of_stale {s : State} {t : Nat} (coreOn : s.coreOn = true) (valid : s.posState = 2) (stale : s.sampleStale t = true) :
    execPosTimeout t s = .next ((s.at t).losePosition 3).refreshEligible :=
  if_pos ⟨coreOn, valid, stale⟩

theorem execPosTimeout_of_recent {s : State} {t : Nat} (recent : s.sampleStale t = false) : execPosTimeout t s = .next (s.at t) := by
  have recent' : (s.at t).sampleStale t = false := recent
  exact if_neg (by simp [recent'])

theorem State.sampleStale_of_late {s : State} {t : Nat} {q : Pred} (last : s.hs.preds.head? = some q) (late : q.t + s.posTimeout < t) :
    s.sampleStale t = true := by
  simp only [State.sampleStale, last, late, decide_true]

/-- The state with POS_FAULT_N as given, true for low. -/
def State.withPosFault (s : State) (low : Bool) : State := { s with pins := { s.pins with posFault := low } }

theorem execPosFault_of_taken {s : State} {n : Nat} (long : 20 ≤ n) (coreOn : s.coreOn = true) (valid : s.posState = 2) :
    execPosFault n s = .next ((s.withPosFault true).losePosition 4).refreshEligible := by
  have coreOn' : (s.withPosFault true).coreOn = true := coreOn
  have valid' : (s.withPosFault true).posState = 2 := valid
  simp only [execPosFault, if_pos long, Bool.not_true, Bool.false_eq_true, if_false]
  exact if_neg (show ¬((!(s.withPosFault true).coreOn) = true ∨ (s.withPosFault true).posState = 0 ∨ (s.withPosFault true).posState = 4) by
    simp [coreOn', valid'])

theorem execPosFault_of_short (s : State) {n : Nat} (short : n ≤ 5) : execPosFault n s = .next s := by
  have notLong : ¬20 ≤ n := by omega
  simp only [execPosFault, if_neg notLong, if_pos short, Bool.not_false, if_true]

theorem execPosFaultClear_of_fault {s : State} (fault : s.posState = 4) :
    execPosFaultClear s = .next ((s.withPosFault false).withHs { s.hs with waive := true }).enterSearching :=
  if_pos fault

theorem execPosFaultClear_of_other {s : State} (other : s.posState ≠ 4) : execPosFaultClear s = .next (s.withPosFault false) :=
  if_neg other

/-! ### The statement -/

/-- Settles O28: each clause is one case of POSITION_SAMPLE, POS_TIMEOUT, POS_FAULT or POS_FAULT_CLEAR. -/
theorem stagePosition : Obligations.StagePosition := by
  unfold Obligations.StagePosition
  refine ⟨⟨?framing, ?waiting, ?badCrc, ?good, ?jump, ?idle, ?off⟩, ?timeout, ?recent, ?fault, ?short, ?clear, ?notFault⟩
  case framing =>
    intro t d s coreOn enabled busy wait level start
    have done : exec (.positionSample t 0 [d]) s = _ := execPositionSample_of_on t 0 [d] coreOn enabled
    rwa [List.replicate_zero, List.nil_append, State.portBits_of_framing t (PosPort.bit_of_neither busy wait level start)] at done
  case waiting =>
    intro t d s coreOn enabled busy wait level
    have done : exec (.positionSample t 0 [d]) s = _ := execPositionSample_of_on t 0 [d] coreOn enabled
    rwa [List.replicate_zero, List.nil_append, State.portBits_of_none t [] (PosPort.bit_of_waiting busy wait level)] at done
  case badCrc =>
    intro t b s coreOn enabled busy crc
    have done : exec (.positionSample t 0 (sampleLevels b)) s = _ := execPositionSample_of_sample t b coreOn enabled busy
    rwa [State.takeSample_of_bad_crc _ _ crc, State.at_of_le (by rw [State.inc_clk]; exact State.le_at_cycle _ _)] at done
  case good =>
    intro t b s q t0 p0 coreOn valid busy crc base waive last recent order d p near oldest order0 v low high
    have enabled : s.posState ≠ 0 := by omega
    have shown := State.takeSample_of_next (s := s.withPort { wait := false }) (p := p) (v := v) crc
      (State.sampleStale_of_recent last recent) (State.unwrap_of_near base waive near) valid base order
      (State.velocity_of_oldest _ oldest order0 low high)
    have done : exec (.positionSample t 0 (sampleLevels b)) s = _ := execPositionSample_of_sample t b coreOn enabled busy
    generalize (s.withPort { wait := false }).takeSample t b = u at done shown
    exact ⟨_, done, shown⟩
  case jump =>
    intro t b s q coreOn valid busy crc base waive last recent jump
    have enabled : s.posState ≠ 0 := by omega
    have discarded := State.takeSample_of_jump (s := s.withPort { wait := false }) crc (State.sampleStale_of_recent last recent)
      (State.unwrap_of_jump base waive jump)
    have kept := State.keepsHeadstock_refreshEligible ((s.withPort { wait := false }).at t).jumpDiscard
    obtain ⟨counted, p, preds, state⟩ := State.jumpDiscard_effect (s := (s.withPort { wait := false }).at t) valid
    have done : exec (.positionSample t 0 (sampleLevels b)) s = _ := execPositionSample_of_sample t b coreOn enabled busy
    rw [← discarded] at kept
    generalize (s.withPort { wait := false }).takeSample t b = u at done kept
    exact ⟨_, done, kept.counts (by decide) counted, (congrArg Headstock.p kept.hs).trans p,
      (congrArg Headstock.preds kept.hs).trans preds, (kept.getN (by decide)).trans state⟩
  case idle =>
    intro t n l s
    show execPositionSample t n l s = execPositionSample t 0 (List.replicate n 0xF#4 ++ l) s
    rw [execPositionSample, execPositionSample, List.replicate_zero, List.nil_append]
  case off =>
    intro t n l s off
    exact execPositionSample_of_off t n l off
  case timeout =>
    intro t s q coreOn valid last late _
    obtain ⟨lostAt, record⟩ := (s.at t).losePosition_eq 3
    have kept := ((s.at t).losePosition 3).keepsHeadstock_refreshEligible
    exact ⟨_, execPosTimeout_of_stale coreOn valid (State.sampleStale_of_late last late),
      (kept.getN (by decide)).trans (State.losePosition_posState _ _), kept.counts (by decide) ((s.at t).losePosition_counts 3),
      State.keepsHeadstock_newestLog kept (State.losePosition_newestLog _ _), by rw [kept.hs, record]; simp,
      by rw [kept.sweep, record]; rfl, by rw [kept.hs, record]; rfl⟩
  case recent =>
    intro t s q last recent
    exact execPosTimeout_of_recent (State.sampleStale_of_recent last recent)
  case fault =>
    intro n s long coreOn valid _
    obtain ⟨lostAt, record⟩ := (s.withPosFault true).losePosition_eq 4
    have kept := ((s.withPosFault true).losePosition 4).keepsHeadstock_refreshEligible
    exact ⟨_, execPosFault_of_taken long coreOn valid, (kept.getN (by decide)).trans (State.losePosition_posState _ _),
      by rw [kept.pins, record]; rfl, kept.counts (by decide) ((s.withPosFault true).losePosition_counts 4),
      State.keepsHeadstock_newestLog kept (State.losePosition_newestLog _ _)⟩
  case short =>
    intro n s short
    exact execPosFault_of_short s short
  case clear =>
    intro s fault
    exact execPosFaultClear_of_fault fault
  case notFault =>
    intro s other
    exact execPosFaultClear_of_other other

end Sys2Proof.Machine
end

section
/-! SUPPORT. Proofs of the decision points (R165, R173, R174, R249, R256): the epoch, the hold pin and the grid of a device that decides
nothing or follows, and the choice of an index; with them the statement DecisionPoints is settled. -/
namespace Sys2Proof.Machine

/-! ### Roles -/

theorem State.coreLocked_of_coreOn {s : State} (coreOn : s.coreOn = true) : s.clk.coreLocked = true := by
  simp only [State.coreOn, Bool.and_eq_true] at coreOn
  exact coreOn.2

theorem State.isStandby_of_active {s : State} (active : s.getN Obj.PAIR_STATE = 1) : s.isStandby = false := by
  simp [State.isStandby, active]

theorem State.recordsOn_of_releasing {s : State} (releasing : s.pair.releasing = true) : s.recordsOn = false := by
  simp [State.recordsOn, releasing]

theorem State.recordsOn_of_standby {s : State} (standby : s.isStandby = true) : s.recordsOn = false := by
  have other : s.getN Obj.PAIR_STATE ≠ 1 := fun active => by simp [State.isStandby_of_active active] at standby
  simp [State.recordsOn, other]

/-! ### The epoch of a device that sends no records -/

theorem State.keepsHeadstock_head (s : State) (h : Head) : s.KeepsHeadstock { s with head := h } := ⟨rfl, fun _ _ => rfl⟩

theorem State.keepsHeadstock_queueDisable (s : State) (b : Nat) : s.KeepsHeadstock (s.queueDisable b) :=
  (s.keepsHeadstock_setN (o := Obj.CMD_PENDING) _ (by decide)).trans (State.keepsHeadstock_head _ _)

theorem State.keepsHeadstock_addResults {s : State} (quiet : s.recordsOn = false) (cs : List (Nat × Nat)) :
    s.KeepsHeadstock (s.addResults cs) := by
  have mirrors : s.mirrorsOn = false := by simp [State.mirrorsOn, quiet]
  have unsent : s.sendBeams cs false = (s, none) := by simp [State.sendBeams, mirrors]
  rw [State.addResults]
  split
  case isTrue => exact .refl s
  case isFalse =>
    rw [unsent]
    exact s.keepsHeadstock_head _

theorem State.keepsHeadstock_killWords {s : State} (quiet : s.recordsOn = false) : s.KeepsHeadstock s.killWords :=
  (State.keepsHeadstock_addResults quiet _).trans (State.keepsHeadstock_foldl (fun s b _ => s.keepsHeadstock_queueDisable b) _)

theorem State.keepsHeadstock_putResult (s : State) (r : BeamResult) (before : List BeamResult) : s.KeepsHeadstock (s.putResult r before) := by
  rw [State.putResult]
  split
  case isTrue => exact .refl s
  case isFalse => exact s.keepsHeadstock_head _

theorem State.keepsHeadstock_setEdits (s : State) (es : List BeamResult) : s.KeepsHeadstock (s.setEdits es) :=
  (s.keepsHeadstock_setN (o := Obj.BEAM_EDITS_PENDING) _ (by decide)).trans (State.keepsHeadstock_head _ _)

theorem State.keepsHeadstock_dropKilled (s : State) : s.KeepsHeadstock s.dropKilled := ⟨rfl, fun _ _ => rfl⟩

theorem State.keepsHeadstock_recountBeams (s : State) : s.KeepsHeadstock s.recountBeams :=
  have count (s : State) (state n : Nat) (h : ¬ofHeadstock (Obj.BEAMS_IN_STATE + state)) :
      s.KeepsHeadstock (s.setN (Obj.BEAMS_IN_STATE + state) n) := s.keepsHeadstock_setN n h
  (((count s 0 _ (by decide)).trans (count _ 1 _ (by decide))).trans (count _ 2 _ (by decide))).trans (count _ 3 _ (by decide))

theorem State.recordsOn_inc (s : State) {o : ObjRef} (h : Obj.PAIR_STATE ≠ o) : (s.inc o).recordsOn = s.recordsOn := by
  simp only [State.recordsOn, s.getN_inc_other h, State.inc_pair]

/-- An epoch boundary that sends nothing changes the beams and their commands (R204). -/
theorem State.keepsHeadstock_epoch {s : State} (quiet : s.recordsOn = false) (k : Nat) : s.KeepsHeadstock (s.epoch k) := by
  have counted := s.keepsHeadstock_inc (o := Obj.BEAM_EPOCH) (by decide)
  have killed := State.keepsHeadstock_killWords ((s.recordsOn_inc (o := Obj.BEAM_EPOCH) (by decide)).trans quiet)
  unfold State.epoch
  split
  case isTrue => exact .refl s
  case isFalse =>
    have begun := (counted.trans killed).trans (State.keepsHeadstock_head _
      { (s.inc Obj.BEAM_EPOCH).killWords.head with epochDone := some k })
    refine State.KeepsHeadstock.trans ?_ (State.keepsHeadstock_recountBeams _)
    refine State.KeepsHeadstock.trans ?_ (State.keepsHeadstock_dropKilled _)
    refine State.KeepsHeadstock.trans ?_ (State.keepsHeadstock_setEdits _ _)
    refine State.KeepsHeadstock.trans ?_ (State.keepsHeadstock_head _ _)
    refine State.KeepsHeadstock.trans ?_ (State.keepsHeadstock_foldl (fun s r _ => s.keepsHeadstock_head _) _)
    refine State.KeepsHeadstock.trans ?_ (State.keepsHeadstock_foldl (fun s r _ => s.keepsHeadstock_putResult r _) _)
    split
    case h_1 =>
      split
      case isTrue => exact begun
      case isFalse => exact begun.trans (State.keepsHeadstock_head _ _)
    case h_2 => exact begun

theorem State.keepsHeadstock_ownEpoch {s : State} (quiet : s.recordsOn = false) : s.KeepsHeadstock s.ownEpoch := by
  rw [State.ownEpoch]
  split
  case isTrue => exact State.keepsHeadstock_epoch quiet _
  case isFalse => exact .refl s

/-! ### Hold pin, timeouts and grid -/

theorem State.takeHoldPin_eq (s : State) (hold : Bool) : s.takeHoldPin hold = { s with od := (s.takeHoldPin hold).od } := by
  unfold State.takeHoldPin
  dsimp only
  split
  case isTrue => rw [State.inc_eq]; rfl
  case isFalse => rfl

theorem State.get_takeHoldPin_other (s : State) (hold : Bool) {o : ObjRef} (level : o ≠ Obj.STAGE_HOLD) (periods : o ≠ Obj.HOLD_PERIODS) :
    (s.takeHoldPin hold).get o = s.get o := by
  unfold State.takeHoldPin
  dsimp only
  split
  case isTrue => rw [State.get_inc_other _ periods, State.get_setN_other _ _ level]
  case isFalse => exact s.get_setN_other _ level

theorem State.getN_takeHoldPin_other (s : State) (hold : Bool) {o : ObjRef} (level : o ≠ Obj.STAGE_HOLD) (periods : o ≠ Obj.HOLD_PERIODS) :
    (s.takeHoldPin hold).getN o = s.getN o := by
  simp only [State.getN, s.get_takeHoldPin_other hold level periods]

theorem State.stageHold_takeHoldPin (s : State) (hold : Bool) : (s.takeHoldPin hold).getN Obj.STAGE_HOLD = b2n hold := by
  unfold State.takeHoldPin
  dsimp only
  split
  case isTrue => rw [State.getN_inc_other _ (by decide), State.getN_setN_self]
  case isFalse => exact s.getN_setN_self _ _

@[simp] theorem State.takeHoldPin_hs (s : State) (hold : Bool) : (s.takeHoldPin hold).hs = s.hs := by rw [s.takeHoldPin_eq]
@[simp] theorem State.takeHoldPin_sweep (s : State) (hold : Bool) : (s.takeHoldPin hold).sweep = s.sweep := by rw [s.takeHoldPin_eq]
@[simp] theorem State.takeHoldPin_out (s : State) (hold : Bool) : (s.takeHoldPin hold).out = s.out := by rw [s.takeHoldPin_eq]
@[simp] theorem State.takeHoldPin_pair (s : State) (hold : Bool) : (s.takeHoldPin hold).pair = s.pair := by rw [s.takeHoldPin_eq]
@[simp] theorem State.takeHoldPin_head (s : State) (hold : Bool) : (s.takeHoldPin hold).head = s.head := by rw [s.takeHoldPin_eq]

@[simp] theorem State.recordsOn_takeHoldPin (s : State) (hold : Bool) : (s.takeHoldPin hold).recordsOn = s.recordsOn := by
  simp only [State.recordsOn, State.takeHoldPin_pair, s.getN_takeHoldPin_other hold (o := Obj.PAIR_STATE) (by decide) (by decide)]

/-- Without periods and with a fresh temperature no deadline passes (R200, R214). -/
theorem State.timeouts_of_none {s : State} (k : Nat) (none : s.hs.periods = []) (fresh : s.head.stale < s.getN Obj.TEMP_STALE_LIMIT) :
    s.timeouts k = s := by
  rw [State.timeouts, none]
  exact if_neg (Nat.not_le.mpr fresh)

theorem State.keepsHeadstock_refreshRails (s : State) : s.KeepsHeadstock s.refreshRails :=
  have dropped : s.KeepsHeadstock { s with pair := { s.pair with railPeriods := s.pair.railPeriods.filter fun k => s.hs.k < k + 17 } } :=
    ⟨rfl, fun _ _ => rfl⟩
  dropped.trans (State.keepsHeadstock_setN _ (o := Obj.RAIL_WINDOW) _ (by decide))

/-- The record of the headstock with the grid one period on (R165). -/
def Headstock.onePeriodOn (h : Headstock) (period : Nat) : Headstock := { h with k := h.k + 1, nextD := h.nextD + period }

/-- The grid moves on by one period, and RAIL_WINDOW follows (R165, R254). -/
theorem State.keepsHeadstock_nextGrid (s : State) : (s.withHs (s.hs.onePeriodOn (s.getN Obj.FLASH_PERIOD))).KeepsHeadstock s.nextGrid :=
  State.keepsHeadstock_refreshRails _

/-- After work that keeps the headstock the grid moves on as it would have without it. -/
theorem State.KeepsHeadstock.nextGrid {s t : State} (h : s.KeepsHeadstock t) : t.nextGrid.hs = s.hs.onePeriodOn (s.getN Obj.FLASH_PERIOD) ∧
    (∀ o, ofHeadstock o → t.nextGrid.getN o = s.getN o) ∧ t.nextGrid.sweep = s.sweep ∧ t.nextGrid.out = s.out := by
  have moved := t.keepsHeadstock_nextGrid
  refine ⟨?record, fun o ho => (moved.getN ho).trans (h.getN ho), moved.sweep.trans h.sweep, moved.out.trans h.out⟩
  case record => rw [moved.hs, State.withHs_hs, h.hs, h.getN (by decide)]

/-! ### Decision points -/

section
variable {s : State} (inp : DecisionInputs)

theorem execFlashDecision_of_active (coreOn : s.coreOn = true) (active : s.getN Obj.PAIR_STATE = 1) (releasing : s.pair.releasing = false) :
    execFlashDecision inp s = .next ((s.at s.hs.nextD).decideActive inp) := by
  have lead : (s.at s.hs.nextD).isStandby = false := State.isStandby_of_active active
  rw [execFlashDecision, if_neg (by simp [State.coreLocked_of_coreOn coreOn]), if_neg (by simp [coreOn])]
  simp only [lead, Bool.false_eq_true, if_false]
  exact if_neg (not_or.mpr ⟨not_not_intro active, by rw [show (s.at s.hs.nextD).pair = s.pair from rfl, releasing]; decide⟩)

theorem execFlashDecision_of_releasing (coreOn : s.coreOn = true) (active : s.getN Obj.PAIR_STATE = 1) (releasing : s.pair.releasing = true) :
    execFlashDecision inp s = .next ((s.at s.hs.nextD).decideNothing (!inp.stageHoldN)) := by
  have lead : (s.at s.hs.nextD).isStandby = false := State.isStandby_of_active active
  rw [execFlashDecision, if_neg (by simp [State.coreLocked_of_coreOn coreOn]), if_neg (by simp [coreOn])]
  simp only [lead, Bool.false_eq_true, if_false]
  exact if_pos (.inr releasing)

theorem execFlashDecision_of_standby (coreOn : s.coreOn = true) (standby : s.isStandby = true) :
    execFlashDecision inp s = .next ((s.at s.hs.nextD).decideStandby inp) := by
  rw [execFlashDecision, if_neg (by simp [State.coreLocked_of_coreOn coreOn]), if_neg (by simp [coreOn])]
  exact if_pos standby

theorem execFlashDecision_of_core_off (locked : s.clk.coreLocked = true) (off : s.coreOn = false) :
    execFlashDecision inp s = .next ((if s.hs.k % 64 = 0 then s.inc Obj.BEAM_EPOCH else s).nextGrid) := by
  rw [execFlashDecision, if_neg (by simp [locked]), if_pos (by simp [off])]

theorem execFlashDecision_of_unlocked (unlocked : s.clk.coreLocked = false) : execFlashDecision inp s = .next s := by
  rw [execFlashDecision, if_pos (by simp [unlocked])]

end

theorem State.get_nextGrid_other (s : State) {o : ObjRef} (h : o ≠ Obj.RAIL_WINDOW) : s.nextGrid.get o = s.get o :=
  State.get_setN_other _ _ h

/-- Before READY a period counts and every 64th is an epoch; nothing else is done at its decision point (R204). -/
theorem State.countEpoch_nextGrid (s : State) : let t := (if s.hs.k % 64 = 0 then s.inc Obj.BEAM_EPOCH else s).nextGrid
    t.hs = s.hs.onePeriodOn (s.getN Obj.FLASH_PERIOD) ∧ t.out = s.out ∧ (s.hs.k % 64 = 0 → s.counts t Obj.BEAM_EPOCH) ∧
    (s.hs.k % 64 ≠ 0 → t.getN Obj.BEAM_EPOCH = s.getN Obj.BEAM_EPOCH) := by
  dsimp only
  split
  case isTrue epoch =>
    obtain ⟨record, -, -, out⟩ := (s.keepsHeadstock_inc (o := Obj.BEAM_EPOCH) (by decide)).nextGrid
    refine ⟨record, out, fun _ r row room => ?_, fun other => absurd epoch other⟩
    rw [State.get_nextGrid_other _ (by decide)]
    exact s.counts_inc _ r row room
  case isFalse other =>
    obtain ⟨record, -, -, out⟩ := (State.KeepsHeadstock.refl s).nextGrid
    exact ⟨record, out, fun epoch => absurd epoch other, fun _ => congrArg Int.toNat (s.get_nextGrid_other (by decide))⟩

/-- A device that decides nothing takes the hold pin, counts its epoch and moves its grid on (R256). -/
theorem State.decideNothing_effect {s : State} (hold : Bool) (quiet : s.recordsOn = false) (none : s.hs.periods = [])
    (fresh : s.head.stale < s.getN Obj.TEMP_STALE_LIMIT) : let t := s.decideNothing hold
    t.hs = s.hs.onePeriodOn (s.getN Obj.FLASH_PERIOD) ∧ t.getN Obj.STAGE_HOLD = b2n hold ∧ t.sweep = s.sweep ∧ t.out = s.out := by
  have noTimeout : (s.takeHoldPin hold).timeouts s.hs.k = s.takeHoldPin hold :=
    State.timeouts_of_none _ (by simp [none])
      (by rw [State.takeHoldPin_head, State.getN_takeHoldPin_other _ _ (by decide) (by decide)]; exact fresh)
  have kept : (s.takeHoldPin hold).KeepsHeadstock (s.takeHoldPin hold).ownEpoch := State.keepsHeadstock_ownEpoch (by simp [quiet])
  obtain ⟨record, objects, sweep, out⟩ := kept.nextGrid
  dsimp only
  rw [State.decideNothing, noTimeout, record, objects _ (by decide), sweep, out, State.stageHold_takeHoldPin,
    State.getN_takeHoldPin_other _ _ (by decide) (by decide)]
  simp

/-- The state of a standby once it has aimed at what it saw and kept it (R242, R258). -/
def State.keepLook (s : State) (w : Look) : State := (s.pushTarget w).withHs { (s.pushTarget w).hs with looks := (w :: s.hs.looks).take 64 }

/-- A standby that does not claim keeps what it saw and moves its grid on (R242, R249). -/
theorem State.decideStandby_effect {s : State} (inp : DecisionInputs) (quiet : s.recordsOn = false) (claim : s.pair.claim = false)
    (none : s.hs.periods = []) (fresh : s.head.stale < s.getN Obj.TEMP_STALE_LIMIT) : let t := s.decideStandby inp
    t.hs.k = s.hs.k + 1 ∧ t.hs.nextD = s.hs.nextD + s.getN Obj.FLASH_PERIOD ∧ t.hs.periods = [] ∧
    t.hs.looks.head? = some (s.look (!inp.stageHoldN)) ∧ t.sweep = s.sweep ∧ t.out = s.out := by
  have noTimeout : (s.takeHoldPin !inp.stageHoldN).timeouts s.hs.k = s.takeHoldPin !inp.stageHoldN :=
    State.timeouts_of_none _ (by simp [none])
      (by rw [State.takeHoldPin_head, State.getN_takeHoldPin_other _ _ (by decide) (by decide)]; exact fresh)
  have period : (s.takeHoldPin !inp.stageHoldN).getN Obj.FLASH_PERIOD = s.getN Obj.FLASH_PERIOD :=
    s.getN_takeHoldPin_other _ (by decide) (by decide)
  let u := (s.takeHoldPin !inp.stageHoldN).keepLook (s.look !inp.stageHoldN)
  have kept : u.KeepsHeadstock (if u.getN Obj.PAIR_STATE = 0 then u.ownEpoch else u) := by
    split
    case isTrue => exact State.keepsHeadstock_ownEpoch ((s.recordsOn_takeHoldPin _).trans quiet)
    case isFalse => exact .refl u
  obtain ⟨record, -, sweep, out⟩ := kept.nextGrid
  have done : s.decideStandby inp = (if u.getN Obj.PAIR_STATE = 0 then u.ownEpoch else u).nextGrid := by
    rw [State.decideStandby, if_neg (by simp [claim]), noTimeout]
    rfl
  dsimp only
  rw [done, record, sweep, out]
  refine ⟨congrArg (·.k + 1) (s.takeHoldPin_hs _), congr (congrArg (·.nextD + ·) (s.takeHoldPin_hs _)) period,
    (congrArg (·.periods) (s.takeHoldPin_hs _)).trans none, rfl, s.takeHoldPin_sweep _, s.takeHoldPin_out _⟩

/-! ### The choice of an index -/

/-- The fit test of R173 for the index that a decision finds. -/
def State.inReach (s : State) (w : Look) (q : Pred) : Bool :=
  let d := 1024 * s.found w q - q.predict ((w.d + s.horizon : Nat) : Int)
  s.within d (d - rneDiv (q.v * (s.getN Obj.FLASH_PERIOD - s.tsettle)) (2 ^ 24)) q.y

/-- A decision that looks for an index (R173, Table 07-4): a sweep is armed in RUNNING or BURNISHING and its rest is not blanked, the
position is VALID without hold, the link runs and the writing sides are awake, and the index found is none before the sweep and no gap. -/
structure State.Seeks (s : State) (w : Look) (q : Pred) : Prop where
  armed : s.sweepArmed = true
  runs : s.jobState = 2 ∨ s.jobState = 4
  sample : w.q = some q
  ok : w.ok = true
  awake : w.awake = true
  rest : s.sweep.blankRest = false
  begun : 0 ≤ s.found w q
  noGap : s.isGap (s.found w q) = false

/-- The state once index `n` stands as the last one passed or issued. -/
def State.withPrev (s : State) (n : Int) : State := { s with sweep := { s.sweep with nPrev := n } }

/-- Where an index is sought, the last rows of Table 07-4 decide. -/
theorem State.choose_of_seeks {s : State} {w : Look} {q : Pred} (h : s.Seeks w q) : s.choose w true =
    if s.inReach w q = false then (s.inc Obj.RANGE_REFUSALS, { n := s.sweep.nPrev })
    else if s.found w q ≤ s.sweep.nPrev then
      ((s.inc Obj.REPEATS_BLANKED).inc Obj.FLASHES_ISSUED, { dec := 2, n := s.found w q, again := true })
    else if s.get Obj.SWEEP_LAST_INDEX < s.found w q then
      let p := s.passTo (s.sweep.nPrev + 1) (s.get Obj.SWEEP_LAST_INDEX)
      let n := max s.sweep.nPrev (s.get Obj.SWEEP_LAST_INDEX)
      (p.1.withPrev n, { n := n })
    else
      let p := s.passTo (s.sweep.nPrev + 1) (s.found w q - 1)
      ((p.1.withPrev (s.found w q)).issue (s.found w q), { dec := 1, n := s.found w q, jump := if p.1.hs.issued then p.2 else 0 }) := by
  obtain ⟨armed, runs, sample, ok, awake, rest, begun, noGap⟩ := h
  have sought : ¬((!s.sweepArmed || !(s.jobState = 2 || s.jobState = 4)) = true) := by
    simp only [armed, Bool.not_true, Bool.false_or, Bool.not_eq_true', Bool.or_eq_false_iff, decide_eq_false_iff_not]
    exact fun neither => runs.elim neither.1 neither.2
  have notBefore : ¬(s.found w q < 0 ∨ s.isGap (s.found w q) = true) := by simp [begun, noGap]
  rw [State.choose, if_neg sought]
  simp only [if_true, sample, awake, ok, Bool.not_true, Bool.false_and, Bool.false_eq_true, if_false, Bool.or_self, rest, false_and,
    if_neg notBefore, ← Bool.not_eq_true']
  rfl

/-- No index lies between neighbours: nothing is passed, and the skips count by none. -/
theorem State.passTo_of_empty (s : State) {a b : Int} (empty : b < a) : s.passTo a b = (s.add Obj.INDEXES_SKIPPED 0, 0) := by
  have noIndex : rangeI a b = [] := by
    rw [rangeI, Int.toNat_of_nonpos (by omega)]
    rfl
  simp only [State.passTo, noIndex, List.filter_nil, List.foldl_nil, List.length_nil]

/-! ### An index is issued -/

/-- The objects once index `n` is issued: the count of flashes, SWEEPING, the index of a Burnish sweep (R159, R174). -/
def State.issueObjects (s : State) (n : Int) : State :=
  let s := s.inc Obj.FLASHES_ISSUED
  let s := if s.sweepState = 1 then s.setN Obj.SWEEP_STATE 2 else s
  if s.burnishing then s.set Obj.BURNISH_FLASH_INDEX n else s

theorem State.get_snapshot_other (s : State) {o : ObjRef} (h : o ∉ [Obj.PROG_STRIPE, Obj.PROG_BAND, Obj.PROG_FLASH_INDEX, Obj.PROG_PERMILLE,
    Obj.PROG_PASS, Obj.PROG_TIME]) : s.snapshot.get o = s.get o := by
  simp only [List.mem_cons, List.not_mem_nil, or_false, not_or] at h
  obtain ⟨stripe, band, index, permille, pass, time⟩ := h
  rw [State.snapshot, State.get_setN_other _ _ time, State.get_setN_other _ _ pass, State.get_setN_other _ _ permille,
    State.get_set_other _ _ index, State.get_setN_other _ _ band, State.get_setN_other _ _ stripe]

theorem State.issueObjects_eq (s : State) (n : Int) : s.issueObjects n = { s with od := (s.issueObjects n).od } := by
  unfold State.issueObjects
  dsimp only
  rw [State.inc_eq]
  split <;> split <;> rfl

theorem State.sweepState_issueObjects (s : State) (n : Int) :
    (s.issueObjects n).sweepState = if s.sweepState = 1 then 2 else s.sweepState := by
  have counted : (s.inc Obj.FLASHES_ISSUED).sweepState = s.sweepState := s.getN_inc_other (by decide)
  have burnish (u : State) : (if u.burnishing then u.set Obj.BURNISH_FLASH_INDEX n else u).sweepState = u.sweepState := by
    split
    case isTrue => exact congrArg Int.toNat (u.get_set_other n (by decide))
    case isFalse => rfl
  unfold State.issueObjects
  dsimp only
  rw [burnish, counted]
  split
  case isTrue => exact State.getN_setN_self _ _ _
  case isFalse => exact counted

theorem State.counts_issueObjects (s : State) (n : Int) : s.counts (s.issueObjects n) Obj.FLASHES_ISSUED := by
  have burnish (u : State) : (if u.burnishing then u.set Obj.BURNISH_FLASH_INDEX n else u).get Obj.FLASHES_ISSUED = u.get Obj.FLASHES_ISSUED := by
    split
    case isTrue => exact u.get_set_other n (by decide)
    case isFalse => rfl
  intro r row room
  rw [← s.counts_inc Obj.FLASHES_ISSUED r row room]
  unfold State.issueObjects
  dsimp only
  rw [burnish]
  split
  case isTrue => exact State.get_setN_other _ _ (by decide)
  case isFalse => rfl

theorem State.burnishIndex_issueObjects {s : State} (n : Int) (burnishing : s.burnishing = true) :
    (s.issueObjects n).get Obj.BURNISH_FLASH_INDEX = n := by
  have kind : (s.inc Obj.FLASHES_ISSUED).getN Obj.SWEEP_KIND = s.getN Obj.SWEEP_KIND := s.getN_inc_other (by decide)
  have still : (if (s.inc Obj.FLASHES_ISSUED).sweepState = 1 then (s.inc Obj.FLASHES_ISSUED).setN Obj.SWEEP_STATE 2
      else s.inc Obj.FLASHES_ISSUED).burnishing = true := by
    rw [← burnishing, State.burnishing, State.burnishing]
    split
    case isTrue => rw [State.getN_setN_other _ _ (by decide), kind]
    case isFalse => rw [kind]
  unfold State.issueObjects
  dsimp only
  rw [if_pos still, State.get_set_self]

/-- The band of the armed stripe in which index `n` lies (R53). -/
def State.issueBand (s : State) (n : Int) : Nat :=
  match s.stripeOf s.sweep.stripe with
  | some st => (clampI 0 (st.bands - 1 : Nat) (s.pixelOf n / 4096)).toNat
  | none => 0

/-- The live progress once index `n` is issued, with a snapshot of it where the band or the stripe changes (R53). -/
def State.issueProgress (s : State) (n : Int) : State :=
  let t : State := { s with job := { s.job with liveStripe := s.sweep.stripe, liveBand := s.issueBand n, liveIndex := n } }
  if s.job.liveBand ≠ s.issueBand n || s.job.liveStripe ≠ s.sweep.stripe then
    { t with job := { t.job with permille := t.livePermille } }.snapshot
  else t

theorem State.issue_eq (s : State) (n : Int) : s.issue n = (s.issueObjects n).issueProgress n := rfl

/-- The progress shows the index and the stripe, and nothing else but the objects of 2101 moves. -/
theorem State.issueProgress_eq (s : State) (n : Int) : ∃ od job, s.issueProgress n = { s with od := od, job := job } ∧ job.liveIndex = n ∧
    job.liveStripe = s.sweep.stripe := by
  unfold State.issueProgress
  dsimp only
  split
  case isTrue => exact ⟨_, _, rfl, rfl, rfl⟩
  case isFalse => exact ⟨_, _, rfl, rfl, rfl⟩

theorem State.get_issueProgress_other (s : State) (n : Int) {o : ObjRef} (h : o ∉ [Obj.PROG_STRIPE, Obj.PROG_BAND, Obj.PROG_FLASH_INDEX,
    Obj.PROG_PERMILLE, Obj.PROG_PASS, Obj.PROG_TIME]) : (s.issueProgress n).get o = s.get o := by
  unfold State.issueProgress
  dsimp only
  split
  case isTrue => exact State.get_snapshot_other _ h
  case isFalse => rfl

/-- An issue makes index `n` the last of the sweep's flashes, counted and shown (R53, R159, R174). -/
theorem State.issue_effect (s : State) (n : Int) : let t := s.issue n
    t.sweep = s.sweep ∧ t.job.liveIndex = n ∧ t.job.liveStripe = s.sweep.stripe ∧
    t.sweepState = (if s.sweepState = 1 then 2 else s.sweepState) ∧ s.counts t Obj.FLASHES_ISSUED ∧
    (s.burnishing = true → t.get Obj.BURNISH_FLASH_INDEX = n) ∧ t.log = s.log ∧ t.hs = s.hs := by
  obtain ⟨od, job, progress, index, stripe⟩ := (s.issueObjects n).issueProgress_eq n
  have objects := s.issueObjects_eq n
  have sweep : (s.issueObjects n).sweep = s.sweep := by rw [objects]
  dsimp only
  rw [s.issue_eq]
  refine ⟨?sweep, ?index, ?stripe, ?state, ?count, ?burnish, ?log, ?hs⟩
  case sweep => rw [progress, objects]
  case index => rw [progress]; exact index
  case stripe => rw [progress, ← sweep]; exact stripe
  case state =>
    rw [State.sweepState, State.getN, State.get_issueProgress_other _ _ (by decide)]
    exact s.sweepState_issueObjects n
  case count =>
    intro r row room
    rw [State.get_issueProgress_other _ _ (by decide)]
    exact s.counts_issueObjects n r row room
  case burnish =>
    intro burnishing
    rw [State.get_issueProgress_other _ _ (by decide)]
    exact State.burnishIndex_issueObjects n burnishing
  case log => rw [progress, objects]
  case hs => rw [progress, objects]

/-- The state once index `n`, next to the one issued last, is issued: no index is passed (R173). -/
def State.issueNext (s : State) (n : Int) : State := ((s.add Obj.INDEXES_SKIPPED 0).withPrev n).issue n

theorem State.issueNext_effect (s : State) (n : Int) : let t := s.issueNext n
    t.sweep.nPrev = n ∧ t.job.liveIndex = n ∧ t.job.liveStripe = s.sweep.stripe ∧
    t.sweepState = (if s.sweepState = 1 then 2 else s.sweepState) ∧ s.counts t Obj.FLASHES_ISSUED ∧
    (s.burnishing = true → t.get Obj.BURNISH_FLASH_INDEX = n) ∧ t.log = s.log ∧ t.hs = s.hs := by
  let u := (s.add Obj.INDEXES_SKIPPED 0).withPrev n
  have same {o : ObjRef} (h : o ≠ Obj.INDEXES_SKIPPED) : u.get o = s.get o := s.get_add_other 0 h
  have state : u.sweepState = s.sweepState := congrArg Int.toNat (same (by decide))
  have kind : u.burnishing = s.burnishing := by
    rw [State.burnishing, State.burnishing, State.getN, State.getN, same (by decide)]
  obtain ⟨sweep, index, stripe, issued, count, burnish, log, hs⟩ := u.issue_effect n
  rw [state] at issued
  rw [kind] at burnish
  have sameStripe : (s.add Obj.INDEXES_SKIPPED 0).sweep.stripe = s.sweep.stripe := by rw [s.add_sweep]
  refine ⟨congrArg Sweep.nPrev sweep, index, stripe.trans sameStripe, issued, fun r row room => ?count, burnish, log.trans (s.add_log _ _),
    hs.trans (s.add_hs _ _)⟩
  case count =>
    have before := same (o := Obj.FLASHES_ISSUED) (by decide)
    exact before ▸ count r row (before ▸ room)

section
variable {s : State} {w : Look} {q : Pred} (h : s.Seeks w q)
include h

theorem State.choose_of_out_of_reach (far : s.inReach w q = false) : s.choose w true = (s.inc Obj.RANGE_REFUSALS, { n := s.sweep.nPrev }) :=
  (State.choose_of_seeks h).trans (if_pos far)

theorem State.choose_of_issued (near : s.inReach w q = true) (old : s.found w q ≤ s.sweep.nPrev) :
    s.choose w true = ((s.inc Obj.REPEATS_BLANKED).inc Obj.FLASHES_ISSUED, { dec := 2, n := s.found w q, again := true }) := by
  rw [State.choose_of_seeks h, if_neg (by simp [near]), if_pos old]

theorem State.choose_of_next (near : s.inReach w q = true) (next : s.found w q = s.sweep.nPrev + 1)
    (inside : s.found w q ≤ s.get Obj.SWEEP_LAST_INDEX) :
    s.choose w true = (s.issueNext (s.found w q), { dec := 1, n := s.found w q }) := by
  rw [State.choose_of_seeks h, if_neg (by simp [near]), if_neg (by omega), if_neg (Int.not_lt.mpr inside), s.passTo_of_empty (by omega)]
  dsimp only
  rw [ite_self, State.issueNext]

end

/-! ### The statement -/

/-- Settles O30: the clauses are the cases of FLASH_DECISION, and rows of Table 07-4 for a sweep that seeks an index. A releasing device decides
nothing (assumption 76), and epochs count before READY (assumption 152). -/
theorem decisionPoints : Obligations.DecisionPoints := by
  unfold Obligations.DecisionPoints
  refine ⟨⟨?active, ?releasing, ?standby, ?coreOff, ?unlocked⟩, ?choice⟩
  case active =>
    intro inp s coreOn active releasing
    exact execFlashDecision_of_active inp coreOn active releasing
  case releasing =>
    intro inp s coreOn active releasing none fresh
    obtain ⟨record, hold, sweep, out⟩ := State.decideNothing_effect (s := s.at s.hs.nextD) (!inp.stageHoldN)
      (State.recordsOn_of_releasing releasing) none fresh
    exact ⟨_, execFlashDecision_of_releasing inp coreOn active releasing, congrArg Headstock.k record, congrArg Headstock.nextD record,
      (congrArg Headstock.periods record).trans none, hold, sweep, out⟩
  case standby =>
    intro inp s coreOn standby claim none fresh
    exact ⟨_, execFlashDecision_of_standby inp coreOn standby, State.decideStandby_effect (s := s.at s.hs.nextD) inp
      (State.recordsOn_of_standby standby) claim none fresh⟩
  case coreOff =>
    intro inp s locked off
    obtain ⟨record, out, counted, still⟩ := s.countEpoch_nextGrid
    exact ⟨_, execFlashDecision_of_core_off inp locked off, congrArg Headstock.k record, congrArg Headstock.nextD record, counted, still,
      by rw [record]; rfl, out⟩
  case unlocked =>
    intro inp s unlocked
    exact execFlashDecision_of_unlocked inp unlocked
  case choice =>
    intro s w q armed runs sample ok awake rest pp n d0 d1 begun noGap
    have seeks : s.Seeks w q := ⟨armed, runs, sample, ok, awake, rest, begun, noGap⟩
    refine ⟨fun far => ?_, fun near old => ?_, fun near next inside => ?_⟩
    · exact State.choose_of_out_of_reach seeks far
    · exact State.choose_of_issued seeks near old
    · exact ⟨_, State.choose_of_next seeks near next inside, s.issueNext_effect n⟩

end Sys2Proof.Machine
end

section
/-! SUPPORT. Proofs of the tracking deflector (R180 to R183): the words while a sweep tracks and without one, the start and the stop of the link;
with them the statement DeflectorWords is settled. -/
namespace Sys2Proof.Machine

/-! ### Words -/

/-- A word pair goes out, each word clamped to 16 bits, each clamp counted (R181). -/
def State.sendWords (s : State) (w : Int × Int) : State :=
  let x := clampI (-32768) 32767 w.1
  let y := clampI (-32768) 32767 w.2
  (((s.add Obj.DEFL_CLAMPS (b2n (x ≠ w.1) + b2n (y ≠ w.2))).set Obj.DEFL_WORD_X x).set Obj.DEFL_WORD_Y y).emit (.deflector x y)

/-- The words that stand without tracking (R181). -/
def State.offsetWords (s : State) : Int × Int := (s.get Obj.DEFL_OFFSET_X, s.get Obj.DEFL_OFFSET_Y)

theorem clampI_of_mem {lo hi x : Int} (low : lo ≤ x) (high : x ≤ hi) : clampI lo hi x = x := by
  rw [clampI, if_neg (Int.not_lt.mpr low), if_neg (Int.not_lt.mpr high)]

/-- Offsets that fit a word go out as they are. -/
theorem State.sendWords_of_word {s : State} {x y : Int} (lowX : -32768 ≤ x) (highX : x ≤ 32767) (lowY : -32768 ≤ y) (highY : y ≤ 32767) :
    s.sendWords (x, y) = (((s.add Obj.DEFL_CLAMPS 0).set Obj.DEFL_WORD_X x).set Obj.DEFL_WORD_Y y).emit (.deflector x y) := by
  simp [State.sendWords, clampI_of_mem lowX highX, clampI_of_mem lowY highY, b2n]

theorem execDeflectorWord_of_stopped {s : State} (t : Nat) (stopped : s.getN Obj.DEFL_LINK_STATE ≠ 1) : execDeflectorWord t s = .next s :=
  if_pos stopped

/-- The latest sample that has arrived in time for the DAC sample time `t`, with its place among the samples kept (R183). -/
def State.sampleInUse (s : State) (t : Nat) : Option Nat := s.hs.preds.findIdx? fun q => q.t + 7 + s.getN Obj.DEFL_OUT_DELAY ≤ t

/-- The target from cycle `t` on (R182). -/
def State.targetAt (s : State) (t : Nat) : Option Int := (s.hs.targets.find? fun x => x.1 ≤ t).bind (·.2)

/-- The words for a sample and a target where no gate check steers: tracking while a sweep is armed in VALID, else the offsets. -/
def State.trackOrRest (s : State) (t : Nat) (use : Option Nat) (q : Pred) (nt : Int) : (Int × Int) × State :=
  if s.posState = 2 && s.sweepArmed then
    let first := s.hs.worded ≠ some q.t
    let v := if first then ((use.bind fun i => s.hs.preds[i + 1]?).map (·.v)).getD q.v else q.v
    (s.trackWords nt q v t, s.withHs { s.hs with worded := some q.t })
  else (s.offsetWords, s)

/-- The words where no gate check steers, and the state that has used them. -/
def State.wordsAt (s : State) (t : Nat) : (Int × Int) × State :=
  match (s.sampleInUse t).bind fun i => s.hs.preds[i]?, s.targetAt t with
  | some q, some nt => s.trackOrRest t (s.sampleInUse t) q nt
  | _, _ => (s.offsetWords, s)

theorem execDeflectorWord_of_link {s : State} {t : Nat} (link : s.getN Obj.DEFL_LINK_STATE = 1) (noGate : s.gateRuns = false) :
    execDeflectorWord t s = .next ((s.wordsAt t).2.sendWords (s.wordsAt t).1) := by
  rw [execDeflectorWord, if_neg (not_not_intro link), noGate]
  rfl

/-- Without a sweep the offsets stand, whatever samples and targets there are (R181). -/
theorem State.wordsAt_of_no_sweep {s : State} (t : Nat) (idle : s.sweepArmed = false) : s.wordsAt t = (s.offsetWords, s) := by
  rw [State.wordsAt]
  split
  case h_1 => exact if_neg (by simp [idle])
  case h_2 => rfl

/-- While a sweep tracks, a sample that a word has used before gives the words of its own velocity (R181, R183). -/
theorem State.wordsAt_of_tracking {s : State} {t t0 : Nat} {q : Pred} {rest : List Pred} {n : Int} (valid : s.posState = 2)
    (armed : s.sweepArmed = true) (samples : s.hs.preds = q :: rest) (arrived : q.t + 7 + s.getN Obj.DEFL_OUT_DELAY ≤ t)
    (used : s.hs.worded = some q.t) (target : (s.hs.targets.find? fun x => x.1 ≤ t) = some (t0, some n)) :
    s.wordsAt t = (s.trackWords n q q.v t, s.withHs { s.hs with worded := some q.t }) := by
  have first : s.sampleInUse t = some 0 := by
    rw [State.sampleInUse, samples, List.findIdx?_cons, if_pos (decide_eq_true arrived)]
  have latest : s.hs.preds[0]? = some q := by rw [samples]; rfl
  have aim : s.targetAt t = some n := by rw [State.targetAt, target]; rfl
  rw [State.wordsAt, first, Option.bind_some, latest, aim]
  simp only [State.trackOrRest, valid, armed, used, ne_eq, not_true_eq_false, if_false, decide_true, Bool.and_self, if_true]

/-! ### The link -/

theorem execDeflLinkChange_of_start {s : State} (enabled : s.on Obj.DEFL_LINK_ENABLE = true) (coreOn : s.coreOn = true) :
    execDeflLinkChange true s = .next ((s.setN Obj.DEFL_LINK_STATE 1).driveSysref).refreshEligible := by
  rw [execDeflLinkChange, if_neg (by simp [enabled, coreOn])]
  rfl

theorem execDeflLinkChange_of_core_off {s : State} (off : s.coreOn = false) : execDeflLinkChange true s = .next s :=
  if_pos (by simp [off])

theorem execDeflLinkChange_of_stop (s : State) :
    execDeflLinkChange false s = .next ((s.setN Obj.DEFL_LINK_STATE 0).driveSysref).refreshEligible := by
  rw [execDeflLinkChange, if_neg (by simp)]
  rfl

/-- SYSREF is driven where it was not, in the mode in effect (R180). -/
theorem State.driveSysref_out {s : State} (link : s.getN Obj.DEFL_LINK_STATE = 1) (quiet : s.pins.sysref = none) : s.driveSysref.out =
    s.out ++ [.sysref (some (if s.getN Obj.SYSREF_MODE = 1 then 1280 * s.getN Obj.SYSREF_PERIOD else 0))] := by
  rw [State.driveSysref, quiet, if_neg (not_not_intro link)]
  rfl

/-! ### The statement -/

/-- Settles O29: the clauses are the cases of DEFLECTOR_WORD and DEFL_LINK_CHANGE. -/
theorem deflectorWords : Obligations.DeflectorWords := by
  unfold Obligations.DeflectorWords
  refine ⟨?tracking, ?offsets, ?stopped, ?start, ?stop, ?coreOff⟩
  case tracking =>
    intro t s q rest t0 n link noGate valid armed samples arrived used target dx sg wx wy x y
    have done : exec (.deflectorWord t) s = _ := execDeflectorWord_of_link link noGate
    rwa [State.wordsAt_of_tracking valid armed samples arrived used target] at done
  case offsets =>
    intro t s link noGate idle lowX highX lowY highY
    have done : exec (.deflectorWord t) s = _ := execDeflectorWord_of_link link noGate
    rwa [State.wordsAt_of_no_sweep t idle, State.offsetWords, State.sendWords_of_word lowX highX lowY highY] at done
  case stopped =>
    intro t s stopped
    exact execDeflectorWord_of_stopped t stopped
  case start =>
    intro s enabled coreOn
    refine ⟨execDeflLinkChange_of_start enabled coreOn, fun quiet => ?_⟩
    have driven := State.driveSysref_out (s.getN_setN_self Obj.DEFL_LINK_STATE 1) quiet
    rwa [State.getN_setN_other _ _ (by decide), State.getN_setN_other _ _ (by decide)] at driven
  case stop =>
    intro s
    exact execDeflLinkChange_of_stop s
  case coreOff =>
    intro s off
    exact execDeflLinkChange_of_core_off off

end Sys2Proof.Machine
end

section
/-! SUPPORT. Proofs of the firing check, FRAME_SYNC and the strobes (R175, R194, R195), each said once as an equation per case; with them
the statement FiringAndSync is settled. -/
namespace Sys2Proof.Machine

/-! ### The firing check -/

/-- A period that is alone is found where it meets what is looked for. -/
theorem State.find?_alone {s : State} {p : Period} {f : Period → Bool} (alone : s.hs.periods = [p]) (meets : f p = true) :
    s.hs.periods.reverse.find? f = some p := by
  rw [alone, List.reverse_singleton, List.find?_singleton, if_pos meets]

theorem State.find?_alone_none {s : State} {p : Period} {f : Period → Bool} (alone : s.hs.periods = [p]) (fails : f p = false) :
    s.hs.periods.reverse.find? f = none := by
  rw [alone, List.reverse_singleton, List.find?_singleton, if_neg (by simp [fails])]

section
variable {s : State} {p : Period} (coreOn : s.coreOn = true) (active : s.isStandby = false) (alone : s.hs.periods = [p])
  (due : p.checks = true) (inTime : s.hs.k ≤ p.k + 8)
include coreOn active alone due inTime

theorem execFiringCheck_of_due : execFiringCheck s = .next (s.checkFiring p) := by
  have found := State.find?_alone (f := fun p => p.checks && s.hs.k ≤ p.k + 8) alone (by simp [due, inTime])
  rw [execFiringCheck, if_neg (by simp [coreOn, active])]
  simp only [found]

end

theorem State.checkFiring_of_ok {s : State} {p : Period} (ok : (s.at (p.fire - 4)).fireOk p = true) :
    s.checkFiring p = (s.at (p.fire - 4)).putPeriod { p with check := some true } := by
  simp only [State.checkFiring, ok, if_true]

theorem State.checkFiring_of_out {s : State} {p : Period} (out : (s.at (p.fire - 4)).fireOk p = false) :
    s.checkFiring p = ((s.at (p.fire - 4)).inc Obj.FIRE_WITHHELD).putPeriod { p with check := some false } := by
  simp only [State.checkFiring, out, Bool.false_eq_true, if_false]

/-! ### FRAME_SYNC -/

theorem execFrameSync_of_outputs_off {s : State} (off : s.outputsOn = false) : execFrameSync s = .next s :=
  if_pos (.inr (.inr (by simp [off])))

theorem execFrameSync_of_withheld {s : State} {p : Period} (alone : s.hs.periods = [p]) (withheld : s.withheld p = true) :
    execFrameSync s = .next s := by
  have none := State.find?_alone_none (f := fun p => p.syncs && !s.withheld p && s.hs.k ≤ p.k + 8) alone (by simp [withheld])
  rw [execFrameSync]
  split
  case isTrue => rfl
  case isFalse => simp only [none]

theorem execFrameSync_of_due {s : State} {p : Period} (coreOn : s.coreOn = true) (active : s.isStandby = false) (outputs : s.outputsOn = true)
    (alone : s.hs.periods = [p]) (syncs : p.syncs = true) (free : s.withheld p = false) (inTime : s.hs.k ≤ p.k + 8) (checked : p.checks = false) :
    execFrameSync s = .next (s.raiseSync p) := by
  have found := State.find?_alone (f := fun p => p.syncs && !s.withheld p && s.hs.k ≤ p.k + 8) alone (by simp [syncs, free, inTime])
  have again : s.hs.periods.find? (·.k = p.k) = some p := by rw [alone, List.find?_singleton, if_pos (by simp)]
  have passed : p.check ≠ some false := fun failed => by simp [State.withheld, failed] at free
  rw [execFrameSync, if_neg (by simp [coreOn, active, outputs])]
  simp only [found, checked, Bool.false_eq_true, if_false, again, if_neg passed]

/-! ### What FRAME_SYNC raises -/

/-- Until period k_1 of a takeover has its FRAME_SYNC no interruption is shown (R260). -/
theorem State.showInterruption_of_none {s : State} (none : s.pair.k1 = 0 ∨ kvGet s.pair.frameSyncs s.pair.k1 = none) :
    s.showInterruption = s := by
  have shown : (if s.pair.k1 = 0 then Option.none else kvGet s.pair.frameSyncs s.pair.k1) = Option.none := by
    split
    case isTrue => rfl
    case isFalse first => exact none.resolve_left first
  simp only [State.showInterruption, shown]

/-- The groups fire one after the other; an output moves no strobe of the groups after it. -/
theorem State.foldl_fire (s : State) (p : Period) (gs : List Nat) :
    gs.foldl (fun (s : State) g => s.emit (.fire p.k g (s.strobes p g))) s =
      { s with out := s.out ++ gs.map fun g => .fire p.k g (s.strobes p g) } := by
  induction gs generalizing s with
  | nil => rw [List.foldl_nil, List.map_nil, List.append_nil]
  | cons g gs ih =>
    rw [List.foldl_cons, ih, List.map_cons, List.append_cons]
    rfl

/-- The state once the period `p` has its FRAME_SYNC, entered among those kept for a takeover (R194, R260). -/
def State.synced (s : State) (p : Period) : State :=
  { s.at p.fire with
    hs := { s.hs with periods := [{ p with sync := true }] }
    pair := { s.pair with frameSyncs := ((p.k, p.fire) :: s.pair.frameSyncs).take 32 } }

theorem State.raiseSync_of_alone {s : State} {p : Period} (alone : s.hs.periods = [p])
    (first : s.pair.k1 = 0 ∨ kvGet (((p.k, p.fire) :: s.pair.frameSyncs).take 32) s.pair.k1 = none) :
    s.raiseSync p = { s.synced p with
      out := s.out ++ .frameSync p.k :: (List.range 8).map fun g => Output.fire p.k g (s.strobes p g) } := by
  have put : (s.at p.fire).putPeriod { p with sync := true } = (s.at p.fire).withHs { s.hs with periods := [{ p with sync := true }] } := by
    rw [State.putPeriod, State.at_hs, alone, List.map_singleton, if_pos rfl]
    rfl
  rw [State.raiseSync]
  dsimp only
  rw [put, State.foldl_fire, State.showInterruption_of_none first, List.append_cons]
  rfl

/-- Sub-strobe `j` of a group whose slot is its own number (R195). -/
theorem State.strobes_getElem? {s : State} (p : Period) {j : Nat} (g : Nat) (sub : j < 15) (fixed : s.on Obj.FIRE_ROTATE = false) :
    (s.strobes p g)[j]? =
      some (4 * g * s.get Obj.FIRE_STAGGER * s.get Obj.FIRE_WIDTH + s.get (Obj.FIRE_TRIM + g) + 32 * j * s.get Obj.FIRE_WIDTH,
        4 * g * s.get Obj.FIRE_STAGGER * s.get Obj.FIRE_WIDTH + s.get (Obj.FIRE_TRIM + g) + 32 * j * s.get Obj.FIRE_WIDTH +
          16 * s.get Obj.FIRE_WIDTH) := by
  simp only [State.strobes, fixed, Bool.false_eq_true, if_false, List.getElem?_map, List.getElem?_range sub, Option.map_some]

/-! ### The statement -/

/-- Settles O31: the clauses are the cases of FIRING_CHECK and FRAME_SYNC, and the strobes of a group that does not rotate. Both
commands take the one period that is in the pipeline (assumption 71). -/
theorem firingAndSync : Obligations.FiringAndSync := by
  unfold Obligations.FiringAndSync
  refine ⟨?ok, ?out, ?sync, ?strobes, ?withheld, ?outputsOff⟩
  case ok =>
    intro s p coreOn active alone due inTime ok
    have done : exec .firingCheck s = _ := execFiringCheck_of_due coreOn active alone due inTime
    rwa [State.checkFiring_of_ok ok] at done
  case out =>
    intro s p coreOn active alone due inTime out
    have done : exec .firingCheck s = _ := execFiringCheck_of_due coreOn active alone due inTime
    rwa [State.checkFiring_of_out out] at done
  case sync =>
    intro s p coreOn active outputs alone syncs free inTime checked first
    have done : exec .frameSync s = _ := execFrameSync_of_due coreOn active outputs alone syncs free inTime checked
    rwa [State.raiseSync_of_alone alone first] at done
  case strobes =>
    intro s p g j sub _ fixed
    exact State.strobes_getElem? p g sub fixed
  case withheld =>
    intro s p alone withheld
    exact execFrameSync_of_withheld alone withheld
  case outputsOff =>
    intro s off
    exact execFrameSync_of_outputs_off off

end Sys2Proof.Machine
end

section
/-! SUPPORT. Proofs of the head's reports: acknowledgements (R198 to R200, Table 08-6), stale temperatures (R214), commands without an echo
(R208) and the lane and gate links (R198, R209); with them the statement HeadReports is settled. -/
namespace Sys2Proof.Machine

/-! ### The decision of a period -/

theorem State.isStandby_congr {s t : State} (same : t.getN Obj.PAIR_STATE = s.getN Obj.PAIR_STATE) : t.isStandby = s.isStandby := by
  simp only [State.isStandby, same]

/-- From `s` to `t` what follows the decision of a period is entered: the interruption shown, the frames not fired, the shots of
calibration and the history of flashes. -/
structure State.NotesDecision (s t : State) : Prop where
  state : t = { s with od := t.od, cal := t.cal, hist := t.hist }
  objects : s.sameObjects t [Obj.LAST_INTERRUPTION, Obj.FRAMES_NOT_FIRED]

namespace State.NotesDecision
variable {s t u : State}

theorem refl (s : State) : s.NotesDecision s := ⟨rfl, fun _ _ => rfl⟩

theorem trans (st : s.NotesDecision t) (tu : t.NotesDecision u) : s.NotesDecision u where
  state := by rw [tu.state, st.state]
  objects o ho := (tu.objects o ho).trans (st.objects o ho)

theorem hs (h : s.NotesDecision t) : t.hs = s.hs := by rw [h.state]
theorem head (h : s.NotesDecision t) : t.head = s.head := by rw [h.state]
theorem log (h : s.NotesDecision t) : t.log = s.log := by rw [h.state]

end State.NotesDecision

theorem State.notesDecision_showInterruption (s : State) : s.NotesDecision s.showInterruption := by
  have shown (n : Nat) : s.NotesDecision (s.setN Obj.LAST_INTERRUPTION n) :=
    ⟨rfl, fun _ ho => s.get_setN_other n fun same => ho (same ▸ List.mem_cons_self)⟩
  unfold State.showInterruption
  split
  case h_2 => exact .refl s
  case h_1 =>
    split
    case isTrue => exact .refl s
    case isFalse =>
      dsimp only
      split
      case h_1 => exact shown _
      case h_2 => exact .refl s

theorem State.notesDecision_noteShot (s : State) (p : Period) (fired : BitVec 24) : s.NotesDecision (s.noteShot p fired) := by
  unfold State.noteShot
  split
  case h_2 => exact .refl s
  case h_1 =>
    split
    case isTrue => exact .refl s
    case isFalse =>
      split
      case isTrue => exact ⟨rfl, fun _ _ => rfl⟩
      case isFalse => exact ⟨rfl, fun _ _ => rfl⟩

theorem State.notesDecision_notFired (s : State) (n : Nat) : s.NotesDecision (s.add Obj.FRAMES_NOT_FIRED n) :=
  ⟨by rw [s.add_eq], fun _ ho => s.get_add_other n fun same => ho (same ▸ List.mem_cons_of_mem _ List.mem_cons_self)⟩

/-- The period once its frames are decided. -/
def Period.decideBy (p : Period) (v : Verdict) (fired : BitVec 24) : Period := { p with verdict := some v, decided := some fired }

/-- A decision is entered in its period; the rest only takes note of it (R199, R200). -/
theorem State.notesDecision_decideFrames (s : State) (p : Period) (v : Verdict) (fired : BitVec 24) :
    (s.putPeriod (p.decideBy v fired)).NotesDecision (s.decideFrames p v fired) :=
  (((State.notesDecision_showInterruption _).trans (State.notesDecision_noteShot _ p fired)).trans (State.notesDecision_notFired _ _)).trans
    ⟨rfl, fun _ _ => rfl⟩

theorem State.takeVerdict_of_active {s : State} (p : Period) (v : Verdict) (fired : BitVec 24) (active : s.isStandby = false) :
    s.takeVerdict p v fired = s.decideFrames p v fired :=
  if_neg (by simp [active])

/-- A period that is known holds what is put in its place. -/
theorem State.mem_putPeriod {s : State} {p q : Period} (known : p ∈ s.hs.periods) (same : q.k = p.k) : q ∈ (s.putPeriod q).hs.periods :=
  List.mem_map.2 ⟨p, known, if_pos same.symm⟩

/-! ### The head temperature (R214) -/

theorem State.setThermal_eq (s : State) (v : Nat) :
    s.setThermal v = { s with head := { s.head with thermal := (s.setThermal v).head.thermal } } := by
  unfold State.setThermal
  split <;> rfl

theorem State.headTemp_eq (s : State) (temp : Int) :
    s.headTemp temp = { s.set Obj.HEAD_TEMP temp with head := { s.head with thermal := (s.headTemp temp).head.thermal } } := by
  have changed (v : Nat) := (s.set Obj.HEAD_TEMP temp).setThermal_eq v
  unfold State.headTemp
  dsimp only
  split
  case h_1 => rfl
  case h_2 =>
    split
    case isTrue => exact changed 2
    case isFalse =>
      split
      case isTrue => exact changed 1
      case isFalse =>
        split
        case isTrue => exact changed 0
        case isFalse => rfl

theorem State.get_headTemp (s : State) (temp : Int) (o : ObjRef) : (s.headTemp temp).get o = if o = Obj.HEAD_TEMP then temp else s.get o := by
  rw [State.headTemp_eq]
  exact s.get_set _ _ _

theorem State.setThermal_of_new {s : State} {v : Nat} (idle : s.head.thermal = none) (new : s.getN Obj.THERMAL_STATE ≠ v) :
    s.setThermal v = { s with head := { s.head with thermal := some v } } :=
  if_neg (by simpa [idle] using new)

theorem execTempStale_of_stale {s : State} (coreOn : s.coreOn = true) (stale : s.getN Obj.TEMP_STALE_LIMIT ≤ s.head.stale) :
    execTempStale s = .next (s.setThermal 2) := by
  rw [execTempStale, if_pos coreOn, State.tempStale, if_pos stale]

theorem execTempStale_of_fresh {s : State} (fresh : s.head.stale < s.getN Obj.TEMP_STALE_LIMIT) : execTempStale s = .next s := by
  rw [execTempStale, State.tempStale, if_neg (Nat.not_le.2 fresh), ite_self]

/-! ### Commands of the head (R208) -/

theorem State.echo_cases (s : State) (e : Nat) : s.echo e = s ∨ ∃ cs, s.echo e = s.setCmds cs := by
  unfold State.echo
  split
  case h_1 c r _ =>
    split
    case isTrue => exact .inr ⟨r, rfl⟩
    case isFalse => exact .inl rfl
  case h_2 => exact .inl rfl

theorem State.get_setCmds_other (s : State) (cs : List HeadCmd) {o : ObjRef} (h : o ≠ Obj.CMD_PENDING) : (s.setCmds cs).get o = s.get o :=
  s.get_setN_other _ h

/-- An echo changes CMD_PENDING and the commands that wait. -/
theorem State.echo_eq (s : State) (e : Nat) :
    s.echo e = { s with od := (s.echo e).od, head := { s.head with cmds := (s.echo e).head.cmds } } := by
  rcases s.echo_cases e with same | ⟨cs, ended⟩
  · rw [same]
  · rw [ended]; rfl

theorem State.get_echo_other (s : State) (e : Nat) {o : ObjRef} (h : o ≠ Obj.CMD_PENDING) : (s.echo e).get o = s.get o := by
  rcases s.echo_cases e with same | ⟨cs, ended⟩
  · rw [same]
  · rw [ended, s.get_setCmds_other cs h]

/-- The event of a command without an echo (R208, assumption 114). -/
def HeadCmd.unechoedEvent (c : HeadCmd) : Ev := ⟨2, 7, c.beam % 640 / 160, laneOf c.beam, Obj.CMD_RETRIES, c.field, 0⟩

theorem State.unechoed_of_due {s : State} {c : HeadCmd} {r : List HeadCmd} (cmds : s.head.cmds = c :: r) (due : 1024 ≤ c.periods)
    (fresh : c.logged = false) : s.unechoed = (s.setCmds ({ c with logged := true } :: r)).logEvent c.unechoedEvent := by
  rw [State.unechoed, cmds]
  exact if_pos ⟨due, by simp [fresh]⟩

theorem State.unechoed_of_logged {s : State} {c : HeadCmd} {r : List HeadCmd} (cmds : s.head.cmds = c :: r) (logged : c.logged = true) :
    s.unechoed = s := by
  rw [State.unechoed, cmds]
  exact if_neg (by simp [logged])

theorem execCmdUnechoed_of_on {s : State} (coreOn : s.coreOn = true) : execCmdUnechoed s = .next s.unechoed := by
  rw [execCmdUnechoed, if_pos coreOn]

theorem execCmdUnechoed_of_logged {s : State} {c : HeadCmd} {r : List HeadCmd} (cmds : s.head.cmds = c :: r) (logged : c.logged = true) :
    execCmdUnechoed s = .next s := by
  rw [execCmdUnechoed, State.unechoed_of_logged cmds logged, ite_self]

/-- A command entered in the log stays outstanding, marked as entered. -/
theorem State.setCmds_logEvent_effect (s : State) (cs : List HeadCmd) (e : Ev) (class2 : e.cls = 2) :
    let t := (s.setCmds cs).logEvent e
    t.head.cmds = cs ∧ t.newestLog 2 e.subsys e.obj ∧ t.getN Obj.CMD_PENDING = cs.length ∧
      s.onlyLogged { t with head := s.head } 2 [Obj.CMD_PENDING] := by
  dsimp only
  refine ⟨?cmds, class2 ▸ State.newestLog_logEvent _ e, ?pending, ?state, fun o ho => ?object⟩
  case cmds => rw [State.logEvent_head]; rfl
  case pending =>
    rw [State.getN, State.get_logEvent_other _ _ (by rw [class2]; decide)]
    exact s.getN_setN_self _ _
  case state => rw [State.logEvent_eq]; rfl
  case object =>
    obtain ⟨pending, log⟩ := not_or.1 (mt List.mem_cons.2 ho)
    exact ((s.setCmds cs).get_logEvent_other e (class2 ▸ log)).trans (s.get_setCmds_other cs pending)

/-! ### Acknowledgements (R198, R199) -/

section
variable {s : State} {h t : Nat} {m : AckMessage} (coreOn : s.coreOn = true) (lane : h < 2) (locked : s.getN (Obj.HST_LANE_STATE + h) = 1)
include coreOn lane locked

/-- A message on a locked lane is taken. -/
theorem lane_takes_message : ¬(!(s.at t).coreOn ∨ 2 ≤ h ∨ (s.at t).getN (Obj.HST_LANE_STATE + h) ≠ 1) := by
  have on : (s.at t).coreOn = true := coreOn
  rw [on]
  exact not_or.2 ⟨by decide, not_or.2 ⟨Nat.not_le.2 lane, not_not_intro locked⟩⟩

theorem execAcknowledgement_of_wrong_crc (wrong : crc32iso (ackBytes m) ≠ m.crc) :
    execAcknowledgement h t m s = .next ((s.at t).inc Obj.ACK_CRC_ERRORS) := by
  rw [execAcknowledgement]
  dsimp only
  rw [if_neg (lane_takes_message coreOn lane locked), if_pos wrong]

variable (crc : crc32iso (ackBytes m) = m.crc)
include crc

theorem execAcknowledgement_of_period {p : Period}
    (found : (s.hs.periods.find? fun p => p.k % 2 ^ 32 = m.frame && s.hs.k ≤ p.k + 1024) = some p) (outstanding : p.outstanding = true)
    (inTime : t ≤ p.due) : execAcknowledgement h t m s = .next ((s.at t).acceptCopy p m) := by
  rw [execAcknowledgement]
  dsimp only
  rw [if_neg (lane_takes_message coreOn lane locked), if_neg (not_not_intro crc), State.at_hs, found]
  exact if_pos ⟨outstanding, inTime⟩

theorem execAcknowledgement_of_no_period
    (none : (s.hs.periods.find? fun p => p.k % 2 ^ 32 = m.frame && s.hs.k ≤ p.k + 1024) = none) :
    execAcknowledgement h t m s = .next ((s.at t).inc Obj.ACK_STRAY) := by
  rw [execAcknowledgement]
  dsimp only
  rw [if_neg (lane_takes_message coreOn lane locked), if_neg (not_not_intro crc), State.at_hs, none]
  rfl

end

/-- A run of steps each of which changes nothing changes nothing. -/
theorem foldl_eq_self {σ α : Type} {f : σ → α → σ} {l : List α} (s : σ) (same : ∀ s, ∀ x ∈ l, f s x = s) : l.foldl f s = s := by
  induction l with
  | nil => rfl
  | cons x l ih => rw [List.foldl_cons, same s x List.mem_cons_self, ih fun s y hy => same s y (List.mem_cons_of_mem x hy)]

/-- The state in which an accepted copy is counted, its echo taken and the head no longer silent. -/
def State.heard (s : State) (m : AckMessage) : State :=
  let u := (s.inc Obj.ACKS_ACCEPTED).echo m.cmdEcho.toNat
  { u with head := { u.head with stale := 0 } }

theorem State.get_heard_other (s : State) (m : AckMessage) {o : ObjRef} (pending : o ≠ Obj.CMD_PENDING) :
    (s.heard m).get o = (s.inc Obj.ACKS_ACCEPTED).get o :=
  State.get_echo_other _ _ pending

theorem State.heard_eq (s : State) (m : AckMessage) :
    s.heard m = { s with od := (s.heard m).od, head := { s.head with cmds := (s.heard m).head.cmds, stale := 0 } } := by
  rw [State.heard]
  dsimp only
  rw [State.echo_eq, State.inc_eq]

/-- A copy without a fault of any lane decides its period and gives the temperature, and no more. -/
theorem State.acceptCopy_of_clean {s : State} {p : Period} {m : AckMessage} (active : s.isStandby = false)
    (clean : ∀ l < 24, laneVerdict p m l = .fired ∨ laneVerdict p m l = .notFired) (received : ∀ l ∈ p.sentLanes, m.rxOk.getLsbD l = true) :
    s.acceptCopy p m =
      ((s.heard m).decideFrames p (.accepted m.fired.toNat m.rxOk.toNat) (firedMask p m)).headTemp m.temp := by
  have lanes : (p.sentLanes.filter fun l => !m.rxOk.getLsbD l) = [] :=
    List.filter_eq_nil_iff.2 fun l hl => by simp [received l hl]
  have standby : ((s.inc Obj.ACKS_ACCEPTED).echo m.cmdEcho.toNat).isStandby = false := by
    rw [← active]
    refine State.isStandby_congr ?_
    rw [State.getN, State.get_echo_other _ _ (by decide), State.get_inc_other _ (by decide), State.getN]
  have heard : (s.heard m).isStandby = false := standby
  rw [State.acceptCopy]
  dsimp only
  rw [foldl_eq_self ((s.inc Obj.ACKS_ACCEPTED).echo m.cmdEcho.toNat) fun u l hl => ?_, lanes, List.foldl_nil, standby]
  · exact congrArg (State.headTemp · m.temp) (State.takeVerdict_of_active _ _ _ heard)
  · rcases clean l (List.mem_range.1 hl) with fired | notFired
    · rw [fired]
    · rw [notFired]

/-- What an accepted copy of a known period leaves (R199, R214). -/
theorem State.decided_effect {s : State} {p : Period} (m : AckMessage) (known : p ∈ s.hs.periods) :
    let u := ((s.heard m).decideFrames p (.accepted m.fired.toNat m.rxOk.toNat) (firedMask p m)).headTemp m.temp
    s.counts u Obj.ACKS_ACCEPTED ∧ u.getN Obj.HEAD_TEMP = m.temp.toNat ∧ u.head.stale = 0 ∧
      (∃ q ∈ u.hs.periods, q.k = p.k ∧ q.verdict = some (.accepted m.fired.toNat m.rxOk.toNat) ∧ q.decided = some (firedMask p m)) ∧
      u.log = s.log ∧ u.head.table = s.head.table := by
  have noted := (s.heard m).notesDecision_decideFrames p (.accepted m.fired.toNat m.rxOk.toNat) (firedMask p m)
  have known' : p ∈ (s.heard m).hs.periods := by rw [State.heard_eq]; exact known
  dsimp only
  refine ⟨fun r row room => ?count, ?temp, ?stale, ⟨p.decideBy _ _, ?mem, rfl, rfl, rfl⟩, ?log, ?table⟩
  case count =>
    rw [State.get_headTemp, if_neg (by decide), noted.objects _ (by decide)]
    exact (s.get_heard_other m (by decide)).trans (s.counts_inc _ r row room)
  case temp => rw [State.getN, State.get_headTemp, if_pos rfl]
  case stale => rw [State.headTemp_eq, noted.head]; rfl
  case mem =>
    rw [State.headTemp_eq, State.set_hs, noted.hs]
    exact State.mem_putPeriod known' rfl
  case log => rw [State.headTemp_eq, State.set_log, noted.log, State.heard_eq]; rfl
  case table => rw [State.headTemp_eq, noted.head, State.heard_eq]; rfl

/-! ### Deadlines (R200) -/

theorem execAckTimeout_of_due {s : State} {p : Period} (coreOn : s.coreOn = true) (active : s.isStandby = false) (alone : s.hs.periods = [p])
    (outstanding : p.outstanding = true) (due : p.k + 8 ≤ s.hs.k) : execAckTimeout s =
      .next (({ s.inc Obj.ACK_TIMEOUTS with head := { s.head with stale := s.head.stale + 1 } } : State).decideFrames p .timeout 0) := by
  have found := State.find?_alone (f := fun p => p.outstanding && p.k + 8 ≤ s.hs.k) alone (by simp [outstanding, due])
  have standby : (s.inc Obj.ACK_TIMEOUTS).isStandby = false := by
    rw [← active]
    exact State.isStandby_congr (s.getN_inc_other (by decide))
  rw [execAckTimeout, if_pos coreOn, State.timeoutOne, found]
  exact congrArg _ (State.takeVerdict_of_active p .timeout 0 standby)

/-! ### Lane and gate links (R198, R209) -/

theorem execHstLaneLock_of_on {s : State} {l : Nat} (lane : l < 2) (coreOn : s.coreOn = true) :
    execHstLaneLock l s = .next (s.setN (Obj.HST_LANE_STATE + l) 1).refreshEligible := by
  rw [execHstLaneLock, if_neg (by simp [lane, coreOn])]

theorem execGateRxLinkChange_of_on {s : State} (coreOn : s.coreOn = true) :
    execGateRxLinkChange true s = .next (s.setN Obj.GATE_RX_STATE 1) := by
  rw [execGateRxLinkChange, if_neg (by simp [coreOn]), b2n, if_pos rfl]

/-! ### The statement -/

/-- Settles O33: each clause is one case of ACKNOWLEDGEMENT, ACK_TIMEOUT, TEMP_STALE, CMD_UNECHOED, HST_LANE_LOCK or GATE_RX_LINK_CHANGE. A
command without an echo is entered for CMD_RETRIES (assumption 114). -/
theorem headReports : Obligations.HeadReports := by
  unfold Obligations.HeadReports
  refine ⟨⟨?wrongCrc, ?accepted, ?stray, ?timeout⟩, ?stale, ?fresh, ?unechoed, ?logged, ?lane, ?gateUp, ?gateDown⟩
  case wrongCrc =>
    intro h t m s coreOn lane locked wrong
    exact execAcknowledgement_of_wrong_crc coreOn lane locked wrong
  case accepted =>
    intro h t m s p coreOn lane locked crc found outstanding inTime active clean received
    have done : exec (.acknowledgement h t m) s = _ := execAcknowledgement_of_period coreOn lane locked crc found outstanding inTime
    rw [State.acceptCopy_of_clean (s := s.at t) active clean received] at done
    exact ⟨_, done, (s.at t).decided_effect m (List.mem_of_find?_eq_some found)⟩
  case stray =>
    intro h t m s coreOn lane locked crc none
    exact execAcknowledgement_of_no_period coreOn lane locked crc none
  case timeout =>
    intro s p coreOn active alone outstanding due
    exact execAckTimeout_of_due coreOn active alone outstanding due
  case stale =>
    intro s coreOn stale idle below
    have done : exec .tempStale s = _ := execTempStale_of_stale coreOn stale
    rwa [State.setThermal_of_new idle below] at done
  case fresh =>
    intro s _ fresh
    exact execTempStale_of_fresh fresh
  case unechoed =>
    intro s c r coreOn cmds due fresh
    have done : exec .cmdUnechoed s = _ := execCmdUnechoed_of_on coreOn
    rw [State.unechoed_of_due cmds due fresh] at done
    exact ⟨_, done, s.setCmds_logEvent_effect ({ c with logged := true } :: r) c.unechoedEvent rfl⟩
  case logged =>
    intro s c r cmds logged
    exact execCmdUnechoed_of_logged cmds logged
  case lane =>
    intro l s lane coreOn
    exact execHstLaneLock_of_on lane coreOn
  case gateUp =>
    intro s coreOn
    exact execGateRxLinkChange_of_on coreOn
  case gateDown =>
    intro s
    rfl

end Sys2Proof.Machine
end

section
/-! SUPPORT. Proofs of the attach of a head (R201, R202, R242, Table 08-8): its start, the reads of the identity memory, its failure and its
end with the factory table; with them the statement HeadAttach is settled. -/
namespace Sys2Proof.Machine

/-! ### The start of an attach -/

/-- While no identity is known 2701 reads its defaults, and the head knows which serial number it had before. -/
theorem State.clearIdentity_eq (s : State) : ∃ od serial,
    s.clearIdentity = { s with od := od, head := { s.head with prevSerial := serial, identity := none } } := by
  obtain ⟨od, cleared⟩ : ∃ od, foldN 9 (fun (s : State) i => s.setN (Obj.HEAD_SERIAL + i) 0) s = { s with od := od } :=
    foldN_rel (R := fun s t : State => ∃ od, t = { s with od := od }) (fun s => ⟨s.od, rfl⟩)
      (fun ⟨_, st⟩ ⟨od, tu⟩ => ⟨od, by rw [tu, st]⟩) (fun _ _ => ⟨_, rfl⟩) 9 s
  rw [foldN] at cleared
  rw [State.clearIdentity]
  dsimp only
  rw [cleared]
  exact ⟨od, _, rfl⟩

theorem State.getN_clearIdentity_below (s : State) {o : ObjRef} (h : o < Obj.HEAD_SERIAL) : s.clearIdentity.getN o = s.getN o :=
  congrArg Int.toNat (s.get_foldN_set_below (fun _ => 0) 9 h)

theorem State.getN_clearIdentity_serial (s : State) : s.clearIdentity.getN Obj.HEAD_SERIAL = 0 :=
  congrArg Int.toNat (s.get_foldN_set Obj.HEAD_SERIAL (fun _ => 0) (n := 9) (i := 0) (by decide))

/-- The state when an attach with value `v` starts, before it reads. -/
def State.attachBegun (s : State) (v : Nat) : State :=
  let u := ((s.clearIdentity.setN Obj.HEAD_STATE 1).setN Obj.HEAD_ATTACH_ERROR 0).setN Obj.HEAD_ATTACH_PERMILLE 0
  { u with head := { u.head with attaching := v, attachFrom := u.clk.cycle, attachHz := i2cClock (u.getN Obj.HEAD_I2C_SPEED) } }

theorem State.startAttach_eq (s : State) (v : Nat) : s.startAttach v = (s.attachBegun v).i2cRead 0 64 := rfl

/-- A start writes the attach's objects and its record in the head. -/
theorem State.attachBegun_eq (s : State) (v : Nat) : ∃ od serial, s.attachBegun v =
    { s with od := od, head := { s.head with prevSerial := serial, identity := none, attaching := v,
                                             attachFrom := s.clk.cycle, attachHz := i2cClock (s.getN Obj.HEAD_I2C_SPEED) } } := by
  have speed : (((s.clearIdentity.setN Obj.HEAD_STATE 1).setN Obj.HEAD_ATTACH_ERROR 0).setN Obj.HEAD_ATTACH_PERMILLE 0).getN
      Obj.HEAD_I2C_SPEED = s.getN Obj.HEAD_I2C_SPEED := by
    rw [State.getN_setN_other _ _ (by decide), State.getN_setN_other _ _ (by decide), State.getN_setN_other _ _ (by decide),
      s.getN_clearIdentity_below (by decide)]
  obtain ⟨od, serial, cleared⟩ := s.clearIdentity_eq
  rw [State.attachBegun]
  dsimp only
  rw [speed, cleared]
  exact ⟨_, serial, rfl⟩

theorem State.attachBegun_objects (s : State) (v : Nat) : let t := s.attachBegun v
    t.getN Obj.HEAD_STATE = 1 ∧ t.getN Obj.HEAD_ATTACH_ERROR = 0 ∧ t.getN Obj.HEAD_ATTACH_PERMILLE = 0 ∧ t.getN Obj.HEAD_SERIAL = 0 := by
  have objects (o : ObjRef) : (s.attachBegun v).getN o =
      (((s.clearIdentity.setN Obj.HEAD_STATE 1).setN Obj.HEAD_ATTACH_ERROR 0).setN Obj.HEAD_ATTACH_PERMILLE 0).getN o := rfl
  dsimp only
  refine ⟨?state, ?error, ?progress, ?serial⟩
  case state =>
    rw [objects, State.getN_setN_other _ _ (by decide), State.getN_setN_other _ _ (by decide), State.getN_setN_self]
  case error => rw [objects, State.getN_setN_other _ _ (by decide), State.getN_setN_self]
  case progress => rw [objects, State.getN_setN_self]
  case serial =>
    rw [objects, State.getN_setN_other _ _ (by decide), State.getN_setN_other _ _ (by decide), State.getN_setN_other _ _ (by decide),
      s.getN_clearIdentity_serial]

theorem State.i2cRead_eq (s : State) (address count : Nat) : s.i2cRead address count = { s with out := (s.i2cRead address count).out } := by
  unfold State.i2cRead
  split <;> rfl

theorem State.i2cRead_of_on {s : State} (on : s.outputsOn = true) (address count : Nat) :
    s.i2cRead address count = s.emit (.i2cRead 0x50 s.head.attachHz (leBytes 3 address) count) :=
  if_pos on

theorem State.i2cRead_of_off {s : State} (off : s.outputsOn = false) (address count : Nat) : s.i2cRead address count = s :=
  if_neg (by simp [off])

/-- No byte has come at the moment an attach starts. -/
theorem State.attachPermille_of_start {s : State} (now : s.head.attachFrom = s.clk.cycle) : s.attachPermille = 0 := by
  simp [State.attachPermille, now]

/-- What an attach that starts leaves, and the read of the header (R201, R202). -/
theorem State.startAttach_effect (s : State) (v : Nat) : let t := s.startAttach v
    t.getN Obj.HEAD_STATE = 1 ∧ t.getN Obj.HEAD_ATTACH_ERROR = 0 ∧ t.getN Obj.HEAD_ATTACH_PERMILLE = 0 ∧
      t.getN Obj.HEAD_SERIAL = 0 ∧ t.head.identity = none ∧ t.head.attaching = v ∧ t.head.table = s.head.table ∧ t.attachPermille = 0 ∧
      (s.outputsOn = true → t.out = s.out ++ [.i2cRead 0x50 (i2cClock (s.getN Obj.HEAD_I2C_SPEED)) [0, 0, 0] 64]) ∧
      (s.outputsOn = false → t.out = s.out) ∧ t = { s with od := t.od, head := t.head, out := t.out } := by
  obtain ⟨state, error, progress, serial⟩ := s.attachBegun_objects v
  obtain ⟨od, prev, begun⟩ := s.attachBegun_eq v
  have started : s.startAttach v = { s.attachBegun v with out := ((s.attachBegun v).i2cRead 0 64).out } := State.i2cRead_eq _ 0 64
  have objects (o : ObjRef) : (s.startAttach v).getN o = (s.attachBegun v).getN o := by rw [started]; rfl
  have outputs : (s.attachBegun v).outputsOn = s.outputsOn := by rw [begun]; rfl
  dsimp only
  refine ⟨(objects _).trans state, (objects _).trans error, (objects _).trans progress, (objects _).trans serial, ?identity, ?attaching, ?table,
    ?none, fun on => ?read, fun off => ?silent, ?frame⟩
  case identity => rw [started, begun]
  case attaching => rw [started, begun]
  case table => rw [started, begun]
  case none =>
    refine State.attachPermille_of_start ?_
    rw [started, begun]
  case read =>
    rw [State.startAttach_eq, State.i2cRead_of_on (outputs.trans on), begun]
    rfl
  case silent => rw [State.startAttach_eq, State.i2cRead_of_off (outputs.trans off), begun]
  case frame => rw [started, begun]

theorem writeHeadAttach_of_free {s : State} {c : Caller} {v : Nat} (mayWrite : s.mayWrite c Obj.HEAD_ATTACH) (free : s.attachRefused = false)
    (value : v = 1 ∨ v = 2) : (writeHeadAttach s c v).1 = s.startAttach v := by
  rw [writeHeadAttach, State.gate_of_mayWrite _ mayWrite, if_neg (by omega), if_neg (by simp [free]), State.ok_fst]

theorem writeHeadAttach_of_refused {s : State} {c : Caller} {v : Nat} (mayWrite : s.mayWrite c Obj.HEAD_ATTACH)
    (refused : s.attachRefused = true) : (writeHeadAttach s c v).1 = s := by
  rw [writeHeadAttach, State.gate_of_mayWrite _ mayWrite]
  split
  case isTrue => exact State.deny_fst s _
  case isFalse => exact State.deny_fst s _

/-! ### Reads of the identity memory -/

/-- The sequential reads of `count` bytes from `address` on. -/
def State.readsOf (s : State) (address count : Nat) : List Output :=
  (List.range (ceilDiv count 65536)).map fun i =>
    .i2cRead 0x50 s.head.attachHz (leBytes 3 (address + 65536 * i)) (min 65536 (count - 65536 * i))

theorem State.foldl_i2cRead_of_on {s : State} (on : s.outputsOn = true) (address count : Nat → Nat) (l : List Nat) :
    l.foldl (fun (s : State) i => s.i2cRead (address i) (count i)) s =
      { s with out := s.out ++ l.map fun i => Output.i2cRead 0x50 s.head.attachHz (leBytes 3 (address i)) (count i) } := by
  induction l generalizing s with
  | nil => simp
  | cons i l ih =>
    rw [List.foldl_cons, State.i2cRead_of_on on, ih (s := s.emit _) on, List.map_cons, List.append_cons]
    rfl

theorem State.i2cReads_of_on {s : State} (on : s.outputsOn = true) (address count : Nat) :
    s.i2cReads address count = { s with out := s.out ++ s.readsOf address count } :=
  State.foldl_i2cRead_of_on on (fun i => address + 65536 * i) (fun i => min 65536 (count - 65536 * i)) (List.range (ceilDiv count 65536))

/-- The reads that bring the efficiency table, then those that bring the dead list (assumption 131). -/
def State.memoryReads (s : State) (m : HeadMemory) : List Output := s.readsOf (effAt m) 384004 ++ s.readsOf (deadAt m) (deadBytes m)

theorem State.readMemory_of_ack {s : State} {m : HeadMemory} (on : s.outputsOn = true) (ack : m.ack = true) :
    s.readMemory m = { s with out := s.out ++ s.memoryReads m } := by
  have after : ({ s with out := s.out ++ s.readsOf (effAt m) 384004 } : State).outputsOn = true := on
  rw [State.readMemory, if_pos ack, State.i2cReads_of_on on, State.i2cReads_of_on after, State.memoryReads, ← List.append_assoc]
  rfl

theorem State.readMemory_of_no_ack (s : State) {m : HeadMemory} (silent : m.ack = false) : s.readMemory m = s :=
  if_neg (by simp [silent])

theorem State.readMemory_eq {s : State} (m : HeadMemory) (on : s.outputsOn = true) :
    s.readMemory m = { s with out := (s.readMemory m).out } := by
  cases ack : m.ack with
  | true => rw [State.readMemory_of_ack on ack]
  | false => rw [s.readMemory_of_no_ack ack]

/-! ### The end of an attach -/

theorem execHeadAttachComplete_of_pass {s : State} {m : HeadMemory} (reading : s.head.attaching ≠ 0) (on : s.outputsOn = true)
    (good : attachCheck m = 0) : execHeadAttachComplete m s = .next ((s.readMemory m).attachPass m) := by
  rw [execHeadAttachComplete, if_neg reading]
  simp only [on, Bool.and_true, good]

theorem execHeadAttachComplete_of_fail {s : State} {m : HeadMemory} (reading : s.head.attaching ≠ 0) (on : s.outputsOn = true)
    (bad : attachCheck m ≠ 0) : execHeadAttachComplete m s = .next ((s.readMemory m).attachFail (attachCheck m)) := by
  rw [execHeadAttachComplete, if_neg reading]
  simp only [on, Bool.and_true]

theorem attachCheck_of_no_ack {m : HeadMemory} (silent : m.ack = false) : attachCheck m = 1 :=
  if_pos (by simp [silent])

/-- With the outputs disabled the memory does not answer (R242). -/
theorem execHeadAttachComplete_of_off {s : State} (m : HeadMemory) (reading : s.head.attaching ≠ 0) (off : s.outputsOn = false) :
    execHeadAttachComplete m s = .next (s.attachFail 1) := by
  have silent : (m.ack && s.outputsOn) = false := by rw [off, Bool.and_false]
  rw [execHeadAttachComplete, if_neg reading]
  dsimp only
  rw [s.readMemory_of_no_ack silent, attachCheck_of_no_ack silent]
  rfl

theorem execI2cStretchTimeout_of_reading {s : State} (reading : s.head.attaching ≠ 0) :
    execI2cStretchTimeout s = .next (s.attachFail 1) := by
  rw [execI2cStretchTimeout, if_neg reading]

/-! ### An attach that passes -/

/-- An object of the attach or of the identity: indexes 2700 and 2701. -/
abbrev ofAttach (o : ObjRef) : Prop := o / 512 = 0x1380

/-- From `s` to `t` only objects of the attach and of the identity differ. -/
structure State.ShowsAttach (s t : State) : Prop where
  state : t = { s with od := t.od }
  objects : ∀ o, ¬ofAttach o → t.get o = s.get o

namespace State.ShowsAttach
variable {s t u : State}

theorem trans (st : s.ShowsAttach t) (tu : t.ShowsAttach u) : s.ShowsAttach u where
  state := by rw [tu.state, st.state]
  objects o ho := (tu.objects o ho).trans (st.objects o ho)

theorem getN (h : s.ShowsAttach t) {o : ObjRef} (ho : ¬ofAttach o) : t.getN o = s.getN o := by
  simp only [State.getN, h.objects o ho]

theorem mirrorsOn (h : s.ShowsAttach t) : t.mirrorsOn = s.mirrorsOn := by
  have pair : t.pair = s.pair := by rw [h.state]
  have state : t.getN Obj.PAIR_STATE = s.getN Obj.PAIR_STATE := h.getN (by decide)
  have link : t.getN Obj.MIRROR_LINK_STATE = s.getN Obj.MIRROR_LINK_STATE := h.getN (by decide)
  have peer : t.getN Obj.PEER_STATE = s.getN Obj.PEER_STATE := h.getN (by decide)
  simp only [State.mirrorsOn, State.recordsOn, pair, state, link, peer]

end State.ShowsAttach

theorem State.showsAttach_set (s : State) {o : ObjRef} (v : Int) (h : ofAttach o) : s.ShowsAttach (s.set o v) :=
  ⟨rfl, fun _ hp => s.get_set_other v fun same => hp (same ▸ h)⟩

theorem State.showsAttach_setN (s : State) {o : ObjRef} (v : Nat) (h : ofAttach o) : s.ShowsAttach (s.setN o v) := s.showsAttach_set v h

theorem State.showsAttach_showIdentity (s : State) (i : HeadIdentity) : s.ShowsAttach (s.showIdentity i) :=
  have setN (s : State) {o : ObjRef} (v : Nat) (h : ofAttach o) := s.showsAttach_setN v h
  have set (s : State) {o : ObjRef} (v : Int) (h : ofAttach o) := s.showsAttach_set v h
  have shape := (((setN s i.serial (by decide)).trans (setN _ i.rank (by decide))).trans (setN _ i.pitch (by decide))).trans
    (setN _ i.tsettle (by decide))
  have temps := ((shape.trans (set _ i.tempWarn (by decide))).trans (set _ i.tempLimit (by decide))).trans (setN _ i.tempHyst (by decide))
  (temps.trans (setN _ i.minSyncDelay (by decide))).trans (setN _ i.deadCount (by decide))

/-- What stands in 2701 of an identity, and the objects of the attach, which stand below it. -/
theorem State.showIdentity_objects (s : State) (i : HeadIdentity) : let t := s.showIdentity i
    t.getN Obj.HEAD_SERIAL = i.serial ∧ t.getN Obj.HEAD_PITCH = i.pitch ∧ t.getN Obj.HEAD_TSETTLE = i.tsettle ∧
      ∀ o < Obj.HEAD_SERIAL, t.getN o = s.getN o := by
  dsimp only [State.showIdentity, State.getN]
  refine ⟨?serial, ?pitch, ?tsettle, fun o below => ?below⟩
  case below =>
    have other {p : ObjRef} (h : Obj.HEAD_SERIAL ≤ p) : o ≠ p := Nat.ne_of_lt (Nat.lt_of_lt_of_le below h)
    simp only [State.get_setN_other, State.get_set_other, ne_eq, other (p := Obj.HEAD_SERIAL) (by decide), other (p := Obj.HEAD_RANK) (by decide),
      other (p := Obj.HEAD_PITCH) (by decide), other (p := Obj.HEAD_TSETTLE) (by decide), other (p := Obj.HEAD_TEMP_WARN) (by decide),
      other (p := Obj.HEAD_TEMP_LIMIT) (by decide), other (p := Obj.HEAD_TEMP_HYST) (by decide),
      other (p := Obj.HEAD_MIN_SYNC_DELAY) (by decide), other (p := Obj.HEAD_DEAD_COUNT) (by decide), not_false_eq_true]
  all_goals simp +decide only [State.get_setN, State.get_set, if_true, if_false, Int.toNat_natCast]

/-- The state that shows an identity and the end of its attach. -/
def State.showAttached (s : State) (i : HeadIdentity) : State :=
  (((s.setN Obj.HEAD_STATE 2).setN Obj.HEAD_ATTACH_ERROR 0).setN Obj.HEAD_ATTACH_PERMILLE 1000).showIdentity i

theorem State.showsAttach_showAttached (s : State) (i : HeadIdentity) : s.ShowsAttach (s.showAttached i) :=
  (((s.showsAttach_setN (o := Obj.HEAD_STATE) _ (by decide)).trans (State.showsAttach_setN _ (o := Obj.HEAD_ATTACH_ERROR) _ (by decide))).trans
    (State.showsAttach_setN _ (o := Obj.HEAD_ATTACH_PERMILLE) _ (by decide))).trans (State.showsAttach_showIdentity _ i)

theorem State.showAttached_objects (s : State) (i : HeadIdentity) : let t := s.showAttached i
    t.getN Obj.HEAD_STATE = 2 ∧ t.getN Obj.HEAD_ATTACH_PERMILLE = 1000 ∧ t.getN Obj.HEAD_SERIAL = i.serial ∧ t.getN Obj.HEAD_PITCH = i.pitch ∧
      t.getN Obj.HEAD_TSETTLE = i.tsettle := by
  obtain ⟨serial, pitch, tsettle, below⟩ := State.showIdentity_objects
    (((s.setN Obj.HEAD_STATE 2).setN Obj.HEAD_ATTACH_ERROR 0).setN Obj.HEAD_ATTACH_PERMILLE 1000) i
  refine ⟨(below _ (by decide)).trans ?state, (below _ (by decide)).trans ?progress, serial, pitch, tsettle⟩
  case state => rw [State.getN_setN_other _ _ (by decide), State.getN_setN_other _ _ (by decide), State.getN_setN_self]
  case progress => exact State.getN_setN_self _ _ _

/-- The state in which the identity of a head is known and shown. -/
def State.identified (s : State) (i : HeadIdentity) (dead : List (Nat × Nat)) : State :=
  { s.showAttached i with head := { (s.showAttached i).head with identity := some i, dead := dead, attaching := 0 } }

theorem State.identified_eq (s : State) (i : HeadIdentity) (dead : List (Nat × Nat)) : s.identified i dead =
    { s with od := (s.showAttached i).od, head := { s.head with identity := some i, dead := dead, attaching := 0 } } := by
  rw [State.identified, (s.showsAttach_showAttached i).state]

theorem State.getN_identified (s : State) (i : HeadIdentity) (dead : List (Nat × Nat)) (o : ObjRef) :
    (s.identified i dead).getN o = (s.showAttached i).getN o := rfl

theorem State.mirrorsOn_identified (s : State) (i : HeadIdentity) (dead : List (Nat × Nat)) :
    (s.identified i dead).mirrorsOn = s.mirrorsOn :=
  (s.showsAttach_showAttached i).mirrorsOn

theorem State.sendBeams_of_no_mirror {s : State} (quiet : s.mirrorsOn = false) (cs : List (Nat × Nat)) (identity : Bool) :
    s.sendBeams cs identity = (s, none) :=
  if_pos (by simp [quiet])

theorem State.takeHeld_of_none {s : State} (job : s.st.heldJob = none) (head : s.st.waitHead = none) : s.takeHeld = s := by
  simp only [State.takeHeld, State.takeHeldJob, job, State.takeWaiting, head]

/-- The state in which the table `t` waits for the next epoch boundary instead of every change before it (R202). -/
def State.awaitTable (s : State) (t : List (List (Nat × Nat))) : State :=
  ({ s with head := { s.head with attachTable := some t, attachAwait := none, results := [] } } : State).setEdits []

theorem State.getN_awaitTable_other (s : State) (t : List (List (Nat × Nat))) {o : ObjRef} (h : o ≠ Obj.BEAM_EDITS_PENDING) :
    (s.awaitTable t).getN o = s.getN o :=
  State.getN_setN_other _ _ h

theorem State.awaitTable_head (s : State) (t : List (List (Nat × Nat))) :
    (s.awaitTable t).head = { s.head with attachTable := some t, attachAwait := none, results := [], edits := [] } := rfl

theorem State.takeHeld_awaitTable {s : State} (t : List (List (Nat × Nat))) (job : s.st.heldJob = none) (head : s.st.waitHead = none) :
    (s.awaitTable t).takeHeld = s.awaitTable t :=
  State.takeHeld_of_none job head

/-- With value 1 the factory table waits for the next epoch boundary (R202). -/
theorem State.attachPass_of_factory {s : State} {m : HeadMemory} {dead : List (Nat × Nat)} (factory : s.head.attaching = 1)
    (known : deadList (identityOf (memHeader m)).deadCount (deadTable m) = some dead) (quiet : s.mirrorsOn = false)
    (job : s.st.heldJob = none) (head : s.st.waitHead = none) :
    s.attachPass m = (s.identified (identityOf (memHeader m)) dead).awaitTable
      (factoryTable (s.getN Obj.GATE_WEAK_LEVEL) (effTable m) dead) := by
  have other : ¬(s.head.attaching = 2 ∧ s.head.prevSerial = some (identityOf (memHeader m)).serial) := by simp [factory]
  have unsent := State.sendBeams_of_no_mirror ((s.mirrorsOn_identified (identityOf (memHeader m)) dead).trans quiet)
  have weak : (s.identified (identityOf (memHeader m)) dead).getN Obj.GATE_WEAK_LEVEL = s.getN Obj.GATE_WEAK_LEVEL :=
    (State.getN_identified ..).trans ((s.showsAttach_showAttached _).getN (by decide))
  have st : (s.identified (identityOf (memHeader m)) dead).st = s.st := by rw [State.identified_eq]
  rw [State.attachPass]
  dsimp only
  rw [known, Option.getD_some, if_neg other]
  rw [State.identified, State.showAttached] at unsent weak
  dsimp only at unsent weak
  rw [unsent, weak]
  generalize factoryTable _ _ _ = table
  exact State.takeHeld_awaitTable table (st ▸ job) (st ▸ head)

/-- What an attach with the factory table leaves (R202). -/
theorem State.awaitTable_effect (s : State) (i : HeadIdentity) (dead : List (Nat × Nat)) (table : List (List (Nat × Nat))) :
    let t := (s.identified i dead).awaitTable table
    t.getN Obj.HEAD_STATE = 2 ∧ t.getN Obj.HEAD_ATTACH_PERMILLE = 1000 ∧ t.getN Obj.HEAD_SERIAL = i.serial ∧ t.getN Obj.HEAD_PITCH = i.pitch ∧
      t.getN Obj.HEAD_TSETTLE = i.tsettle ∧ t.head.identity = some i ∧ t.head.attaching = 0 ∧ t.head.edits = [] ∧
      t.head.attachTable = some table ∧ t.head.table = s.head.table ∧ t.out = s.out := by
  obtain ⟨state, progress, serial, pitch, tsettle⟩ := s.showAttached_objects i
  have objects {o : ObjRef} (h : o ≠ Obj.BEAM_EDITS_PENDING) :
      ((s.identified i dead).awaitTable table).getN o = (s.showAttached i).getN o := State.getN_awaitTable_other _ _ h
  have head : ((s.identified i dead).awaitTable table).head =
      { s.head with identity := some i, dead := dead, attaching := 0, attachTable := some table, attachAwait := none, results := [],
                    edits := [] } := by rw [State.awaitTable_head, State.identified_eq]
  have out : ((s.identified i dead).awaitTable table).out = s.out := by rw [State.identified_eq]; rfl
  dsimp only
  rw [head, objects (by decide), objects (by decide), objects (by decide), objects (by decide), objects (by decide)]
  exact ⟨state, progress, serial, pitch, tsettle, rfl, rfl, rfl, rfl, rfl, out⟩

/-! ### The statement -/

/-- Settles O34: each clause is one case of HEAD_ATTACH_FACTORY, HEAD_ATTACH_KEEP, HEAD_ATTACH_COMPLETE or I2C_STRETCH_TIMEOUT. The header is
read first, then the efficiency table and the dead list at 24-bit addresses (assumption 131). -/
theorem headAttach : Obligations.HeadAttach := by
  unfold Obligations.HeadAttach
  refine ⟨?start, ?refused, ?fail, ?off, ?pass, ?reads, ?stretch⟩
  case start =>
    intro c s mayWrite free i hi
    have begun {v : Nat} (value : v = 1 ∨ v = 2) := writeHeadAttach_of_free mayWrite free value
    simp only [List.mem_cons, List.not_mem_nil, or_false] at hi
    rcases hi with rfl | rfl
    · exact ⟨_, congrArg Host.Outcome.next (begun (.inl rfl)), s.startAttach_effect 1⟩
    · exact ⟨_, congrArg Host.Outcome.next (begun (.inr rfl)), s.startAttach_effect 2⟩
  case refused =>
    intro c s mayWrite refused
    exact ⟨congrArg Host.Outcome.next (writeHeadAttach_of_refused mayWrite refused),
      congrArg Host.Outcome.next (writeHeadAttach_of_refused mayWrite refused)⟩
  case fail =>
    intro m s reading on bad
    refine ⟨_, execHeadAttachComplete_of_fail reading on bad, ?_, fun silent => ?_⟩
    · rw [State.readMemory_eq m on]
      rfl
    · rw [s.readMemory_of_no_ack silent]
      rfl
  case off =>
    intro m s reading off
    exact execHeadAttachComplete_of_off m reading off
  case pass =>
    intro m s dead factory on good h known quiet job head
    have read := State.readMemory_eq m on
    have done : exec (.headAttachComplete m) s = _ := execHeadAttachComplete_of_pass (by rw [factory]; decide) on good
    have kept : (s.readMemory m).head = s.head ∧ (s.readMemory m).st = s.st ∧ (s.readMemory m).mirrorsOn = s.mirrorsOn ∧
        (s.readMemory m).getN Obj.GATE_WEAK_LEVEL = s.getN Obj.GATE_WEAK_LEVEL := by rw [read]; exact ⟨rfl, rfl, rfl, rfl⟩
    obtain ⟨sameHead, sameSt, sameMirrors, sameWeak⟩ := kept
    rw [State.attachPass_of_factory (sameHead ▸ factory) known (sameMirrors.trans quiet) (sameSt ▸ job) (sameSt ▸ head), sameWeak] at done
    have effect := (s.readMemory m).awaitTable_effect (identityOf h) dead (factoryTable (s.getN Obj.GATE_WEAK_LEVEL) (effTable m) dead)
    rw [sameHead] at effect
    exact ⟨_, done, effect⟩
  case reads =>
    intro m s on ack
    rw [State.readMemory_of_ack on ack]
    rfl
  case stretch =>
    intro s reading
    exact execI2cStretchTimeout_of_reading reading

end Sys2Proof.Machine
end

section
/-! SUPPORT. Proofs of the changes of the per-beam table (R204, R205, R208): an entry read after another is put, an edit that waits, and an
epoch boundary with one edit; with them the statement BeamTableChanges is settled. -/
namespace Sys2Proof.Machine

/-! ### Entries of a table of rows -/

theorem kvGet_kvDel_self {α : Type} (l : List (Nat × α)) (k : Nat) : kvGet (kvDel l k) k = none := by
  induction l with
  | nil => rfl
  | cons p r ih =>
    by_cases same : p.1 = k
    · rw [kvDel, List.filter_cons_of_neg (by simp [same])]
      exact ih
    · rw [kvDel, List.filter_cons_of_pos (by simp [same]), kvGet, if_neg same]
      exact ih

theorem kvGet_kvDel_other {α : Type} (l : List (Nat × α)) {k j : Nat} (h : j ≠ k) : kvGet (kvDel l k) j = kvGet l j := by
  induction l with
  | nil => rfl
  | cons p r ih =>
    by_cases same : p.1 = k
    · rw [kvDel, List.filter_cons_of_neg (by simp [same]), kvGet, if_neg (same ▸ h.symm)]
      exact ih
    · rw [kvDel, List.filter_cons_of_pos (by simp [same]), kvGet, kvGet]
      exact congrArg (if p.1 = j then some p.2 else ·) ih

/-- A row with the entry `e` of column `c` put: entries of 0 are left out. -/
def putColumn (c e : Nat) (row : List (Nat × Nat)) : List (Nat × Nat) := if e = 0 then kvDel row c else kvSet row c e

theorem putColumn_self (c e : Nat) (row : List (Nat × Nat)) : (kvGet (putColumn c e row) c).getD 0 = e := by
  rw [putColumn]
  split
  case isTrue zero => rw [kvGet_kvDel_self, Option.getD_none, zero]
  case isFalse => rw [kvGet_kvSet_self, Option.getD_some]

theorem putColumn_other {c a : Nat} (e : Nat) (row : List (Nat × Nat)) (h : a ≠ c) : kvGet (putColumn c e row) a = kvGet row a := by
  rw [putColumn]
  split
  case isTrue => exact kvGet_kvDel_other row h
  case isFalse => exact kvGet_kvSet_other row e h

theorem atD_modifyAt {α : Type} (l : List α) {i : Nat} (f : α → α) (j : Nat) (d : α) (h : i < l.length) :
    atD (modifyAt l i f) j d = if i = j then f (atD l j d) else atD l j d := by
  rw [atD, atD, modifyAt, List.getD_eq_getElem?_getD, List.getD_eq_getElem?_getD, List.getElem?_modify]
  split
  case isTrue same => subst same; simp [List.getElem?_eq_getElem h]
  case isFalse => simp

theorem putEntryOf_row (t : List (List (Nat × Nat))) {b : Nat} (e j : Nat) (rows : b / 640 < t.length) :
    atD (putEntryOf t b e) j [] = if b / 640 = j then putColumn (b % 640) e (atD t j []) else atD t j [] :=
  atD_modifyAt t (putColumn (b % 640) e) j [] rows

theorem entryOf_putEntryOf_self (t : List (List (Nat × Nat))) {b : Nat} (e : Nat) (rows : b / 640 < t.length) :
    entryOf (putEntryOf t b e) b = e := by
  rw [entryOf, putEntryOf_row t e _ rows, if_pos rfl, putColumn_self]

theorem entryOf_putEntryOf_other (t : List (List (Nat × Nat))) {a b : Nat} (e : Nat) (rows : b / 640 < t.length) (h : a ≠ b) :
    entryOf (putEntryOf t b e) a = entryOf t a := by
  rw [entryOf, putEntryOf_row t e _ rows]
  split
  case isTrue same => rw [putColumn_other _ _ (by omega), entryOf]
  case isFalse => rfl

/-! ### Edits (R205) -/

/-- The state in which the entry `e` of beam `b` waits for the epoch boundary behind the other edits. -/
def State.withEdit (s : State) (b e : Nat) : State :=
  { s.setN Obj.BEAM_EDITS_PENDING (s.head.edits.length + 1) with head := { s.head with edits := s.head.edits ++ [⟨b, e, none⟩] } }

theorem State.setEdits_append (s : State) (b e : Nat) : s.setEdits (s.head.edits ++ [⟨b, e, none⟩]) = s.withEdit b e := by
  rw [State.setEdits, List.length_append, List.length_singleton, State.withEdit]

section
variable {s : State} {c : Caller} {v : BitVec 64} (mayWrite : s.mayWrite c Obj.BEAM_EDIT) (beam : bitsOf v.toNat 18 0 < beamCount)
  (zeros1 : bitsOf v.toNat 31 19 = 0) (zeros2 : bitsOf v.toNat 63 60 = 0)
include mayWrite beam zeros1 zeros2

theorem execBeamEdit_of_killed (killed : beamState (s.beamThen (bitsOf v.toNat 18 0)) = 3) : execBeamEdit c v s = .next s := by
  rw [execBeamEdit, writeBeamEdit, State.gate_of_mayWrite _ mayWrite]
  dsimp only
  rw [if_neg (by simp [beam, zeros1, zeros2]), if_pos (.inr killed), State.deny_fst]

theorem execBeamEdit_of_alive (active : s.isStandby = false) (alive : beamState (s.beamThen (bitsOf v.toNat 18 0)) ≠ 3)
    (room : s.head.edits.length < 1024) (quiet : s.mirrorsOn = false) : execBeamEdit c v s =
      .next (if beamState (bitsOf v.toNat 63 32) = 3 then
          (s.withEdit (bitsOf v.toNat 18 0) (bitsOf v.toNat 63 32)).queueDisable (bitsOf v.toNat 18 0)
        else s.withEdit (bitsOf v.toNat 18 0) (bitsOf v.toNat 63 32)) := by
  rw [execBeamEdit, writeBeamEdit, State.gate_of_mayWrite _ mayWrite]
  dsimp only
  rw [if_neg (by simp [beam, zeros1, zeros2]), if_neg (by simp [active, alive]), if_neg (Nat.not_le.2 room), State.sendBeams_of_no_mirror quiet,
    State.ok_fst]
  dsimp only
  rw [State.setEdits_append]

end

/-! ### Epoch boundaries (R204) -/

theorem State.killWords_of_none {s : State} (good : s.sram.tableUe = []) : s.killWords = s := by
  simp [State.killWords, good, State.addResults]

theorem State.dropKilled_of_none {s : State} (good : s.sram.tableUe = []) : s.dropKilled = s := by
  rw [State.dropKilled, good, List.filter_nil, ← good]

theorem State.recountBeams_eq (s : State) : s.recountBeams = { s with od := s.recountBeams.od } := rfl

theorem State.get_recountBeams_other (s : State) {o : ObjRef} (h : ∀ v < 4, o ≠ Obj.BEAMS_IN_STATE + v) : s.recountBeams.get o = s.get o := by
  rw [State.recountBeams]
  dsimp only
  rw [State.get_setN_other _ _ (h 3 (by decide)), State.get_setN_other _ _ (h 2 (by decide)), State.get_setN_other _ _ (h 1 (by decide)),
    State.get_setN_other _ _ (h 0 (by decide))]

/-- The state once the epoch boundary of period `k` has put the entry `e` of beam `b`, the only change that waited. -/
def State.editEpoch (s : State) (k b e : Nat) : State :=
  ({ s.inc Obj.BEAM_EPOCH with
    head := { s.head with epochDone := some k, table := putEntryOf s.head.table b e, attachTable := none, results := [] } } : State).setEdits []

theorem State.epoch_of_edit {s : State} {k b e : Nat} (first : s.head.epochDone ≠ some k) (attached : s.head.attachTable = none)
    (results : s.head.results = []) (good : s.sram.tableUe = []) (edits : s.head.edits = [⟨b, e, none⟩]) :
    s.epoch k = (s.editEpoch k b e).recountBeams := by
  have counted : (s.inc Obj.BEAM_EPOCH).killWords = s.inc Obj.BEAM_EPOCH := State.killWords_of_none (by rw [State.inc_sram, good])
  have kept : (s.editEpoch k b e).dropKilled = s.editEpoch k b e := State.dropKilled_of_none ((congrArg _ (s.inc_sram _)).trans good)
  have empty : ([] : List BeamResult).partition (·.await.isSome) = ([], []) := rfl
  have goes : [(⟨b, e, none⟩ : BeamResult)].partition (·.await.isSome) = ([], [⟨b, e, none⟩]) := rfl
  rw [State.epoch, if_neg first]
  dsimp only
  rw [counted, State.inc_head, attached]
  dsimp only
  rw [results, empty]
  dsimp only [List.foldl_nil]
  rw [edits, goes]
  dsimp only [List.foldl_cons, List.foldl_nil]
  exact congrArg State.recountBeams kept

/-- What an epoch boundary with one edit leaves. -/
theorem State.editEpoch_effect {s : State} {k b e : Nat} (beam : b < beamCount) (rows : s.head.table.length = 480) :
    let t := (s.editEpoch k b e).recountBeams
    s.counts t Obj.BEAM_EPOCH ∧ t.beamEntry b = e ∧ (∀ a < beamCount, a ≠ b → t.beamEntry a = s.beamEntry a) ∧
      t.head.edits = [] ∧ t.getN Obj.BEAM_EDITS_PENDING = 0 ∧ t.head.epochDone = some k := by
  have row : b / 640 < s.head.table.length := by rw [rows]; exact Nat.div_lt_of_lt_mul beam
  have head : (s.editEpoch k b e).recountBeams.head =
      { s.head with epochDone := some k, table := putEntryOf s.head.table b e, attachTable := none, results := [], edits := [] } := rfl
  dsimp only
  refine ⟨fun r object room => ?count, ?edited, fun a _ other => ?others, ?edits, ?pending, ?done⟩
  case count =>
    rw [State.get_recountBeams_other _ (by decide)]
    exact (State.get_setN_other _ _ (by decide)).trans (s.counts_inc _ r object room)
  case edited =>
    rw [State.beamEntry, head]
    exact entryOf_putEntryOf_self _ e row
  case others =>
    rw [State.beamEntry, head]
    exact entryOf_putEntryOf_other _ e row other
  case edits => rw [head]
  case pending =>
    rw [State.getN, State.get_recountBeams_other _ (by decide)]
    exact State.getN_setN_self _ _ _
  case done => rw [head]

theorem execBeamEpoch_of_boundary {s : State} (coreOn : s.coreOn = true) (own : s.getN Obj.PAIR_STATE ∉ [2, 3, 4]) (boundary : s.hs.k % 64 = 0) :
    execBeamEpoch s = .next (s.epoch s.hs.k) := by
  rw [execBeamEpoch, if_pos (by simp only [coreOn, own, boundary]; decide)]

theorem execBeamEpoch_of_other {s : State} (other : s.hs.k % 64 ≠ 0) : execBeamEpoch s = .next s := by
  rw [execBeamEpoch, if_neg (by simp [other])]

/-! ### The statement -/

/-- Settles O35: each clause is one case of BEAM_EDIT or BEAM_EPOCH. -/
theorem beamTableChanges : Obligations.BeamTableChanges := by
  unfold Obligations.BeamTableChanges
  refine ⟨?edit, ?epoch, ?other⟩
  case edit =>
    intro c v s mayWrite b e beam zeros1 zeros2 active room quiet u
    refine ⟨fun alive kept => ?_, fun alive killed => ?_, fun killed => ?_⟩
    · exact (execBeamEdit_of_alive mayWrite beam zeros1 zeros2 active alive room quiet).trans (congrArg _ (if_neg kept))
    · exact (execBeamEdit_of_alive mayWrite beam zeros1 zeros2 active alive room quiet).trans (congrArg _ (if_pos killed))
    · exact execBeamEdit_of_killed mayWrite beam zeros1 zeros2 killed
  case epoch =>
    intro s b e coreOn own boundary first attached results good edits beam rows
    have done : exec .beamEpoch s = _ := execBeamEpoch_of_boundary coreOn own boundary
    rw [State.epoch_of_edit first attached results good edits] at done
    exact ⟨_, done, State.editEpoch_effect beam rows⟩
  case other =>
    intro s other
    exact execBeamEpoch_of_other other

end Sys2Proof.Machine
end

section
/-! SUPPORT. Proofs of the tests of beams: the rolling gate check (R209 to R212), the entry that a measurement leaves (R206, R212) and the
full-array image (R213); with them the statement BeamTests is settled. -/
namespace Sys2Proof.Machine

/-! ### The start and the stop of a gate check (R210) -/

theorem execGateCheckStart_of_free {s : State} {c : Caller} (mayWrite : s.mayWrite c Obj.GATE_CHECK_START) (free : s.testRefused = false)
    (gain : f32Val (s.getN Obj.GATE_GAIN) ≠ 0) : execGateCheckStart c s =
      .next { ((s.setN Obj.GATE_STATE 1).setN Obj.GATE_PERMILLE 0).setN Obj.GATE_BEAMS_DONE 0 with
        head := { s.head with gate := some { cursor := s.getN Obj.GATE_CURSOR } } } := by
  have cursor : (((s.setN Obj.GATE_STATE 1).setN Obj.GATE_PERMILLE 0).setN Obj.GATE_BEAMS_DONE 0).getN Obj.GATE_CURSOR =
      s.getN Obj.GATE_CURSOR := by
    rw [State.getN_setN_other _ _ (by decide), State.getN_setN_other _ _ (by decide), State.getN_setN_other _ _ (by decide)]
  rw [execGateCheckStart, writeGateCheckStart, State.gate_of_mayWrite _ mayWrite, if_neg (not_not_intro rfl), if_neg (by simp [free, gain]),
    State.ok_fst]
  dsimp only
  rw [cursor]
  rfl

theorem execGateCheckStart_of_refused {s : State} {c : Caller} (mayWrite : s.mayWrite c Obj.GATE_CHECK_START) (refused : s.testRefused = true) :
    execGateCheckStart c s = .next s := by
  rw [execGateCheckStart, writeGateCheckStart, State.gate_of_mayWrite _ mayWrite, if_neg (not_not_intro rfl), if_pos (.inl refused),
    State.deny_fst]

theorem State.gateStop_of_gate {s : State} {g : Gate} (v : Nat) (runs : s.getN Obj.GATE_STATE ∈ [1, 2]) (gate : s.head.gate = some g) :
    s.gateStop v = { (s.setN Obj.GATE_CURSOR g.at).setN Obj.GATE_STATE v with head := { s.head with gate := none } } := by
  rw [State.gateStop, if_pos runs, gate]
  rfl

theorem State.lateRelease_of_none {s : State} (none : s.flow.release = false) : s.lateRelease = s :=
  if_neg (by simp [none])

theorem State.gateEnd_of_gate {s : State} {g : Gate} (v : Nat) (runs : s.getN Obj.GATE_STATE ∈ [1, 2]) (gate : s.head.gate = some g)
    (none : s.flow.release = false) :
    s.gateEnd v = { (s.setN Obj.GATE_CURSOR g.at).setN Obj.GATE_STATE v with head := { s.head with gate := Option.none } } := by
  rw [State.gateEnd, if_pos runs, State.gateStop_of_gate v runs gate]
  exact State.lateRelease_of_none none

theorem execGateCheckStop_of_mayWrite {s : State} {c : Caller} (mayWrite : s.mayWrite c Obj.GATE_CHECK_STOP) :
    execGateCheckStop c s = .next (s.gateEnd 4) := by
  rw [execGateCheckStop, writeGateCheckStop, State.gate_of_mayWrite _ mayWrite, if_neg (not_not_intro rfl), State.ok_fst]

/-! ### Gate sums (R211) -/

theorem foldl_add_eq_sum {α : Type} (f : α → Int) (l : List α) : l.foldl (fun a x => a + f x) 0 = (l.map f).sum := by
  rw [List.sum_eq_foldl, List.foldl_map]

theorem State.shotSum_eq (s : State) (xs : List (BitVec 16)) :
    s.shotSum xs = (((xs.drop (s.getN Obj.GATE_DELAY)).take (s.getN Obj.GATE_SPAN)).map BitVec.toInt).sum :=
  foldl_add_eq_sum BitVec.toInt _

theorem State.gateSum_of_complete {s : State} {xs : Shots} (link : s.getN Obj.GATE_RX_STATE = 1) (shots : xs.length = s.getN Obj.GATE_SHOTS)
    (samples : ∀ l ∈ xs, s.getN Obj.GATE_DELAY + s.getN Obj.GATE_SPAN ≤ l.length) : s.gateSum xs =
      some ((xs.map fun l => (((l.drop (s.getN Obj.GATE_DELAY)).take (s.getN Obj.GATE_SPAN)).map BitVec.toInt).sum).sum) := by
  have complete : xs.all (fun l => decide (s.getN Obj.GATE_DELAY + s.getN Obj.GATE_SPAN ≤ l.length)) = true :=
    List.all_eq_true.2 fun l hl => decide_eq_true (samples l hl)
  rw [State.gateSum, if_pos ⟨link, shots, complete⟩, foldl_add_eq_sum s.shotSum xs, funext s.shotSum_eq]

/-! ### Dark sums and beams -/

section
variable {s : State} {xs : Shots} {x : Int} {g : Gate} (sum : s.gateSum xs = some x) (gate : s.head.gate = some g)
include sum gate

theorem execGateDarkDone_of_sum (dark : s.getN Obj.GATE_STATE = 1) (sent : s.getN Obj.GATE_SHOTS ≤ g.sent) :
    execGateDarkDone xs s = .next (if s.darkStuck x then (s.gateEnd 5).stuckSuspect
      else { s.setN Obj.GATE_STATE 2 with head := { s.head with gate := some { g with sent := 0 } } }) := by
  have begun : ¬(s.getN Obj.GATE_STATE ≠ 1 ∨ g.sent < s.getN Obj.GATE_SHOTS) := by omega
  simp only [execGateDarkDone, gate, sum, if_neg begun]
  split <;> rfl

variable {b : Nat} {rest : List Nat} (waiting : g.waiting = b :: rest) (n : Nat)
include waiting

theorem execGateBeamMeasured_of_decided {fired : Bool} (lit : s.getN Obj.GATE_STATE = 2)
    (decided : (s.shotsFired (some b) (s.getN Obj.GATE_SHOTS) fun _ => [laneOf b]) = some fired) :
    execGateBeamMeasured n xs s = .next ((s.at n).gateResult g b rest x fired) := by
  have gate' : (s.at n).head.gate = some g := gate
  have sum' : (s.at n).gateSum xs = some x := sum
  have decided' : ((s.at n).shotsFired (some b) ((s.at n).getN Obj.GATE_SHOTS) fun _ => [laneOf b]) = some fired := decided
  have lit' : (s.at n).getN Obj.GATE_STATE = 2 := lit
  simp only [execGateBeamMeasured, gate', sum', waiting, decided', if_pos lit']

theorem execGateBeamMeasured_of_undecided (undecided : (s.shotsFired (some b) (s.getN Obj.GATE_SHOTS) fun _ => [laneOf b]) = none) :
    execGateBeamMeasured n xs s = .next (s.at n) := by
  have gate' : (s.at n).head.gate = some g := gate
  have sum' : (s.at n).gateSum xs = some x := sum
  have undecided' : ((s.at n).shotsFired (some b) ((s.at n).getN Obj.GATE_SHOTS) fun _ => [laneOf b]) = none := undecided
  simp only [execGateBeamMeasured, gate', sum', waiting, undecided']

end

theorem State.gateResult_of_fired (s : State) (g : Gate) (b : Nat) (rest : List Nat) (sum : Int) : s.gateResult g b rest sum true =
    s.gateMeasured { g with waiting := rest, failed := g.failed.filter (· ≠ b) } b sum := rfl

/-- A first failure puts the beam in line once more (R212). -/
theorem State.gateResult_of_first {g : Gate} (s : State) (b : Nat) (rest : List Nat) (sum : Int) (first : g.failed = []) :
    s.gateResult g b rest sum false =
      { s with head := { s.head with gate := some { g with waiting := rest, redo := g.redo ++ [b], failed := [b] } } } := by
  simp [State.gateResult, first]

/-- A second failure ends the check (R212). -/
theorem State.gateResult_of_second {g : Gate} (s : State) {b : Nat} (rest : List Nat) (sum : Int) (second : b ∈ g.failed) :
    s.gateResult g b rest sum false = s.gateEnd 4 := by
  simp [State.gateResult, second]

/-! ### The entry of a beam (Table 08-9, R206, R212) -/

/-- The fields of an entry of the per-beam table. -/
theorem entry_fields {f turn ec st : Nat} (faults : f < 16) (ecode : ec < 1024) (state : st < 4) :
    let r := f * 2 ^ 24 + turn % 4096 * 2 ^ 12 + 4 * ec + st
    bitsOf r 27 24 = f ∧ bitsOf r 23 12 = turn % 4096 ∧ beamEcode r = ec ∧ beamState r = st := by
  simp only [bitsOf, beamEcode, beamState]
  omega

theorem beamState_lt (e : Nat) : beamState e < 4 := Nat.mod_lt e (by decide)

/-- The state that a measurement leaves is one of the four. -/
theorem measuredState_lt (old : Nat) (off weak : Prop) [Decidable off] [Decidable weak] :
    (if 2 ≤ beamState old then beamState old else if off then 2 else if weak then 1 else 0) < 4 := by
  have kept := beamState_lt old
  split
  case isTrue => exact kept
  case isFalse =>
    split
    case isTrue => decide
    case isFalse => split <;> decide

/-- An ecode outside 0 to 1,023 counts a fault, keeps the ecode of the entry and puts the beam OFF, unless it is OFF or KILLED (R206). -/
theorem measuredEntry_of_outside (old : Nat) {ec : Int} (tol weak limit turn : Nat) (outside : ec < 0 ∨ 1023 < ec) :
    measuredEntry old (some ec) tol weak limit turn = min 15 (bitsOf old 27 24 + 1) * 2 ^ 24 + turn % 4096 * 2 ^ 12 + 4 * beamEcode old +
      (if 2 ≤ beamState old then beamState old else 2) := by
  simp only [measuredEntry, if_pos outside, ite_self]

/-- An ecode from 0 to 1,023 counts a fault only by its deviation; the state follows the faults, then the weak level. -/
theorem measuredEntry_of_inside (old : Nat) {ec : Int} (tol weak limit turn : Nat) (inside : ¬(ec < 0 ∨ 1023 < ec)) :
    let n := if tol < (ec - beamEcode old).natAbs then min 15 (bitsOf old 27 24 + 1) else bitsOf old 27 24
    measuredEntry old (some ec) tol weak limit turn = n * 2 ^ 24 + turn % 4096 * 2 ^ 12 + 4 * ec.toNat +
      (if 2 ≤ beamState old then beamState old else if limit ≤ n then 2 else if ec < weak then 1 else 0) := by
  simp only [measuredEntry, if_neg inside, Int.ofNat_lt]

theorem measuredEntry_fields (old : Nat) (ec : Int) (tol weak limit turn : Nat) :
    let r := measuredEntry old (some ec) tol weak limit turn
    let f := bitsOf old 27 24
    let off := decide (ec < 0) || decide (1023 < ec)
    let n := if off || decide (tol < (ec - beamEcode old).natAbs) then min 15 (f + 1) else f
    bitsOf r 27 24 = n ∧ bitsOf r 23 12 = turn % 4096 ∧ beamEcode r = (if off then beamEcode old else ec.toNat) ∧
      beamState r = (if 2 ≤ beamState old then beamState old else if limit ≤ n ∨ off then 2 else if ec < weak then 1 else 0) := by
  have faults : bitsOf old 27 24 < 16 := Nat.mod_lt _ (by decide)
  have oldEcode : beamEcode old < 1024 := Nat.mod_lt _ (by decide)
  by_cases outside : ec < 0 ∨ 1023 < ec
  · have off : (decide (ec < 0) || decide (1023 < ec)) = true := by simpa using outside
    simp only [measuredEntry_of_outside old tol weak limit turn outside, off, Bool.true_or, if_true, or_true]
    exact entry_fields (by omega) oldEcode (measuredState_lt old True (ec < weak))
  · have off : (decide (ec < 0) || decide (1023 < ec)) = false := by simpa using outside
    simp only [measuredEntry_of_inside old tol weak limit turn outside, off, Bool.false_or, Bool.false_eq_true, if_false, or_false,
      decide_eq_true_eq]
    exact entry_fields (by split <;> omega) (by omega) (measuredState_lt old _ _)

/-! ### Full-array images (R213) -/

theorem execImageStart_of_free {s : State} {c : Caller} (mayWrite : s.mayWrite c Obj.IMAGE_START) (free : s.testRefused = false)
    (idle : s.jobState ∉ [1, 2, 4, 6]) : execImageStart c s =
      .next { ((((s.setN Obj.IMAGE_STATE 1).setN Obj.IMAGE_PERMILLE 0).setN Obj.IMAGE_STUCK_FOUND 0).setN Obj.IMAGE_OFF_FOUND 0).setN
          Obj.SPOT_FAILURE 0 with cams := { s.cams with spot := {} }, head := { s.head with image := some {} } } := by
  rw [execImageStart, writeImageStart, State.gate_of_mayWrite _ mayWrite, if_neg (not_not_intro rfl), if_neg (by simp [free, idle]),
    State.ok_fst]
  rfl

theorem execImageStart_of_refused {s : State} {c : Caller} (mayWrite : s.mayWrite c Obj.IMAGE_START) (refused : s.testRefused = true) :
    execImageStart c s = .next s := by
  rw [execImageStart, writeImageStart, State.gate_of_mayWrite _ mayWrite, if_neg (not_not_intro rfl), if_pos (.inl refused), State.deny_fst]

/-- The state in which the phase of an image begins again, without the spots it has measured. -/
def State.repeatPhase (s : State) : State :=
  { s.modSpot fun (x : Spot) => { x with strobeAt := none, frame := none, dark := if s.getN Obj.IMAGE_STATE = 1 then [] else x.dark, lit := [] } with
    head := { s.head with image := some { repeated := true } } }

theorem execImagePhaseDone_of_undecided {s : State} (n : Nat)
    (undecided : s.shotsFired none (s.getN Obj.IMAGE_SHOTS) Period.sentLanes = none) : execImagePhaseDone n s = .next (s.at n) := by
  have undecided' : (s.at n).shotsFired none ((s.at n).getN Obj.IMAGE_SHOTS) Period.sentLanes = none := undecided
  rw [execImagePhaseDone]
  dsimp only
  rw [undecided']
  split
  case h_1 => rfl
  case h_2 => rfl
  case h_3 => contradiction

section
variable {s : State} {g : Gate} (n : Nat) (image : s.head.image = some g) (runs : s.getN Obj.IMAGE_STATE ∈ [1, 2])
  (sent : s.getN Obj.IMAGE_SHOTS ≤ g.sent)
include image runs sent

/-- Once every frame of a phase is decided the phase goes on by whether all of them fired. -/
theorem execImagePhaseDone_of_decided {fired : Bool} (decided : s.shotsFired none (s.getN Obj.IMAGE_SHOTS) Period.sentLanes = some fired) :
    execImagePhaseDone n s = if fired then
        if s.getN Obj.IMAGE_STATE = 1 then
          if s.cams.spot.dark.isEmpty then .next (s.at n)
          else .next { ((s.at n).setN Obj.IMAGE_STATE 2).setN Obj.IMAGE_PERMILLE 500 with head := { s.head with image := some {} } }
        else if s.cams.spot.lit.isEmpty then .next (s.at n)
        else .next (s.at n).imageDone
      else if g.repeated then .next ((s.at n).imageEnd 4) else .next ((s.at n).repeatPhase) := by
  have image' : (s.at n).head.image = some g := image
  have decided' : (s.at n).shotsFired none ((s.at n).getN Obj.IMAGE_SHOTS) Period.sentLanes = some fired := decided
  have runs' : (s.at n).imageRuns = true := decide_eq_true runs
  have whole : ¬(!(s.at n).imageRuns ∨ g.sent < (s.at n).getN Obj.IMAGE_SHOTS) := by
    rw [runs']
    exact not_or.2 ⟨by decide, Nat.not_lt.2 sent⟩
  rw [execImagePhaseDone]
  dsimp only
  rw [image', decided']
  dsimp only
  rw [if_neg whole]
  cases fired <;> rfl

end

theorem State.imageEnd_of_runs {s : State} (v : Nat) (runs : s.getN Obj.IMAGE_STATE ∈ [1, 2]) :
    s.imageEnd v = { s.setN Obj.IMAGE_STATE v with head := { s.head with image := none } } :=
  if_pos (decide_eq_true runs)

/-- A lit phase that is repeated keeps the spots of the dark one. -/
theorem State.repeatPhase_of_lit {s : State} (lit : s.getN Obj.IMAGE_STATE = 2) :
    s.repeatPhase = { s.modSpot fun (x : Spot) => { x with strobeAt := none, frame := none, lit := [] } with
      head := { s.head with image := some { repeated := true } } } := by
  have notDark : s.getN Obj.IMAGE_STATE ≠ 1 := by omega
  simp only [State.repeatPhase, if_neg notDark]

/-! ### The statement -/

/-- Settles O36: the clauses are the cases of GATE_CHECK_START, GATE_CHECK_STOP, GATE_DARK_DONE, GATE_BEAM_MEASURED, IMAGE_START and
IMAGE_PHASE_DONE, the sum of a measurement and the entry it leaves. A beam that is OFF or KILLED keeps its state (R206, assumption 121), and
each phase is repeated once (assumption 81). -/
theorem beamTests : Obligations.BeamTests := by
  unfold Obligations.BeamTests
  refine ⟨⟨?start, ?refused, ?stop, ?sum, ?dark, ?stuck, ?measured⟩, ?entry, ?image, ?darkDone, ?litDone, ?ended, ?imageRefused, ?again,
    ?undecided⟩
  case start =>
    intro c s mayWrite free gain
    exact execGateCheckStart_of_free mayWrite free gain
  case refused =>
    intro c s mayWrite refused
    exact execGateCheckStart_of_refused mayWrite refused
  case stop =>
    intro c s g mayWrite runs gate none
    have done : exec (.gateCheckStop c) s = _ := execGateCheckStop_of_mayWrite mayWrite
    rwa [State.gateEnd_of_gate 4 runs gate none] at done
  case sum =>
    intro s xs link shots samples
    exact State.gateSum_of_complete link shots samples
  case dark =>
    intro xs x s g sum gate dark sent quiet
    exact (execGateDarkDone_of_sum sum gate dark sent).trans (by rw [if_neg (by simp [quiet])])
  case stuck =>
    intro xs x s g sum gate dark sent stuck
    exact (execGateDarkDone_of_sum sum gate dark sent).trans (by rw [if_pos stuck])
  case measured =>
    intro n xs x s g b rest sum gate waiting lit fired u
    refine ⟨fun all => ?_, fun missed first => ?_, fun missed second => ?_, fun undecided => ?_⟩
    · exact execGateBeamMeasured_of_decided sum gate waiting n lit all
    · have done : exec (.gateBeamMeasured n xs) s = _ := execGateBeamMeasured_of_decided sum gate waiting n lit missed
      rwa [State.gateResult_of_first _ _ _ _ first] at done
    · have done : exec (.gateBeamMeasured n xs) s = _ := execGateBeamMeasured_of_decided sum gate waiting n lit missed
      rwa [State.gateResult_of_second _ _ _ second] at done
    · exact execGateBeamMeasured_of_undecided sum gate waiting n undecided
  case entry => exact measuredEntry_fields
  case image =>
    intro c s mayWrite free idle
    exact execImageStart_of_free mayWrite free idle
  case darkDone =>
    intro n s g image dark sent spots fired
    have done : exec (.imagePhaseDone n) s = _ := execImagePhaseDone_of_decided n image (by simp [dark]) sent fired
    rwa [if_pos rfl, if_pos dark, if_neg (by simpa using spots)] at done
  case litDone =>
    intro n s g image lit sent spots fired
    have done : exec (.imagePhaseDone n) s = _ := execImagePhaseDone_of_decided n image (by simp [lit]) sent fired
    rwa [if_pos rfl, if_neg (by omega), if_neg (by simpa using spots)] at done
  case ended =>
    intro n s g image runs sent repeated unfired
    have done : exec (.imagePhaseDone n) s = _ := execImagePhaseDone_of_decided n image runs sent unfired
    rwa [if_neg (by decide), if_pos repeated, State.imageEnd_of_runs (s := s.at n) 4 runs] at done
  case imageRefused =>
    intro c s mayWrite refused
    exact execImageStart_of_refused mayWrite refused
  case again =>
    intro n s g image lit sent first unfired
    have done : exec (.imagePhaseDone n) s = _ := execImagePhaseDone_of_decided n image (by simp [lit]) sent unfired
    rw [if_neg (by decide), if_neg (by simp [first]), State.repeatPhase_of_lit (s := s.at n) lit] at done
    exact ⟨_, done, rfl, rfl, rfl, rfl⟩
  case undecided =>
    intro n s undecided
    exact execImagePhaseDone_of_undecided n undecided

end Sys2Proof.Machine
end

section
/-! SUPPORT. Proofs of the flash records that a standby takes (R246 to R249): a record in order, one past the next, one with bad lanes, the
deadline of a record, desynchronisation (R251) and the first decision point; with them the statement FlashRecords is settled. -/
namespace Sys2Proof.Machine

/-! ### Desynchronisation (R251) -/

/-- A standby that holds the active's state shows that it does no longer, and why. -/
theorem State.desync_effect {s : State} (n : Nat) (holds : s.getN Obj.PAIR_STATE ∈ [2, 3, 4]) :
    (s.desync n).getN Obj.PAIR_STATE = 0 ∧ (s.desync n).getN Obj.LAST_DESYNC_CAUSE = n := by
  rw [State.desync, if_pos holds]
  dsimp only
  generalize cls : (if (((s.setN Obj.PAIR_STATE 0).inc Obj.DESYNCS).setN Obj.LAST_DESYNC_CAUSE n).on Obj.AUTO_SYNC then 2 else 4) = c
  have class2or4 : c = 2 ∨ c = 4 := by
    rw [← cls]
    split
    case isTrue => exact .inl rfl
    case isFalse => exact .inr rfl
  have kept {o : ObjRef} (u : State) (two : o ∉ logObjects 2) (four : o ∉ logObjects 4) :
      (u.logEvent ⟨c, 12, 255, 255, Obj.PAIR_STATE, n, 0⟩).getN o = u.getN o := by
    refine congrArg Int.toNat (u.get_logEvent_other _ ?_)
    rcases class2or4 with rfl | rfl
    · exact two
    · exact four
  constructor
  · rw [kept _ (by decide) (by decide), State.getN_setN_other _ _ (by decide), State.getN_inc_other _ (by decide), State.getN_setN_self]
  · rw [kept _ (by decide) (by decide), State.getN_setN_self]

/-! ### The first decision point (R249) -/

/-- A record of period `k` puts the decision point that follows at most 140 core cycles before the end of the period that begins now. -/
theorem State.alignGrid_effect (s : State) (k : Nat) : (s.alignGrid k).hs.k = k + 2 ∧
    (s.alignGrid k).hs.nextD ≤ s.clk.cycle + s.getN Obj.FLASH_PERIOD ∧
    s.clk.cycle + s.getN Obj.FLASH_PERIOD ≤ (s.alignGrid k).hs.nextD + 140 := by
  have next : (s.alignGrid k).hs.nextD = s.clk.cycle + s.getN Obj.FLASH_PERIOD - Config.freeNat s.free % 141 := rfl
  have few : Config.freeNat s.free % 141 < 141 := Nat.mod_lt _ (by decide)
  exact ⟨rfl, by omega, by omega⟩

/-! ### FLASH_RECORD and RECORD_DEADLINE -/

theorem State.refreshEligible_cases (s : State) : s.refreshEligible = s ∨ s.refreshEligible = s.setN Obj.PAIR_STATE 4 ∨
    s.refreshEligible = { s.setN Obj.PAIR_STATE 3 with pair := { s.pair with armedSinceSync := false } } := by
  unfold State.refreshEligible
  split
  case isTrue =>
    split
    case isTrue => exact .inr (.inl rfl)
    case isFalse =>
      split
      case isTrue => exact .inr (.inr rfl)
      case isFalse => exact .inl rfl
  case isFalse => exact .inl rfl

/-- A record that is applied becomes the last one held. -/
theorem State.applyRecord_held (s : State) (r : FlashRecord) :
    (s.applyRecord r).pair.lastRecord = r.frame ∧ (s.applyRecord r).pair.anyRecord = true := by
  unfold State.applyRecord
  dsimp only
  generalize List.foldl _ _ r.decisions = u
  generalize counted : State.inc _ Obj.RECORDS_RECEIVED = v
  have held : v.pair.lastRecord = r.frame ∧ v.pair.anyRecord = true := by
    rw [← counted, State.inc_eq]
    exact ⟨rfl, rfl⟩
  rcases v.refreshEligible_cases with same | eligible | synced
  · rwa [same]
  · rwa [eligible]
  · rwa [synced]

section
variable {s : State} {r : FlashRecord} (follows : s.follows = true)
include follows

theorem execFlashRecord_of_next (next : s.pair.anyRecord = false ∨ r.frame = s.pair.lastRecord + 1) :
    execFlashRecord r [] s = .next (s.applyRecord r) := by
  have notHeld : ¬(s.pair.anyRecord = true ∧ r.frame ≤ s.pair.lastRecord) := fun ⟨any, held⟩ =>
    next.elim (fun first => Bool.false_ne_true (first.symm.trans any)) fun next => by omega
  have notPast : ¬(s.pair.anyRecord = true ∧ r.frame ≠ s.pair.lastRecord + 1) := fun ⟨any, other⟩ =>
    next.elim (fun first => Bool.false_ne_true (first.symm.trans any)) other
  rw [execFlashRecord, if_neg (by simp [follows]), if_neg (by decide), if_neg notHeld, if_neg notPast]

theorem execFlashRecord_of_gap (any : s.pair.anyRecord = true) (gap : s.pair.lastRecord + 1 < r.frame) :
    execFlashRecord r [] s = .next ((s.inc Obj.RECORD_GAPS).desync 1) := by
  have new : ¬r.frame ≤ s.pair.lastRecord := by omega
  have past : r.frame ≠ s.pair.lastRecord + 1 := by omega
  simp [execFlashRecord, follows, any, new, past]

theorem execFlashRecord_of_held (any : s.pair.anyRecord = true) (held : r.frame ≤ s.pair.lastRecord) :
    execFlashRecord r [] s = .next s := by
  simp [execFlashRecord, follows, any, held]

theorem execFlashRecord_of_bad_lane (l : Nat) : execFlashRecord r [l] s = .next (s.sendNak l) := by
  simp [execFlashRecord, follows]

theorem execRecordDeadline_of_late (any : s.pair.anyRecord = true) (late : s.pair.lastRecord + 3 ≤ s.hs.k) :
    execRecordDeadline s = .next ((s.inc Obj.RECORD_GAPS).desync 1) :=
  if_pos ⟨follows, any, late⟩

end

theorem execFlashRecord_of_not_following {s : State} (r : FlashRecord) (bad : List Nat) (other : s.follows = false) :
    execFlashRecord r bad s = .next s := by
  simp [execFlashRecord, other]

theorem execRecordDeadline_of_early {s : State} (early : s.hs.k < s.pair.lastRecord + 3) : execRecordDeadline s = .next s :=
  if_neg fun ⟨_, _, late⟩ => by omega

/-! ### The statement -/

/-- Settles O53: the clauses are the cases of FLASH_RECORD and RECORD_DEADLINE, and what desynchronisation and the first record show. -/
theorem flashRecords : Obligations.FlashRecords := by
  unfold Obligations.FlashRecords
  refine ⟨?next, ?gap, ?held, ?badLane, ?other, ?late, ?early, ?desync, ?grid⟩
  case next =>
    intro r s follows next
    exact ⟨_, execFlashRecord_of_next follows next, rfl, s.applyRecord_held r⟩
  case gap =>
    intro r s follows any gap
    exact execFlashRecord_of_gap follows any gap
  case held =>
    intro r s follows any held
    exact execFlashRecord_of_held follows any held
  case badLane =>
    intro r s l follows
    exact execFlashRecord_of_bad_lane follows l
  case other =>
    intro r bad s other
    exact execFlashRecord_of_not_following r bad other
  case late =>
    intro s follows any late
    exact execRecordDeadline_of_late follows any late
  case early =>
    intro s early
    exact execRecordDeadline_of_early early
  case desync =>
    intro s n holds
    exact ⟨_, rfl, s.desync_effect n holds⟩
  case grid =>
    intro s k
    exact ⟨_, rfl, s.alignGrid_effect k⟩

end Sys2Proof.Machine
end

section
/-! SUPPORT. The end of a release by COMMAND (R253, R256, Table 10-2): a device that meets the conditions of an eligible standby as it gives up
OWN_ACT shows ELIGIBLE in the same step; with it the statement PairActivity is refuted. -/
namespace Sys2Proof.Machine

theorem State.getN_refreshEligible_of_eligible {s : State} (synced : s.getN Obj.PAIR_STATE ∈ [3, 4]) (eligible : s.eligibleNow = true) :
    s.refreshEligible.getN Obj.PAIR_STATE = 4 := by
  rw [State.refreshEligible, if_pos synced, if_pos eligible, State.getN_setN_self]

/-- The state in which a release with a trigger code has given up OWN_ACT, before the lanes and R253 are looked at. -/
def State.gaveUpAct (s : State) (code : Nat) : State :=
  (({ s.dropAwait with
      pins := { s.dropAwait.pins with ownAct := false }
      pair := { s.dropAwait.pair with releasing := false, release := none, armedSinceSync := false, claim := false } } : State).setN Obj.PAIR_STATE
    (if code = 8 then 3 else 5)).inc Obj.RELEASES

/-- With no test of beams and no calibration under way, the firing window's end leaves them as they are. -/
theorem State.releaseAct_of_quiet {s : State} {code kr : Nat} (release : s.pair.release = some (code, kr)) (releasing : s.pair.releasing = true)
    (gate : s.gateRuns = false) (image : s.imageRuns = false) (calibration : s.getN Obj.CAL_STATE ≠ 2) :
    s.releaseAct = (s.gaveUpAct code).refreshBlk.refreshEligible := by
  have noGate : s.gateEnd 4 = s := by
    rw [State.gateRuns, Bool.or_eq_false_iff, decide_eq_false_iff_not] at gate
    exact if_neg gate.1
  have noImage : s.imageEnd 4 = s := if_neg (by simp [image])
  have noItem : s.endCalibration false = s := by simp [State.endCalibration, calibration]
  rw [State.releaseAct, release]
  dsimp only
  rw [noGate, noImage, noItem, if_neg (by simp [releasing]), State.gaveUpAct]

/-- An active that releases by COMMAND between sweeps: the mirror link is up, the levels are equal and a head lane is locked. -/
def releasedBetweenSweeps : State :=
  { ((State.reset.setN Obj.PAIR_STATE 1).setN Obj.MIRROR_LINK_STATE 1).setN Obj.HST_LANE_STATE 1 with
    pair := { State.reset.pair with release := some (8, 0), releasing := true, peerHealth := [4, 1] } }

theorem releasedBetweenSweeps_quiet : let s := releasedBetweenSweeps
    s.stg.await = [] ∧ s.gateRuns = false ∧ s.imageRuns = false ∧ s.getN Obj.CAL_STATE ≠ 2 ∧ s.isStandby = false ∧ s.fp.waiting = [] := by
  decide

theorem releasedBetweenSweeps_eligible : let t := (releasedBetweenSweeps.gaveUpAct 8).refreshBlk
    t.getN Obj.PAIR_STATE ∈ [3, 4] ∧ t.eligibleNow = true ∧ t.refreshEligible.fp.waiting = [] := by
  decide +kernel

/-- Refutes O52: the release of `releasedBetweenSweeps` after trigger 8 ends with PAIR_STATE 4, not 3, as R253 holds at once. -/
theorem not_pairActivity : ¬ Obligations.PairActivity := by
  unfold Obligations.PairActivity
  rintro ⟨-, -, -, ends, -⟩
  obtain ⟨await, gate, image, calibration, active, noRequest⟩ := releasedBetweenSweeps_quiet
  obtain ⟨synced, eligible, noneWaits⟩ := releasedBetweenSweeps_eligible
  obtain ⟨t, done, -, -, -, shows3, -⟩ := ends releasedBetweenSweeps 8 0 rfl rfl await gate image calibration active noRequest
  have release : releasedBetweenSweeps.releaseAct = (releasedBetweenSweeps.gaveUpAct 8).refreshBlk.refreshEligible :=
    State.releaseAct_of_quiet rfl rfl gate image calibration
  have same : t = (releasedBetweenSweeps.gaveUpAct 8).refreshBlk.refreshEligible := by
    have goesOn : exec .ownActRelease releasedBetweenSweeps = .next releasedBetweenSweeps.releaseAct.goOn := rfl
    rw [goesOn, release, State.goOn, noneWaits] at done
    exact (Host.Outcome.next.inj done).symm
  rw [same, State.getN_refreshEligible_of_eligible synced eligible] at shows3
  exact absurd shows3 (by decide)

end Sys2Proof.Machine
end

section
/-! SUPPORT. Proofs of the mirror messages of a pair (R246, R249, R250, R252): which message of a lane is taken, what a standby does with a
message, and what a confirmation or its timeout does on the active. -/
namespace Sys2Proof.Machine

/-! ### Which message of a lane is taken (R246) -/

section
variable {s : State} {rx : Receipt} (f : State → State)

theorem State.received_of_takes (takes : s.takes rx) : s.received rx f = f (s.taken rx) := by
  obtain ⟨coreOn, whole, next⟩ := takes
  simp [State.received, coreOn, whole, next, State.taken]

theorem State.received_of_bad_crc (coreOn : s.coreOn = true) (bad : rx.crcOk = false) : s.received rx f = s.sendNak rx.lane := by
  simp [State.received, coreOn, bad]

variable {x : Nat} (coreOn : s.coreOn = true) (whole : rx.crcOk = true)
include coreOn whole

/-- A SEQ that lies up to half the numbers beyond the next one shows a gap. -/
theorem State.received_of_beyond (pos : 0 < x) (half : x ≤ 2 ^ 31) (want : atD s.pair.rxSeq rx.lane 0 < 2 ^ 32)
    (beyond : rx.seq = (atD s.pair.rxSeq rx.lane 0 + x) % 2 ^ 32) : s.received rx f = s.sendNak rx.lane := by
  have other : rx.seq ≠ atD s.pair.rxSeq rx.lane 0 := by omega
  have ahead : ¬(atD s.pair.rxSeq rx.lane 0 + 2 ^ 32 - rx.seq) % 2 ^ 32 < 2 ^ 31 := by omega
  rw [State.received, if_neg (by simp [coreOn]), if_neg (by simp [whole]), if_neg other, if_neg ahead]

/-- A SEQ that lies less than half the numbers before the next one belongs to a message received before. -/
theorem State.received_of_before (pos : 0 < x) (half : x < 2 ^ 31)
    (before : (rx.seq + x) % 2 ^ 32 = atD s.pair.rxSeq rx.lane 0) : s.received rx f = s := by
  have other : rx.seq ≠ atD s.pair.rxSeq rx.lane 0 := by omega
  have behind : (atD s.pair.rxSeq rx.lane 0 + 2 ^ 32 - rx.seq) % 2 ^ 32 < 2 ^ 31 := by omega
  rw [State.received, if_neg (by simp [coreOn]), if_neg (by simp [whole]), if_neg other, if_pos behind]

end

theorem State.follows_taken (s : State) (rx : Receipt) : (s.taken rx).follows = s.follows := rfl

theorem State.isStandby_taken (s : State) (rx : Receipt) : (s.taken rx).isStandby = s.isStandby := rfl

/-! ### What a standby that follows does with a message (R249, R250) -/

section
variable {s : State} {rx : Receipt} (takes : s.takes rx) (follows : s.follows = true)
include takes follows

theorem execMirrorBlock_of_follows (t : BlockType) (ring : Ring) (slot : Nat × Nat) (b : BlockImage) :
    execMirrorBlock rx t ring slot b s = .next ((s.taken rx).useBlock t ring slot.1 slot.2 b) := by
  rw [execMirrorBlock, State.received_of_takes _ takes, if_pos ((s.follows_taken rx).trans follows)]

theorem execStreamEvent_of_follows (e : StreamEvent) :
    execStreamEvent (rx, e) s = .next ((s.taken rx).useEvent e).refreshStream := by
  rw [execStreamEvent, State.received_of_takes _ takes, if_pos ((s.follows_taken rx).trans follows)]

theorem execMirrorCommit_of_follows (es : List (ObjRef × Int)) : execMirrorCommit rx es s =
    .next (State.sendConfirm { s.taken rx with
      pair := { (s.taken rx).pair with pendCommits := (s.taken rx).pair.pendCommits ++ [es] } } rx.seq) := by
  rw [execMirrorCommit, State.received_of_takes _ takes, if_pos ((s.follows_taken rx).trans follows)]

/-- Table changes that kill no beam wait, and are confirmed. -/
theorem execBeamChanges_of_follows {cs : List BeamChange} (epoch : Nat) (alive : ∀ x ∈ cs, beamState x.2.toNat ≠ 3) :
    execBeamChanges rx cs epoch none s = .next (State.sendConfirm { s.taken rx with
      pair := { (s.taken rx).pair with pendBeams := (s.taken rx).pair.pendBeams ++ [(cs, epoch, none)] } } rx.seq) := by
  have noneKilled : (cs.filter fun (c : Nat × BitVec 32) => beamState c.2.toNat = 3) = [] :=
    List.filter_eq_nil_iff.2 fun x mem => by simpa using alive x mem
  rw [execBeamChanges, State.received_of_takes _ takes, State.takeBeams, if_neg (by simp [State.follows_taken, follows])]
  dsimp only
  rw [noneKilled, List.foldl_nil]

end

/-- STREAM_STATE is all that follows the front end. -/
theorem State.refreshStream_eq (s : State) : ∃ v, s.refreshStream = s.setN Obj.STREAM_STATE v := ⟨_, rfl⟩

theorem State.useConsumers_effect (s : State) (c r rc rr : Nat) : let t := (s.useEvent (.consumers c r rc rr)).refreshStream
    t.getN Obj.STREAM_CONSUMER = c ∧ t.getN Obj.STREAM_RELEASE = r ∧ t.st = { s.st with repairConsumer := rc, repairRelease := rr } ∧
    t = { s with od := t.od, st := t.st } ∧ s.sameObjects t [Obj.STREAM_CONSUMER, Obj.STREAM_RELEASE, Obj.STREAM_STATE] := by
  intro t
  obtain ⟨v, shown⟩ := (s.useEvent (.consumers c r rc rr)).refreshStream_eq
  have written (o : ObjRef) : t.get o = (((s.setN Obj.STREAM_CONSUMER c).setN Obj.STREAM_RELEASE r).setN Obj.STREAM_STATE v).get o := by
    rw [show t = _ from shown]
    rfl
  refine ⟨?_, ?_, ?_, ?_, fun o other => ?_⟩
  · rw [State.getN, written, State.get_setN_other _ _ (by decide), State.get_setN_other _ _ (by decide), State.get_setN_self, Int.toNat_natCast]
  · rw [State.getN, written, State.get_setN_other _ _ (by decide), State.get_setN_self, Int.toNat_natCast]
  · rw [show t = _ from shown]
    rfl
  · rw [show t = _ from shown]
    rfl
  · simp only [List.mem_cons, List.not_mem_nil, or_false, not_or] at other
    obtain ⟨consumer, release, state⟩ := other
    rw [written, State.get_setN_other _ _ state, State.get_setN_other _ _ release, State.get_setN_other _ _ consumer]

/-! ### Messages of which a device takes no more than the SEQ -/

/-- What the messages of a pair do with a message that is taken. -/
def messageEffect (rx : Receipt) : Instr → State → State
  | .mirrorBlock _ t ring slot b => fun s => if s.follows then s.useBlock t ring slot.1 slot.2 b else s
  | .streamEvent m => fun s => if s.follows then (s.useEvent m.2).refreshStream else s
  | .mirrorCommit _ es => fun s =>
    if s.follows then State.sendConfirm { s with pair := { s.pair with pendCommits := s.pair.pendCommits ++ [es] } } rx.seq else s
  | .beamChanges _ cs e id => fun s => s.takeBeams rx.seq cs e id
  | .checkpoint _ chunk => fun s => s.takeItem chunk.1 chunk.2
  | .releaseMessage _ body => fun s => if s.isStandby then { s with pair := { s.pair with release := some body } } else s
  | _ => id

theorem exec_of_message {rx : Receipt} {t : BlockType} {ring : Ring} {i tag : Nat} {b : BlockImage} {ev : StreamEvent} {es : List (ObjRef × Int)}
    {cs : List BeamChange} {e : Nat} {id : Option HeadIdentity} {d : CheckpointData} {n code kr : Nat} {c : Instr}
    (message : c ∈ [Instr.mirrorBlock rx t ring (i, tag) b, .streamEvent (rx, ev), .mirrorCommit rx es, .beamChanges rx cs e id,
      .checkpoint rx (d, n), .releaseMessage rx (code, kr)]) (s : State) :
    exec c s = .next (s.received rx (messageEffect rx c)) := by
  simp only [List.mem_cons, List.not_mem_nil, or_false] at message
  rcases message with rfl | rfl | rfl | rfl | rfl | rfl
  all_goals rfl

/-- A device that neither follows nor is a standby uses no message. -/
theorem messageEffect_of_idle (rx : Receipt) (c : Instr) {s : State} (other : s.follows = false) (active : s.isStandby = false) :
    messageEffect rx c s = s := by
  unfold messageEffect
  split
  all_goals simp [State.takeBeams, State.takeItem, other, active]

/-! ### Confirmations (R250) -/

theorem State.goOn_of_none {s : State} (none : s.fp.waiting = []) : s.goOn = s := by
  rw [State.goOn, none]
  rfl

/-- The requests that wait go on after equal states alike. -/
theorem next_goOn {u v : State} (same : u = v) : (.next u.goOn : Out) = .next v.goOn := by rw [same]

/-- A confirmation of a table change: it waits no longer. -/
theorem State.takeConfirm_of_awaited {s : State} {q : Nat} (active : s.getN Obj.PAIR_STATE = 1) (releasing : s.pair.releasing = false)
    (awaited : q ∈ s.pair.await) (noCommit : s.stg.await = []) (noTable : s.head.attachAwait ≠ some q) :
    s.takeConfirm q = { s with
      pair := { s.pair with await := s.pair.await.filter (· ≠ q) }
      head := { s.head with results := clearAwait q s.head.results, edits := clearAwait q s.head.edits } } := by
  have any : s.pair.await.any (· = q) = true := List.any_eq_true.2 ⟨q, awaited, decide_eq_true rfl⟩
  rw [State.takeConfirm, if_pos ⟨active, by simp [releasing], any⟩, State.confirmed]
  rw [noCommit, List.find?_nil, if_neg noTable]

theorem State.takeConfirm_of_stray {s : State} {q : Nat} (stray : q ∉ s.pair.await) : s.takeConfirm q = s :=
  if_neg fun ⟨_, _, any⟩ => by
    obtain ⟨x, mem, same⟩ := List.any_eq_true.1 any
    exact stray (of_decide_eq_true same ▸ mem)

theorem execConfirm_of_takes {s : State} {rx : Receipt} (takes : s.takes rx) (q : Nat) :
    execConfirm (rx, q) s = .next ((s.taken rx).takeConfirm q).goOn := by
  rw [execConfirm, State.received_of_takes _ takes]

theorem State.confirmLate_of_standby {s : State} (standby : s.isStandby = true) : s.confirmLate = s.desync 5 := if_pos standby

theorem State.confirmLate_of_active {s : State} (active : s.getN Obj.PAIR_STATE = 1) (awaits : s.pair.await ≠ [])
    (releasing : s.pair.releasing = false) : s.confirmLate = (s.setN Obj.PEER_STATE 0).proceedAlone := by
  rw [State.confirmLate, if_neg (by simp [State.isStandby_of_active active]), if_pos ⟨active, by simpa using awaits, by simp [releasing]⟩]

end Sys2Proof.Machine
end

section
/-! SUPPORT. Proofs of the mirror link of a pair (R246, R252): what follows from its lanes and from the peer's health records, the record that
the device sends, replay and lost lanes (R193, R198); with them the statement MirrorTraffic is settled. -/
namespace Sys2Proof.Machine

/-! ### The mirror link (R246) -/

/-- Where no standby can lose its place and nothing waits on an active, the link is all that follows its lanes and the peer. -/
theorem State.refreshLink_of_no_wait {s : State} (notFollowing : s.getN Obj.PAIR_STATE ∉ [2, 3, 4])
    (noWait : s.getN Obj.PAIR_STATE = 1 → s.pair.await = []) :
    s.refreshLink = s.setN Obj.MIRROR_LINK_STATE (b2n (s.getN Obj.PLK_LANES_UP = 255 && s.pair.peerAt.isSome)) := by
  rw [State.refreshLink]
  generalize b2n (s.getN Obj.PLK_LANES_UP = 255 && s.pair.peerAt.isSome) = up
  have state : (s.setN Obj.MIRROR_LINK_STATE up).getN Obj.PAIR_STATE = s.getN Obj.PAIR_STATE := State.getN_setN_other _ _ (by decide)
  have stays : (s.setN Obj.MIRROR_LINK_STATE up).desync 8 = s.setN Obj.MIRROR_LINK_STATE up := State.desync_idle _ _ (state ▸ notFollowing)
  rw [stays, ite_self]
  have alone : (s.setN Obj.MIRROR_LINK_STATE up).peerLapse = s.setN Obj.MIRROR_LINK_STATE up := by
    rw [State.peerLapse]
    split
    case isTrue lapsed =>
      have none : (s.setN Obj.MIRROR_LINK_STATE up).pair.await = [] := noWait (state ▸ lapsed.1)
      rw [State.proceedAlone, none, List.foldl_nil]
    case isFalse => rfl
  rw [alone, State.refreshEligible, if_neg fun synced => notFollowing (state ▸ List.mem_cons_of_mem 2 synced)]

theorem State.getN_refreshLink_of_released {s : State} (released : s.getN Obj.PAIR_STATE = 5) : s.refreshLink.getN Obj.MIRROR_LINK_STATE =
    if s.getN Obj.PLK_LANES_UP = 255 ∧ s.pair.peerAt ≠ none then 1 else 0 := by
  rw [State.refreshLink_of_no_wait (by rw [released]; decide) (by rw [released]; intro h; exact absurd h (by decide)), State.getN_setN_self, b2n]
  simp [Option.isSome_iff_ne_none]

/-- A run of per-lane values with those of the lanes that lock anew set to `d`. -/
theorem atD_mapIdx_reset {α : Type} (l : List α) (new : Nat → Bool) (d : α) (i : Nat) :
    atD (l.mapIdx fun i x => if new i then d else x) i d = if new i then d else atD l i d := by
  rw [atD, atD, List.getD_eq_getElem?_getD, List.getD_eq_getElem?_getD, List.getElem?_mapIdx]
  cases l[i]? with
  | none => simp
  | some x => simp

theorem bitOf_toNat (m : BitVec 8) (l : Nat) : bitOf m.toNat l = m.getLsbD l := by
  rw [bitOf, BitVec.getLsbD, Nat.testBit_eq_decide_div_mod_eq]

/-- A lane is locked in `lanes` and was not before. -/
def State.newLane (s : State) (lanes i : Nat) : Bool := bitOf lanes i && !bitOf (s.getN Obj.PLK_LANES_UP) i

/-- The state with the lanes that lock anew counting SEQ from 0 and their replay buffers empty. -/
def State.restartLanes (s : State) (lanes : Nat) : State :=
  { s with pair := { s.pair with
      txSeq := s.pair.txSeq.mapIdx fun i (q : Nat) => if s.newLane lanes i then 0 else q
      rxSeq := s.pair.rxSeq.mapIdx fun i (q : Nat) => if s.newLane lanes i then 0 else q
      replay := s.pair.replay.mapIdx fun i (l : List Sent) => if s.newLane lanes i then [] else l } }

theorem execMirrorLinkChange_of_on {s : State} (m : BitVec 8) (on : s.power = 2 ∨ s.power = 3) :
    execMirrorLinkChange m s = .next (((s.restartLanes m.toNat).setN Obj.PLK_LANES_UP m.toNat).refreshLink).goOn := by
  rw [execMirrorLinkChange, if_pos on]
  rfl

theorem State.restartLanes_effect (s : State) (m : BitVec 8) (l : Nat) : let u := s.restartLanes m.toNat
    let new := m.getLsbD l && !bitOf (s.getN Obj.PLK_LANES_UP) l
    (new = true → atD u.pair.txSeq l 0 = 0 ∧ atD u.pair.rxSeq l 0 = 0 ∧ atD u.pair.replay l [] = []) ∧
    (new = false → atD u.pair.txSeq l 0 = atD s.pair.txSeq l 0 ∧ atD u.pair.rxSeq l 0 = atD s.pair.rxSeq l 0 ∧
      atD u.pair.replay l [] = atD s.pair.replay l []) := by
  intro u new
  have same : s.newLane m.toNat l = new := by rw [State.newLane, bitOf_toNat]
  have tx := atD_mapIdx_reset s.pair.txSeq (s.newLane m.toNat) 0 l
  have rx := atD_mapIdx_reset s.pair.rxSeq (s.newLane m.toNat) 0 l
  have replay := atD_mapIdx_reset s.pair.replay (s.newLane m.toNat) [] l
  rw [same] at tx rx replay
  refine ⟨fun locks => ?_, fun stays => ?_⟩
  · rw [locks] at tx rx replay
    exact ⟨tx, rx, replay⟩
  · rw [stays] at tx rx replay
    exact ⟨tx, rx, replay⟩

/-! ### Health records (R252) -/

/-- The state once a peer's record is held, before the link is looked at. -/
def State.holdHealth (s : State) (rec : Bytes) : State :=
  { s.setN Obj.PEER_STATE (leAt rec 0 1) with pair := { s.pair with peerHealth := rec, peerAt := some s.clk.cycle, peerStays := false } }

theorem State.getN_holdHealth_other (s : State) (rec : Bytes) {o : ObjRef} (h : o ≠ Obj.PEER_STATE) : (s.holdHealth rec).getN o = s.getN o :=
  s.getN_setN_other _ h

/-- What follows a record that is held: the link, and the checkpoint of an active whose peer has begun a transfer. -/
def State.afterHealth (u : State) (peer was : Nat) : State :=
  if u.refreshLink.getN Obj.PAIR_STATE = 1 ∧ peer = 2 ∧ was ≠ 2 ∧ !u.refreshLink.pair.releasing then u.refreshLink.sendCheckpoint
  else u.refreshLink

theorem State.takeHealth_of_same_level {s : State} {rec : Bytes} (level : leAt rec 1 1 = s.getN Obj.BEHAVIOUR_LEVEL) :
    s.takeHealth rec = (s.holdHealth rec).afterHealth (leAt rec 0 1) (s.getN Obj.PEER_STATE) := by
  have same : leAt rec 1 1 = (s.holdHealth rec).getN Obj.BEHAVIOUR_LEVEL := level.trans (s.getN_holdHealth_other rec (by decide)).symm
  have stays : (if leAt rec 1 1 ≠ (s.holdHealth rec).getN Obj.BEHAVIOUR_LEVEL then (s.holdHealth rec).desync 6 else s.holdHealth rec) =
      s.holdHealth rec := if_neg (not_not_intro same)
  exact congrArg (·.afterHealth (leAt rec 0 1) (s.getN Obj.PEER_STATE)) stays

theorem State.takeHealth_of_other_state {s : State} {rec : Bytes} (level : leAt rec 1 1 = s.getN Obj.BEHAVIOUR_LEVEL)
    (other : leAt rec 0 1 ≠ 2) : s.takeHealth rec = (s.holdHealth rec).refreshLink := by
  rw [State.takeHealth_of_same_level level, State.afterHealth, if_neg fun ⟨_, syncing, _⟩ => other syncing]

theorem State.takeHealth_of_syncing {s : State} {rec : Bytes} (level : leAt rec 1 1 = s.getN Obj.BEHAVIOUR_LEVEL)
    (syncing : leAt rec 0 1 = 2) (new : s.getN Obj.PEER_STATE ≠ 2) (active : s.getN Obj.PAIR_STATE = 1) (releasing : s.pair.releasing = false)
    (noWait : s.pair.await = []) : s.takeHealth rec = (s.holdHealth rec).refreshLink.sendCheckpoint := by
  have state : (s.holdHealth rec).getN Obj.PAIR_STATE = 1 := (s.getN_holdHealth_other rec (by decide)).trans active
  have link := State.refreshLink_of_no_wait (s := s.holdHealth rec) (by rw [state]; decide) fun _ => noWait
  have stillActive : (s.holdHealth rec).refreshLink.getN Obj.PAIR_STATE = 1 := by
    rw [link, State.getN_setN_other _ _ (by decide), state]
  have noRelease : (s.holdHealth rec).refreshLink.pair.releasing = false := by
    rw [link]
    exact releasing
  rw [State.takeHealth_of_same_level level, State.afterHealth, if_pos ⟨stillActive, syncing, new, by simp [noRelease]⟩]

theorem execHealth_of_takes {s : State} {rx : Receipt} (takes : s.takes rx) (rec : Bytes) :
    execHealth (rx, rec) s = .next ((s.taken rx).takeHealth rec).goOn := by
  rw [execHealth, State.received_of_takes _ takes]

theorem State.healthLate_of_heard {s : State} (heard : s.pair.peerAt ≠ none) : s.healthLate =
    State.refreshLink { s.setN Obj.PEER_STATE 0xFF with pair := { s.pair with peerAt := none, peerStays := false } } :=
  if_neg (by simpa using heard)

theorem State.healthLate_of_silent {s : State} (silent : s.pair.peerAt = none) : s.healthLate = s := if_pos (by simp [silent])

theorem ofLe_leBytes (n x : Nat) : ofLe (leBytes n x) = x % 256 ^ n := by
  induction n generalizing x with
  | zero => rw [leBytes, ofLe, Nat.pow_zero, Nat.mod_one]
  | succ n ih =>
    rw [leBytes, ofLe, ih, BitVec.toNat_ofNat, (Nat.pow_succ' : 256 ^ (n + 1) = 256 * 256 ^ n)]
    exact Nat.mod_mul.symm

theorem ofLe_byte (x : Nat) : ofLe [byte x] = x % 256 := ofLe_leBytes 1 x

/-- The record of 64 bytes with the pair's state, the level, the job and the last record at their places (Table 10-6). -/
theorem State.healthRecord_fields (s : State) : s.healthRecord.length = 64 ∧ leAt s.healthRecord 0 1 = s.getN Obj.PAIR_STATE % 256 ∧
    leAt s.healthRecord 1 1 = s.getN Obj.BEHAVIOUR_LEVEL % 256 ∧ leAt s.healthRecord 4 4 = s.getN Obj.JOB_ID % 2 ^ 32 ∧
    leAt s.healthRecord 8 4 = s.pair.lastRecord % 2 ^ 32 := by
  refine ⟨rfl, ofLe_byte _, ofLe_byte _, ofLe_leBytes 4 _, ?_⟩
  exact (ofLe_leBytes 4 _).trans (Nat.mod_mod _ _)

theorem execHealthSend_of_on {s : State} (coreOn : s.coreOn = true) : execHealthSend s = .next (s.mirror 4 0x30 s.healthRecord) := if_pos coreOn

/-! ### Replay and lost lanes (R246, R193, R198) -/

/-- What is asked for first is what was sent last. -/
theorem State.replayFrom_of_newest {s : State} {l : Nat} {m : Sent} {rest : List Sent} (buffer : atD s.pair.replay l [] = m :: rest) :
    s.replayFrom l m.seq = s.transmit l m := by
  have newest : (m :: rest).findIdx? (·.seq = m.seq) = some 0 := by simp [List.findIdx?_cons]
  rw [State.replayFrom, buffer]
  rw [newest]
  rfl

theorem State.replayFrom_of_empty {s : State} {l : Nat} (q : Nat) (empty : atD s.pair.replay l [] = []) (standby : s.isStandby = true)
    (synced : s.getN Obj.PAIR_STATE ≠ 0) : s.replayFrom l q = (s.inc Obj.RECORD_GAPS).desync 1 := by
  rw [State.replayFrom, empty]
  exact if_pos ⟨standby, synced⟩

theorem execNak_of_takes {s : State} {rx : Receipt} (takes : s.takes rx) (l q : Nat) :
    execNak rx (l, q) s = .next ((s.taken rx).replayFrom l q) := by
  rw [execNak, State.received_of_takes _ takes]

section
variable {s : State} (on : s.power = 2 ∨ s.power = 3)
include on

theorem State.laneLost_of_hst {l : Nat} (lane : l < 2) : s.laneLost .hst l = (s.setN (Obj.HST_LANE_STATE + l) 0).refreshEligible := by
  rw [State.laneLost, if_neg (by rcases on with on | on <;> simp [on])]
  exact if_pos lane

theorem State.laneLost_of_plk (l : Nat) :
    s.laneLost .plk l = (s.setN Obj.PLK_LANES_UP (clearBit (s.getN Obj.PLK_LANES_UP) l)).refreshLink := by
  rw [State.laneLost, if_neg (by rcases on with on | on <;> simp [on])]

end

theorem State.laneLost_of_off {s : State} (port : LanePort) (l : Nat) (off : s.power = 1) : s.laneLost port l = s :=
  if_pos (by simp [off])

/-! ### The statement -/

/-- Settles O54: the first clauses are the messages that a device takes and those that it does not, the others its health records and lanes. -/
theorem mirrorTraffic : Obligations.MirrorTraffic := by
  unfold Obligations.MirrorTraffic
  refine ⟨⟨?block, ?consumers, ?commit, ?beams, ?confirmed, ?stray, ?standbyLate, ?activeLate, ?idle, ?messages⟩,
    ?health, ?late, ?silent, ?send, ?lanes, ?link, ?replay, ?empty, ?hst, ?plk, ?off⟩
  case block =>
    intro rx t ring i tag b s takes follows
    exact execMirrorBlock_of_follows takes follows t ring (i, tag) b
  case consumers =>
    intro rx c r rc rr s takes follows
    exact ⟨_, execStreamEvent_of_follows takes follows _, (s.taken rx).useConsumers_effect c r rc rr⟩
  case commit =>
    intro rx es s takes follows
    exact execMirrorCommit_of_follows takes follows es
  case beams =>
    intro rx cs e s takes follows alive
    exact execBeamChanges_of_follows takes follows e alive
  case confirmed =>
    intro rx q s takes active releasing awaited noCommit noTable u
    have done : exec (.confirm (rx, q)) s = .next (u.takeConfirm q).goOn := execConfirm_of_takes takes q
    rwa [State.takeConfirm_of_awaited (s := u) active releasing awaited noCommit noTable] at done
  case stray =>
    intro rx q s takes stray
    have done : exec (.confirm (rx, q)) s = .next ((s.taken rx).takeConfirm q).goOn := execConfirm_of_takes takes q
    rwa [State.takeConfirm_of_stray (s := s.taken rx) stray] at done
  case standbyLate =>
    intro s standby
    exact next_goOn (State.confirmLate_of_standby standby)
  case activeLate =>
    intro s active _ awaits releasing
    exact next_goOn (State.confirmLate_of_active active awaits releasing)
  case idle =>
    intro s none
    exact State.goOn_of_none none
  case messages =>
    intro rx s t ring i tag b ev es cs e id d n code kr coreOn c message want
    have done := exec_of_message message s
    refine ⟨fun bad => ?_, fun x pos half number whole beyond => ?_, fun x pos half whole _ before => ?_, fun takes other active => ?_⟩
    · rwa [State.received_of_bad_crc _ coreOn bad] at done
    · rwa [State.received_of_beyond _ coreOn whole pos half number beyond] at done
    · rwa [State.received_of_before _ coreOn whole pos half before] at done
    · rwa [State.received_of_takes _ takes, messageEffect_of_idle rx c (s := s.taken rx) other active] at done
  case health =>
    intro rx rec s takes level u v
    have done : exec (.health (rx, rec)) s = .next (u.takeHealth rec).goOn := execHealth_of_takes takes rec
    refine ⟨fun other => ?_, fun syncing new active releasing noWait => ?_⟩
    · rwa [State.takeHealth_of_other_state (s := u) level other] at done
    · rwa [State.takeHealth_of_syncing (s := u) level syncing new active releasing noWait] at done
  case late =>
    intro s heard
    exact next_goOn (State.healthLate_of_heard heard)
  case silent =>
    intro s silent
    exact next_goOn (State.healthLate_of_silent silent)
  case send =>
    intro s coreOn
    exact ⟨_, execHealthSend_of_on coreOn, s.healthRecord_fields⟩
  case lanes =>
    intro m s on
    exact ⟨s.restartLanes m.toNat, execMirrorLinkChange_of_on m on, rfl, fun l _ => s.restartLanes_effect m l⟩
  case link =>
    intro s released
    exact ⟨_, rfl, State.getN_refreshLink_of_released released⟩
  case replay =>
    intro rx l q s m rest takes buffer newest
    subst newest
    have done : exec (.nak rx (l, m.seq)) s = .next ((s.taken rx).replayFrom l m.seq) := execNak_of_takes takes l m.seq
    rwa [State.replayFrom_of_newest (s := s.taken rx) buffer] at done
  case empty =>
    intro rx l q s takes buffer standby synced
    have done : exec (.nak rx (l, q)) s = .next ((s.taken rx).replayFrom l q) := execNak_of_takes takes l q
    rwa [State.replayFrom_of_empty (s := s.taken rx) q buffer standby synced] at done
  case hst =>
    intro l s on lane
    exact next_goOn (State.laneLost_of_hst on lane)
  case plk =>
    intro l s on
    exact next_goOn (State.laneLost_of_plk on l)
  case off =>
    intro l s off
    exact next_goOn (State.laneLost_of_off .hst l off)

end Sys2Proof.Machine
end

section
/-! SUPPORT. Proofs of the transfer of a checkpoint (R262): its start, an item that takes its place and its end; with them the statement
Synchronisation is settled. -/
namespace Sys2Proof.Machine

/-! ### The start of a transfer -/

theorem execSyncStart_of_may {s : State} {c : Caller} (mayWrite : s.mayWrite c Obj.SYNC_START) (may : s.maySync = true) :
    execSyncStart (some c) s = .next s.startSync := by
  rw [execSyncStart, writeSyncStart, State.gate_of_mayWrite _ mayWrite]
  simp [may]

theorem execSyncStart_of_may_not {s : State} {c : Caller} (mayWrite : s.mayWrite c Obj.SYNC_START) (mayNot : s.maySync = false) :
    execSyncStart (some c) s = .next s := by
  rw [execSyncStart, writeSyncStart, State.gate_of_mayWrite _ mayWrite]
  simp [mayNot]

theorem execSyncStart_of_auto {s : State} (auto : s.on Obj.AUTO_SYNC = true) (may : s.maySync = true) :
    execSyncStart none s = .next s.startSync := by
  rw [execSyncStart, if_pos ⟨auto, may⟩]

theorem execSyncStart_of_manual {s : State} (manual : s.on Obj.AUTO_SYNC = false) : execSyncStart none s = .next s := by
  rw [execSyncStart, if_neg (by simp [manual])]

theorem State.startSync_effect (s : State) : let t := s.startSync
    t.getN Obj.PAIR_STATE = 2 ∧ t.getN Obj.SYNC_ITEM = 1 ∧ t.getN Obj.SYNC_BYTES = 0 ∧ t.getN Obj.SYNC_PERMILLE = 0 ∧
    t.ledger.entries = [] ∧ t.pair.anyRecord = false ∧ t.lay = {} := by
  intro t
  have written (o : ObjRef) : t.getN o = ((((((s.clearJob.setN Obj.PAIR_STATE 2).setN Obj.SYNC_PERMILLE 0).setN Obj.SYNC_ITEM 1).setN
      Obj.SYNC_BYTES 0).setN Obj.SWEEP_STATE 0).setN Obj.PENDING_REJECTIONS 0).getN o := rfl
  refine ⟨?_, ?_, ?_, ?_, rfl, rfl, rfl⟩
  · rw [written, State.getN_setN_other _ _ (by decide), State.getN_setN_other _ _ (by decide), State.getN_setN_other _ _ (by decide),
      State.getN_setN_other _ _ (by decide), State.getN_setN_other _ _ (by decide), State.getN_setN_self]
  · rw [written, State.getN_setN_other _ _ (by decide), State.getN_setN_other _ _ (by decide), State.getN_setN_other _ _ (by decide),
      State.getN_setN_self]
  · rw [written, State.getN_setN_other _ _ (by decide), State.getN_setN_other _ _ (by decide), State.getN_setN_self]
  · rw [written, State.getN_setN_other _ _ (by decide), State.getN_setN_other _ _ (by decide), State.getN_setN_other _ _ (by decide),
      State.getN_setN_other _ _ (by decide), State.getN_setN_self]

/-! ### Checkpoint data -/

/-- SYNC_PERMILLE never falls, and stays at 999 at most until the end of the transfer. -/
theorem State.syncPermille_bounds (s : State) (i : Nat) : s.getN Obj.SYNC_PERMILLE ≤ s.syncPermille i ∧
    (s.getN Obj.SYNC_PERMILLE ≤ 999 → s.syncPermille i ≤ 999) :=
  ⟨Nat.le_max_left _ _, fun low => Nat.max_le.2 ⟨low, Nat.min_le_left _ _⟩⟩

/-- The state `u`, to which item `i` has been stored, with the progress that its `n` bytes make from `s` on. -/
def State.showItem (u s : State) (i n : Nat) : State :=
  ((u.setN Obj.SYNC_ITEM (max (s.getN Obj.SYNC_ITEM) i)).add Obj.SYNC_BYTES n).setN Obj.SYNC_PERMILLE (s.syncPermille i)

theorem State.showItem_effect (u s : State) (i n : Nat) : let t := u.showItem s i n
    t.getN Obj.SYNC_ITEM = max (s.getN Obj.SYNC_ITEM) i ∧ t.getN Obj.SYNC_PERMILLE = s.syncPermille i ∧ t = { u with od := t.od } ∧
    u.sameObjects t [Obj.SYNC_ITEM, Obj.SYNC_BYTES, Obj.SYNC_PERMILLE] := by
  intro t
  refine ⟨?_, State.getN_setN_self _ _ _, ?_, fun o other => ?_⟩
  · exact congrArg Int.toNat ((State.get_setN_other _ _ (by decide)).trans ((State.get_add_other _ _ (by decide)).trans (State.get_setN_self _ _ _)))
  · have counted := (u.setN Obj.SYNC_ITEM (max (s.getN Obj.SYNC_ITEM) i)).add_eq Obj.SYNC_BYTES n
    simp only [t, State.showItem]
    rw [counted]
    rfl
  · simp only [List.mem_cons, List.not_mem_nil, or_false, not_or] at other
    obtain ⟨item, bytes, permille⟩ := other
    exact (State.get_setN_other _ _ permille).trans ((State.get_add_other _ _ bytes).trans (State.get_setN_other _ _ item))

section
variable {s : State} {rx : Receipt} (takes : s.takes rx)
include takes

theorem execCheckpoint_of_transfer {d : CheckpointData} {u : State} {i : Nat} (n : Nat) (follows : s.follows = true)
    (stored : (s.taken rx).storeItem d = (u, i)) (syncing : s.getN Obj.PAIR_STATE = 2) :
    execCheckpoint rx (d, n) s = .next (u.showItem (s.taken rx) i n) := by
  have transfer : (s.taken rx).getN Obj.PAIR_STATE = 2 := syncing
  rw [execCheckpoint, State.received_of_takes _ takes, State.takeItem, if_neg (by simp [State.follows_taken, follows]), stored]
  dsimp only
  rw [if_pos transfer, State.showItem]

theorem execCheckpoint_of_not_following (d : CheckpointData) (n : Nat) (other : s.follows = false) :
    execCheckpoint rx (d, n) s = .next (s.taken rx) := by
  rw [execCheckpoint, State.received_of_takes _ takes, State.takeItem, if_pos (by simp [State.follows_taken, other])]

end

/-! ### The end of a transfer -/

theorem execSyncComplete_of_syncing {s : State} (syncing : s.getN Obj.PAIR_STATE = 2) :
    execSyncComplete s = .next (State.refreshEligible { (s.restoreFlow.setN Obj.PAIR_STATE 3).setN Obj.SYNC_PERMILLE 1000 with
      pair := { s.pair with armedSinceSync := false } }) :=
  if_neg (not_not_intro syncing)

theorem execSyncComplete_of_other {s : State} (other : s.getN Obj.PAIR_STATE ≠ 2) : execSyncComplete s = .next s := if_pos other

/-! ### The statement -/

/-- Settles O55: the clauses are the cases of SYNC_START, CHECKPOINT and SYNC_COMPLETE. -/
theorem synchronisation : Obligations.Synchronisation := by
  unfold Obligations.Synchronisation
  refine ⟨?start, ?auto, ?manual, ?refused, ?begun, ?item, ?other, ?ended, ?idle⟩
  case start =>
    intro c s mayWrite may
    exact execSyncStart_of_may mayWrite may
  case auto =>
    intro s auto may
    exact execSyncStart_of_auto auto may
  case manual =>
    intro s manual
    exact execSyncStart_of_manual manual
  case refused =>
    intro c s mayWrite mayNot
    exact execSyncStart_of_may_not mayWrite mayNot
  case begun =>
    intro s
    exact ⟨_, rfl, s.startSync_effect⟩
  case item =>
    intro rx d n s u i takes follows stored syncing
    obtain ⟨item, permille, state, objects⟩ := u.showItem_effect (s.taken rx) i n
    obtain ⟨rises, below⟩ := (s.taken rx).syncPermille_bounds i
    have done := execCheckpoint_of_transfer takes n follows stored syncing
    exact ⟨_, done, item, permille ▸ rises, fun low => permille ▸ below low, state, objects⟩
  case other =>
    intro rx d n s takes other
    exact execCheckpoint_of_not_following takes d n other
  case ended =>
    intro s syncing
    exact execSyncComplete_of_syncing syncing
  case idle =>
    intro s other
    exact execSyncComplete_of_other other

end Sys2Proof.Machine
end

section
/-! SUPPORT. Proofs of the device's upkeep: the scrub of the on-chip stores (R284), a standby's test of memory (R251) and the health index
(R409); with them the statement Upkeep is settled. -/
namespace Sys2Proof.Machine

/-! ### Marks of a window word (R284) -/

theorem WinWord.turn_zero (w : WinWord) : w.turn 0 = w := by
  simp [WinWord.turn]

/-- A copy that differs alone is outvoted, and is the only one that is corrected. -/
theorem majority_of_one {f : BitVec 9} (disturbed : f ≠ 0) {fs : List (BitVec 9)} (one : fs ∈ [[f, 0, 0], [0, f, 0], [0, 0, f]]) :
    ∃ a b c, fs = [a, b, c] ∧ majority a b c = 0 ∧ ([a, b, c].filter (· ≠ 0)).length = 1 := by
  have differs : f ≠ 0#9 := disturbed
  simp only [List.mem_cons, List.not_mem_nil, or_false] at one
  rcases one with rfl | rfl | rfl
  · exact ⟨f, 0, 0, rfl, by simp [majority], by simp [differs]⟩
  · exact ⟨0, f, 0, rfl, by simp [majority], by simp [differs]⟩
  · exact ⟨0, 0, f, rfl, by simp [majority], by simp [differs]⟩

/-- The state with the window word that stands at an index of a slice read with the bits `m` turned over. -/
def State.turnMarks (s : State) (r word : Nat) (m : BitVec 9) : State :=
  match s.windowAt r word with
  | some (col, g, q) => { s with sweep := { s.sweep with win := modifyAt s.sweep.win col fun x => updWord x g q (·.turn m) } }
  | none => s

theorem State.readMarks_of_one {s : State} {f : BitVec 9} (disturbed : f ≠ 0) {fs : List (BitVec 9)}
    (one : fs ∈ [[f, 0, 0], [0, f, 0], [0, 0, f]]) (r word : Nat) :
    s.readMarks [⟨r, word, fs⟩] = (s.sramCorrected r word).turnMarks r word 0 := by
  obtain ⟨a, b, c, rfl, voted, count⟩ := majority_of_one disturbed one
  rw [State.readMarks, List.foldl_cons, List.foldl_nil]
  dsimp only
  rw [voted, count]
  rfl

/-- A word that is put in its own place leaves every word as it reads. -/
theorem colWord_putWord_same {col : WinCol} {g : Nat} {w : WinWord} (held : colWord col g w.q = some w) (g' q' : Nat) :
    colWord (putWord col g w) g' q' = colWord col g' q' := by
  have known : ((kvGet col g).getD []).any (·.q = w.q) = true :=
    List.any_eq_true.2 ⟨w, List.mem_of_find?_eq_some held, decide_eq_true rfl⟩
  rw [putWord, if_pos known]
  by_cases group : g' = g
  case neg => rw [colWord, kvGet_kvSet_other _ _ group, colWord]
  case pos =>
    subst group
    rw [colWord, kvGet_kvSet_self, Option.getD_some, List.find?_map, colWord]
    have sameKey : ((fun x : WinWord => decide (x.q = q')) ∘ fun x => if x.q = w.q then w else x) = fun x => decide (x.q = q') := by
      funext x
      by_cases key : x.q = w.q
      · simp [key]
      · simp [key]
    rw [sameKey]
    cases found : ((kvGet col g').getD []).find? fun x => decide (x.q = q') with
    | none => rfl
    | some x =>
      have place : x.q = q' := by simpa using List.find?_some found
      rw [Option.map_some]
      split
      case isTrue key =>
        rw [colWord, ← key, place, found] at held
        exact held.symm
      case isFalse => rfl

theorem colWord_q {col : WinCol} {g q : Nat} {w : WinWord} (held : colWord col g q = some w) : w.q = q := by
  rw [colWord] at held
  simpa using List.find?_some held

theorem colWord_updWord_turn_zero {col : WinCol} {g q : Nat} {w : WinWord} (held : colWord col g q = some w) (g' q' : Nat) :
    colWord (updWord col g q (·.turn 0)) g' q' = colWord col g' q' := by
  rw [updWord, held, Option.getD_some, WinWord.turn_zero]
  exact colWord_putWord_same ((colWord_q held).symm ▸ held) g' q'

/-- The place that an index of a slice names holds a word. -/
theorem State.colWord_of_windowAt {s : State} {r word c g q : Nat} (at_ : s.windowAt r word = some (c, g, q)) :
    ∃ w, colWord (atD s.sweep.win c []) g q = some w := by
  rw [State.windowAt] at at_
  obtain ⟨w, found, place⟩ := Option.map_eq_some_iff.1 at_
  obtain ⟨rfl, rfl, rfl⟩ : _ ∧ _ ∧ _ := by simpa only [Prod.mk.injEq] using place
  exact Option.isSome_iff_exists.1 (List.find?_isSome.2 ⟨w, List.mem_of_find?_eq_some found, decide_eq_true rfl⟩)

/-- Read with no bit turned over, the window holds what it held. -/
theorem State.turnMarks_zero (s : State) (r word : Nat) : let t := s.turnMarks r word 0
    (∀ c g q, colWord (atD t.sweep.win c []) g q = colWord (atD s.sweep.win c []) g q) ∧ t.sweep = { s.sweep with win := t.sweep.win } ∧
    t = { s with sweep := t.sweep } := by
  intro t
  cases at_ : s.windowAt r word with
  | none =>
    have stays : t = s := by simp only [t, State.turnMarks, at_]
    rw [stays]
    exact ⟨fun _ _ _ => rfl, rfl, rfl⟩
  | some place =>
    obtain ⟨col, g, q⟩ := place
    have turned : t = { s with sweep := { s.sweep with win := modifyAt s.sweep.win col fun x => updWord x g q (·.turn 0) } } := by
      simp only [t, State.turnMarks, at_]
    obtain ⟨w, held⟩ := State.colWord_of_windowAt at_
    rw [turned]
    refine ⟨fun c g' q' => ?_, rfl, rfl⟩
    rcases Nat.lt_or_ge col s.sweep.win.length with inWindow | outside
    · rw [atD_modifyAt _ _ _ _ inWindow]
      split
      case isTrue same =>
        subst same
        exact colWord_updWord_turn_zero held g' q'
      case isFalse => rfl
    · rw [modifyAt, List.modify_eq_self outside]

/-! ### The scrub of the on-chip stores (R284) -/

theorem execSramScrub_of_nothing (s : State) : execSramScrub ([], []) s = .next s := by
  rw [execSramScrub]
  split
  case isTrue => rfl
  case isFalse => rfl

theorem execSramScrub_of_table_word {s : State} {f : WordFault} (coreOn : s.coreOn = true) (inTable : f.word < 153600)
    (good : f.word ∉ s.sram.tableUe)
    (corrected : sramOutcome 5 (s.beamEntry (2 * f.word) + 2 ^ 32 * s.beamEntry (2 * f.word + 1)) f = .corrected) :
    execSramScrub ([(4, f)], []) s = .next (s.sramCorrected 4 f.word) := by
  have scrubbed : s.scrubTable f = s.sramCorrected 4 f.word := by
    rw [State.scrubTable, if_neg (by simpa using good), corrected]
  rw [execSramScrub, if_neg (by simp [coreOn])]
  dsimp only [List.foldl_cons, List.foldl_nil, List.filter_nil]
  rw [if_neg (by decide), if_pos ⟨rfl, inTable⟩, scrubbed]
  rfl

theorem execSramScrub_of_mark {s : State} {r word : Nat} {fs : List (BitVec 9)} (coreOn : s.coreOn = true)
    (awake : atD s.units.writing r 0 = 2) (kept : s.lost r = false) :
    execSramScrub ([], [⟨r, word, fs⟩]) s = .next (s.readMarks [⟨r, word, fs⟩]) := by
  rw [execSramScrub, if_neg (by simp [coreOn])]
  dsimp only [List.foldl_nil]
  rw [List.filter_cons_of_pos (by simp [awake, kept]), List.filter_nil]

theorem State.sramCorrected_of_region (s : State) {r : Nat} (word : Nat) (region : r < 4) :
    s.sramCorrected r word = (s.inc (Obj.SRAM_CORRECTED + r)).logEvent ⟨1, 4, r, 255, Obj.SRAM_CORRECTED + r, word, 0⟩ := by
  rw [State.sramCorrected, if_pos region, if_pos region]

@[simp] theorem State.sramCorrected_sweep (s : State) (store word : Nat) : (s.sramCorrected store word).sweep = s.sweep := by
  rw [State.sramCorrected, State.logEvent_sweep, State.inc_sweep]

/-! ### A standby's test of memory (R251) -/

theorem execMemtestRead_of_good {s : State} (n : Nat) (coreOn : s.coreOn = true) (standby : s.isStandby = true) :
    execMemtestRead n [] s = .next ((s.add Obj.MEMTEST_BYTES (8 * n)).add Obj.MEMTEST_FAILS 0) :=
  if_neg (by simp [coreOn, standby])

theorem execMemtestRead_of_other {s : State} (n : Nat) (fs : List WordFault) (other : s.isStandby = false) :
    execMemtestRead n fs s = .next s :=
  if_pos (.inr (by simp [other]))

/-! ### The health index (R409) -/

theorem foldl_min_le {l : List Nat} {x : Nat} (a : Nat) (h : x ∈ l) : l.foldl min a ≤ x := by
  obtain ⟨m, least⟩ := Option.isSome_iff_exists.1 (List.isSome_min?_of_mem h)
  rw [List.foldl_min, least, Option.getD_some]
  exact Nat.le_trans (Nat.min_le_right a m) ((List.min?_eq_some_iff.1 least).2 x h)

theorem foldl_min_le_start (l : List Nat) (a : Nat) : l.foldl min a ≤ a := by
  rw [List.foldl_min]
  exact Nat.min_le_left _ _

theorem State.healthOf_of_halt {s : State} {j : Nat} (g : Bool) (halted : s.log.haltSub = some j) : s.healthOf g j = 0 := if_pos halted

/-- The state at the second's computation: a free value is drawn, and events before the last 600 s are forgotten. -/
def State.forgetEvents (s : State) : State :=
  { s.freeNat.2 with log := { s.log with recent := s.log.recent.filter fun e => s.clk.cycle < e.1 + 600 * secCycles } }

theorem State.healthOf_forgetEvents (s : State) (g : Bool) (j : Nat) : s.forgetEvents.healthOf g j = s.healthOf g j := by
  have fraction : s.forgetEvents.serviceFraction g j = s.serviceFraction g j := rfl
  have events (lo hi : Nat) : s.forgetEvents.recentEvents j lo hi = s.recentEvents j lo hi := by
    rw [State.recentEvents, State.recentEvents, State.forgetEvents, List.filter_filter]
    exact congrArg List.length (List.filter_congr fun _ _ => (Bool.and_assoc _ _ _).trans (congrArg _ (Bool.and_self _)))
  rw [State.healthOf, State.healthOf, fraction, events, events]
  rfl

/-- The state that shows the healths `hs` of the 16 subsystems, and the least of them, at most 100. -/
def State.showHealth (s : State) (hs : List Nat) : State :=
  (foldN 16 (fun (s : State) j => s.setN (Obj.HEALTH_INDEX + j) (atD hs j 0)) s).setN Obj.HEALTH_MIN (hs.foldl min 100)

theorem State.foldN_setN_eq (s : State) (o : ObjRef) (h : Nat → Nat) (n : Nat) :
    ∃ od, foldN n (fun (s : State) j => s.setN (o + j) (h j)) s = { s with od := od } :=
  foldN_rel (R := fun s t : State => ∃ od, t = { s with od := od }) (fun s => ⟨s.od, rfl⟩)
    (fun ⟨_, st⟩ ⟨od, tu⟩ => ⟨od, by rw [tu, st]⟩) (fun _ _ => ⟨_, rfl⟩) n s

theorem State.get_foldN_setN_other (s : State) {o p : ObjRef} (h : Nat → Nat) {n : Nat} (other : ∀ j < n, p ≠ o + j) :
    (foldN n (fun (s : State) j => s.setN (o + j) (h j)) s).get p = s.get p := by
  induction n with
  | zero => rfl
  | succ n ih => rw [foldN_succ, State.get_setN_other _ _ (other n (Nat.lt_succ_self n)), ih fun j hj => other j (Nat.lt_succ_of_lt hj)]

theorem State.getN_foldN_setN (s : State) (o : ObjRef) (h : Nat → Nat) {n j : Nat} (run : j < n) :
    (foldN n (fun (s : State) j => s.setN (o + j) (h j)) s).getN (o + j) = h j :=
  congrArg Int.toNat (s.get_foldN_set o (fun j => (h j : Int)) run)

theorem State.showHealth_eq (s : State) (hs : List Nat) : s.showHealth hs = { s with od := (s.showHealth hs).od } := by
  obtain ⟨od, shown⟩ := s.foldN_setN_eq Obj.HEALTH_INDEX (atD hs · 0) 16
  rw [State.showHealth, shown]
  rfl

theorem State.getN_showHealth (s : State) (hs : List Nat) {j : Nat} (subsystem : j < 16) :
    (s.showHealth hs).getN (Obj.HEALTH_INDEX + j) = atD hs j 0 := by
  have other : Obj.HEALTH_INDEX + j ≠ Obj.HEALTH_MIN := by
    change 0x132001 + j ≠ 0x132100
    omega
  rw [State.showHealth, State.getN_setN_other _ _ other]
  exact s.getN_foldN_setN Obj.HEALTH_INDEX (atD hs · 0) subsystem

theorem State.healthMin_showHealth (s : State) (hs : List Nat) : (s.showHealth hs).getN Obj.HEALTH_MIN = hs.foldl min 100 :=
  State.getN_setN_self _ _ _

theorem State.sameObjects_showHealth (s : State) (hs : List Nat) :
    s.sameObjects (s.showHealth hs) (Obj.HEALTH_MIN :: (List.range 16).map fun j => Obj.HEALTH_INDEX + j) := by
  intro o other
  simp only [List.mem_cons, List.mem_map, List.mem_range, not_or, not_exists, not_and] at other
  obtain ⟨notMin, notIndex⟩ := other
  rw [State.showHealth, State.get_setN_other _ _ notMin]
  exact s.get_foldN_setN_other (atD hs · 0) fun j subsystem same => notIndex j subsystem same.symm

/-- The healths of the 16 subsystems. -/
def State.healths (s : State) (g : Bool) : List Nat := (List.range 16).map (s.healthOf g)

theorem State.atD_healths (s : State) (g : Bool) {j : Nat} (subsystem : j < 16) : atD (s.healths g) j 0 = s.healthOf g j := by
  simp [State.healths, atD, subsystem]

theorem execHealthIndexUpdate_eq (s : State) : ∃ g, execHealthIndexUpdate s = .next (s.forgetEvents.showHealth (s.healths g)) := by
  refine ⟨decide (s.freeNat.1 % 2 = 1), ?_⟩
  have same : s.forgetEvents.healths (decide (s.freeNat.1 % 2 = 1)) = s.healths (decide (s.freeNat.1 % 2 = 1)) :=
    List.map_congr_left fun j _ => s.healthOf_forgetEvents _ j
  rw [← same]
  rfl

/-- What the second's computation shows, and that it changes nothing but the log's memory of events and the free values beside. -/
theorem State.showHealth_effect (s : State) (g : Bool) : let t := s.forgetEvents.showHealth (s.healths g)
    (∀ j < 16, t.getN (Obj.HEALTH_INDEX + j) = s.healthOf g j) ∧ (∀ j < 16, t.getN Obj.HEALTH_MIN ≤ t.getN (Obj.HEALTH_INDEX + j)) ∧
    t.getN Obj.HEALTH_MIN ≤ 100 ∧ (∀ j < 16, s.log.haltSub = some j → t.getN (Obj.HEALTH_INDEX + j) = 0) ∧ t.log.entries = s.log.entries ∧
    t = { s with od := t.od, log := t.log, free := t.free } ∧
    s.sameObjects t (Obj.HEALTH_MIN :: (List.range 16).map fun j => Obj.HEALTH_INDEX + j) := by
  have shown (j : Nat) (subsystem : j < 16) := (s.forgetEvents.getN_showHealth (s.healths g) subsystem).trans (s.atD_healths g subsystem)
  have least := s.forgetEvents.healthMin_showHealth (s.healths g)
  have state := s.forgetEvents.showHealth_eq (s.healths g)
  have objects := s.forgetEvents.sameObjects_showHealth (s.healths g)
  generalize s.forgetEvents.showHealth (s.healths g) = t at shown least state objects ⊢
  refine ⟨shown, fun j subsystem => ?_, ?_, fun j subsystem halted => ?_, ?_, ?_, objects⟩
  · rw [least, shown j subsystem]
    exact foldl_min_le 100 (List.mem_map.2 ⟨j, List.mem_range.2 subsystem, rfl⟩)
  · rw [least]
    exact foldl_min_le_start _ _
  · rw [shown j subsystem, State.healthOf_of_halt g halted]
  · rw [state]
    rfl
  · rw [state]
    rfl

/-! ### The statement -/

/-- Settles O12: the clauses are the cases of SRAM_SCRUB, MEMTEST_READ and HEALTH_INDEX_UPDATE. -/
theorem upkeep : Obligations.Upkeep := by
  unfold Obligations.Upkeep
  refine ⟨?nothing, ?table, ?mark, ?test, ?other, ?health⟩
  case nothing =>
    intro s
    exact execSramScrub_of_nothing s
  case table =>
    intro s f coreOn inTable good corrected
    exact execSramScrub_of_table_word coreOn inTable good corrected
  case mark =>
    intro s r w f coreOn region awake kept disturbed fs one
    obtain ⟨words, sweep, state⟩ := (s.sramCorrected r w).turnMarks_zero r w
    have done : exec (.sramScrub ([], [⟨r, w, fs⟩])) s = _ := execSramScrub_of_mark coreOn awake kept
    rw [State.readMarks_of_one disturbed one] at done
    rw [State.sramCorrected_sweep] at words sweep
    rw [s.sramCorrected_of_region w region] at state done words sweep
    exact ⟨_, done, state, words, sweep⟩
  case test =>
    intro n s coreOn standby
    exact ⟨_, execMemtestRead_of_good n coreOn standby, rfl⟩
  case other =>
    intro n fs s other
    exact execMemtestRead_of_other n fs other
  case health =>
    intro s
    obtain ⟨g, done⟩ := execHealthIndexUpdate_eq s
    exact ⟨_, g, done, s.showHealth_effect g⟩

end Sys2Proof.Machine
end

section
/-! SUPPORT. Proofs of the code of DRAM and on-chip words (R270 to R272, Table 11-4): the syndrome is linear in the stored bits and the address,
a word of the code has syndrome 0, and one turned bit leaves the syndrome of its degree; with them the statement WordCode is settled. -/
namespace Sys2Proof.Machine

/-! ### Bits of a sum -/

theorem bitOf_eq_testBit (x i : Nat) : bitOf x i = x.testBit i := by
  rw [bitOf, Nat.testBit_eq_decide_div_mod_eq]

theorem bitOf_xor (x y i : Nat) : bitOf (x ^^^ y) i = (bitOf x i ^^ bitOf y i) := by
  rw [bitOf_eq_testBit, bitOf_eq_testBit, bitOf_eq_testBit, Nat.testBit_xor]

theorem bitsOf_xor (x y hi lo : Nat) : bitsOf (x ^^^ y) hi lo = bitsOf x hi lo ^^^ bitsOf y hi lo := by
  rw [bitsOf, bitsOf, bitsOf, Nat.xor_div_two_pow, Nat.xor_mod_two_pow]

/-- The contribution of a sum of two bits is the sum of their contributions. -/
theorem ite_xor (p q : Bool) (v : Nat) : (if (p ^^ q) = true then v else 0) = (if p then v else 0) ^^^ (if q then v else 0) := by
  cases q with
  | false => simp
  | true =>
    cases p with
    | false => simp
    | true => simp

/-! ### Sums of powers of x (R270) -/

theorem eccPow_lt (n : Nat) : eccPow n < 2 ^ 15 := by
  induction n with
  | zero => decide
  | succ n ih =>
    simp only [eccPow]
    split
    case isTrue high =>
      have quotient : 2 * eccPow n / 2 ^ 15 = 1 := by omega
      have generator : eccG / 2 ^ 15 = 1 := by decide
      have reduced : (2 * eccPow n ^^^ eccG) / 2 ^ 15 = 0 := by rw [Nat.xor_div_two_pow, quotient, generator, Nat.xor_self]
      omega
    case isFalse low => omega

theorem eccSum_zero (d x : Nat) : eccSum 0 d x = 0 := by rw [eccSum, List.range_zero, List.foldl_nil]

theorem eccSum_succ (w d x : Nat) : eccSum (w + 1) d x = eccSum w d x ^^^ (if bitOf x w then eccPow (d + w) else 0) := by
  rw [eccSum, List.range_succ, List.foldl_append, List.foldl_cons, List.foldl_nil, ← eccSum]
  split
  case isTrue => rfl
  case isFalse => rw [Nat.xor_zero]

theorem eccSum_xor (w d x y : Nat) : eccSum w d (x ^^^ y) = eccSum w d x ^^^ eccSum w d y := by
  induction w with
  | zero => rw [eccSum_zero, eccSum_zero, eccSum_zero, Nat.xor_zero]
  | succ w ih =>
    rw [eccSum_succ, eccSum_succ, eccSum_succ, ih, bitOf_xor, ite_xor]
    ac_rfl

theorem eccSum_lt (w d x : Nat) : eccSum w d x < 2 ^ 15 := by
  induction w with
  | zero => rw [eccSum_zero]; decide
  | succ w ih =>
    rw [eccSum_succ]
    refine Nat.xor_lt_two_pow ih ?_
    split
    case isTrue => exact eccPow_lt _
    case isFalse => decide

/-- A sum takes no bits but its own. -/
theorem eccSum_mod {w n : Nat} (le : w ≤ n) (d x : Nat) : eccSum w d (x % 2 ^ n) = eccSum w d x := by
  induction w with
  | zero => rw [eccSum_zero, eccSum_zero]
  | succ w ih =>
    have bit : bitOf (x % 2 ^ n) w = bitOf x w := by
      rw [bitOf_eq_testBit, bitOf_eq_testBit, Nat.testBit_mod_two_pow, decide_eq_true (Nat.lt_of_succ_le le), Bool.true_and]
    rw [eccSum_succ, eccSum_succ, ih (Nat.le_of_succ_le le), bit]

/-- The check bits stand at the degrees below 15, where a power of x is its own remainder. -/
theorem eccSum_check {w : Nat} (le : w ≤ 15) (x : Nat) : eccSum w 0 x = x % 2 ^ w := by
  induction w with
  | zero => rw [eccSum_zero, Nat.pow_zero, Nat.mod_one]
  | succ w ih =>
    have power : ∀ i < 15, eccPow (0 + i) = 2 ^ i := by decide
    rw [eccSum_succ, ih (by omega), power w (by omega), bitOf_eq_testBit]
    refine Nat.eq_of_testBit_eq fun i => ?_
    have top : (if x.testBit w then 2 ^ w else 0).testBit i = (x.testBit w && decide (w = i)) := by
      split
      case isTrue set => rw [Nat.testBit_two_pow, set, Bool.true_and]
      case isFalse clear => simp [clear]
    rw [Nat.testBit_xor, Nat.testBit_mod_two_pow, Nat.testBit_mod_two_pow, top]
    rcases Nat.lt_trichotomy i w with below | rfl | above
    · simp [below, Nat.lt_succ_of_lt below, Nat.ne_of_gt below]
    · simp
    · simp [Nat.not_lt_of_gt above, Nat.not_lt.2 above, Nat.ne_of_lt above]

/-! ### The syndrome -/

/-- The syndrome of the sum of two words at the sum of two addresses is the sum of the syndromes. -/
theorem syndrome_xor (v w a b : Nat) : syndrome (v ^^^ w) (a ^^^ b) = syndrome v a ^^^ syndrome w b := by
  rw [syndrome, syndrome, syndrome, bitsOf_xor, Nat.xor_mod_two_pow, bitOf_xor, ite_xor, eccSum_xor, eccSum_xor, eccSum_xor]
  ac_rfl

/-- The remainder x^15·u(x) mod G(x) that the information bits of a word leave. -/
def infoSum (d a : Nat) (p : Bool) : Nat := eccSum 64 15 d ^^^ (if p then eccPow 79 else 0) ^^^ eccSum 34 80 a

theorem checkBits_eq (d a : Nat) (p : Bool) : checkBits d a p = infoSum d a p + (if p then 2 ^ 15 else 0) := rfl

theorem infoSum_lt (d a : Nat) (p : Bool) : infoSum d a p < 2 ^ 15 := by
  refine Nat.xor_lt_two_pow (Nat.xor_lt_two_pow (eccSum_lt _ _ _) ?_) (eccSum_lt _ _ _)
  split
  case isTrue => exact eccPow_lt _
  case isFalse => decide

theorem syndrome_eq (w a : Nat) : syndrome w a = bitsOf w 78 64 % 2 ^ 15 ^^^ infoSum (w % 2 ^ 64) a (bitOf w 79) := by
  rw [syndrome, eccSum_check (Nat.le_refl 15), infoSum, Nat.xor_assoc, Nat.xor_assoc, Nat.xor_assoc]

/-- The stored word of data `d`, of which 64 bits count, at an address with a parity bit. -/
def codeWord (d a : Nat) (p : Bool) : Nat := d % 2 ^ 64 + 2 ^ 64 * checkBits d a p

theorem goodWord_eq (d a : Nat) : goodWord d a = codeWord d a (addrParity a) := rfl

theorem poisonWord_eq (a : Nat) : poisonWord a = codeWord 0 a (!addrParity a) := by
  rw [codeWord, Nat.zero_mod, Nat.zero_add, poisonWord]

theorem codeWord_fields (d a : Nat) (p : Bool) : codeWord d a p % 2 ^ 64 = d % 2 ^ 64 ∧ bitOf (codeWord d a p) 79 = p ∧
    bitsOf (codeWord d a p) 78 64 = infoSum d a p := by
  have check := infoSum_lt d a p
  rw [codeWord, checkBits_eq, bitOf, bitsOf]
  cases p with
  | false => simp only [Bool.false_eq_true, if_false, decide_eq_false_iff_not]; omega
  | true => simp only [if_true, decide_eq_true_eq]; omega

/-- Every word that the code gives an address has syndrome 0 there. -/
theorem syndrome_codeWord (d a : Nat) (p : Bool) : syndrome (codeWord d a p) a = 0 := by
  obtain ⟨data, parity, check⟩ := codeWord_fields d a p
  have data64 : infoSum (d % 2 ^ 64) a p = infoSum d a p := by rw [infoSum, eccSum_mod (Nat.le_refl 64), infoSum]
  rw [syndrome_eq, data, parity, check, Nat.mod_eq_of_lt (infoSum_lt d a p), data64, Nat.xor_self]

/-! ### The outcome of a read (R271, R272) -/

theorem readWord_codeWord (d a : Nat) (p : Bool) :
    readWord (codeWord d a p) a = if p = addrParity a then (.good, d % 2 ^ 64) else (.poisoned, 0) := by
  obtain ⟨data, parity, -⟩ := codeWord_fields d a p
  rw [readWord, syndrome_codeWord, if_pos rfl, parity, data]

theorem readWord_goodWord (d a : Nat) : readWord (goodWord d a) a = (.good, d % 2 ^ 64) := by
  rw [goodWord_eq, readWord_codeWord, if_pos rfl]

theorem readWord_poisonWord (a : Nat) : readWord (poisonWord a) a = (.poisoned, 0) := by
  rw [poisonWord_eq, readWord_codeWord, if_neg (by simp)]

/-- A syndrome that is one power of x names its degree. -/
theorem errorPair_eccPow : ∀ i < 114, eccPow i ≠ 0 ∧ errorPair (eccPow i) = some [i] := by decide +kernel

theorem readWord_of_address_error {w a i : Nat} (address : 80 ≤ i) (degree : i < 114) (one : syndrome w a = eccPow i) :
    readWord w a = (.misdirected, 0) := by
  obtain ⟨nonzero, error⟩ := errorPair_eccPow i degree
  rw [readWord, one, if_neg nonzero, error]
  simp [address]

theorem readWord_of_stored_error {w a i : Nat} (stored : i < 80) (one : syndrome w a = eccPow i)
    (parity : bitOf (flipDegree w i) 79 = addrParity a) : readWord w a = (.corrected, flipDegree w i % 2 ^ 64) := by
  obtain ⟨nonzero, error⟩ := errorPair_eccPow i (by omega)
  rw [readWord, one, if_neg nonzero, error]
  simp [stored, parity]

/-- The degree at which a stored bit stands: data from 15, check bits from 0, the parity bit at 79. -/
def degreeOf (i : Nat) : Nat := if i < 64 then 15 + i else if i < 79 then i - 64 else 79

theorem degreeOf_lt {i : Nat} (stored : i < 80) : degreeOf i < 80 := by
  rw [degreeOf]
  split
  case isTrue => omega
  case isFalse => split <;> omega

theorem flipDegree_degreeOf {i : Nat} (w : Nat) (stored : i < 80) : flipDegree w (degreeOf i) = w ^^^ 2 ^ i := by
  unfold degreeOf
  split
  case isTrue data => rw [flipDegree, if_neg (by omega), if_pos (by omega), Nat.add_sub_cancel_left]
  case isFalse other =>
    split
    case isTrue check => rw [flipDegree, if_pos (by omega), Nat.add_sub_cancel' (Nat.not_lt.1 other)]
    case isFalse parity =>
      obtain rfl : i = 79 := by omega
      rfl

theorem syndrome_storedBit : ∀ i < 80, syndrome (2 ^ i) 0 = eccPow (degreeOf i) := by decide +kernel

theorem syndrome_addressBit : ∀ j < 34, syndrome 0 (2 ^ j) = eccPow (80 + j) := by decide +kernel

/-- A good word with one turned bit is corrected. -/
theorem readWord_goodWord_storedBit (d a : Nat) {i : Nat} (stored : i < 80) : readWord (goodWord d a ^^^ 2 ^ i) a = (.corrected, d % 2 ^ 64) := by
  obtain ⟨data, parity, -⟩ := codeWord_fields d a (addrParity a)
  have one : syndrome (goodWord d a ^^^ 2 ^ i) a = eccPow (degreeOf i) := by
    rw [← Nat.xor_zero a, syndrome_xor, Nat.xor_zero, goodWord_eq, syndrome_codeWord, Nat.zero_xor, syndrome_storedBit i stored]
  have turnedBack : flipDegree (goodWord d a ^^^ 2 ^ i) (degreeOf i) = codeWord d a (addrParity a) := by
    rw [flipDegree_degreeOf _ stored, Nat.xor_assoc, Nat.xor_self, Nat.xor_zero, goodWord_eq]
  rw [readWord_of_stored_error (degreeOf_lt stored) one (turnedBack ▸ parity), turnedBack, data]

/-- A good word read at an address that differs in one bit is misdirected. -/
theorem readWord_goodWord_addressBit (d a : Nat) {j : Nat} (address : j < 34) : readWord (goodWord d a) (a ^^^ 2 ^ j) = (.misdirected, 0) := by
  have one : syndrome (goodWord d a) (a ^^^ 2 ^ j) = eccPow (80 + j) := by
    rw [← Nat.xor_zero (goodWord d a), syndrome_xor, goodWord_eq, syndrome_codeWord, Nat.zero_xor, syndrome_addressBit j address]
  exact readWord_of_address_error (Nat.le_add_right 80 j) (by omega) one

/-! ### The statement -/

/-- Settles O9: a word of the code has syndrome 0, and the syndrome of a turned bit is the power of x at its degree. -/
theorem wordCode : Obligations.WordCode := by
  unfold Obligations.WordCode
  intro d a fits _
  have all64 : d % 2 ^ 64 = d := Nat.mod_eq_of_lt fits
  refine ⟨?good, ?corrected, ?poisoned, ?misdirected⟩
  case good => rw [readWord_goodWord, all64]
  case corrected =>
    intro i stored
    rw [readWord_goodWord_storedBit d a stored, all64]
  case poisoned => exact readWord_poisonWord a
  case misdirected =>
    intro j address
    rw [readWord_goodWord_addressBit d a address]

end Sys2Proof.Machine
end

section
/-! SUPPORT. Proofs of the start-up of DRAM: the end of a channel's training (R266, R281) and the fill (R275, R276), after which a word that nothing
has written reads 0; with them the statements DramStartUp and UnwrittenWordsReadZero are settled. -/
namespace Sys2Proof.Machine

/-! ### Channels -/

theorem State.channelLost_congr {s t : State} {i : Nat} (same : t.getN (Obj.MC_STATE + i) = s.getN (Obj.MC_STATE + i)) :
    t.channelLost i = s.channelLost i := by
  rw [State.channelLost, State.channelLost, same]

theorem State.lostMask_congr {s t : State} (same : ∀ i < 4, t.getN (Obj.MC_STATE + i) = s.getN (Obj.MC_STATE + i)) : t.lostMask = s.lostMask := by
  simp only [State.lostMask, sumMap, List.foldl_cons, List.foldl_nil]
  rw [State.channelLost_congr (same 0 (by decide)), State.channelLost_congr (same 1 (by decide)), State.channelLost_congr (same 2 (by decide)),
    State.channelLost_congr (same 3 (by decide))]

/-! ### Training (R266) -/

theorem trainedRate_of_first {rates : List Nat} {v : Nat} (first : (6400 ∈ rates ∧ v = 6400) ∨ (6400 ∉ rates ∧ 5600 ∈ rates ∧ v = 5600) ∨
    (6400 ∉ rates ∧ 5600 ∉ rates ∧ 4800 ∈ rates ∧ v = 4800)) : trainedRate rates = some v := by
  rcases first with ⟨r6400, rfl⟩ | ⟨r6400, r5600, rfl⟩ | ⟨r6400, r5600, r4800, rfl⟩
  · simp [trainedRate, r6400]
  · simp [trainedRate, r6400, r5600]
  · simp [trainedRate, r6400, r5600, r4800]

theorem trainedRate_of_none {rates : List Nat} (r6400 : 6400 ∉ rates) (r5600 : 5600 ∉ rates) (r4800 : 4800 ∉ rates) : trainedRate rates = none := by
  simp [trainedRate, r6400, r5600, r4800]

/-- The state in which a channel has ended its training in start-up, before the fill starts. -/
def State.trained (s : State) (ch : Nat) (rates : List Nat) : State :=
  match trainedRate rates with
  | some v => (s.setN (Obj.MC_STATE + ch) 1).setN (Obj.MC_SPEED + ch) v
  | none => s.loseInStartup ch

/-- Every channel other than `ch` is up or lost. -/
def State.othersSettled (s : State) (ch : Nat) : Prop := ∀ i < 4, i ≠ ch → s.getN (Obj.MC_STATE + i) = 1 ∨ s.channelLost i = true

theorem State.get_desync_other (s : State) (c : Nat) {o : ObjRef}
    (h : o ∉ [Obj.PAIR_STATE, Obj.DESYNCS, Obj.LAST_DESYNC_CAUSE] ++ logObjects 2 ++ logObjects 4) : (s.desync c).get o = s.get o := by
  simp only [List.mem_append, not_or] at h
  obtain ⟨⟨own, two⟩, four⟩ := h
  simp only [List.mem_cons, List.not_mem_nil, or_false, not_or] at own
  obtain ⟨state, desyncs, cause⟩ := own
  have shown : (((s.setN Obj.PAIR_STATE 0).inc Obj.DESYNCS).setN Obj.LAST_DESYNC_CAUSE c).get o = s.get o := by
    rw [State.get_setN_other _ _ cause, State.get_inc_other _ desyncs, State.get_setN_other _ _ state]
  rw [State.desync]
  split
  case isTrue =>
    rw [← shown]
    refine State.get_logEvent_other _ _ ?_
    dsimp only
    split
    case isTrue => exact two
    case isFalse => exact four
  case isFalse => rfl

/-- The loss of a channel in start-up shows at that channel alone. -/
theorem State.getN_loseInStartup (s : State) {ch i : Nat} (own : ch < 4) (channel : i < 4) :
    (s.loseInStartup ch).getN (Obj.MC_STATE + i) = if i = ch then 3 else s.getN (Obj.MC_STATE + i) := by
  have kept : ∀ i < 4, Obj.MC_STATE + i ∉ [Obj.PAIR_STATE, Obj.DESYNCS, Obj.LAST_DESYNC_CAUSE] ++ logObjects 2 ++ logObjects 4 ∧
      Obj.MC_STATE + i ≠ Obj.TRIGGERS_HELD ∧ ∀ ch < 4, Obj.MC_STATE + i ≠ Obj.MC_SPEED + ch := by decide
  obtain ⟨pair, held, speed⟩ := kept i channel
  rw [State.getN, State.loseInStartup, State.get_desync_other _ _ pair, ← State.getN, State.getN_inc_other _ held,
    State.getN_setN_other _ _ (speed ch own), State.getN_setN]
  exact ite_congr (propext Nat.add_left_cancel_iff) (fun _ => rfl) fun _ => rfl

theorem State.getN_trained (s : State) (rates : List Nat) {ch i : Nat} (own : ch < 4) (channel : i < 4) :
    ∃ v, (v = 1 ∨ v = 3) ∧ (s.trained ch rates).getN (Obj.MC_STATE + i) = if i = ch then v else s.getN (Obj.MC_STATE + i) := by
  rw [State.trained]
  split
  case h_1 =>
    have speed : ∀ i < 4, ∀ ch < 4, Obj.MC_STATE + i ≠ Obj.MC_SPEED + ch := by decide
    refine ⟨1, .inl rfl, ?_⟩
    rw [State.getN_setN_other _ _ (speed i channel ch own), State.getN_setN]
    exact ite_congr (propext Nat.add_left_cancel_iff) (fun _ => rfl) fun _ => rfl
  case h_2 => exact ⟨3, .inr rfl, s.getN_loseInStartup own channel⟩

/-- Every channel is up or lost. -/
def State.allSettled (s : State) : Bool := regions.all fun i => s.getN (Obj.MC_STATE + i) = 1 || s.channelLost i

theorem State.allSettled_iff (s : State) : s.allSettled = true ↔ ∀ i < 4, s.getN (Obj.MC_STATE + i) = 1 ∨ s.getN (Obj.MC_STATE + i) = 3 := by
  have channels : regions = List.range 4 := rfl
  simp only [State.allSettled, channels, List.all_eq_true, List.mem_range, State.channelLost, Bool.or_eq_true, decide_eq_true_eq]

/-- With the end of a channel's training all are settled where the others were. -/
theorem State.allSettled_trained (s : State) (rates : List Nat) {ch : Nat} (own : ch < 4) :
    (s.trained ch rates).allSettled = true ↔ s.othersSettled ch := by
  rw [State.allSettled_iff]
  refine forall₂_congr fun i channel => ?_
  obtain ⟨v, settled, shows⟩ := s.getN_trained rates own channel
  rw [shows]
  by_cases same : i = ch
  · simp [same, settled]
  · simp [same, State.channelLost]

section
variable {s : State} {ch : Nat} (own : ch < 4) (porst : s.pins.porstN = true) (startUp : s.power = 4) (phase : s.getN Obj.STARTUP_PHASE = 1)
  (unlocked : s.pwr.locking.contains (.dram ch) = false) (down : s.getN (Obj.MC_STATE + ch) ≠ 1) (kept : s.channelLost ch = false)
include own porst startUp phase unlocked down kept

theorem execDramTrainingDone_of_startUp (rates : List Nat) : execDramTrainingDone ch rates s =
    if (s.trained ch rates).allSettled then .next ((s.trained ch rates).enterPhase 2) else .next (s.trained ch rates) := by
  have takes : ¬(ch ≥ 4 ∨ s.pwr.locking.contains (.dram ch) = true ∨ s.getN (Obj.MC_STATE + ch) = 1 ∨ s.channelLost ch = true ∨
      ¬s.pins.porstN = true) := by
    rintro (outside | locking | up | lost | inReset)
    · omega
    · exact Bool.false_ne_true (unlocked.symm.trans locking)
    · exact down up
    · exact Bool.false_ne_true (kept.symm.trans lost)
    · exact inReset porst
  have starting : (decide (s.power = 4) && decide (s.getN Obj.STARTUP_PHASE = 1)) = true := by simp [startUp, phase]
  rw [execDramTrainingDone, if_neg takes]
  simp only [starting, Bool.not_true, Bool.false_and, Bool.false_eq_true, if_false, if_true, Bool.true_and]
  rfl

theorem execDramTrainingDone_of_last (rates : List Nat) (others : s.othersSettled ch) :
    execDramTrainingDone ch rates s = .next ((s.trained ch rates).enterPhase 2) := by
  rw [execDramTrainingDone_of_startUp own porst startUp phase unlocked down kept, if_pos ((s.allSettled_trained rates own).2 others)]

theorem execDramTrainingDone_of_not_last (rates : List Nat) (others : ¬s.othersSettled ch) :
    execDramTrainingDone ch rates s = .next (s.trained ch rates) := by
  rw [execDramTrainingDone_of_startUp own porst startUp phase unlocked down kept, if_neg (mt (s.allSettled_trained rates own).1 others)]

end

theorem State.trained_of_rate (s : State) (ch : Nat) {rates : List Nat} {v : Nat} (rate : trainedRate rates = some v) :
    s.trained ch rates = (s.setN (Obj.MC_STATE + ch) 1).setN (Obj.MC_SPEED + ch) v := by
  rw [State.trained, rate]

theorem State.trained_of_no_rate (s : State) (ch : Nat) {rates : List Nat} (failed : trainedRate rates = none) :
    s.trained ch rates = s.loseInStartup ch := by
  rw [State.trained, failed]

/-! ### The fill (R275, R276) -/

/-- The fill has written every word; no write is queued. -/
def State.filled (s : State) : State :=
  { s with dram := { s.dram with
      mem := [], poisoned := [], watch := [], used := false, logBad := []
      channels := s.dram.channels.map fun c => { c with queue := [] } } }

/-- The objects in which the fill reports. -/
def fillObjects : List ObjRef := [Obj.FILL_STATE, Obj.FILL_PERMILLE, Obj.FILL_POSITION, Obj.FILL_TIME]

/-- The state that shows the end of a fill of `us` microseconds. -/
def State.showFill (s : State) (us : Nat) : State :=
  (((s.setN Obj.FILL_STATE (if s.lostMask = 0 then 1 else 2)).setN Obj.FILL_PERMILLE 1000).setN
    Obj.FILL_POSITION (s.getN Obj.DRAM_CAPACITY / 4)).setN Obj.FILL_TIME us

theorem execDramFillDone_of_filling {s : State} (us : Nat) (startUp : s.power = 4) (phase : s.getN Obj.STARTUP_PHASE = 2) :
    execDramFillDone us s = .next (s.filled.showFill us).afterFill :=
  if_neg (by simp [startUp, phase])

theorem State.queue_filled (s : State) (i : Nat) : (s.filled.chan i).queue = [] := by
  rw [State.chan, State.filled, atD, List.getD_eq_getElem?_getD, List.getElem?_map]
  cases s.dram.channels[i]? with
  | none => rfl
  | some c => rfl

theorem State.get_showFill_other (s : State) (us : Nat) {o : ObjRef} (other : o ∉ fillObjects) : (s.showFill us).get o = s.get o := by
  simp only [fillObjects, List.mem_cons, List.not_mem_nil, or_false, not_or] at other
  obtain ⟨state, permille, position, time⟩ := other
  rw [State.showFill, State.get_setN_other _ _ time, State.get_setN_other _ _ position, State.get_setN_other _ _ permille,
    State.get_setN_other _ _ state]

theorem State.showFill_objects (s : State) (us : Nat) : let t := s.showFill us
    t.getN Obj.FILL_STATE = (if s.lostMask = 0 then 1 else 2) ∧ t.getN Obj.FILL_PERMILLE = 1000 ∧
    t.getN Obj.FILL_POSITION = s.getN Obj.DRAM_CAPACITY / 4 ∧ t.getN Obj.FILL_TIME = us := by
  refine ⟨?_, ?_, ?_, ?_⟩
  · rw [State.showFill, State.getN_setN_other _ _ (by decide), State.getN_setN_other _ _ (by decide), State.getN_setN_other _ _ (by decide),
      State.getN_setN_self]
  · rw [State.showFill, State.getN_setN_other _ _ (by decide), State.getN_setN_other _ _ (by decide), State.getN_setN_self]
  · rw [State.showFill, State.getN_setN_other _ _ (by decide), State.getN_setN_self]
  · rw [State.showFill, State.getN_setN_self]

theorem State.lostMask_showFill (s : State) (us : Nat) : (s.filled.showFill us).lostMask = s.lostMask := by
  have other : ∀ i < 4, Obj.MC_STATE + i ∉ fillObjects := by decide
  exact State.lostMask_congr fun i channel => congrArg Int.toNat (s.filled.get_showFill_other us (other i channel))

/-! ### The end of the fill (Table 18-7) -/

/-- The objects in which start-up reports its phase. -/
def startUpObjects : List ObjRef := [Obj.STARTUP_PHASE, Obj.STARTUP_PERMILLE, Obj.STARTUP_ERROR, Obj.STARTUP_DETAIL]

theorem State.afterFill_of_loss {s : State} (loss : s.lostMask ≠ 0) : s.afterFill = s.startupFail 1 s.lostMask := if_pos loss

theorem State.startupFail_objects (s : State) (error detail : Nat) : let t := s.startupFail error detail
    t.getN Obj.STARTUP_PHASE = 7 ∧ t.getN Obj.STARTUP_ERROR = error ∧ t.getN Obj.STARTUP_DETAIL = detail := by
  refine ⟨?_, ?_, ?_⟩
  · rw [State.startupFail, State.getN_setN_other _ _ (by decide), State.getN_setN_other _ _ (by decide), State.getN_setN_self]
  · rw [State.startupFail, State.getN_setN_other _ _ (by decide), State.getN_setN_self]
  · rw [State.startupFail, State.getN_setN_self]

theorem State.afterFill_phase {s : State} (whole : s.lostMask = 0) :
    s.afterFill.getN Obj.STARTUP_PHASE = if s.straps.bootsel % 4 = 3 then 8 else 3 := by
  rw [State.afterFill, if_neg (not_not_intro whole)]
  split
  case isTrue => exact State.getN_setN_self _ _ _
  case isFalse => exact (State.getN_setN_other _ _ (by decide)).trans (State.getN_setN_self _ _ _)

/-- The end of the fill moves the objects of start-up and the boot, and nothing else. -/
theorem State.afterFill_effect (s : State) : (∀ o ∉ startUpObjects, s.afterFill.get o = s.get o) ∧
    s.afterFill = { s with od := s.afterFill.od, boot := s.afterFill.boot } := by
  constructor
  · intro o other
    simp only [startUpObjects, List.mem_cons, List.not_mem_nil, or_false, not_or] at other
    obtain ⟨phase, permille, error, detail⟩ := other
    rw [State.afterFill]
    split
    case isTrue => rw [State.startupFail, State.get_setN_other _ _ detail, State.get_setN_other _ _ error, State.get_setN_other _ _ phase]
    case isFalse =>
      split
      case isTrue => exact State.get_setN_other _ _ phase
      case isFalse => exact (State.get_setN_other _ _ permille).trans (State.get_setN_other _ _ phase)
  · rw [State.afterFill]
    split
    case isTrue => rfl
    case isFalse => split <;> rfl

/-! ### Words that nothing has written -/

/-- A word without faults reads as it was written or poisoned. -/
theorem State.readOutcome_of_no_fault {s : State} {w : Nat} (kept : s.channelLost (channelOf (8 * w)) = false) :
    s.readOutcome w [] = if w ∈ s.dram.poisoned then (.poisoned, 0) else (.good, s.wordData w % 2 ^ 64) := by
  have stored : s.storedWord w [] = if w ∈ s.dram.poisoned then poisonWord w else goodWord (s.wordData w) w := rfl
  rw [State.readOutcome, if_neg (by simp [kept]), stored]
  split
  case isTrue => exact readWord_poisonWord w
  case isFalse => exact readWord_goodWord _ w

theorem State.wordData_of_zeros {s : State} {w : Nat} (zero : ∀ j < 8, memRead s.dram.mem (8 * w + j) = 0) : s.wordData w = 0 := by
  have bytes : memReadList s.dram.mem (8 * w) 8 = (List.range 8).map fun _ => 0 :=
    List.map_congr_left fun j byte => zero j (List.mem_range.1 byte)
  rw [State.wordData, bytes]
  rfl

theorem State.readOutcome_of_zeros {s : State} {w : Nat} (kept : s.channelLost (channelOf (8 * w)) = false) (clean : w ∉ s.dram.poisoned)
    (zero : ∀ j < 8, memRead s.dram.mem (8 * w + j) = 0) : s.readOutcome w [] = (.good, 0) := by
  rw [State.readOutcome_of_no_fault kept, if_neg clean, State.wordData_of_zeros zero, Nat.zero_mod]

/-! ### The statements -/

/-- Settles O8: after the fill no byte is listed and no word poisoned, and a word of zeros reads good by the code of R270. -/
theorem unwrittenWordsReadZero : Obligations.UnwrittenWordsReadZero := by
  unfold Obligations.UnwrittenWordsReadZero
  refine ⟨?fill, ?later⟩
  case fill =>
    intro us s startUp phase
    obtain ⟨objects, state⟩ := (s.filled.showFill us).afterFill_effect
    obtain ⟨fillState, -⟩ := s.filled.showFill_objects us
    have dram : (s.filled.showFill us).afterFill.dram = s.filled.dram := by rw [state]; rfl
    refine ⟨_, execDramFillDone_of_filling us startUp phase, fun w _ kept => ?_, fun loss => ⟨?_, ?_⟩⟩
    · refine State.readOutcome_of_zeros kept ?_ fun j _ => ?_
      · rw [dram]
        exact List.not_mem_nil
      · rw [dram]
        rfl
    · rw [State.getN, objects _ (by decide), ← State.getN, fillState]
      exact if_neg loss
    · rw [State.power, State.getN, objects _ (by decide), s.filled.get_showFill_other us (by decide)]
      exact startUp
  case later =>
    intro s w _ kept clean zero
    exact State.readOutcome_of_zeros kept clean zero

/-- Settles O42: the clauses are the cases of DRAM_TRAINING_DONE in start-up and the effect of DRAM_FILL_DONE. -/
theorem dramStartUp : Obligations.DramStartUp := by
  unfold Obligations.DramStartUp
  refine ⟨?training, ?fill⟩
  case training =>
    intro ch rates s own porst startUp phase unlocked down kept others up lost
    have last := execDramTrainingDone_of_last own porst startUp phase unlocked down kept rates
    have notLast := execDramTrainingDone_of_not_last own porst startUp phase unlocked down kept rates
    refine ⟨fun v first => ?_, fun r6400 r5600 r4800 => ?_⟩
    · rw [s.trained_of_rate ch (trainedRate_of_first first)] at last notLast
      exact ⟨notLast, last⟩
    · rw [s.trained_of_no_rate ch (trainedRate_of_none r6400 r5600 r4800)] at last notLast
      exact ⟨notLast, last⟩
  case fill =>
    intro us s startUp phase
    obtain ⟨objects, state⟩ := (s.filled.showFill us).afterFill_effect
    obtain ⟨fillState, permille, position, time⟩ := s.filled.showFill_objects us
    have mask := s.lostMask_showFill us
    have shown {o : ObjRef} (other : o ∉ startUpObjects) : (s.filled.showFill us).afterFill.getN o = (s.filled.showFill us).getN o :=
      congrArg Int.toNat (objects o other)
    have dram : (s.filled.showFill us).afterFill.dram = s.filled.dram := by rw [state]; rfl
    refine ⟨_, execDramFillDone_of_filling us startUp phase, ?mem, ?poisoned, fun a => ?byte, fun i => ?queue, ?permille, ?time, ?position,
      fun whole => ⟨?done, ?goesOn⟩, fun loss => ?fails, ?state, fun o other => ?objects⟩
    case mem => rw [dram]; rfl
    case poisoned => rw [dram]; rfl
    case byte => rw [dram]; rfl
    case queue => rw [State.chan, dram]; exact s.queue_filled i
    case permille => rw [shown (by decide), permille]
    case time => rw [shown (by decide), time]
    case position => rw [shown (by decide), position]; rfl
    case done => rw [shown (by decide), fillState]; exact if_pos whole
    case goesOn => rw [State.afterFill_phase (mask.trans whole)]; rfl
    case fails =>
      obtain ⟨failed, error, detail⟩ := (s.filled.showFill us).startupFail_objects 1 (s.filled.showFill us).lostMask
      rw [← State.afterFill_of_loss (mask.symm ▸ loss)] at failed error detail
      refine ⟨?_, failed, error, detail.trans mask⟩
      rw [shown (by decide), fillState]
      exact if_neg loss
    case state => rw [state]; rfl
    case objects =>
      have apart : o ∉ fillObjects ++ startUpObjects := other
      rw [List.mem_append, not_or] at apart
      rw [objects o apart.2, s.filled.get_showFill_other us apart.1]
      rfl

end Sys2Proof.Machine
end

section
/-! SUPPORT. Proofs of the DRAM scrubber (R271, R274, R283) and of row remapping (R279, R280): a scrub read that finds nothing to correct, a row
that REMAP_ADD names and the end of its copy; with them the statement ScrubbingAndRemapping is settled. -/
namespace Sys2Proof.Machine

/-! ### A scrub read that finds nothing (R271, R274, R283) -/

/-- The burst at the scrubber's position is of a lost channel, or no write of it is queued and its words are good. -/
def State.nothingToScrub (s : State) : Prop :=
  let ch := channelOf (s.getN Obj.SCRUB_POSITION)
  s.channelLost ch = true ∨ ((s.chan ch).queue.any (·.1 = s.getN Obj.SCRUB_POSITION / 128) = false ∧
    ∀ w ∈ wordsOf (s.getN Obj.SCRUB_POSITION) 128, (s.readOutcome w []).1 = .good)

/-- Without a fault no word is in need of correction. -/
theorem State.readOutcome_ne_corrected (s : State) (w : Nat) : (s.readOutcome w []).1 ≠ .corrected := by
  cases kept : s.channelLost (channelOf (8 * w)) with
  | true => simp [State.readOutcome, kept]
  | false =>
    rw [State.readOutcome_of_no_fault kept]
    split
    case isTrue => decide
    case isFalse => exact ReadOutcome.noConfusion

theorem State.readWordAt_of_good {s : State} {w : Nat} (finder : Nat) (good : (s.readOutcome w []).1 = .good) : (s.readWordAt w [] finder).1 = s := by
  rw [State.readWordAt]
  simp only [good]

theorem State.foldl_readWordAt_of_good {s : State} (finder : Nat) {ws : List Nat} (good : ∀ w ∈ ws, (s.readOutcome w []).1 = .good) :
    ws.foldl (fun s w => (s.readWordAt w [] finder).1) s = s := by
  induction ws with
  | nil => rfl
  | cons w ws ih =>
    rw [List.foldl_cons, State.readWordAt_of_good finder (good w List.mem_cons_self)]
    exact ih fun x later => good x (List.mem_cons_of_mem w later)

theorem State.forward_of_not_queued {s : State} {a : Nat} (fs : List WordFault) (notQueued : (s.chan (channelOf a)).queue.any (·.1 = a / 128) = false) :
    s.forward (a / 128) fs = (s, fs) := by
  have same : channelOf (128 * (a / 128)) = channelOf a := by rw [channelOf, channelOf, Nat.mul_div_cancel_left _ (by decide)]
  have absent : (s.chan (channelOf a)).queue.findIdx? (·.1 = a / 128) = none :=
    List.findIdx?_eq_none_iff.2 fun x queued => by simpa using List.any_eq_false.1 notQueued x queued
  rw [State.forward, same]
  simp only [absent]

/-- The scrubber moves on from a burst in which it has found nothing; at the end of DRAM the pass ends. -/
def State.moveScrubber (s : State) : State :=
  let next := s.getN Obj.SCRUB_POSITION + 128
  let cap := dramCapacity s.straps.dpop
  let u := s.add Obj.SCRUB_POISONED 0
  if cap ≤ next then
    { ((u.setN Obj.SCRUB_POSITION 0).setN Obj.SCRUB_PERMILLE 1000).inc Obj.SCRUB_PASSES with
      dram := { s.dram with lastPass := s.dram.thisPass, thisPass := [] } }
  else (u.setN Obj.SCRUB_POSITION next).setN Obj.SCRUB_PERMILLE (1000 * next / cap)

theorem execScrubRead_of_nothing {s : State} (coreOn : s.coreOn = true) (filled : s.getN Obj.FILL_STATE ≠ 0) (nothing : s.nothingToScrub) :
    execScrubRead [] s = .next s.moveScrubber := by
  have read : (if s.channelLost (channelOf (s.getN Obj.SCRUB_POSITION)) = true then (s, []) else s.forward (s.getN Obj.SCRUB_POSITION / 128) []) =
      (s, []) := by
    rcases nothing with lost | ⟨notQueued, -⟩
    · rw [if_pos lost]
    · rw [State.forward_of_not_queued _ notQueued, ite_self]
  have fixed : (wordsOf (s.getN Obj.SCRUB_POSITION) 128).filter (fun w => (s.readOutcome w []).1 = .corrected) = [] := by
    simp [s.readOutcome_ne_corrected]
  have fresh : (wordsOf (s.getN Obj.SCRUB_POSITION) 128).filter (fun w => !s.channelLost (channelOf (s.getN Obj.SCRUB_POSITION)) &&
      (s.readOutcome w []).1.bad && !(s.dram.poisoned.contains w)) = [] := by
    rcases nothing with lost | ⟨-, good⟩
    · simp [lost]
    · refine List.filter_eq_nil_iff.2 fun w word => ?_
      simp [good w word, ReadOutcome.bad]
  have same : (if s.channelLost (channelOf (s.getN Obj.SCRUB_POSITION)) = true then s
      else (wordsOf (s.getN Obj.SCRUB_POSITION) 128).foldl (fun s w => (s.readWordAt w [] 0).1) s) = s := by
    rcases nothing with lost | ⟨-, good⟩
    · rw [if_pos lost]
    · rw [State.foldl_readWordAt_of_good 0 good, ite_self]
  rw [execScrubRead, if_neg (by simp [coreOn, filled])]
  dsimp only
  rw [read]
  dsimp only
  rw [fixed, fresh, same]
  simp only [List.foldl_nil, List.isEmpty_nil, if_true, List.filter_nil, List.length_nil]
  rw [State.add_dram]
  exact (apply_ite Host.Outcome.next _ _ _).symm

theorem State.moveScrubber_of_next {s : State} (inside : s.getN Obj.SCRUB_POSITION + 128 < dramCapacity s.straps.dpop) : s.moveScrubber =
    ((s.add Obj.SCRUB_POISONED 0).setN Obj.SCRUB_POSITION (s.getN Obj.SCRUB_POSITION + 128)).setN Obj.SCRUB_PERMILLE
      (1000 * (s.getN Obj.SCRUB_POSITION + 128) / dramCapacity s.straps.dpop) :=
  if_neg (Nat.not_le.2 inside)

theorem State.moveScrubber_of_end {s : State} (end_ : dramCapacity s.straps.dpop ≤ s.getN Obj.SCRUB_POSITION + 128) : s.moveScrubber =
    { (((s.add Obj.SCRUB_POISONED 0).setN Obj.SCRUB_POSITION 0).setN Obj.SCRUB_PERMILLE 1000).inc Obj.SCRUB_PASSES with
      dram := { s.dram with lastPass := s.dram.thisPass, thisPass := [] } } :=
  if_pos end_

/-- What the move leaves as it was: the bytes, the poison, the log. -/
theorem State.moveScrubber_keeps (s : State) : s.moveScrubber.dram.mem = s.dram.mem ∧ s.moveScrubber.dram.poisoned = s.dram.poisoned ∧
    s.moveScrubber.log = s.log := by
  rcases Nat.lt_or_ge (s.getN Obj.SCRUB_POSITION + 128) (dramCapacity s.straps.dpop) with inside | end_
  · rw [State.moveScrubber_of_next inside]
    simp
  · rw [State.moveScrubber_of_end end_]
    simp

theorem State.moveScrubber_next {s : State} (inside : s.getN Obj.SCRUB_POSITION + 128 < dramCapacity s.straps.dpop) : let t := s.moveScrubber
    t.getN Obj.SCRUB_POSITION = s.getN Obj.SCRUB_POSITION + 128 ∧
    t.getN Obj.SCRUB_PERMILLE = 1000 * (s.getN Obj.SCRUB_POSITION + 128) / dramCapacity s.straps.dpop ∧ t.dram = s.dram := by
  intro t
  simp only [t, State.moveScrubber_of_next inside]
  refine ⟨?_, State.getN_setN_self _ _ _, ?_⟩
  · rw [State.getN_setN_other _ _ (by decide), State.getN_setN_self]
  · simp

theorem State.moveScrubber_end {s : State} (end_ : dramCapacity s.straps.dpop ≤ s.getN Obj.SCRUB_POSITION + 128) : let t := s.moveScrubber
    t.getN Obj.SCRUB_POSITION = 0 ∧ t.getN Obj.SCRUB_PERMILLE = 1000 ∧ s.counts t Obj.SCRUB_PASSES := by
  intro t
  let u := ((s.add Obj.SCRUB_POISONED 0).setN Obj.SCRUB_POSITION 0).setN Obj.SCRUB_PERMILLE 1000
  have shown (o : ObjRef) : t.get o = (u.inc Obj.SCRUB_PASSES).get o := by
    simp only [t, State.moveScrubber_of_end end_]
    rfl
  have passes : u.get Obj.SCRUB_PASSES = s.get Obj.SCRUB_PASSES := by
    rw [State.get_setN_other _ _ (by decide), State.get_setN_other _ _ (by decide), State.get_add_other _ _ (by decide)]
  refine ⟨?_, ?_, fun row known free => ?_⟩
  · rw [State.getN, shown, State.get_inc_other _ (by decide), State.get_setN_other _ _ (by decide), State.get_setN_self]
    rfl
  · rw [State.getN, shown, State.get_inc_other _ (by decide), State.get_setN_self]
    rfl
  · rw [← passes] at free ⊢
    exact (shown _).trans (u.counts_inc Obj.SCRUB_PASSES row known free)

/-! ### Records of channels -/

/-- Two changes of a channel's record that agree on it are one. -/
theorem State.modChan_congr {s : State} {ch : Nat} {f g : Channel → Channel} (same : f (s.chan ch) = g (s.chan ch)) : s.modChan ch f = s.modChan ch g := by
  have channels : modifyAt s.dram.channels ch f = modifyAt s.dram.channels ch g := by
    refine List.ext_getElem? fun i => ?_
    rw [modifyAt, modifyAt, List.getElem?_modify, List.getElem?_modify]
    by_cases own : ch = i
    case neg => simp [own]
    case pos =>
      subst own
      cases held : s.dram.channels[ch]? with
      | none => rfl
      | some c =>
        have record : s.chan ch = c := by rw [State.chan, atD, List.getD_eq_getElem?_getD, held, Option.getD_some]
        simpa [record] using same
  rw [State.modChan, State.modChan, channels]

theorem State.chan_modChan (s : State) {ch : Nat} (f : Channel → Channel) (held : ch < s.dram.channels.length) (i : Nat) :
    (s.modChan ch f).chan i = if ch = i then f (s.chan i) else s.chan i :=
  atD_modifyAt s.dram.channels f i {} held

/-! ### Row remapping (R279, R280) -/

/-- The copy of a failing row that its channel does not know starts where no other is under way or waits. -/
theorem State.failRow_of_idle {s : State} {ch bank row : Nat} (cause : Nat) (kept : s.channelLost ch = false) (idle : (s.chan ch).copy = none)
    (noneWaits : (s.chan ch).queued = []) (free : (s.chan ch).remap.length < 16) (unknown : ∀ e ∈ (s.chan ch).remap, ¬(e.row = row ∧ e.bank = bank)) :
    s.failRow ch bank row cause = s.modChan ch fun x => { x with copy := some ⟨row, bank, cause, x.remap.length⟩ } := by
  have notKnown : (s.chan ch).remap.any (fun e => e.row = row && e.bank = bank) = false := by simpa using unknown
  rw [State.failRow]
  simp only [idle, noneWaits, notKnown, kept, Option.any_none, List.any_nil, Bool.or_false, Bool.false_eq_true, or_self, if_false, Option.isSome_none,
    List.length_nil, Nat.add_zero, ge_iff_le, Nat.not_le.2 free]
  exact State.modChan_congr (by simp [idle])

section
variable {s : State} {c : Caller} (mayWrite : s.mayWrite c Obj.REMAP_ADD)
include mayWrite

theorem execRemapAdd_of_row {v : BitVec 32} (reserved : bitOf v.toNat 23 = false ∧ bitsOf v.toNat 31 26 = 0)
    (row : bitsOf v.toNat 17 0 < rowCount s.straps.dpop) (bank : bitsOf v.toNat 22 18 < bankCount s.straps.dpop)
    (free : (s.chan (bitsOf v.toNat 25 24)).remap.length < 16) (idle : (s.chan (bitsOf v.toNat 25 24)).copy = none)
    (noneWaits : (s.chan (bitsOf v.toNat 25 24)).queued = [])
    (unknown : ∀ e ∈ (s.chan (bitsOf v.toNat 25 24)).remap, ¬(e.row = bitsOf v.toNat 17 0 ∧ e.bank = bitsOf v.toNat 22 18)) :
    execRemapAdd c v s = .next (s.failRow (bitsOf v.toNat 25 24) (bitsOf v.toNat 22 18) (bitsOf v.toNat 17 0) 4) := by
  have notKnown : (s.chan (bitsOf v.toNat 25 24)).remap.any (fun e => e.row = bitsOf v.toNat 17 0 && e.bank = bitsOf v.toNat 22 18) = false := by
    simpa using unknown
  rw [execRemapAdd, writeRemapAdd, State.gate_of_mayWrite _ mayWrite]
  dsimp only
  rw [if_neg (by simp [reserved, row, bank]), if_neg (by simp [notKnown]), if_neg (by simp [free, idle, noneWaits])]
  rfl

theorem execRemapAdd_of_reserved {v : BitVec 32} (reserved : bitOf v.toNat 23 = true) : execRemapAdd c v s = .next s := by
  rw [execRemapAdd, writeRemapAdd, State.gate_of_mayWrite _ mayWrite]
  dsimp only
  rw [if_pos (.inl reserved), State.deny_fst]

end

/-- The state in which the copy `x` of a channel has ended: its row stands in the table, and the next waiting one is copied. -/
def State.copied (s : State) (ch : Nat) (x : RemapCopy) : State :=
  s.modChan ch fun c => { c with remap := c.remap ++ [⟨x.row, x.bank, x.cause, x.spare⟩], copy := c.queued.head?, queued := c.queued.tail }

theorem State.chan_copied (s : State) {ch : Nat} (x : RemapCopy) (held : ch < s.dram.channels.length) : (s.copied ch x).chan ch =
    { s.chan ch with
      remap := (s.chan ch).remap ++ [⟨x.row, x.bank, x.cause, x.spare⟩]
      copy := (s.chan ch).queued.head?
      queued := (s.chan ch).queued.tail } :=
  (s.chan_modChan _ held ch).trans (if_pos rfl)

theorem execRemapCopyDone_of_copy {s : State} {ch : Nat} {x : RemapCopy} (copy : (s.chan ch).copy = some x) (kept : s.channelLost ch = false) :
    execRemapCopyDone (ch, []) s = .next (((s.copied ch x).setN (Obj.REMAP_USED + ch) ((s.copied ch x).chan ch).remap.length).logEvent
      ⟨2, 10, 255, ch, Obj.REMAP_USED + ch, x.row, x.bank⟩) := by
  have noFault : s.copyRow ch x.bank x.row [] = s := rfl
  have lostStays (f : Channel → Channel) : (s.modChan ch f).channelLost ch = false := kept
  rw [execRemapCopyDone]
  simp only [copy, kept, noFault, lostStays, Bool.false_eq_true, if_false]
  rfl

theorem execRemapCopyDone_of_none {s : State} {ch : Nat} (fs : List WordFault) (idle : (s.chan ch).copy = none) :
    execRemapCopyDone (ch, fs) s = .next s := by
  rw [execRemapCopyDone]
  simp only [idle]

/-! ### The statement -/

/-- Settles O44: the clauses are the cases of SCRUB_READ, REMAP_ADD and REMAP_COPY_DONE. -/
theorem scrubbingAndRemapping : Obligations.ScrubbingAndRemapping := by
  unfold Obligations.ScrubbingAndRemapping
  refine ⟨⟨?scrub, ?off⟩, ?add, ?reserved, ?copied, ?idle⟩
  case scrub =>
    intro s coreOn filled nothing n cap
    obtain ⟨mem, poisoned, log⟩ := s.moveScrubber_keeps
    exact ⟨_, execScrubRead_of_nothing coreOn filled nothing, mem, poisoned, log, State.moveScrubber_next, State.moveScrubber_end⟩
  case off =>
    intro fs s off
    exact if_pos (.inl (by simp [off]))
  case add =>
    intro c v s mayWrite row bank ch bit23 bits31 rowInside bankInside kept idle noneWaits free unknown
    have done := execRemapAdd_of_row mayWrite ⟨bit23, bits31⟩ rowInside bankInside free idle noneWaits unknown
    rw [State.failRow_of_idle 4 kept idle noneWaits free unknown] at done
    exact done
  case reserved =>
    intro c v s mayWrite reserved
    exact execRemapAdd_of_reserved mayWrite reserved
  case copied =>
    intro ch s x channel four copy noneWaits kept
    have record := s.chan_copied x (four.symm ▸ channel)
    have used : ∀ ch < 4, Obj.REMAP_USED + ch ∉ logObjects 2 := by decide
    refine ⟨_, execRemapCopyDone_of_copy copy kept, ?_, ?_, ?_, State.newestLog_logEvent _ _⟩
    · rw [State.chan, State.logEvent_dram, State.setN_dram, ← State.chan, record, noneWaits, List.head?_nil]
    · rw [State.chan, State.logEvent_dram, State.setN_dram, ← State.chan, record]
    · rw [State.getN, State.get_logEvent_other _ _ (used ch channel), State.get_setN_self, record]
      simp
  case idle =>
    intro ch fs s idle
    exact execRemapCopyDone_of_none fs idle

end Sys2Proof.Machine
end

section
/-! SUPPORT. The loss of a DRAM channel on a standby (R281): the trigger is held and counted for each of the channels 0 to 3; a number beyond them
can name the place of PAIR_STATE, and with it the statement DramCare, which bounds the number there by nothing, is refuted. -/
namespace Sys2Proof.Machine

/-- The state that shows a channel lost, its queued writes gone, before the trigger arises. -/
def State.dropChannel (s : State) (ch : Nat) : State :=
  ((s.setN (Obj.MC_STATE + ch) 3).setN (Obj.MC_SPEED + ch) 0).modChan ch fun c => { c with queue := [] }

theorem State.getN_dropChannel (s : State) (ch : Nat) (o : ObjRef) :
    (s.dropChannel ch).getN o = ((s.setN (Obj.MC_STATE + ch) 3).setN (Obj.MC_SPEED + ch) 0).getN o := rfl

theorem State.loseChannel_of_standby {s : State} {ch : Nat} (kept : s.channelLost ch = false) (standby : (s.dropChannel ch).isStandby = true) :
    s.loseChannel ch = ((s.dropChannel ch).inc Obj.TRIGGERS_HELD).desync 7 := by
  rw [State.loseChannel, if_neg (by simp [kept])]
  change (s.dropChannel ch).raise ⟨3, 10, 255, ch, ch⟩ = _
  rw [State.raise, if_pos standby]
  exact if_pos ⟨(by decide : 2 ≤ 3), (by decide : 3 ≤ 6)⟩

/-- On a standby that holds nothing of the active the loss of one of the four channels is held and counted. -/
theorem State.loseChannel_of_unsynced {s : State} {ch : Nat} (channel : ch < 4) (kept : s.channelLost ch = false) (unsynced : s.getN Obj.PAIR_STATE = 0) :
    s.loseChannel ch = (s.dropChannel ch).inc Obj.TRIGGERS_HELD := by
  have apart : ∀ ch < 4, Obj.PAIR_STATE ≠ Obj.MC_STATE + ch ∧ Obj.PAIR_STATE ≠ Obj.MC_SPEED + ch := by decide
  obtain ⟨notState, notSpeed⟩ := apart ch channel
  have still : (s.dropChannel ch).getN Obj.PAIR_STATE = 0 := by
    rw [State.getN_dropChannel, State.getN_setN_other _ _ notSpeed, State.getN_setN_other _ _ notState, unsynced]
  rw [State.loseChannel_of_standby kept (by simp [State.isStandby, still])]
  refine State.desync_idle _ 7 ?_
  rw [State.getN_inc_other _ (by decide), still]
  decide

/-- The channel number beyond MC3 whose MC_STATE would stand at the place of PAIR_STATE. -/
def pairStateChannel : Nat := Obj.PAIR_STATE - Obj.MC_STATE

/-- The mark of the loss at that place desynchronises a standby, which shows PAIR_STATE 0 in its stead. -/
theorem State.loseChannel_pairStateChannel {s : State} (unsynced : s.getN Obj.PAIR_STATE = 0) :
    ((s.dropChannel pairStateChannel).inc Obj.TRIGGERS_HELD).getN Obj.PAIR_STATE = 3 ∧
    (s.loseChannel pairStateChannel).getN Obj.PAIR_STATE = 0 := by
  have marked : (s.dropChannel pairStateChannel).getN Obj.PAIR_STATE = 3 := by
    rw [State.getN_dropChannel, State.getN_setN_other _ _ (by decide)]
    exact State.getN_setN_self s Obj.PAIR_STATE 3
  have counted : ((s.dropChannel pairStateChannel).inc Obj.TRIGGERS_HELD).getN Obj.PAIR_STATE = 3 := by
    rw [State.getN_inc_other _ (by decide), marked]
  have kept : s.channelLost pairStateChannel = false := by
    have place : Obj.MC_STATE + pairStateChannel = Obj.PAIR_STATE := by decide
    rw [State.channelLost, place, unsynced]
    decide
  refine ⟨counted, ?_⟩
  rw [State.loseChannel_of_standby kept (by simp [State.isStandby, marked])]
  exact (State.desync_effect 7 (by simp [counted])).1

/-- Refutes O43: its last clause takes any number for a channel, and at the reset state the one that names PAIR_STATE is the counterexample; for the
channels 0 to 3 the clause is `State.loseChannel_of_unsynced`. -/
theorem not_dramCare : ¬ Obligations.DramCare := by
  unfold Obligations.DramCare
  rintro ⟨-, -, -, -, -, -, loss⟩
  have unsynced : State.reset.getN Obj.PAIR_STATE = 0 := by decide
  have standby : State.reset.isStandby = true := by decide
  have kept : State.reset.channelLost pairStateChannel = false := by decide
  have same : State.reset.loseChannel pairStateChannel = (State.reset.dropChannel pairStateChannel).inc Obj.TRIGGERS_HELD :=
    loss pairStateChannel State.reset standby kept unsynced
  obtain ⟨shows3, shows0⟩ := State.loseChannel_pairStateChannel unsynced
  rw [same, shows3] at shows0
  exact absurd shows0 (by decide)

end Sys2Proof.Machine
end

section
/-! SUPPORT. The ends of the units of work on the compression lanes (R290, R291, R294, R300) and the host job ring (R301 to R303); with them the
statement CompressionWork is settled. -/
namespace Sys2Proof.Machine

/-! ### Units of work (R290, R291) -/

/-- The state once a free lane has delivered the unit that it held (R290, R294, R300, R302). -/
def State.deliverUnit (s : State) (l : Nat) (f : List WordFault) : LaneUnit → State
  | .spool t => (s.packTile l t).runLanes.advanceRaster
  | .residual i => (s.packResidual i).runLanes
  | .fiufen _ => (s.segmentDone l).runLanes
  | .host i => ((s.hostJob i).elim s (s.hostSegment · f)).runLanes

section
variable {s : State} {l : Nat} {u : LaneUnit} (unit : (atD s.spool.lanes l {}).unit = some u) (coreOn : s.coreOn = true)
include unit coreOn

theorem execCompressionUnitDone_of_agreement (f : List WordFault) :
    execCompressionUnitDone l true f s = .next ((s.unitTaken l).deliverUnit l f u) := by
  rw [execCompressionUnitDone, unit]
  cases u with
  | spool t | residual i | fiufen e => simp [coreOn, State.deliverUnit, State.unitTaken]
  | host i =>
    cases job : (s.unitTaken l).hostJob i <;> rw [State.unitTaken] at job <;> simp [coreOn, State.deliverUnit, State.unitTaken, job]

theorem execCompressionUnitDone_of_mismatch (f : List WordFault) :
    execCompressionUnitDone l false f s =
      .next (((s.modLane l fun x => { x with units := x.units + 1 }).laneMismatch l u).runLanes).advanceRaster := by
  rw [execCompressionUnitDone, unit]
  simp [coreOn]

end

/-! ### Spool tiles (R294) -/

theorem State.packTile_eq (s : State) (l : Nat) (t : SpoolTile) : s.packTile l t =
    let dyn := decide (s.getN Obj.SPOOL_TABLES = 1)
    let n := (deflateTile dyn t.vals).length
    if n < 4096 then ({ s with spool := { s.spool with
        raw := modifyAt s.spool.raw t.region (· + 4096), packed := modifyAt s.spool.packed t.region (· + n) } }).storeTile
      { t with flags := if dyn then 4 else 0, lane := l, length := n } else s.storeTile t.raw := by
  simp [State.packTile]

theorem execSpoolLaneWait_of_redo {s : State} {l : Nat} {t : SpoolTile} {rest : List (Nat × LaneUnit)} (coreOn : s.coreOn = true)
    (redo : s.spool.redo = (l, .spool t) :: rest) : execSpoolLaneWait t.region s =
      .next (({ s with spool := { s.spool with redo := rest } }).storeTile t.raw).advanceRaster := by
  have first : s.spool.redo.findIdx? (fun p => p.2.tileOf t.region) = some 0 := by simp [redo, List.findIdx?_cons, LaneUnit.tileOf]
  rw [execSpoolLaneWait, first]
  simp [coreOn, redo]

theorem execSpoolLaneWait_of_waiting {s : State} {t : SpoolTile} {rest : List SpoolTile} (coreOn : s.coreOn = true)
    (redo : s.spool.redo = []) (waiting : s.spool.waiting = t :: rest) : execSpoolLaneWait t.region s =
      .next (({ s with spool := { s.spool with waiting := rest } }).storeTile t.raw).advanceRaster := by
  have noRedo : s.spool.redo.findIdx? (fun p => p.2.tileOf t.region) = none := by simp [redo]
  have first : s.spool.waiting.findIdx? (fun x => x.region = t.region) = some 0 := by simp [waiting, List.findIdx?_cons]
  rw [execSpoolLaneWait, noRedo, first]
  simp [coreOn, waiting]

/-! ### The host job ring (R301) -/

theorem execHjProducer_of_lt {v : Nat} (s : State) (fits : v < 2 ^ 32) : execHjProducer v s = .next (s.setN Obj.HJ_PRODUCER v) := by
  rw [execHjProducer, Nat.mod_eq_of_lt fits]

theorem execHjAssign_of_empty {s : State} (empty : s.getN Obj.HJ_CONSUMER = s.getN Obj.HJ_PRODUCER) : execHjAssign s = .next s :=
  if_pos (.inr empty)

/-- The state in which the next descriptor of the ring is read. -/
def State.hjTaken (s : State) : State := s.setN Obj.HJ_CONSUMER ((s.getN Obj.HJ_CONSUMER + 1) % 2 ^ 32)

/-- A descriptor that a lane refuses with status 10: an operation, flags or addresses that it cannot have (Tables 12-5 and 12-7). -/
abbrev hjBad (d : Bytes) : Prop := ¬(leAt d 0 1 = 1 ∨ leAt d 0 1 = 2) ∨ 3 < leAt d 1 1 ∨ leAt d 8 8 % 32 ≠ 0 ∨ leAt d 16 8 % 32 ≠ 0

section
variable {s u : State} {l : Nat} {d : Bytes} (coreOn : s.coreOn = true) (posted : s.getN Obj.HJ_CONSUMER ≠ s.getN Obj.HJ_PRODUCER)
  (lane : (List.range 16).find? s.hostLane = some l)
  (read : s.hjTaken.readMem (s.hjTaken.hjAddr (s.getN Obj.HJ_CONSUMER)) 32 [] = (u, some d))
include coreOn posted lane read

/-- A descriptor that is read shows its lane; a bad one ends with status 10, another is RUNNING and its job stands on the lane. -/
theorem execHjAssign_of_read : execHjAssign s =
    let c := s.getN Obj.HJ_CONSUMER
    let v := u.dramStore (u.hjAddr c + 3) [byte l]
    if hjBad d then .next (v.endHost (jobOf c d) 10 0)
    else .next ((v.dramStore (v.hjAddr c + 2) [1]).modLane l fun x => { x with host := some (jobOf c d) }).runLanes := by
  rw [State.hjTaken] at read
  rw [execHjAssign, if_neg (by simp [coreOn, posted]), lane]
  simp only [read]

end

/-! ### Resumes (R302) -/

theorem foldN_of_only_zero {σ : Type} {f : σ → Nat → σ} (others : ∀ s l, f s (l + 1) = s) (n : Nat) (s : σ) : foldN (n + 1) f s = f s 0 := by
  induction n with
  | zero => rfl
  | succ n ih => rw [foldN_succ, others, ih]

theorem execHjResume_of_zero {s : State} {c : Caller} (mayWrite : s.mayWrite c Obj.HJ_RESUME) : execHjResume c 0 s = .next s := by
  rw [execHjResume, writeHjResume, State.gate_of_mayWrite _ mayWrite, if_pos rfl, State.deny_fst]

theorem execHjResume_of_lane0 {s : State} {c : Caller} (mayWrite : s.mayWrite c Obj.HJ_RESUME) :
    execHjResume c 1 s = .next (s.resumeHost 0).runLanes := by
  rw [execHjResume, writeHjResume, State.gate_of_mayWrite _ mayWrite, if_neg (by decide), State.ok_fst,
    foldN_of_only_zero (fun s l => if_neg (by simp)) 15 s, if_pos (by decide)]

/-! ### The statement -/

/-- Settles O41: each unit by what its lane delivers, the next job by its descriptor, and the resume of lane 0 by the one bit of its mask. -/
theorem compressionWork : Obligations.CompressionWork := by
  unfold Obligations.CompressionWork
  refine ⟨⟨?spool, ?residual, ?fiufen, ?host, ?mismatch, State.packTile_eq, ?waiting, ?redo⟩, ?producer, ?assign, ?empty, ?resume⟩
  case spool => exact fun l s t unit coreOn => execCompressionUnitDone_of_agreement unit coreOn []
  case residual => exact fun l s i unit coreOn => execCompressionUnitDone_of_agreement unit coreOn []
  case fiufen => exact fun l s e f unit coreOn => execCompressionUnitDone_of_agreement unit coreOn f
  case host =>
    intro l s i j f unit coreOn job
    have done := execCompressionUnitDone_of_agreement unit coreOn f
    rwa [State.deliverUnit, job] at done
  case mismatch => exact fun l s u f unit coreOn => execCompressionUnitDone_of_mismatch unit coreOn f
  case waiting =>
    rintro r s t rest coreOn redo waiting rfl
    exact execSpoolLaneWait_of_waiting coreOn redo waiting
  case redo =>
    rintro r s l t rest coreOn redo rfl
    exact execSpoolLaneWait_of_redo coreOn redo
  case producer => exact fun v s fits => execHjProducer_of_lt s fits
  case assign =>
    intro s l d u coreOn posted lane c s1 read v
    have taken := execHjAssign_of_read coreOn posted lane read
    exact ⟨fun op flags ins outs => taken.trans (if_neg (by simp [hjBad, op, flags, ins, outs])),
      fun not1 not2 => taken.trans (if_pos (.inl (by simp [not1, not2])))⟩
  case empty => exact fun s empty => execHjAssign_of_empty empty
  case resume => exact fun c s mayWrite => ⟨execHjResume_of_lane0 mayWrite, execHjResume_of_zero mayWrite⟩

end Sys2Proof.Machine
end

section
/-! SUPPORT. The life of a DMA channel (R309 to R319): what a write of CH_START answers, what a granted channel does at its next burst, how a
descriptor ends, and what a halt shows and enters in the log; with it the statement DmaChannels is settled. -/
namespace Sys2Proof.Machine

/-! ### Starts (R309) -/

/-- A channel as the start of a copy leaves it: RUNNING, with no cause of a halt, no byte counted, and its request, burst and line taken. -/
def State.channelStarted (s : State) (c : Nat) : State :=
  let u := ((s.setN (Obj.CH_STATE + c) 1).setN (Obj.CH_HALT_CAUSE + c) 0).setN (Obj.CH_BYTES + c) 0
  u.modDma c fun _ => { request := u.getN (Obj.CH_REQUEST + c), burst := u.getN (Obj.CH_BURST + c), line := u.getN (Obj.CH_EVENT_LINE + c) }

theorem State.dmaStart_of_idle {s : State} {c a : Nat} (idle : s.dmaActive c = false) (aligned : a % 64 = 0) (inDram : a < s.getN Obj.DRAM_CAPACITY)
    (fs : List WordFault) : s.dmaStart c a fs = ((s.channelStarted c).dmaBegin c a fs).ok := by
  rw [State.dmaStart, if_neg (by simp [idle]), if_neg (by omega), State.channelStarted]

theorem State.dmaStart_of_refused {s : State} {c a : Nat} (refused : s.dmaActive c = true ∨ a % 64 ≠ 0 ∨ s.getN Obj.DRAM_CAPACITY ≤ a)
    (fs : List WordFault) : (s.dmaStart c a fs).1 = s := by
  rw [State.dmaStart]
  by_cases running : s.dmaActive c = true
  · rw [if_pos running, State.deny_fst]
  · rw [if_neg running, if_pos (refused.resolve_left running), State.deny_fst]

theorem execChStart_of_mayWrite {s : State} {w : Caller} {c a : Nat} (mayWrite : s.mayWrite w (Obj.CH_START + c)) (channel : c < 32)
    (fs : List WordFault) : execChStart w c a fs s = .next (if s.coreOn then (s.dmaStart c a fs).1 else s) := by
  rw [execChStart, if_pos channel, writeChStart, State.gate_of_mayWrite _ mayWrite]
  cases s.coreOn <;> rfl

/-! ### Bursts (R310, R311) -/

/-- A running channel with the core clock, a request to serve, no write that waits at a feed port, and bytes of its descriptor left. -/
structure State.BurstReady (s : State) (c : Nat) (d : DmaDesc) : Prop where
  desc : (s.dmaCh c).desc = some d
  coreOn : s.coreOn = true
  active : s.dmaActive c = true
  granted : s.dmaGranted c = true
  noPort : (s.dmaCh c).port = []
  left : (s.dmaCh c).moved < d.length

theorem execDmaBurst_of_ready {s : State} {c : Nat} {d : DmaDesc} (ready : s.BurstReady c d) (i : DmaInputs) : execDmaBurst c i s =
    if d.host && !s.host.up then .next (s.dmaHostHalt c d) else if d.host && !s.host.busMaster then .next s else .next (s.dmaMove c d i) := by
  rw [execDmaBurst, ready.desc]
  exact if_pos (by simp [ready.coreOn, ready.active, ready.granted, ready.noPort, ready.left])

/-! ### Ends of descriptors (R316, R317) -/

/-- The event that a descriptor gives on its end: a pulse of the channel's line, or a merge with another channel's pulse of it. -/
def State.endEvent (s : State) (c : Nat) (d : DmaDesc) (samePulse : Bool) : State :=
  if !d.eventOnEnd then s else if samePulse then s.inc Obj.EVENT_MERGES else s.pulseLine (s.dmaCh c).line

/-- A running channel of whose descriptor every byte has been written. -/
structure State.DescriptorDone (s : State) (c : Nat) (d : DmaDesc) : Prop where
  desc : (s.dmaCh c).desc = some d
  active : s.dmaActive c = true
  allMoved : (s.dmaCh c).moved = d.length
  noPort : (s.dmaCh c).port = []

theorem execDmaDescriptorEnd_of_done {s : State} {c : Nat} {d : DmaDesc} (done : s.DescriptorDone c d) (x : Bool) (fs : DescFaults) :
    execDmaDescriptorEnd c x fs s = if d.next = 0 then .next ((s.endEvent c d x).setN (Obj.CH_STATE + c) 3)
      else .next ((s.endEvent c d x).dmaBegin c d.next fs) := by
  rw [execDmaDescriptorEnd]
  simp only [done.desc]
  rw [if_pos ⟨done.active, done.allMoved, done.noPort⟩, State.endEvent]

/-! ### Halts and aborts of a channel that has no descriptor (R318, R319) -/

theorem State.getN_logEvent_other (s : State) (e : Ev) {o : ObjRef} (h : o ∉ logObjects e.cls) : (s.logEvent e).getN o = s.getN o := by
  rw [State.getN, s.get_logEvent_other e h, State.getN]

/-- The objects of the channels lie above those of the error log. -/
theorem not_mem_logObjects_of_channel {o : ObjRef} (above : Obj.CH_STATE ≤ o) : o ∉ logObjects 4 := by
  have below : ∀ p ∈ logObjects 4, p < Obj.CH_STATE := by decide
  exact fun mem => absurd above (Nat.not_le_of_lt (below o mem))

theorem State.dmaHalt_of_no_descriptor {s : State} {c : Nat} (noDesc : (s.dmaCh c).desc = none) (cause addr : Nat) : s.dmaHalt c cause addr =
    ((((s.setN (Obj.CH_STATE + c) 4).setN (Obj.CH_HALT_CAUSE + c) cause).setN (Obj.CH_HALT_ADDR + c) addr).modDma c
      fun x => { x with pulses := 0, port := [] }).logEvent ⟨4, 15, 255, c, Obj.CH_HALT_CAUSE + c, cause, addr⟩ := by
  rw [State.dmaHalt, noDesc]

theorem State.dmaHalt_effect {s : State} {c : Nat} (noDesc : (s.dmaCh c).desc = none) (cause addr : Nat) : let t := s.dmaHalt c cause addr
    t.getN (Obj.CH_STATE + c) = 4 ∧ t.getN (Obj.CH_HALT_CAUSE + c) = cause ∧ t.getN (Obj.CH_HALT_ADDR + c) = addr ∧
      t.newestLog 4 15 (Obj.CH_HALT_CAUSE + c) := by
  rw [State.dmaHalt_of_no_descriptor noDesc cause addr]
  intro t
  have distinct {o p : ObjRef} (h : o ≠ p) : o + c ≠ p + c := mt Nat.add_right_cancel h
  have shows {o : ObjRef} (above : Obj.CH_STATE ≤ o) : t.getN (o + c) =
      (((s.setN (Obj.CH_STATE + c) 4).setN (Obj.CH_HALT_CAUSE + c) cause).setN (Obj.CH_HALT_ADDR + c) addr).getN (o + c) :=
    State.getN_logEvent_other _ _ (not_mem_logObjects_of_channel (Nat.le_add_right_of_le above))
  refine ⟨?state, ?cause, ?addr, State.newestLog_logEvent _ _⟩
  case state =>
    rw [shows (by decide), State.getN_setN_other _ _ (distinct (by decide)), State.getN_setN_other _ _ (distinct (by decide)),
      State.getN_setN_self]
  case cause => rw [shows (by decide), State.getN_setN_other _ _ (distinct (by decide)), State.getN_setN_self]
  case addr => rw [shows (by decide), State.getN_setN_self]

theorem State.abortChannel_of_no_descriptor {s : State} {c : Nat} (active : s.dmaActive c = true) (noDesc : (s.dmaCh c).desc = none) :
    s.abortChannel c = (s.modDma c fun x => { x with pulses := 0, port := [] }).setN (Obj.CH_STATE + c) 5 := by
  rw [State.abortChannel, if_pos active, noDesc]

/-! ### The statement -/

/-- Settles O45: a start by the state of the channel and the address, a burst by the host port, an end by its event and the next descriptor,
and a halt by the objects that it sets, which the entry in the log leaves. -/
theorem dmaChannels : Obligations.DmaChannels := by
  unfold Obligations.DmaChannels
  refine ⟨⟨?start, ?refused, fun s c => State.abortChannel_of_no_descriptor⟩, ?burst, ?ends, ?halt⟩
  case start =>
    intro w c a fs s mayWrite channel coreOn idle aligned inDram
    exact (execChStart_of_mayWrite mayWrite channel fs).trans
      (by rw [if_pos coreOn, State.dmaStart_of_idle idle aligned inDram, State.ok_fst, State.channelStarted])
  case refused =>
    intro w c a fs s mayWrite channel refused
    have denied : (s.dmaStart c a fs).1 = s := State.dmaStart_of_refused refused fs
    exact (execChStart_of_mayWrite mayWrite channel fs).trans (by rw [denied, ite_self])
  case burst =>
    intro c i s d desc coreOn active granted noPort left
    have burst := execDmaBurst_of_ready ⟨desc, coreOn, active, granted, noPort, left⟩ i
    exact ⟨fun local_ => burst.trans (by simp [local_]), fun host up master => burst.trans (by simp [host, up, master]),
      fun host up noMaster => burst.trans (by simp [host, up, noMaster]), fun host down => burst.trans (by simp [host, down])⟩
  case ends =>
    intro c x fs s d desc active allMoved noPort
    have ends := execDmaDescriptorEnd_of_done ⟨desc, active, allMoved, noPort⟩
    exact ⟨fun quiet last => (ends x fs).trans (by simp [quiet, last, State.endEvent]),
      fun quiet next => (ends x fs).trans (by simp [quiet, next, State.endEvent]),
      fun event last => (ends false fs).trans (by simp [event, last, State.endEvent]),
      fun event last => (ends true fs).trans (by simp [event, last, State.endEvent])⟩
  case halt => exact fun s c cause addr noDesc => ⟨_, rfl, State.dmaHalt_effect noDesc cause addr⟩

end Sys2Proof.Machine
end
section
/-! SUPPORT. What every command keeps: the next state follows, one-time-programmable memory only rises and the bytes of DRAM stay in
canonical form. One lemma per function of the model, in the model's order: `f_kept` where `f` touches neither, `f_le` where it writes one of the
two, `f_goesOn` for the meaning of a command. -/
namespace Sys2Proof.Machine

/-! ### What is kept -/

/-- One-time-programmable memory and the bytes that DRAM lists. -/
abbrev Kept := Otp × List Host.Cell

/-- What few commands touch: one-time-programmable memory and the bytes that DRAM lists. -/
def State.kept (s : State) : Kept := (s.otp, s.dram.mem)

/-- From `a` to `b` one-time-programmable memory only rises, and the bytes of DRAM stay in canonical form. -/
def keptLe (a b : Kept) : Prop := Otp.le a.1 b.1 ∧ (memWf a.2 = true → memWf b.2 = true)

theorem Otp.le_refl (o : Otp) : Otp.le o o := ⟨Nat.le_refl _, BitVec.and_self, rfl⟩

theorem keptLe_refl (a : Kept) : keptLe a a := ⟨Otp.le_refl _, id⟩

theorem keptLe.of_memWriteList {a : Kept} {o : Otp} {m : List Host.Cell} {at_ : Nat} {bs : Bytes} (h : keptLe a (o, m)) :
    keptLe a (o, memWriteList m at_ bs) := ⟨h.1, fun wf => memWf_memWriteList _ _ (h.2 wf)⟩

theorem State.kept_with {od dom straps clk pins pwr boot fp stg log job st host sram ptp trg pair hs line lay ras spool sweep hist flow ledger
    units head cams cal cus dma fit out free pending} (s : State) :
    State.kept ⟨od, dom, straps, clk, pins, s.otp, pwr, boot, fp, stg, log, job, st, host, s.dram, sram, ptp, trg, pair, hs, line, lay, ras,
      spool, sweep, hist, flow, ledger, units, head, cams, cal, cus, dma, fit, out, free, pending⟩ = s.kept := by rfl

theorem State.kept_withDram {od dom straps clk pins pwr boot fp stg log job st host sram ptp trg pair hs line lay ras spool sweep hist flow ledger
    units head cams cal cus dma fit out free pending poisoned watch lastPass thisPass used logBad channels} (s : State) :
    State.kept ⟨od, dom, straps, clk, pins, s.otp, pwr, boot, fp, stg, log, job, st, host,
      ⟨s.dram.mem, poisoned, watch, lastPass, thisPass, used, logBad, channels⟩, sram, ptp, trg, pair, hs, line, lay, ras, spool, sweep, hist, flow,
      ledger, units, head, cams, cal, cus, dma, fit, out, free, pending⟩ = s.kept := by rfl

theorem State.kept_ite {c : Prop} [Decidable c] (a b : State) : (if c then a else b).kept = if c then a.kept else b.kept := apply_ite State.kept c a b

theorem State.foldl_kept {α : Type} {f : State → α → State} (hf : ∀ s x, (f s x).kept = s.kept) (l : List α) (s : State) :
    (l.foldl f s).kept = s.kept := by
  induction l generalizing s with
  | nil => rfl
  | cons x l ih => rw [List.foldl_cons, ih, hf]

theorem State.foldl_fst_kept {α β : Type} {f : State × β → α → State × β} (hf : ∀ p x, (f p x).1.kept = p.1.kept) (l : List α) (p : State × β) :
    (l.foldl f p).1.kept = p.1.kept := by
  induction l generalizing p with
  | nil => rfl
  | cons x l ih => rw [List.foldl_cons, ih, hf]

theorem State.foldN_kept {f : State → Nat → State} (hf : ∀ s i, (f s i).kept = s.kept) (n : Nat) (s : State) : (foldN n f s).kept = s.kept :=
  State.foldl_kept hf _ s

theorem keptLe.ite {k : Kept} {c : Prop} [Decidable c] {a b : State} (ha : keptLe k a.kept) (hb : keptLe k b.kept) :
    keptLe k (if c then a else b).kept := by
  split
  · exact ha
  · exact hb

theorem foldl_keptLe {α : Type} {k : Kept} {f : State → α → State} (hf : ∀ t x, keptLe k t.kept → keptLe k (f t x).kept) (l : List α)
    {t : State} (h : keptLe k t.kept) : keptLe k (l.foldl f t).kept := by
  induction l generalizing t with
  | nil => exact h
  | cons x l ih => exact ih (hf _ _ h)

theorem foldl_fst_keptLe {α β : Type} {k : Kept} {f : State × β → α → State × β} (hf : ∀ p x, keptLe k p.1.kept → keptLe k (f p x).1.kept) (l : List α)
    {p : State × β} (h : keptLe k p.1.kept) : keptLe k (l.foldl f p).1.kept := by
  induction l generalizing p with
  | nil => exact h
  | cons x l ih => exact ih (hf _ _ h)

/-- A command goes on, to a state that keeps what every step keeps. -/
def State.goesOn (s : State) (o : Out) : Prop := ∃ t, o = .next t ∧ keptLe s.kept t.kept

theorem State.goesOn_next {s t : State} : s.goesOn (.next t) ↔ keptLe s.kept t.kept :=
  ⟨fun ⟨_, h, k⟩ => by cases h; exact k, fun k => ⟨t, rfl, k⟩⟩

theorem State.goesOn_ite {s : State} {c : Prop} [Decidable c] {a b : Out} : s.goesOn (if c then a else b) ↔ if c then s.goesOn a else s.goesOn b := by
  split <;> rfl

/-! ### Shared operations -/

theorem State.set_kept (s : State) (o : ObjRef) (v : Int) : (s.set o v).kept = s.kept := by rfl

theorem State.setN_kept (s : State) (o : ObjRef) (v : Nat) : (s.setN o v).kept = s.kept := by
  simp only [State.setN, ↓State.set_kept]

theorem State.add_kept (s : State) (o : ObjRef) (n : Nat) : (s.add o n).kept = s.kept := by
  simp only [State.add]
  split <;>
    simp only [↓State.kept_ite, ite_self, ↓State.set_kept]

theorem State.inc_kept (s : State) (o : ObjRef) : (s.inc o).kept = s.kept := by
  simp only [State.inc, ↓State.add_kept]

theorem State.emit_kept (s : State) (x : Output) : (s.emit x).kept = s.kept := by rfl

theorem State.driveStageSlow_kept (s : State) (low : Bool) : (s.driveStageSlow low).kept = s.kept := by
  simp only [State.driveStageSlow, ↓State.kept_with, ↓State.kept_ite, ite_self, ↓State.emit_kept]

theorem State.freeNat_kept (s : State) : s.freeNat.2.kept = s.kept := by rfl

theorem State.freeBytes_kept (s : State) (n : Nat) : (s.freeBytes n).2.kept = s.kept := by rfl

theorem State.at_kept (s : State) (t : Nat) : (s.at t).kept = s.kept := by rfl

theorem State.logEvent_kept (s : State) (e : Ev) : (s.logEvent e).kept = s.kept := by
  simp only [State.logEvent]
  split <;>
    simp only [↓State.kept_with, ↓State.kept_ite, ite_self, ↓State.inc_kept, ↓State.setN_kept]

theorem State.snapshot_kept (s : State) : s.snapshot.kept = s.kept := by
  simp only [State.snapshot, ↓State.setN_kept, ↓State.set_kept]

theorem State.putEntry_kept (s : State) (e : StagedEntry) : (s.putEntry e).kept = s.kept := by
  simp only [State.putEntry]
  split <;>
    simp only [↓State.kept_with, ↓State.set_kept]

theorem State.takeStripe_kept (s : State) (f : ObjRef → Bool) : (s.takeStripe f).kept = s.kept := by
  simp only [State.takeStripe, ↓State.kept_with, ↓State.putEntry_kept, ↓State.foldl_kept, implies_true]

theorem State.setJobState_kept (s : State) (v : Nat) : (s.setJobState v).kept = s.kept := by
  simp only [State.setJobState, ↓State.kept_with, ↓State.kept_ite, ite_self, ↓State.setN_kept, ↓State.inc_kept, ↓State.takeStripe_kept,
    ↓State.snapshot_kept]

theorem State.beginQuiet_kept (s : State) : s.beginQuiet.kept = s.kept := by rfl

theorem State.haltedSub_kept (s : State) (subsys : Nat) : (s.haltedSub subsys).kept = s.kept := by
  simp only [State.haltedSub, ↓State.kept_with, ↓State.setN_kept]

theorem State.halt_kept (s : State) (cause detail subsys : Nat) : (s.halt cause detail subsys).kept = s.kept := by
  simp only [State.halt, ↓State.kept_ite, ite_self, ↓State.setJobState_kept, ↓State.beginQuiet_kept, ↓State.haltedSub_kept, ↓State.setN_kept]

theorem State.desync_kept (s : State) (cause : Nat) : (s.desync cause).kept = s.kept := by
  simp only [State.desync, ↓State.kept_ite, ite_self, ↓State.setN_kept, ↓State.inc_kept, ↓State.logEvent_kept]

theorem State.scrambled_kept (s : State) (i : Nat) (bs : List Block) : (s.scrambled i bs).2.kept = s.kept := by rfl

theorem State.transmit_kept (s : State) (lane : Nat) (m : Sent) : (s.transmit lane m).kept = s.kept := by
  simp only [State.transmit, ↓State.scrambled_kept, ↓State.emit_kept]

theorem State.mirrorAt_kept (s : State) (frame lane type : Nat) (body : Bytes) : (s.mirrorAt frame lane type body).kept = s.kept := by
  simp only [State.mirrorAt, ↓State.kept_with, ↓State.transmit_kept]

theorem State.mirror_kept (s : State) (lane type : Nat) (body : Bytes) : (s.mirror lane type body).kept = s.kept := by
  simp only [State.mirror, ↓State.mirrorAt_kept]

theorem State.refreshEligible_kept (s : State) : s.refreshEligible.kept = s.kept := by
  simp only [State.refreshEligible, ↓State.kept_with, ↓State.kept_ite, ite_self, ↓State.setN_kept]

theorem State.tellJob_kept (s : State) : s.tellJob.kept = s.kept := by
  simp only [State.tellJob, ↓State.kept_ite, ite_self, ↓State.mirror_kept]

theorem State.setHold_kept (s : State) : s.setHold.kept = s.kept := by
  simp only [State.setHold, ↓State.kept_with, ↓State.kept_ite, ite_self, ↓State.tellJob_kept]

theorem State.holdTrigger_kept (s : State) (t : Trig) : (s.holdTrigger t).kept = s.kept := by
  simp only [State.holdTrigger]
  split <;>
    simp only [↓State.inc_kept, ↓State.logEvent_kept, ↓State.setHold_kept, ↓State.halt_kept]

theorem State.tellRelease_kept (s : State) (code kr : Nat) : (s.tellRelease code kr).kept = s.kept := by
  simp only [State.tellRelease, ↓State.kept_with, ↓State.mirror_kept, ↓State.setN_kept]

theorem State.startRelease_kept (s : State) (t : Trig) : (s.startRelease t).kept = s.kept := by
  simp only [State.startRelease]
  split <;>
    simp only [↓State.kept_ite, ite_self, ↓State.logEvent_kept, ↓State.inc_kept, ↓State.tellRelease_kept]

theorem State.raise_kept (s : State) (t : Trig) : (s.raise t).kept = s.kept := by
  simp only [State.raise, ↓State.kept_ite, ite_self, ↓State.inc_kept, ↓State.desync_kept, ↓State.halt_kept, ↓State.logEvent_kept,
    ↓State.startRelease_kept, ↓State.holdTrigger_kept]

theorem State.deny_kept (s : State) (status : Nat) : (s.deny status).1.kept = s.kept := by rfl

theorem State.ok_kept (s : State) : s.ok.1.kept = s.kept := by rfl

theorem State.gate_kept (s : State) (c : Caller) (o : ObjRef) {f : State → Wr} (hf : ∀ t, (f t).1.kept = t.kept) :
    (s.gate c o f).1.kept = s.kept := by
  unfold State.gate
  simp only [↓apply_ite Prod.fst, ↓State.kept_ite, State.deny_kept, hf, ite_self]

theorem State.gate_le {a : Kept} {s : State} (c : Caller) (o : ObjRef) {f : State → Wr} (hf : ∀ t, keptLe a t.kept → keptLe a (f t).1.kept)
    (h : keptLe a s.kept) : keptLe a (s.gate c o f).1.kept := by
  unfold State.gate
  split
  · exact h
  · split
    · exact h
    · exact hf s h

/-! ### DRAM -/

theorem State.modChan_kept (s : State) (ch : Nat) (f : Channel → Channel) : (s.modChan ch f).kept = s.kept := by rfl

theorem State.dramWriteWord_le {a : Kept} {s : State} (wa off : Nat) (bs : Bytes) (h : keptLe a s.kept) : keptLe a (s.dramWriteWord wa off bs).1.kept := by
  unfold State.dramWriteWord
  dsimp only
  split
  · exact h
  · split
    · exact h.of_memWriteList
    · split
      · exact h
      · exact h.of_memWriteList

theorem State.dramWriteAux_le {a : Kept} (n : Nat) {s : State} (at_ : Nat) (bs : Bytes) (bad : List Nat) (h : keptLe a s.kept) :
    keptLe a (State.dramWriteAux n s at_ bs bad).1.kept := by
  induction n generalizing s at_ bs bad with
  | zero => exact h
  | succ n ih =>
    cases bs with
    | nil => exact h
    | cons b bs => exact ih _ _ _ (State.dramWriteWord_le _ _ _ h)

theorem State.acceptWrite_kept (s : State) (a n : Nat) : (s.acceptWrite a n).kept = s.kept := by
  simp only [State.acceptWrite, ↓State.kept_ite, ite_self, ↓State.inc_kept, ↓State.modChan_kept]

theorem State.dramWriteBursts_le {a : Kept} (n : Nat) {s : State} (at_ : Nat) (bs : Bytes) (bad : List Nat) (h : keptLe a s.kept) :
    keptLe a (State.dramWriteBursts n s at_ bs bad).1.kept := by
  induction n generalizing s at_ bs bad with
  | zero => exact h
  | succ n ih =>
    cases bs with
    | nil => exact h
    | cons b bs => exact ih _ _ _ (State.dramWriteAux_le 17 at_ _ _ (by rwa [State.acceptWrite_kept]))

theorem State.dramWrite_le {a : Kept} {s : State} (at_ : Nat) (bs : Bytes) (h : keptLe a s.kept) : keptLe a (s.dramWrite at_ bs).1.kept :=
  State.dramWriteBursts_le _ _ _ _ h

theorem State.dramStore_le {a : Kept} {s : State} (at_ : Nat) (bs : Bytes) (h : keptLe a s.kept) : keptLe a (s.dramStore at_ bs).kept :=
  State.dramWrite_le _ _ h

theorem State.forward_kept (s : State) (burst : Nat) (fs : List WordFault) : (s.forward burst fs).1.kept = s.kept := by
  simp only [State.forward]
  split <;>
    simp only [↓State.kept_ite, ↓apply_ite Prod.fst, ite_self, ↓State.freeNat_kept, ↓State.modChan_kept, ↓State.inc_kept]

theorem State.forwards_kept (s : State) (a n : Nat) (fs : List WordFault) : (s.forwards a n fs).1.kept = s.kept := by
  simp only [State.forwards, ↓State.forward_kept, ↓State.foldl_fst_kept, implies_true]

theorem State.poisonWordAt_le {a : Kept} {s : State} (wa : Nat) (h : keptLe a s.kept) : keptLe a (s.poisonWordAt wa).kept := by
  unfold State.poisonWordAt
  split
  · exact h
  · exact h.of_memWriteList

theorem State.loseChannel_kept (s : State) (ch : Nat) : (s.loseChannel ch).kept = s.kept := by
  simp only [State.loseChannel, ↓State.kept_ite, ite_self, ↓State.raise_kept, ↓State.modChan_kept, ↓State.setN_kept]

theorem State.noteUe_kept (s : State) (wa : Nat) : (s.noteUe wa).kept = s.kept := by
  simp only [State.noteUe, ↓State.kept_ite, ite_self, ↓State.modChan_kept, ↓State.loseChannel_kept]

theorem State.failRow_kept (s : State) (ch bank row cause : Nat) : (s.failRow ch bank row cause).kept = s.kept := by
  simp only [State.failRow, ↓State.kept_ite, ite_self, ↓State.logEvent_kept, ↓State.inc_kept, ↓State.modChan_kept]

theorem State.countUe_le {a : Kept} {s : State} (wa : Nat) (r : ReadOutcome) (code finder : Nat) (h : keptLe a s.kept) :
    keptLe a (s.countUe wa r code finder).kept := by
  unfold State.countUe
  dsimp only
  split
  · exact h
  · exact h
  · rwa [State.inc_kept]
  · generalize hu : (if r = .misdirected then (s.inc (Obj.MC_UNCORRECTABLE + channelOf (8 * wa))).inc (Obj.MC_MISDIRECTED + channelOf (8 * wa))
        else s.inc (Obj.MC_UNCORRECTABLE + channelOf (8 * wa))) = u
    have counted : keptLe a u.kept := by
      rw [← hu]
      simpa only [↓State.kept_ite, State.inc_kept, ite_self] using h
    split
    · exact counted
    · simp only [↓State.noteUe_kept, ↓State.kept_ite, ↓State.failRow_kept, ↓State.logEvent_kept, ↓State.setN_kept, ite_self]
      exact State.poisonWordAt_le _ counted

/-! ### Time, PTP, comparators and captures -/

theorem execTimeTick_goesOn (s : State) : s.goesOn (execTimeTick s) := by
  simp only [execTimeTick, ↓State.kept_with, State.goesOn_next]
  split <;>
    simp only [keptLe_refl, ↓State.setN_kept, ↓State.add_kept]

theorem writeTimeIncrement_kept (s : State) (by_ : Caller) (v : Nat) : (writeTimeIncrement s by_ v).1.kept = s.kept := by
  simp only [writeTimeIncrement, ↓State.kept_with, ↓State.kept_ite, ↓apply_ite Prod.fst, ite_self, ↓State.gate_kept, ↓State.deny_kept,
    ↓State.ok_kept, implies_true]

theorem refuseJump_kept (s : State) (size : Int) : (refuseJump s size).1.kept = s.kept := by
  simp only [refuseJump, ↓State.logEvent_kept, ↓State.set_kept, ↓State.inc_kept]

/-- The effect of a step of device time, behind its gate. -/
def timeStepEffect (v : Int) (s : State) : Wr :=
  if v.natAbs * 65536 > s.jumpLimit then refuseJump s v
  else ({ s with clk := { s.clk with adjust := s.clk.adjust ++ [TimeAdj.step v] } }).ok

theorem timeStepEffect_kept (v : Int) (s : State) : (timeStepEffect v s).1.kept = s.kept := by
  unfold timeStepEffect
  split
  · exact refuseJump_kept ..
  · rw [State.ok_kept, State.kept_with]

theorem writeTimeStep_kept (s : State) (by_ : Caller) (v : Int) : (writeTimeStep s by_ v).1.kept = s.kept :=
  State.gate_kept s by_ Obj.TIME_STEP (f := timeStepEffect v) (timeStepEffect_kept v)

theorem writeTimeSet_kept (s : State) (c : Caller) (bs : Bytes) : (writeTimeSet s c bs).1.kept = s.kept := by
  refine State.gate_kept _ _ _ fun t => ?_
  split
  · rfl
  · split
    · rfl
    · simp only [↓apply_ite Prod.fst, ↓State.kept_ite, refuseJump_kept, State.ok_kept, State.kept_with, State.setN_kept, ite_self]

theorem execTimeIncrement_goesOn (by_ : Caller) (v : Nat) (s : State) : s.goesOn (execTimeIncrement by_ v s) := by
  simp only [execTimeIncrement, State.goesOn_next, keptLe_refl, ↓writeTimeIncrement_kept]

theorem execTimeStep_goesOn (by_ : Caller) (v : Int) (s : State) : s.goesOn (execTimeStep by_ v s) := by
  simp only [execTimeStep, State.goesOn_next, keptLe_refl, ↓writeTimeStep_kept]

theorem execTimeSet_goesOn (by_ : Caller) (bs : Bytes) (s : State) : s.goesOn (execTimeSet by_ bs s) := by
  simp only [execTimeSet, State.goesOn_next, keptLe_refl, ↓writeTimeSet_kept]

theorem State.ptpDiscard_kept (s : State) : s.ptpDiscard.kept = s.kept := by
  simp only [State.ptpDiscard, ↓State.kept_with, ↓State.inc_kept]

theorem State.ptpPublish_kept (s : State) (t1 t2 t3 t4 : Nat) (delay2 : Int) : (s.ptpPublish t1 t2 t3 t4 delay2).kept = s.kept := by
  simp only [State.ptpPublish, ↓State.kept_with, ↓State.kept_ite, ite_self, ↓State.inc_kept, ↓State.setN_kept, ↓State.set_kept]

theorem State.ptpPeerDone_kept (s : State) : s.ptpPeerDone.kept = s.kept := by
  simp only [State.ptpPeerDone, ↓State.kept_ite]
  (repeat' split) <;>
    simp only [↓State.ptpPublish_kept]

theorem execPtpSync_goesOn (p rx : Nat) (m : PtpMessage) (s : State) : s.goesOn (execPtpSync p rx m s) := by
  simp only [execPtpSync, ↓State.kept_with, State.goesOn_next, State.goesOn_ite, keptLe_refl, ite_self, ↓State.inc_kept, ↓State.at_kept,
    ↓State.ptpPeerDone_kept]

theorem execPtpFollowUp_goesOn (p : Nat) (m : PtpMessage) (s : State) : s.goesOn (execPtpFollowUp p m s) := by
  simp only [execPtpFollowUp, State.goesOn_next, State.goesOn_ite, keptLe_refl, ↓State.inc_kept]
  (repeat' split) <;>
    simp only [↓State.kept_with, State.goesOn_next, keptLe_refl, ↓State.ptpPeerDone_kept]

theorem execPtpDelayResp_goesOn (p : Nat) (m : PtpMessage) (s : State) : s.goesOn (execPtpDelayResp p m s) := by
  simp only [execPtpDelayResp, State.goesOn_next, State.goesOn_ite, keptLe_refl, ↓State.inc_kept]
  (repeat' split) <;>
    simp only [State.goesOn_next, keptLe_refl, ↓State.ptpDiscard_kept, ↓State.ptpPublish_kept]

theorem execPtpDelayReqSend_goesOn (tx : Nat) (s : State) : s.goesOn (execPtpDelayReqSend tx s) := by
  simp only [execPtpDelayReqSend]
  split <;>
    simp only [↓State.kept_with, State.goesOn_next, State.goesOn_ite, keptLe_refl, ite_self, ↓State.inc_kept, ↓State.at_kept, ↓State.emit_kept]

theorem execPtpPdelayReqSend_goesOn (tx : Nat) (s : State) : s.goesOn (execPtpPdelayReqSend tx s) := by
  simp only [execPtpPdelayReqSend]
  split <;>
    simp only [↓State.kept_with, State.goesOn_next, State.goesOn_ite, keptLe_refl, ite_self, ↓State.inc_kept, ↓State.at_kept, ↓State.emit_kept]

theorem execPtpPdelayReq_goesOn (p rx tx : Nat) (m : PtpMessage) (s : State) : s.goesOn (execPtpPdelayReq p rx tx m s) := by
  simp only [execPtpPdelayReq, State.goesOn_next, State.goesOn_ite, keptLe_refl, ite_self, ↓State.inc_kept, ↓State.at_kept, ↓State.emit_kept]

theorem execPtpPdelayResp_goesOn (p rx : Nat) (followUp : Bool) (m : PtpMessage) (s : State) : s.goesOn (execPtpPdelayResp p rx followUp m s) :=
    by
  simp only [execPtpPdelayResp, ↓State.kept_ite, State.goesOn_next, State.goesOn_ite, keptLe_refl, ite_self, ↓State.at_kept, ↓State.inc_kept]
  (repeat' split) <;>
    simp only [↓State.kept_with, State.goesOn_next, keptLe_refl, ↓State.at_kept, ↓State.inc_kept]

theorem State.ptpSelect_kept (s : State) : s.ptpSelect.kept = s.kept := by
  simp only [State.ptpSelect]
  split <;>
    simp only [↓State.kept_with, ↓State.kept_ite, ite_self, ↓State.setN_kept, ↓State.set_kept]

theorem execPtpAnnounce_goesOn (p : Nat) (m : PtpMessage) (a : PtpAnnounce) (s : State) : s.goesOn (execPtpAnnounce p m a s) := by
  simp only [execPtpAnnounce, ↓State.kept_with, State.goesOn_next, State.goesOn_ite, keptLe_refl, ite_self, ↓State.inc_kept, ↓State.ptpSelect_kept]

theorem execPtpAnnounceTimeout_goesOn (s : State) : s.goesOn (execPtpAnnounceTimeout s) := by
  simp only [execPtpAnnounceTimeout, ↓State.kept_with, State.goesOn_next, State.goesOn_ite, keptLe_refl, ite_self, ↓State.setN_kept,
    ↓State.ptpSelect_kept]

theorem State.comparatorStep_kept (s : State) (c : Nat) : (s.comparatorStep c).kept = s.kept := by
  simp only [State.comparatorStep, ↓State.kept_with, ↓State.kept_ite, ite_self, ↓State.inc_kept, ↓State.setN_kept]

theorem State.ttoPulse_kept (s : State) (k : Nat) : (s.ttoPulse k).kept = s.kept := by
  simp only [State.ttoPulse, ↓State.kept_with, ↓State.kept_ite, ite_self, ↓State.emit_kept]

theorem State.refreshOwners_kept (s : State) (cam : Nat → Option Nat) (cal : Option Nat) : (s.refreshOwners cam cal).kept = s.kept := by
  simp only [State.refreshOwners, ↓State.setN_kept, ↓State.foldN_kept, implies_true]

theorem State.armComparator_kept (s : State) (c : Nat) : (s.armComparator c).kept = s.kept := by
  simp only [State.armComparator, ↓State.kept_with, ↓State.kept_ite, ite_self, ↓State.inc_kept, ↓State.setN_kept]

theorem execPulseEnd_goesOn (o : PulseOut) (s : State) : s.goesOn (execPulseEnd o s) := by
  simp only [execPulseEnd]
  (repeat' split) <;>
    simp only [↓State.kept_with, State.goesOn_next, keptLe_refl, ↓State.emit_kept, ↓State.at_kept]

theorem execTciEdge_goesOn (k t : Nat) (rising : Bool) (s : State) : s.goesOn (execTciEdge k t rising s) := by
  simp only [execTciEdge, ↓State.kept_with, State.goesOn_next, State.goesOn_ite, keptLe_refl, ite_self, ↓State.at_kept, ↓State.inc_kept,
    ↓State.setN_kept]

theorem writeTciAck_kept (s : State) (by_ : Caller) (k n : Nat) : (writeTciAck s by_ k n).1.kept = s.kept := by
  simp only [writeTciAck, ↓State.kept_with, ↓State.kept_ite, ↓apply_ite Prod.fst, ite_self, ↓State.gate_kept, ↓State.deny_kept, ↓State.ok_kept,
    ↓State.setN_kept, implies_true]

theorem execTciAck_goesOn (by_ : Caller) (k n : Nat) (s : State) : s.goesOn (execTciAck by_ k n s) := by
  simp only [execTciAck, State.goesOn_next, keptLe_refl, ↓writeTciAck_kept]

/-! ### Camera ports -/

theorem State.modCam_kept (s : State) (p : Nat) (f : Cam → Cam) : (s.modCam p f).kept = s.kept := by rfl

theorem State.refreshCams_kept (s : State) : s.refreshCams.kept = s.kept := by
  simp only [State.refreshCams, ↓State.kept_ite, ite_self, ↓State.modCam_kept, ↓State.setN_kept, ↓State.foldN_kept, implies_true]

theorem State.spotFail_kept (s : State) (cause : Nat) : (s.spotFail cause).kept = s.kept := by
  simp only [State.spotFail, ↓State.kept_with, ↓State.kept_ite, ite_self, ↓State.setN_kept]

theorem State.finderStops_kept (s : State) (p : Nat) : (s.finderStops p).kept = s.kept := by
  simp only [State.finderStops, ↓State.kept_ite, ite_self, ↓State.spotFail_kept]
  split <;>
    simp only [↓State.kept_with, ↓State.kept_ite, ite_self, ↓State.setN_kept]

theorem State.abortPort_kept (s : State) (p : Nat) : (s.abortPort p).kept = s.kept := by
  simp only [State.abortPort, ↓State.kept_ite, ite_self, ↓State.setN_kept, ↓State.modCam_kept, ↓State.finderStops_kept]

theorem State.abortCams_kept (s : State) (selector : Nat) : (s.abortCams selector).kept = s.kept := by
  simp only [State.abortCams, ↓State.kept_ite, ite_self, ↓State.setN_kept, ↓State.abortPort_kept, ↓State.foldl_kept, implies_true]

theorem State.restartPort_kept (s : State) (p : Nat) : (s.restartPort p).kept = s.kept := by
  simp only [State.restartPort, ↓State.kept_ite, ite_self, ↓State.refreshCams_kept, ↓State.setN_kept]

theorem writeCamRestart_kept (s : State) (by_ : Caller) (p : Nat) : (writeCamRestart s by_ p).1.kept = s.kept := by
  simp only [writeCamRestart, ↓State.gate_kept, ↓State.ok_kept, ↓State.restartPort_kept, implies_true]

theorem execCamRestart_goesOn (by_ : Caller) (p : Nat) (s : State) : s.goesOn (execCamRestart by_ p s) := by
  simp only [execCamRestart, State.goesOn_next, keptLe_refl, ↓writeCamRestart_kept]

theorem State.camsCommitted_kept (s : State) (objs : List ObjRef) : (s.camsCommitted objs).kept = s.kept := by
  simp only [State.camsCommitted, ↓State.kept_ite, ite_self, ↓State.refreshCams_kept, ↓State.restartPort_kept, ↓State.foldN_kept, implies_true]

theorem State.runPipe_kept (n t : Nat) (s : State) : (State.runPipe n t s).kept = s.kept := by
  induction n generalizing s with
  | zero => rfl
  | succ n ih =>
    rw [State.runPipe]
    split
    · dsimp only
      split
      · rfl
      · split <;> simp only [↓ih, ↓State.kept_with, ↓State.modCam_kept]
    · dsimp only
      split
      · rfl
      · split
        · rfl
        · split <;> simp only [↓ih, ↓State.kept_with]

theorem State.dropFrame_kept (s : State) (p : Nat) : (s.dropFrame p).kept = s.kept := by
  simp only [State.dropFrame]
  split <;>
    simp only [↓State.kept_ite, ite_self, ↓State.modCam_kept, ↓State.inc_kept, ↓State.setN_kept, ↓State.spotFail_kept]

theorem State.offerMark_kept (s : State) (p : Nat) (f : CamFrame) : (s.offerMark p f).kept = s.kept := by
  simp only [State.offerMark]
  split <;>
    simp only [↓State.kept_with, ↓State.kept_ite, ite_self]

theorem State.offerSpot_kept (s : State) (p : Nat) (f : CamFrame) : (s.offerSpot p f).kept = s.kept := by
  simp only [State.offerSpot]
  split <;>
    simp only [↓State.kept_with, ↓State.kept_ite, ite_self, ↓State.spotFail_kept]

theorem State.closeFrame_kept (s : State) (p : Nat) (noFe : Bool) : (s.closeFrame p noFe).kept = s.kept := by
  simp only [State.closeFrame]
  split <;>
    simp only [↓State.kept_ite, ite_self, ↓State.inc_kept, ↓State.setN_kept, ↓State.modCam_kept, ↓State.refreshCams_kept, ↓State.offerSpot_kept,
      ↓State.offerMark_kept]

theorem execCsiFrameStart_goesOn (p t frameNumber : Nat) (s : State) : s.goesOn (execCsiFrameStart p t frameNumber s) := by
  simp only [execCsiFrameStart, State.goesOn_next, State.goesOn_ite, keptLe_refl, ite_self, ↓State.at_kept, ↓State.closeFrame_kept,
    ↓State.modCam_kept, ↓State.inc_kept, ↓State.setN_kept]

theorem execCsiFrameEnd_goesOn (p t : Nat) (s : State) : s.goesOn (execCsiFrameEnd p t s) := by
  simp only [execCsiFrameEnd, State.goesOn_next, State.goesOn_ite, keptLe_refl, ite_self, ↓State.closeFrame_kept, ↓State.at_kept]

theorem State.lineTime_kept (s : State) (p : Nat) : (s.lineTime p).kept = s.kept := by
  simp only [State.lineTime, ↓State.modCam_kept]
  split <;>
    simp only [↓State.setN_kept]

theorem execCsiLine_goesOn (p : Nat) (t : Nat) (c o : Bool) (l : List Nat) (s : State) : s.goesOn (execCsiLine p t c o l s) := by
  unfold execCsiLine
  split
  · exact State.goesOn_next.2 (by rw [State.at_kept]; exact keptLe_refl _)
  · dsimp only
    split
    · simp only [State.goesOn_next, ↓State.kept_ite, ↓State.inc_kept, ↓State.runPipe_kept, ↓State.at_kept, ite_self, keptLe_refl]
    · simp only [State.goesOn_ite, State.goesOn_next, ↓State.modCam_kept, ↓State.dropFrame_kept, ↓State.lineTime_kept, ↓State.kept_ite, ↓State.inc_kept, ↓State.runPipe_kept, ↓State.at_kept, ite_self, keptLe_refl]

theorem execCsiEmbeddedData_goesOn (p : Nat) (data : Bytes) (s : State) : s.goesOn (execCsiEmbeddedData p data s) := by
  simp only [execCsiEmbeddedData]
  split <;>
    simp only [State.goesOn_next, keptLe_refl, ↓State.modCam_kept]

theorem execCsiPacketDiscard_goesOn (p : Nat) (why : CsiDiscard) (s : State) : s.goesOn (execCsiPacketDiscard p why s) := by
  simp only [execCsiPacketDiscard, State.goesOn_next, State.goesOn_ite, keptLe_refl]
  (repeat' split) <;>
    simp only [State.goesOn_next, keptLe_refl, ↓State.inc_kept]

theorem execCamLineTimeout_goesOn (p t : Nat) (s : State) : s.goesOn (execCamLineTimeout p t s) := by
  simp only [execCamLineTimeout]
  split <;>
    simp only [State.goesOn_next, State.goesOn_ite, keptLe_refl, ite_self, ↓State.closeFrame_kept, ↓State.at_kept]

theorem State.publish_le {a : Kept} {s : State} (p o : Nat) (f : CamFrame) (image : Bytes) (h : keptLe a s.kept) :
    keptLe a (s.publish p o f image).kept := by
  unfold State.publish
  simp only [↓State.modCam_kept, ↓State.setN_kept]
  exact State.dramStore_le _ _ (State.dramStore_le _ _ h)

theorem execCamFramePublish_goesOn (p : Nat) (s : State) : s.goesOn (execCamFramePublish p s) := by
  unfold execCamFramePublish
  split
  · exact State.goesOn_next.2 (keptLe_refl _)
  · next f rest _ =>
    dsimp only
    have taken : keptLe s.kept (s.modCam p fun c => { c with closed := rest }).kept := by rw [State.modCam_kept]; exact keptLe_refl _
    generalize (s.modCam p fun c => { c with closed := rest }) = t at taken ⊢
    split
    · exact State.goesOn_next.2 taken
    · rw [State.goesOn_next, State.kept_ite, State.modCam_kept, ite_self]
      generalize hu : (if (atD f.cfg.outs 0 ⟨0, 1, false⟩).on && f.complete then t.publish p 0 f _ else t) = u
      have display : keptLe s.kept u.kept := by rw [← hu]; exact .ite (State.publish_le _ _ _ _ taken) taken
      generalize hv : (if (atD f.cfg.outs 2 ⟨0, 1, false⟩).on && f.complete then u.publish p 2 f _ else u) = v
      have vision : keptLe s.kept v.kept := by rw [← hv]; exact .ite (State.publish_le _ _ _ _ display) display
      exact .ite (by rw [State.inc_kept]; exact State.publish_le _ _ _ _ vision) vision

theorem State.strobePulse_kept (s : State) (p ns : Nat) : (s.strobePulse p ns).kept = s.kept := by
  simp only [State.strobePulse, ↓State.kept_with, ↓State.kept_ite, ite_self, ↓State.emit_kept]

/-! ### Retirement and loss -/

theorem State.recountRegion_kept (s : State) (r : Nat) : (s.recountRegion r).kept = s.kept := by
  simp only [State.recountRegion, ↓State.kept_ite, ite_self, ↓State.setN_kept]

theorem State.setWriting_kept (s : State) (r v : Nat) : (s.setWriting r v).kept = s.kept := by
  simp only [State.setWriting, ↓State.kept_with, ↓State.recountRegion_kept]

theorem State.setRaster_kept (s : State) (r v : Nat) : (s.setRaster r v).kept = s.kept := by rfl

theorem State.loseRegion_kept (s : State) (r subsys unit : Nat) : (s.loseRegion r subsys unit).kept = s.kept := by
  simp only [State.loseRegion, ↓State.kept_with, ↓State.kept_ite, ite_self, ↓State.setN_kept, ↓State.raise_kept, ↓State.logEvent_kept]

theorem State.retireEvent_kept (s : State) (subsys r unit : Nat) (o : ObjRef) : (s.retireEvent subsys r unit o).kept = s.kept := by
  simp only [State.retireEvent, ↓State.logEvent_kept]

theorem State.dropCells_kept (s : State) (p : Nat → Bool) : (s.dropCells p).kept = s.kept := by rfl

theorem State.retireBlock_kept (s : State) (k : Nat) : (s.retireBlock k).kept = s.kept := by
  simp only [State.retireBlock, ↓State.kept_ite, ite_self, ↓State.setN_kept, ↓State.recountRegion_kept, ↓State.dropCells_kept,
    ↓State.loseRegion_kept, ↓State.retireEvent_kept, ↓State.foldl_kept, implies_true]

theorem State.checkBlockCells_kept (s : State) (k : Nat) : (s.checkBlockCells k).kept = s.kept := by
  simp only [State.checkBlockCells, ↓State.kept_ite, ite_self, ↓State.retireBlock_kept]

theorem State.retireCell_kept (s : State) (j code : Nat) : (s.retireCell j code).kept = s.kept := by
  simp only [State.retireCell, ↓State.kept_ite, ite_self, ↓State.retireEvent_kept, ↓State.dropCells_kept, ↓State.setN_kept,
    ↓State.checkBlockCells_kept, ↓State.recountRegion_kept]

theorem State.chargeCell_kept (s : State) (j : Nat) (key : TileKey) (check : Nat) (dev : Int) : (s.chargeCell j key check dev).kept = s.kept := by
  simp only [State.chargeCell, ↓State.kept_with, ↓State.kept_ite, ite_self, ↓State.setN_kept, ↓State.set_kept, ↓State.retireCell_kept]

theorem State.retireGroup_kept (s : State) (r unit : Nat) : (s.retireGroup r unit).kept = s.kept := by
  simp only [State.retireGroup, ↓State.kept_with, ↓State.loseRegion_kept, ↓State.recountRegion_kept]

theorem State.checkGroups_kept (s : State) : s.checkGroups.kept = s.kept := by
  simp only [State.checkGroups, ↓State.kept_ite, ite_self, ↓State.retireGroup_kept, ↓State.foldl_kept, implies_true]

theorem State.retireSlot_kept (s : State) (l : Nat) : (s.retireSlot l).kept = s.kept := by
  simp only [State.retireSlot, ↓State.kept_with, ↓State.kept_ite, ite_self, ↓State.retireGroup_kept, ↓State.recountRegion_kept,
    ↓State.retireEvent_kept]

/-! ### Ledger and defects -/

theorem State.modEntry_kept (s : State) (i : Nat) (f : Entry → Entry) : (s.modEntry i f).kept = s.kept := by rfl

theorem State.storeResidual_kept (s : State) (i : Nat) : (s.storeResidual i).kept = s.kept := by
  simp only [State.storeResidual]
  split <;>
    simp only [↓State.kept_with, ↓State.kept_ite, ite_self, ↓State.modEntry_kept, ↓State.freeNat_kept]

theorem State.appendEntry_kept (s : State) (e : Entry) : (s.appendEntry e).kept = s.kept := by
  simp only [State.appendEntry, ↓State.kept_with, ↓State.kept_ite, ite_self, ↓State.inc_kept, ↓State.storeResidual_kept, ↓State.logEvent_kept,
    ↓State.foldN_kept, implies_true]

theorem State.appendUnknown_kept (s : State) (k : TileKey) (region : Nat) (owner : Option Nat) : (s.appendUnknown k region owner).kept = s.kept :=
    by
  simp only [State.appendUnknown]
  split <;>
    simp only [↓State.appendEntry_kept]

theorem State.addResidual_kept (s : State) (k : TileKey) (region cause pass : Nat) (vals : List (Nat × Nat)) : (s.addResidual k region cause pass
    vals).kept = s.kept := by
  simp only [State.addResidual]
  split <;>
    simp only [↓State.kept_ite, ite_self, ↓State.modEntry_kept, ↓State.storeResidual_kept, ↓State.appendEntry_kept]

theorem State.makeRecords_kept (s : State) (i : Nat) (noRef : Bool) : (s.makeRecords i noRef).kept = s.kept := by
  simp only [State.makeRecords]
  split <;>
    simp only [↓State.kept_with, ↓State.add_kept, ↓State.modEntry_kept]

theorem State.reportEntry_kept (s : State) (i : Nat) (noRef : Bool) : (s.reportEntry i noRef).kept = s.kept := by
  simp only [State.reportEntry]
  split <;>
    simp only [↓State.kept_ite, ite_self, ↓State.inc_kept, ↓State.modEntry_kept, ↓State.makeRecords_kept]

theorem State.reportOpen_kept (s : State) (p : Entry → Bool) : (s.reportOpen p).kept = s.kept := by
  refine State.foldl_kept (fun s i => ?_) _ s
  split <;> simp only [↓State.kept_ite, ↓State.reportEntry_kept, ite_self]

theorem State.awaitedRecords_kept (s : State) : s.awaitedRecords.kept = s.kept := by
  refine State.foldl_kept (fun s i => ?_) _ s
  split <;> simp only [↓State.kept_ite, ↓State.makeRecords_kept, ite_self]

theorem State.ackDefects_kept (s : State) (n : Nat) : (s.ackDefects n).kept = s.kept := by
  refine (State.foldl_kept (fun s d => ?_) _ _).trans rfl
  split <;> simp only [↓State.modEntry_kept]

theorem writeDefectAck_kept (s : State) (by_ : Caller) (n : Nat) : (writeDefectAck s by_ n).1.kept = s.kept := by
  simp only [writeDefectAck, ↓State.kept_ite, ↓apply_ite Prod.fst, ite_self, ↓State.gate_kept, ↓State.deny_kept, ↓State.ok_kept,
    ↓State.ackDefects_kept, implies_true]

theorem execDefectAck_goesOn (by_ : Caller) (n : Nat) (s : State) : s.goesOn (execDefectAck by_ n s) := by
  simp only [execDefectAck, State.goesOn_next, keptLe_refl, ↓writeDefectAck_kept]

/-! ### The spool -/

theorem State.modLane_kept (s : State) (l : Nat) (f : Lane → Lane) : (s.modLane l f).kept = s.kept := by rfl

theorem State.takeRank_kept {s t : State} {l rank : Nat} {u : LaneUnit} (h : s.takeRank l rank = some (u, t)) : t.kept = s.kept := by
  unfold State.takeRank at h
  split at h
  · obtain ⟨_, _, e⟩ := Option.map_eq_some_iff.1 h; cases e; rfl
  · split at h
    · obtain ⟨_, _, h⟩ := Option.bind_eq_some_iff.1 h
      obtain ⟨_, _, e⟩ := Option.map_eq_some_iff.1 h; cases e; rfl
    · obtain ⟨_, _, h⟩ := Option.bind_eq_some_iff.1 h
      obtain ⟨_, _, e⟩ := Option.map_eq_some_iff.1 h; cases e; rfl
    · obtain ⟨_, _, e⟩ := Option.map_eq_some_iff.1 h; cases e; rfl
    · obtain ⟨_, _, e⟩ := Option.map_eq_some_iff.1 h; cases e; rfl

theorem State.feedLane_kept (s : State) (l : Nat) : (s.feedLane l).kept = s.kept := by
  unfold State.feedLane
  split
  · rfl
  · split
    · next u t h =>
      obtain ⟨r, -, h⟩ := List.exists_of_findSome?_eq_some h
      rw [State.modLane_kept, State.takeRank_kept h]
    · rfl

theorem State.feedLanes_kept (s : State) : s.feedLanes.kept = s.kept := by
  simp only [State.feedLanes, ↓State.feedLane_kept, ↓State.foldN_kept, implies_true]

theorem State.regive_kept (s : State) (l : Nat) : (s.regive l).kept = s.kept := by
  simp only [State.regive]
  split <;>
    simp only [↓State.kept_with]

theorem State.advanceFront_kept (r n : Nat) (s : State) : (State.advanceFront r n s).kept = s.kept := by
  induction n generalizing s with
  | zero => rfl
  | succ n ih =>
    rw [State.advanceFront]
    dsimp only
    split
    · rfl
    · simp only [↓State.kept_ite, ↓ih, ↓State.kept_with, ite_self]

theorem State.advanceRelease_kept (s : State) : s.advanceRelease.kept = s.kept := by
  simp only [State.advanceRelease, ↓State.kept_with, ↓State.kept_ite, ite_self, ↓State.setN_kept]

theorem State.releaseBands_kept (s : State) : s.releaseBands.kept = s.kept := by
  simp only [State.releaseBands, ↓State.kept_with, ↓State.kept_ite, ite_self, ↓State.advanceRelease_kept]

theorem State.freeTiles_kept (s : State) : s.freeTiles.kept = s.kept := by rfl

theorem State.judgeRefs_kept (s : State) (t : SpoolTile) : (s.judgeRefs t).kept = s.kept := by
  simp only [State.judgeRefs, ↓State.kept_with, ↓State.kept_ite, ite_self, ↓State.storeResidual_kept, ↓State.add_kept, ↓State.foldl_kept,
    implies_true]

theorem State.spoolPlace_kept (s : State) (r n align : Nat) (taken : List (Nat × Nat)) : (s.spoolPlace r n align taken).2.kept = s.kept := by
  simp only [State.spoolPlace, ↓State.freeNat_kept]

theorem State.placeTile_kept (s : State) (t : SpoolTile) : (s.placeTile t).2.kept = s.kept := by
  simp only [State.placeTile]
  split <;>
    simp only [↓State.spoolPlace_kept]

theorem State.storeTile_kept (s : State) (t : SpoolTile) : (s.storeTile t).kept = s.kept := by
  simp only [State.storeTile, ↓State.kept_with, ↓State.kept_ite, ite_self, ↓State.placeTile_kept, ↓State.inc_kept, ↓State.judgeRefs_kept,
    ↓State.releaseBands_kept, ↓State.advanceFront_kept, ↓State.freeTiles_kept, ↓State.awaitedRecords_kept]

theorem State.handTile_kept (s : State) (k : TileKey) (region : Nat) (vals : Bytes) (again : Bool) : (s.handTile k region vals again).kept =
    s.kept := by
  simp only [State.handTile, ↓State.kept_with, ↓State.kept_ite, ite_self, ↓State.storeTile_kept, ↓State.feedLanes_kept]

theorem State.packTile_kept (s : State) (l : Nat) (t : SpoolTile) : (s.packTile l t).kept = s.kept := by
  simp only [State.packTile, ↓State.kept_with, ↓State.kept_ite, ite_self, ↓State.storeTile_kept]

theorem State.packResidual_kept (s : State) (i : Nat) : (s.packResidual i).kept = s.kept := by
  simp only [State.packResidual]
  split <;>
    simp only [↓State.freeNat_kept, ↓State.modEntry_kept]

/-! ### Raster blocks -/

theorem State.openTile_kept (s : State) (r : Nat) (st : Stripe) (k : TileKey) (again : Bool) : (s.openTile r st k again).1.kept = s.kept := by
  simp only [State.openTile, ↓State.kept_ite, ite_self, ↓State.inc_kept]

theorem State.finishTile_kept (s : State) (t : TileJob) : (s.finishTile t).kept = s.kept := by
  simp only [State.finishTile]
  split <;>
    simp only [↓State.kept_with, ↓State.kept_ite, ite_self, ↓State.logEvent_kept, ↓State.inc_kept, ↓State.storeTile_kept, ↓State.appendUnknown_kept,
      ↓State.handTile_kept, ↓State.add_kept]

theorem State.spoolReady_kept (s : State) : s.spoolReady.kept = s.kept := by
  simp only [State.spoolReady, ↓State.kept_ite, ite_self, ↓State.finishTile_kept, ↓State.foldl_kept, implies_true]

theorem State.takeNext_kept {s t : State} {r : Nat} (h : s.takeNext r = some t) : t.kept = s.kept := by
  unfold State.takeNext at h
  split at h
  · split at h
    · cases h
    · dsimp only at h
      rw [← Option.some.inj h, State.kept_with, State.openTile_kept]
  · dsimp only at h
    split at h
    · cases h
    · split at h
      · cases h; rfl
      · split at h
        · rw [← Option.some.inj h, State.kept_with, State.openTile_kept]
        · cases h

theorem State.skipEmpties_kept (r n : Nat) (s : State) : (State.skipEmpties r n s).kept = s.kept := by
  induction n generalizing s with
  | zero => rfl
  | succ n ih =>
    rw [State.skipEmpties]
    split
    · split
      · next h => rw [ih, State.spoolReady_kept, State.takeNext_kept h]
      · rfl
    · rfl

theorem State.rasterSide_kept (s : State) (r : Nat) : (s.rasterSide r).kept = s.kept := by
  simp only [State.rasterSide, ↓State.kept_ite, ite_self, ↓State.setRaster_kept]

theorem State.advanceRaster_kept (s : State) : s.advanceRaster.kept = s.kept := by
  simp only [State.advanceRaster, ↓State.rasterSide_kept, ↓State.skipEmpties_kept, ↓State.spoolReady_kept, ↓State.foldl_kept, implies_true]

theorem State.giveUpTiles_kept (s : State) (r : Nat) (keys : List TileKey) (owner : Option Nat) : (s.giveUpTiles r keys owner).kept = s.kept := by
  simp only [State.giveUpTiles, ↓State.kept_with, ↓State.storeTile_kept, ↓State.appendUnknown_kept, ↓State.foldl_kept, implies_true]

theorem State.assignPart_kept {s t : State} {j : Nat} (h : s.assignPart j = some t) : t.kept = s.kept := by
  unfold State.assignPart at h
  split at h
  · cases h
  · rw [← Option.some.inj h]; rfl

theorem execTileDispatch_goesOn (cell : Nat) (s : State) : s.goesOn (execTileDispatch cell s) := by
  unfold execTileDispatch
  dsimp only
  split
  · exact State.goesOn_next.2 (keptLe_refl _)
  · split
    · next h => exact State.goesOn_next.2 (by rw [State.advanceRaster_kept, State.assignPart_kept h]; exact keptLe_refl _)
    · split
      · exact State.goesOn_next.2 (keptLe_refl _)
      · next t h =>
        have part : ((t.assignPart cell).getD t).kept = t.kept := by
          cases e : t.assignPart cell with
          | none => rfl
          | some u => exact State.assignPart_kept e
        exact State.goesOn_next.2 (by rw [State.advanceRaster_kept, part, State.takeNext_kept h]; exact keptLe_refl _)

theorem State.chargeRuns_kept (s : State) (t : TileJob) (bad stand : List RunOut) : (s.chargeRuns t bad stand).kept = s.kept := by
  simp only [State.chargeRuns, ↓State.chargeCell_kept, ↓State.logEvent_kept, ↓State.foldl_kept, implies_true]

theorem State.setPart_kept (s : State) (k : TileKey) (x0 y0 : Nat) (f : Part → Part) : (s.setPart k x0 y0 f).kept = s.kept := by rfl

theorem State.resolvePart_kept (s : State) (t : TileJob) (p : Part) (runs : List RunOut) : (s.resolvePart t p runs).kept = s.kept := by
  simp only [State.resolvePart]
  (repeat' split) <;>
    simp only [↓State.setPart_kept, ↓State.inc_kept, ↓State.chargeRuns_kept]

theorem State.valueStep_kept (s : State) (k : TileKey) (cell : Nat) : (s.valueStep k cell).kept = s.kept := by
  simp only [State.valueStep]
  split <;>
    simp only [↓State.kept_with, ↓State.kept_ite, ite_self, ↓State.retireBlock_kept]

theorem execTileComplete_goesOn (cell : Nat) (fault : CellFault) (s : State) : s.goesOn (execTileComplete cell fault s) := by
  simp only [execTileComplete]
  (repeat' split) <;>
    simp only [↓State.kept_with, State.goesOn_next, keptLe_refl, ↓State.inc_kept, ↓State.advanceRaster_kept, ↓State.valueStep_kept,
      ↓State.resolvePart_kept]

theorem execShadowTest_goesOn (cell : Nat) (s : State) : s.goesOn (execShadowTest cell s) := by
  simp only [execShadowTest, ↓State.kept_with, State.goesOn_next, State.goesOn_ite, keptLe_refl, ite_self]

theorem execShadowTestResult_goesOn (cell : Nat) (crc : BitVec 32) (s : State) : s.goesOn (execShadowTestResult cell crc s) := by
  simp only [execShadowTestResult]
  split <;>
    simp only [↓State.kept_with, State.goesOn_next, State.goesOn_ite, keptLe_refl, ite_self, ↓State.advanceRaster_kept, ↓State.chargeCell_kept,
      ↓State.inc_kept]

theorem State.referenceTest_kept (s : State) (fails : List Nat) : (s.referenceTest fails).kept = s.kept := by
  simp only [State.referenceTest, ↓State.kept_with, ↓State.kept_ite, ite_self, ↓State.setN_kept, ↓State.retireEvent_kept, ↓State.recountRegion_kept,
    ↓State.checkBlockCells_kept, ↓State.foldl_kept, implies_true]

/-! ### Correction blocks -/

theorem State.putRows_kept (s : State) (r stripe col : Nat) (rows : List (Option Nat)) : (s.putRows r stripe col rows).kept = s.kept := by rfl

theorem State.retireCorrection_kept (s : State) (r : Nat) : (s.retireCorrection r).kept = s.kept := by
  simp only [State.retireCorrection, ↓State.kept_ite, ite_self, ↓State.setN_kept, ↓State.retireEvent_kept, ↓State.loseRegion_kept,
    ↓State.giveUpTiles_kept, ↓State.foldl_kept, implies_true]

theorem State.chargeCorrection_kept (s : State) (r : Nat) (atOnce : Bool) : (s.chargeCorrection r atOnce).kept = s.kept := by
  simp only [State.chargeCorrection, ↓State.kept_with, ↓State.kept_ite, ite_self, ↓State.logEvent_kept, ↓State.inc_kept,
    ↓State.retireCorrection_kept]

theorem State.countColumn_kept (s : State) (r : Nat) : (s.countColumn r).kept = s.kept := by rfl

theorem State.densityColumn_kept (s : State) (r : Nat) (railsAgree : List Bool) : (s.densityColumn r railsAgree).kept = s.kept := by
  simp only [State.densityColumn, ↓State.kept_ite]
  (repeat' split) <;>
    simp only [↓State.advanceRaster_kept, ↓State.chargeCorrection_kept, ↓State.countColumn_kept]

theorem execFactorCompute_goesOn (region : Nat) (column : Int) (railsAgree : List Bool) (s : State) : s.goesOn (execFactorCompute region column
    railsAgree s) := by
  simp only [execFactorCompute, State.goesOn_next, State.goesOn_ite, keptLe_refl, ↓State.densityColumn_kept]
  (repeat' split) <;>
    simp only [State.goesOn_next, keptLe_refl, ↓State.countColumn_kept, ↓State.advanceRaster_kept, ↓State.chargeCorrection_kept, ↓State.add_kept,
      ↓State.putRows_kept]

theorem State.placementRails_kept (s : State) (rails : List (Nat × List Bool)) : (s.placementRails rails).kept = s.kept := by
  refine State.foldl_kept (fun s p => ?_) _ s
  split
  · rfl
  · split <;> simp only [↓State.chargeCorrection_kept]

/-! ### Uncorrectable words and the scrubber -/

theorem State.tell_kept (s : State) (ev : StreamEvent) : (s.tell ev).kept = s.kept := by
  simp only [State.tell, ↓State.kept_ite, ite_self, ↓State.mirror_kept]

theorem State.recordSlot_kept (s : State) (r : SlotRef) : (s.recordSlot r).kept = s.kept := by
  simp only [State.recordSlot, ↓State.setN_kept]

theorem State.rejectLate_kept (s : State) (status seq stripe band type aux : Nat) (bbox : Option Box) (tile : Option (Nat × Nat)) : (s.rejectLate
    status seq stripe band type aux bbox tile).kept = s.kept := by
  simp only [State.rejectLate, ↓State.kept_with, ↓State.kept_ite, ite_self, ↓State.recordSlot_kept, ↓State.setN_kept, ↓State.inc_kept,
    ↓State.logEvent_kept, ↓State.tell_kept]

theorem State.dropBlock_kept (s : State) (b : LBlock) : (s.dropBlock b).kept = s.kept := by
  simp only [State.dropBlock, ↓State.kept_with, ↓State.rejectLate_kept]

theorem State.loseBlock_kept (s : State) (b : LBlock) : (s.loseBlock b).kept = s.kept := by
  simp only [State.loseBlock, ↓State.kept_with, ↓State.kept_ite, ite_self, ↓State.dropBlock_kept, ↓State.inc_kept]

theorem State.loseCell_kept (s : State) (c : Cell) : (s.loseCell c).kept = s.kept := by
  simp only [State.loseCell, ↓State.kept_with, ↓State.kept_ite, ite_self, ↓State.rejectLate_kept]

theorem State.rejectTile_kept (s : State) (k : TileKey) : (s.rejectTile k).kept = s.kept := by
  simp only [State.rejectTile, ↓State.rejectLate_kept, ↓State.foldl_kept, implies_true]

theorem State.loseTile_kept (s : State) (k : TileKey) : (s.loseTile k).kept = s.kept := by
  simp only [State.loseTile, ↓State.kept_with, ↓State.kept_ite, ite_self, ↓State.rejectTile_kept]

theorem State.loseRetained_kept (s : State) (k : TileKey) : (s.loseRetained k).kept = s.kept := by
  refine (State.foldl_kept (fun s i => ?_) _ _).trans rfl
  split <;> simp only [↓State.kept_ite, ↓State.reportEntry_kept, ite_self]

theorem State.loseLogWord_kept (s : State) (a : Nat) : (s.loseLogWord a).kept = s.kept := by
  unfold State.loseLogWord
  dsimp only
  split <;> rfl

theorem State.loseFactor_kept (s : State) (f : FactorCol) (row : Nat) : (s.loseFactor f row).kept = s.kept := by
  simp only [State.loseFactor, ↓State.kept_with, ↓State.kept_ite, ite_self, ↓State.rejectTile_kept]

theorem State.ueAction_kept (s : State) (wa code : Nat) : (s.ueAction wa code).kept = s.kept := by
  unfold State.ueAction
  split
  · extract_lets
    split
    · split
      · exact State.loseCell_kept ..
      · rfl
    · split
      · exact State.loseBlock_kept ..
      · rfl
  · extract_lets
    split
    · simp only [↓State.kept_ite, State.loseRetained_kept, State.loseTile_kept, ite_self]
    · rfl
  · extract_lets
    split
    · rw [State.reportEntry_kept, State.modEntry_kept]
    · rfl
    · rfl
  · exact State.loseLogWord_kept ..
  · split
    · exact State.loseFactor_kept ..
    · rfl
  · rfl

theorem State.readWordAt_le {a : Kept} {s : State} (wa : Nat) (fs : List WordFault) (finder : Nat) (h : keptLe a s.kept) :
    keptLe a (s.readWordAt wa fs finder).1.kept := by
  unfold State.readWordAt
  dsimp only
  split
  · exact h
  · rwa [State.logEvent_kept, State.inc_kept]
  · exact State.countUe_le _ _ _ _ h
  · simp only [↓State.kept_ite, ↓State.ueAction_kept, ite_self]
    exact State.countUe_le _ _ _ _ h

theorem State.requesterWord_kept (s : State) (wa v : Nat) : (s.requesterWord wa v).1.kept = s.kept := by
  simp only [State.requesterWord, ↓State.kept_ite, ↓apply_ite Prod.fst]
  (repeat' split) <;>
    simp only [↓State.freeNat_kept]

theorem State.readWords_le {a : Kept} {s : State} (at_ n : Nat) (fs : List WordFault) (h : keptLe a s.kept) : keptLe a (s.readWords at_ n fs).1.kept := by
  have taken := State.requesterWord_kept
  unfold State.readWords
  generalize State.requesterWord = take at taken ⊢
  as_aux_lemma =>
    refine foldl_fst_keptLe (fun p wa hp => ?_) _ h
    have read := State.readWordAt_le wa fs 1 hp
    generalize p.1.readWordAt wa fs 1 = r at read ⊢
    dsimp only
    split
    · rwa [taken]
    · exact read

theorem State.readMem_le {a : Kept} {s : State} (at_ n : Nat) (fs : List WordFault) (h : keptLe a s.kept) : keptLe a (s.readMem at_ n fs).1.kept := by
  have fwd : keptLe a (s.forwards at_ n fs).1.kept := by rwa [State.forwards_kept]
  exact State.readWords_le at_ n _ fwd

theorem execScrubRead_goesOn (faults : List WordFault) (s : State) : s.goesOn (execScrubRead faults s) := by
  unfold execScrubRead
  dsimp only
  split
  · exact State.goesOn_next.2 (keptLe_refl _)
  · have forwarded : keptLe s.kept (if s.channelLost (channelOf (s.getN Obj.SCRUB_POSITION)) then (s, faults)
        else s.forward (s.getN Obj.SCRUB_POSITION / 128) faults).1.kept := by
      rw [apply_ite Prod.fst, State.kept_ite, State.forward_kept, ite_self]; exact keptLe_refl _
    generalize (if s.channelLost (channelOf (s.getN Obj.SCRUB_POSITION)) then (s, faults)
        else s.forward (s.getN Obj.SCRUB_POSITION / 128) faults) = p at forwarded ⊢
    obtain ⟨t, fs⟩ := p
    dsimp only
    generalize hu : (if t.channelLost _ then t else List.foldl (fun s wa => (s.readWordAt wa fs 0).1) t _) = u
    have read : keptLe s.kept u.kept := by
      rw [← hu]
      exact .ite forwarded (foldl_keptLe (fun _ _ hv => State.readWordAt_le _ _ _ hv) _ forwarded)
    generalize hw : State.add _ Obj.SCRUB_POISONED _ = w
    have counted : keptLe s.kept w.kept := by
      rw [← hw]
      simp only [↓State.add_kept, ↓State.kept_ite, ↓State.inc_kept, ite_self]
      refine foldl_keptLe (fun v wa hv => ?_) _ read
      split
      · rw [State.failRow_kept]; exact hv
      · exact hv
    split
    · rw [State.goesOn_next]
      simpa only [State.kept, State.inc_otp, State.setN_otp] using counted
    · exact State.goesOn_next.2 (by rwa [State.setN_kept, State.setN_kept])

theorem State.copyRow_le {a : Kept} {s : State} (ch bank row : Nat) (faults : List WordFault) (h : keptLe a s.kept) :
    keptLe a (s.copyRow ch bank row faults).kept :=
  foldl_keptLe (fun _ _ ht => State.readWordAt_le _ _ _ ht) _ h

theorem execRemapCopyDone_goesOn (copy : Nat × List WordFault) (s : State) : s.goesOn (execRemapCopyDone copy s) := by
  unfold execRemapCopyDone
  dsimp only
  split
  · exact State.goesOn_next.2 (keptLe_refl _)
  · next x _ =>
    have read : keptLe s.kept (if s.channelLost copy.1 then s else s.copyRow copy.1 x.bank x.row copy.2).kept :=
      .ite (keptLe_refl _) (State.copyRow_le _ _ _ _ (keptLe_refl _))
    simp only [State.goesOn_ite, State.goesOn_next, ↓State.logEvent_kept, ↓State.setN_kept, ↓State.modChan_kept, read, ite_self]

/-! ### Compression lanes -/

theorem State.moveHosts_kept (s : State) : s.moveHosts.kept = s.kept := by
  refine State.foldN_kept (fun s l => ?_) _ s
  split
  · split
    · rfl
    · split <;> simp only [↓State.modLane_kept]
  · rfl

theorem State.rawWaiting_kept (s : State) (r : Nat) : (s.rawWaiting r).kept = s.kept := by
  simp only [State.rawWaiting, ↓State.kept_with, ↓State.kept_ite, ite_self, ↓State.storeResidual_kept, ↓State.storeTile_kept,
    ↓State.foldl_kept, implies_true]

theorem State.runLanes_kept (s : State) : s.runLanes.kept = s.kept := by
  simp only [State.runLanes, ↓State.feedLanes_kept, ↓State.moveHosts_kept]

theorem State.retireLane_kept (s : State) (l : Nat) : (s.retireLane l).kept = s.kept := by
  simp only [State.retireLane, ↓State.kept_with, ↓State.kept_ite, ite_self, ↓State.recountRegion_kept, ↓State.retireEvent_kept, ↓State.setN_kept,
    ↓State.regive_kept, ↓State.rawWaiting_kept, ↓State.logEvent_kept]

theorem State.laneMismatch_kept (s : State) (l : Nat) (u : LaneUnit) : (s.laneMismatch l u).kept = s.kept := by
  simp only [State.laneMismatch, ↓State.kept_with, ↓State.kept_ite, ite_self, ↓State.logEvent_kept, ↓State.inc_kept, ↓State.modLane_kept,
    ↓State.retireLane_kept]

theorem State.hjChain_le {a : Kept} (n : Nat) {s : State} (bufs : List HjBuf) (next : Option Nat) (fs : List WordFault) (need : Nat)
    (h : keptLe a s.kept) : keptLe a (State.hjChain n s bufs next fs need).1.kept := by
  induction n generalizing s bufs next with
  | zero => exact h
  | succ n ih =>
    rw [State.hjChain.eq_def]
    dsimp only
    split
    · exact h
    · split
      · exact h
      · split
        · exact h
        · next at_ _ _ =>
          have read := State.readMem_le at_ 32 fs h
          split
          · next e => rwa [e] at read
          · next e =>
            rw [e] at read
            split
            · exact read
            · exact ih _ _ read

theorem State.readPrefix_le {a : Kept} {s : State} (at_ n : Nat) (fs : List WordFault) (h : keptLe a s.kept) :
    keptLe a (s.readPrefix at_ n fs).1.kept := by
  have fwd : keptLe a (s.forwards at_ n fs).1.kept := by rwa [State.forwards_kept]
  unfold State.readPrefix
  generalize s.forwards at_ n fs = f at fwd ⊢
  obtain ⟨t, gs⟩ := f
  have read (m : Nat) : keptLe a (t.readWords at_ m gs).1.kept := State.readWords_le at_ m gs fwd
  dsimp only
  split
  · specialize read n
    generalize t.readWords at_ n gs = r at read ⊢
    exact read
  · next wa _ =>
    specialize read (8 * wa - at_)
    generalize t.readWords at_ (8 * wa - at_) gs = r at read ⊢
    exact read

theorem State.readChain_le {a : Kept} (l : List HjBuf) (at_ lo hi : Nat) (fs : List WordFault) {s : State} (h : keptLe a s.kept) :
    keptLe a (State.readChain l at_ lo hi fs s).1.kept := by
  induction l generalizing at_ s with
  | nil => exact h
  | cons b bs ih =>
    rw [State.readChain]
    dsimp only
    have read : keptLe a (if max lo at_ < min hi (at_ + b.len) then
        s.readPrefix (b.addr + (max lo at_ - at_)) (min hi (at_ + b.len) - max lo at_) fs else (s, [], none)).1.kept := by
      split
      · exact State.readPrefix_le _ _ _ h
      · exact h
    split
    · next e => rwa [e] at read
    · next e => rw [e] at read; exact ih _ read

theorem State.setUsed_le {a : Kept} (l : List HjBuf) (n : Nat) {s : State} (h : keptLe a s.kept) : keptLe a (State.setUsed l n s).kept := by
  induction l generalizing n s with
  | nil => exact h
  | cons b bs ih => exact ih _ (State.dramStore_le _ _ h)

theorem State.putOut_le {a : Kept} (l : List HjBuf) (base from_ : Nat) (out : Bytes) {s : State} (h : keptLe a s.kept) :
    keptLe a (State.putOut l base from_ out s).kept := by
  induction l generalizing base s with
  | nil => exact h
  | cons b bs ih =>
    refine ih _ ?_
    split
    · exact State.dramStore_le _ _ h
    · exact h

theorem State.endHost_le {a : Kept} {s : State} (j : HostJob) (status check : Nat) (h : keptLe a s.kept) :
    keptLe a (s.endHost j status check).kept := by
  unfold State.endHost
  simp only [↓State.kept_ite, ↓State.inc_kept, ↓State.kept_with, ite_self]
  exact State.dramStore_le _ _ (State.dramStore_le _ _ h)

theorem State.putJob_kept (s : State) (j : HostJob) : (s.putJob j).kept = s.kept := by rfl

theorem State.pullInput_le {a : Kept} (goal n : Nat) {s : State} (j : HostJob) (fs : List WordFault) (h : keptLe a s.kept) :
    keptLe a (State.pullInput goal n s j fs).1.kept := by
  induction n generalizing s j with
  | zero => exact h
  | succ n ih =>
    rw [State.pullInput]
    dsimp only
    split
    · exact h
    · have chain := State.hjChain_le 1 j.ins j.inNext fs (j.data.length + 1) h
      split
      · next e => rwa [e] at chain
      · next t ins next e =>
        rw [e] at chain
        split
        · exact chain
        · have data := State.readChain_le ins 0 j.data.length (chainBytes ins) fs chain
          split
          · exact ih _ data
          · split
            · exact data
            · exact State.readWordAt_le _ _ _ data

theorem State.takeInput_le {a : Kept} {s : State} (j : HostJob) (fs : List WordFault) (h : keptLe a s.kept) : keptLe a (s.takeInput j fs).1.kept := by
  unfold State.takeInput
  dsimp only
  have chain := State.hjChain_le 4097 j.ins j.inNext fs (j.data.length + 4096) h
  split
  · next e => rwa [e] at chain
  · next t ins next e =>
    rw [e] at chain
    have data := State.readChain_le ins 0 j.data.length (j.data.length + 4096) fs chain
    split
    · next e' => rwa [e'] at data
    · next e' => rw [e'] at data; exact State.readWordAt_le _ _ _ data

theorem State.flushJob_le {a : Kept} {s : State} (j : HostJob) (out : Bytes) (fs : List WordFault) (h : keptLe a s.kept) :
    keptLe a (s.flushJob j out fs).1.kept := by
  unfold State.flushJob
  have chain := State.hjChain_le (j.made + 1) j.outs j.outNext fs j.made h
  split
  · next e => rwa [e] at chain
  · next e => rw [e] at chain; exact State.setUsed_le _ _ (State.setUsed_le _ _ (State.putOut_le _ _ _ _ chain))

theorem State.hostSegment_le {a : Kept} {s : State} (j : HostJob) (fs : List WordFault) (h : keptLe a s.kept) : keptLe a (s.hostSegment j fs).kept := by
  unfold State.hostSegment
  have input : keptLe a (if j.op = 1 then s.takeInput j fs else State.pullInput (j.made + 4096) 4294967296 s j fs).1.kept := by
    split
    · exact State.takeInput_le _ _ h
    · exact State.pullInput_le _ _ _ _ h
  split
  · next e => rw [e] at input; exact State.endHost_le _ _ _ input
  · next t k e =>
    rw [e] at input
    dsimp only
    have flushed := State.flushJob_le { k with made := if k.op = 1 then k.output.1.length else min k.output.1.length (k.made + 4096) } k.output.1 fs input
    split
    · next e' => rw [e'] at flushed; exact State.endHost_le _ _ _ flushed
    · next e' => rw [e'] at flushed; rw [State.putJob_kept]; exact State.dramStore_le _ _ flushed
    · next e' =>
      rw [e'] at flushed
      split
      · rwa [State.putJob_kept]
      · exact State.endHost_le _ _ _ flushed

theorem execHjAssign_goesOn (s : State) : s.goesOn (execHjAssign s) := by
  unfold execHjAssign
  dsimp only
  split
  · exact State.goesOn_next.2 (keptLe_refl _)
  · split
    · exact State.goesOn_next.2 (keptLe_refl _)
    · have read : keptLe s.kept ((s.setN Obj.HJ_CONSUMER ((s.getN Obj.HJ_CONSUMER + 1) % 2 ^ 32)).readMem
          ((s.setN Obj.HJ_CONSUMER ((s.getN Obj.HJ_CONSUMER + 1) % 2 ^ 32)).hjAddr (s.getN Obj.HJ_CONSUMER)) 32 []).1.kept :=
        State.readMem_le _ _ _ (by rw [State.setN_kept]; exact keptLe_refl _)
      split
      · next e => rw [e] at read; exact State.goesOn_next.2 (State.endHost_le _ _ _ read)
      · next e =>
        rw [e] at read
        split
        · exact State.goesOn_next.2 (State.endHost_le _ _ _ (State.dramStore_le _ _ read))
        · exact State.goesOn_next.2 (by
            rw [State.runLanes_kept, State.modLane_kept]
            exact State.dramStore_le _ _ (State.dramStore_le _ _ read))

theorem execHjProducer_goesOn (value : Nat) (s : State) : s.goesOn (execHjProducer value s) := by
  simp only [execHjProducer, State.goesOn_next, keptLe_refl, ↓State.setN_kept]

theorem State.resumeHost_le {a : Kept} {s : State} (l : Nat) (h : keptLe a s.kept) : keptLe a (s.resumeHost l).kept := by
  unfold State.resumeHost
  split
  · split
    · exact h
    · split
      · exact h
      · next b _ =>
        have read := State.readMem_le (b.desc + 8) 8 [] h
        split
        · next e => rw [e] at read; exact State.endHost_le _ _ _ read
        · next e =>
          rw [e] at read
          split
          · exact read
          · rw [State.putJob_kept]; exact State.dramStore_le _ _ read
  · exact h

theorem writeHjResume_le {a : Kept} {s : State} (c : Caller) (lanes : BitVec 16) (h : keptLe a s.kept) :
    keptLe a (writeHjResume s c lanes).1.kept := by
  refine State.gate_le _ _ (fun t ht => ?_) h
  split
  · exact ht
  · rw [State.ok_kept, State.runLanes_kept]
    exact foldl_keptLe (fun u l hu => .ite (State.resumeHost_le _ hu) hu) _ ht

theorem execHjResume_goesOn (c : Caller) (lanes : BitVec 16) (s : State) : s.goesOn (execHjResume c lanes s) :=
  State.goesOn_next.2 (writeHjResume_le _ _ (keptLe_refl _))

theorem execSpoolLaneWait_goesOn (region : Nat) (s : State) : s.goesOn (execSpoolLaneWait region s) := by
  simp only [execSpoolLaneWait, State.goesOn_next, State.goesOn_ite, keptLe_refl]
  (repeat' split) <;>
    simp only [↓State.kept_with, State.goesOn_next, keptLe_refl, ↓State.advanceRaster_kept, ↓State.storeTile_kept]

theorem State.abortHosts_le {a : Kept} {s : State} (selector : Nat) (h : keptLe a s.kept) : keptLe a (s.abortHosts selector).kept := by
  unfold State.abortHosts
  dsimp only
  split
  · exact h
  · rw [State.runLanes_kept]
    refine foldl_keptLe (fun t l ht => ?_) _ (by rwa [State.setN_kept])
    split
    · exact State.endHost_le _ _ _ ht
    · exact ht

/-! ### The slot path -/

theorem State.modWord_kept (s : State) (line : Nat) (x : Int) (f : WinWord → WinWord) : (s.modWord line x f).kept = s.kept := by rfl

theorem State.putVisits_kept (s : State) (p : List WinCol × FlashAcc) : (s.putVisits p).kept = s.kept := by
  simp only [State.putVisits, ↓State.kept_with, ↓State.kept_ite, ite_self, ↓State.add_kept, ↓State.foldN_kept, implies_true]

theorem State.loseIndex_kept (s : State) (n : Int) (reason : Nat) : (s.loseIndex n reason).kept = s.kept := by
  simp only [State.loseIndex, ↓State.putVisits_kept]

theorem State.refreshRails_kept (s : State) : s.refreshRails.kept = s.kept := by
  simp only [State.refreshRails, ↓State.kept_with, ↓State.setN_kept]

theorem State.railHits_kept (s : State) (k n region unit subsys : Nat) : (s.railHits k n region unit subsys).kept = s.kept := by
  simp only [State.railHits, ↓State.kept_with, ↓State.kept_ite, ite_self, ↓State.refreshRails_kept, ↓State.raise_kept]

theorem State.laneHit_kept (s : State) (l : Nat) : (s.laneHit l).kept = s.kept := by
  simp only [State.laneHit, ↓State.kept_with, ↓State.kept_ite, ite_self]

theorem State.sramCorrected_kept (s : State) (store word : Nat) : (s.sramCorrected store word).kept = s.kept := by
  simp only [State.sramCorrected, ↓State.logEvent_kept, ↓State.inc_kept]

theorem State.readMarks_kept (s : State) (ms : List MarkFault) : (s.readMarks ms).kept = s.kept := by
  refine State.foldl_kept (fun s f => ?_) _ s
  split
  · dsimp only
    split <;> simp only [↓State.kept_with, State.foldN_kept fun (s : State) _ => s.sramCorrected_kept _ _]
  · rfl

theorem State.noteReads_kept (s : State) (f : FlashFaults) : (s.noteReads f).kept = s.kept := by
  simp only [State.noteReads, ↓State.readMarks_kept, ↓State.sramCorrected_kept, ↓State.foldl_kept, implies_true]

theorem State.lastSramUe_kept (s : State) (store word finder : Nat) (mis : Bool) : (s.lastSramUe store word finder mis).kept = s.kept := by
  simp only [State.lastSramUe, ↓State.setN_kept]

theorem State.windowUe_kept (s : State) (c g q finder : Nat) (mis : Bool) : (s.windowUe c g q finder mis).kept = s.kept := by
  simp only [State.windowUe, ↓State.kept_with, ↓State.kept_ite, ite_self, ↓State.lastSramUe_kept, ↓State.inc_kept]

theorem State.tableUe_kept (s : State) (ws : List Nat) (finder : Nat) (mis : Bool) : (s.tableUe ws finder mis).kept = s.kept := by
  simp only [State.tableUe, ↓State.kept_with, ↓State.kept_ite, ite_self, ↓State.lastSramUe_kept, ↓State.inc_kept, ↓State.foldl_kept, implies_true]

theorem State.afterRails_kept (s : State) (k : Nat) (a : FlashAcc) : (s.afterRails k a).kept = s.kept := by
  unfold State.afterRails
  split <;>
    simp only [↓State.windowUe_kept, ↓State.inc_kept, ↓State.laneHit_kept, ↓State.railHits_kept, ↓State.foldl_kept, implies_true]

theorem State.restore_kept (s : State) (n : Int) (b code den : Nat) : (s.restore n b code den).kept = s.kept := by
  simp only [State.restore]
  split <;>
    simp only [↓State.kept_ite, ite_self, ↓State.inc_kept, ↓State.modWord_kept]

theorem State.poisonUnder_kept (s : State) (n : Int) (b : Nat) : (s.poisonUnder n b).kept = s.kept := by
  simp only [State.poisonUnder, ↓State.kept_ite, ite_self, ↓State.inc_kept, ↓State.modWord_kept]

theorem State.effectOf_kept (s : State) (h : HistFlash) (fired : BitVec 24) (ws : List (Nat × Nat)) : (s.effectOf h fired ws).kept = s.kept := by
  simp only [State.effectOf, ↓State.kept_with, ↓State.kept_ite, ite_self, ↓State.freeNat_kept, ↓State.add_kept, ↓State.lastSramUe_kept,
    ↓State.set_kept, ↓State.inc_kept, ↓State.modWord_kept, ↓State.restore_kept, ↓State.poisonUnder_kept, ↓State.foldl_kept, implies_true]

theorem State.effectDecisions_kept (s : State) (faults : List HistoryFault) : (s.effectDecisions faults).kept = s.kept := by
  refine State.foldl_kept (fun s h => ?_) _ s
  split
  · simp only [↓State.effectOf_kept]
    exact State.foldl_kept (fun s _ => by rw [State.sramCorrected_kept, State.freeNat_kept]) _ _
  · rfl

/-! ### Loading and retiring pixels -/

theorem State.countLoaded_kept (s : State) (k : TileKey) (n : Nat) : (s.countLoaded k n).kept = s.kept := by
  simp only [State.countLoaded, ↓State.kept_with, ↓State.freeTiles_kept]

theorem State.loadCrcFail_kept (s : State) (k : TileKey) (retained : Bool) : (s.loadCrcFail k retained).kept = s.kept := by
  simp only [State.loadCrcFail]
  (repeat' split) <;>
    simp only [↓State.inc_kept, ↓State.loseTile_kept, ↓State.reportEntry_kept, ↓State.modEntry_kept]

theorem execWindowLoad_goesOn (line word : Nat) (fault : LoadFault) (s : State) : s.goesOn (execWindowLoad line word fault s) := by
  simp only [execWindowLoad, State.goesOn_next, State.goesOn_ite, keptLe_refl]
  (repeat' split) <;>
    simp only [↓State.kept_with, State.goesOn_next, keptLe_refl, ↓State.add_kept, ↓State.loadCrcFail_kept, ↓State.countLoaded_kept]

theorem State.effectLoads_kept (s : State) : s.effectLoads.kept = s.kept := by
  simp only [State.effectLoads, ↓State.kept_with, ↓State.kept_ite, ite_self, ↓State.modWord_kept, ↓State.foldl_kept, implies_true]

theorem State.poisonDefect_kept (s : State) (line : Nat) (x : Int) : (s.poisonDefect line x).kept = s.kept := by
  simp only [State.poisonDefect]
  split <;>
    simp only [↓State.kept_with, ↓State.logEvent_kept, ↓State.inc_kept]

theorem State.retireCoord_kept (s : State) (g : Nat) (c : Int) (rest : List (Nat × Int)) : (s.retireCoord g c rest).kept = s.kept := by
  simp only [State.retireCoord, ↓State.kept_with, ↓State.kept_ite, ite_self, ↓State.poisonDefect_kept, ↓State.add_kept, ↓State.foldl_kept,
    ↓State.foldN_kept, implies_true]

theorem State.retireList_kept (l : List (Nat × Int)) (s : State) : (State.retireList l s).kept = s.kept := by
  induction l generalizing s with
  | nil => rfl
  | cons p rest ih => rw [State.retireList, ih, State.retireCoord_kept]

theorem State.retirePixels_kept (s : State) : s.retirePixels.kept = s.kept := by
  simp only [State.retirePixels, ↓State.kept_with, ↓State.kept_ite, ite_self, ↓State.retireList_kept]

theorem State.closePlanned_kept (s : State) (i : Nat) (acc : Option TileAcc) : (s.closePlanned i acc).kept = s.kept := by
  simp only [State.closePlanned]
  (repeat' split) <;>
    simp only [↓State.kept_with, ↓State.inc_kept, ↓State.modEntry_kept, ↓State.appendEntry_kept]

theorem State.closeColumn_kept (s : State) (u : Nat) : (s.closeColumn u).kept = s.kept := by
  unfold State.closeColumn
  simp only [↓State.freeTiles_kept, ↓State.kept_with]
  refine State.foldl_kept (fun s t => ?_) _ _
  split
  · split <;> simp only [↓State.closePlanned_kept]
  · split <;> simp only [↓State.addResidual_kept]

theorem State.closeColumns_kept (s : State) : s.closeColumns.kept = s.kept := by
  unfold State.closeColumns
  split
  · rfl
  · split
    · rfl
    · exact State.foldl_kept (fun s u => by simp only [↓State.kept_ite, ↓State.closeColumn_kept, ite_self]) _ _

theorem State.retireDue_kept (s : State) : s.retireDue.kept = s.kept := by
  simp only [State.retireDue, ↓State.kept_with, ↓State.retireSlot_kept, ↓State.loseRegion_kept, ↓State.foldl_kept, implies_true]

/-! ### Beam-link lanes and flash records -/

theorem State.refreshBlk_kept (s : State) : s.refreshBlk.kept = s.kept := by
  simp only [State.refreshBlk, ↓State.kept_ite, ite_self, ↓State.setN_kept, ↓State.driveStageSlow_kept, ↓State.foldN_kept, implies_true]

theorem State.retireLinks_kept (s : State) (r : Nat) : (s.retireLinks r).kept = s.kept := by
  simp only [State.retireLinks, ↓State.kept_with, ↓State.kept_ite, ite_self, ↓State.loseRegion_kept, ↓State.setN_kept, ↓State.foldl_kept,
    implies_true]

theorem State.linkHit_kept (s : State) (k l : Nat) : (s.linkHit k l).kept = s.kept := by
  simp only [State.linkHit, ↓State.kept_with, ↓State.kept_ite, ite_self, ↓State.logEvent_kept, ↓State.inc_kept, ↓State.railHits_kept,
    ↓State.retireLinks_kept]

theorem State.putPeriod_kept (s : State) (p : Period) : (s.putPeriod p).kept = s.kept := by rfl

theorem State.emitFrames_kept (s : State) (k : Nat) (fs : List (Nat × Bytes × BitVec 32)) : (s.emitFrames k fs).kept = s.kept := by
  simp only [State.emitFrames, ↓State.kept_ite, ite_self, ↓State.emit_kept, ↓State.foldl_kept, implies_true]

theorem State.sendLane_kept (s : State) (p : Period) (fs : List (Nat × Bytes × BitVec 32)) (l : Nat) : (s.sendLane p fs l).kept = s.kept := by
  simp only [State.sendLane, ↓State.kept_ite, ite_self, ↓State.scrambled_kept, ↓State.emit_kept]

theorem State.sendLanes_kept (s : State) (p : Period) (fs : List (Nat × Bytes × BitVec 32)) : (s.sendLanes p fs).kept = s.kept := by
  simp only [State.sendLanes, ↓State.kept_ite, ite_self, ↓State.sendLane_kept, ↓State.foldN_kept, implies_true]

theorem State.sendRecord_kept (s : State) (p : Period) (late : List LateRun) (rails : List (Nat × Nat)) : (s.sendRecord p late rails).kept =
    s.kept := by
  simp only [State.sendRecord, ↓State.kept_with, ↓State.mirrorAt_kept, ↓State.foldN_kept, implies_true]

theorem State.reach_kept (s : State) (n : Int) : (s.reach n).kept = s.kept := by
  simp only [State.reach, ↓State.kept_with, ↓State.kept_ite, ite_self, ↓State.setN_kept]

theorem State.countFlash_kept (s : State) (p : Period) : (s.countFlash p).kept = s.kept := by
  simp only [State.countFlash, ↓State.kept_with, ↓State.kept_ite, ite_self]

theorem State.visitsOf_kept (s : State) (p : Period) (faults : FlashFaults) (late : List LateRun) (rails : List (Nat × Nat)) (bound : Bool) :
    (s.visitsOf p faults late rails bound).1.kept = s.kept := by
  simp only [State.visitsOf, ↓State.kept_ite, ↓apply_ite Prod.fst, ite_self, ↓State.countFlash_kept, ↓State.loseIndex_kept, ↓State.setN_kept,
    ↓State.putVisits_kept]

theorem State.pushHist_kept (s : State) (p : Period) (a : FlashAcc) : (s.pushHist p a).kept = s.kept := by
  simp only [State.pushHist, ↓State.kept_with, ↓State.kept_ite, ite_self]

theorem State.reachOf_kept (s : State) (p : Period) : (s.reachOf p).kept = s.kept := by
  simp only [State.reachOf, ↓State.kept_ite, ite_self, ↓State.reach_kept]

theorem State.activeVisits_kept (s : State) (p : Period) (faults : FlashFaults) (late : List LateRun) : (s.activeVisits p faults late).1.1.kept =
    s.kept := by
  simp only [State.activeVisits, ↓State.kept_ite, ↓apply_ite Prod.fst, ite_self, ↓State.visitsOf_kept]

theorem State.computeActive_kept (s : State) (p : Period) (faults : FlashFaults) : (s.computeActive p faults).kept = s.kept := by
  simp only [State.computeActive, ↓State.kept_ite, ↓apply_ite Prod.fst, ite_self, ↓State.noteReads_kept, ↓State.activeVisits_kept, ↓State.add_kept,
    ↓State.reachOf_kept, ↓State.afterRails_kept, ↓State.tableUe_kept, ↓State.sendLanes_kept, ↓State.putPeriod_kept, ↓State.linkHit_kept,
    ↓State.pushHist_kept, ↓State.emitFrames_kept, ↓State.sendRecord_kept, ↓State.foldl_kept, implies_true]

theorem execFlashCompute_goesOn (faults : FlashFaults) (s : State) : s.goesOn (execFlashCompute faults s) := by
  simp only [execFlashCompute, ↓State.kept_with, State.goesOn_next, State.goesOn_ite, keptLe_refl]
  (repeat' split) <;>
    simp only [State.goesOn_next, keptLe_refl, ↓State.computeActive_kept]

/-! ### Mark and spot finder -/

theorem writeMfRequest_kept (s : State) (c : Caller) (off : Nat) (bs : Bytes) : (writeMfRequest s c off bs).1.kept = s.kept := by
  refine State.gate_kept _ _ _ fun t => ?_
  split
  · rfl
  · dsimp only
    split
    · rfl
    · simp only [↓apply_ite Prod.fst, ↓State.kept_ite, State.deny_kept, State.ok_kept, State.kept_with, State.setN_kept, ite_self]

theorem execMfRequest_goesOn (by_ : Caller) (offset : Nat) (data : Bytes) (s : State) : s.goesOn (execMfRequest by_ offset data s) := by
  simp only [execMfRequest, State.goesOn_next, keptLe_refl, ↓writeMfRequest_kept]

theorem State.markDone_kept (s : State) (i : Nat) (f : MarkResult → MarkResult) : (s.markDone i f).kept = s.kept := by
  simp only [State.markDone, ↓State.kept_with, ↓State.setN_kept]

theorem execMfResult_goesOn (railsAgree : Bool) (s : State) : s.goesOn (execMfResult railsAgree s) := by
  simp only [execMfResult]
  (repeat' split) <;>
    simp only [State.goesOn_next, keptLe_refl, ↓State.markDone_kept]

theorem execMfTimeout_goesOn (s : State) : s.goesOn (execMfTimeout s) := by
  simp only [execMfTimeout]
  split <;>
    simp only [State.goesOn_next, State.goesOn_ite, keptLe_refl, ite_self, ↓State.markDone_kept]

theorem State.modSpot_kept (s : State) (f : Spot → Spot) : (s.modSpot f).kept = s.kept := by rfl

theorem execSpotStrobe_goesOn (s : State) : s.goesOn (execSpotStrobe s) := by
  simp only [execSpotStrobe, ↓State.kept_with, State.goesOn_next, State.goesOn_ite, keptLe_refl, ite_self, ↓State.spotFail_kept,
    ↓State.modSpot_kept, ↓State.setN_kept, ↓State.emit_kept]

theorem execSpotSumsDone_goesOn (railsAgree : Bool) (s : State) : s.goesOn (execSpotSumsDone railsAgree s) := by
  simp only [execSpotSumsDone]
  split <;>
    simp only [State.goesOn_next, State.goesOn_ite, keptLe_refl, ite_self, ↓State.spotFail_kept, ↓State.modSpot_kept, ↓State.setN_kept]

theorem execSpotTimeout_goesOn (s : State) : s.goesOn (execSpotTimeout s) := by
  simp only [execSpotTimeout, State.goesOn_next, State.goesOn_ite, keptLe_refl, ite_self, ↓State.spotFail_kept]

/-! ### Position port and deflector -/

theorem State.blankRest_kept (s : State) : s.blankRest.kept = s.kept := by
  simp only [State.blankRest, ↓State.kept_with, ↓State.kept_ite, ite_self, ↓State.logEvent_kept, ↓State.inc_kept]

theorem State.enterSearching_kept (s : State) : s.enterSearching.kept = s.kept := by
  simp only [State.enterSearching, ↓State.kept_with, ↓State.setN_kept]

theorem State.leaveValid_kept (s : State) : s.leaveValid.kept = s.kept := by
  simp only [State.leaveValid, ↓State.kept_with, ↓State.kept_ite, ite_self]

theorem State.losePosition_kept (s : State) (v : Nat) : (s.losePosition v).kept = s.kept := by
  simp only [State.losePosition, ↓State.kept_with, ↓State.inc_kept, ↓State.setN_kept, ↓State.leaveValid_kept, ↓State.logEvent_kept]

theorem State.enterValid_kept (s : State) : s.enterValid.kept = s.kept := by
  simp only [State.enterValid]
  split <;>
    simp only [↓State.kept_with, ↓State.kept_ite, ite_self, ↓State.setN_kept, ↓State.blankRest_kept]

theorem State.enablePosition_kept (s : State) : s.enablePosition.kept = s.kept := by
  simp only [State.enablePosition, ↓State.kept_with, ↓State.kept_ite, ite_self, ↓State.enterSearching_kept, ↓State.losePosition_kept]

theorem State.disablePosition_kept (s : State) : s.disablePosition.kept = s.kept := by
  simp only [State.disablePosition, ↓State.setN_kept, ↓State.leaveValid_kept]

theorem State.wakeWriting_kept (s : State) : s.wakeWriting.kept = s.kept := by
  simp only [State.wakeWriting, ↓State.kept_ite, ite_self, ↓State.setWriting_kept, ↓State.foldl_kept, implies_true]

theorem State.wakeCheck_kept (s : State) : s.wakeCheck.kept = s.kept := by
  simp only [State.wakeCheck, ↓State.kept_ite, ite_self, ↓State.wakeWriting_kept]

theorem State.velocity_kept (s : State) (t : Nat) (p : Int) (past : List (Nat × Int)) : (s.velocity t p past).2.kept = s.kept := by
  simp only [State.velocity]
  (repeat' split) <;>
    simp only [↓State.freeNat_kept]

theorem State.goodSample_kept (s : State) (t : Nat) (b : BitVec 64) (p : Int) : (s.goodSample t b p).kept = s.kept := by
  simp only [State.goodSample, ↓State.kept_with, ↓State.velocity_kept, ↓State.set_kept, ↓State.inc_kept, ↓State.setN_kept]
  split <;>
    simp only [↓State.kept_ite, ite_self, ↓State.add_kept]

theorem State.jumpDiscard_kept (s : State) : s.jumpDiscard.kept = s.kept := by
  simp only [State.jumpDiscard, ↓State.kept_with, ↓State.kept_ite, ite_self, ↓State.inc_kept, ↓State.losePosition_kept]

theorem State.countSample_kept (s : State) (inTime : Bool) : (s.countSample inTime).kept = s.kept := by
  simp only [State.countSample, ↓State.kept_with, ↓State.kept_ite, ite_self, ↓State.enterSearching_kept, ↓State.enterValid_kept]

theorem State.takeSample_kept (s : State) (t : Nat) (bits : BitVec 64) : (s.takeSample t bits).kept = s.kept := by
  simp only [State.takeSample, ↓State.kept_ite, ↓State.at_kept, ↓State.inc_kept]
  (repeat' split) <;>
    simp only [↓State.at_kept, ↓State.losePosition_kept, ↓State.refreshEligible_kept, ↓State.jumpDiscard_kept, ↓State.enterSearching_kept,
      ↓State.wakeCheck_kept, ↓State.countSample_kept, ↓State.goodSample_kept]

theorem State.portBits_kept (t : Nat) (l : List (BitVec 4)) (s : State) : (State.portBits t l s).kept = s.kept := by
  induction l generalizing s with
  | nil => rfl
  | cons d ds ih =>
    rw [State.portBits, ih]
    split <;> simp only [↓State.inc_kept, ↓State.takeSample_kept, ↓State.kept_with]

theorem execPositionSample_goesOn (t idle : Nat) (levels : List (BitVec 4)) (s : State) : s.goesOn (execPositionSample t idle levels s) := by
  simp only [execPositionSample, ↓State.kept_ite, State.goesOn_next, keptLe_refl, ite_self, ↓State.at_kept, ↓State.portBits_kept]

theorem execPosTimeout_goesOn (t : Nat) (s : State) : s.goesOn (execPosTimeout t s) := by
  simp only [execPosTimeout, State.goesOn_next, State.goesOn_ite, keptLe_refl, ite_self, ↓State.at_kept, ↓State.refreshEligible_kept,
    ↓State.losePosition_kept]

theorem execPosFault_goesOn (lowNs : Nat) (s : State) : s.goesOn (execPosFault lowNs s) := by
  simp only [execPosFault, ↓State.kept_with, State.goesOn_next, State.goesOn_ite, ite_self, ↓State.refreshEligible_kept, ↓State.losePosition_kept]
  (repeat' split) <;>
    simp only [keptLe_refl, ↓State.freeNat_kept]

theorem execPosFaultClear_goesOn (s : State) : s.goesOn (execPosFaultClear s) := by
  simp only [execPosFaultClear, ↓State.kept_with, State.goesOn_next, State.goesOn_ite, keptLe_refl, ite_self, ↓State.enterSearching_kept]

theorem execDeflectorWord_goesOn (tOut : Nat) (s : State) : s.goesOn (execDeflectorWord tOut s) := by
  simp only [execDeflectorWord, State.goesOn_next, State.goesOn_ite, keptLe_refl, ↓State.add_kept, ↓State.emit_kept, ↓State.set_kept]
  (repeat' split) <;>
    simp only [↓State.kept_with, keptLe_refl]

theorem State.driveSysref_kept (s : State) : s.driveSysref.kept = s.kept := by
  simp only [State.driveSysref, ↓State.kept_with, ↓State.kept_ite, ite_self, ↓State.emit_kept]

theorem execDeflLinkChange_goesOn (running : Bool) (s : State) : s.goesOn (execDeflLinkChange running s) := by
  simp only [execDeflLinkChange, State.goesOn_next, State.goesOn_ite, keptLe_refl, ite_self, ↓State.refreshEligible_kept, ↓State.driveSysref_kept,
    ↓State.setN_kept]

theorem State.refreshDefl_kept (s : State) : s.refreshDefl.kept = s.kept := by
  simp only [State.refreshDefl, ↓State.kept_ite, ite_self, ↓State.driveSysref_kept, ↓State.setN_kept]

/-! ### Effects of configuration -/

theorem State.refreshStream_kept (s : State) : s.refreshStream.kept = s.kept := by
  simp only [State.refreshStream, ↓State.setN_kept]

theorem State.refreshAllOwners_kept (s : State) : s.refreshAllOwners.kept = s.kept := by
  simp only [State.refreshAllOwners, ↓State.refreshOwners_kept]

theorem State.refreshPosition_kept (s : State) : s.refreshPosition.kept = s.kept := by
  simp only [State.refreshPosition, ↓State.kept_ite, ite_self, ↓State.enablePosition_kept, ↓State.disablePosition_kept]

theorem State.refreshPtp_kept (s : State) : s.refreshPtp.kept = s.kept := by
  simp only [State.refreshPtp, ↓State.kept_with, ↓State.kept_ite, ite_self, ↓State.setN_kept]

theorem State.refreshCeiling_kept (s : State) : s.refreshCeiling.kept = s.kept := by
  simp only [State.refreshCeiling, ↓State.setN_kept]

theorem State.setPitch_kept (s : State) (b : Nat) : (s.setPitch b).kept = s.kept := by
  simp only [State.setPitch, ↓State.setN_kept, ↓State.refreshCeiling_kept]

theorem State.sleepWriting_kept (s : State) : s.sleepWriting.kept = s.kept := by
  simp only [State.sleepWriting, ↓State.kept_ite, ite_self, ↓State.setWriting_kept, ↓State.foldl_kept, implies_true]

theorem State.refreshSleep_kept (s : State) : s.refreshSleep.kept = s.kept := by
  simp only [State.refreshSleep, ↓State.kept_ite, ite_self, ↓State.wakeWriting_kept, ↓State.sleepWriting_kept]

theorem State.afterEntries_kept (s : State) (objs : List ObjRef) : (s.afterEntries objs).kept = s.kept := by
  simp only [State.afterEntries, ↓State.kept_ite, ite_self, ↓State.refreshDefl_kept, ↓State.refreshPosition_kept, ↓State.armComparator_kept,
    ↓State.camsCommitted_kept, ↓State.refreshPtp_kept, ↓State.refreshAllOwners_kept, ↓State.refreshCeiling_kept, ↓State.checkGroups_kept,
    ↓State.refreshStream_kept, ↓State.advanceRaster_kept, ↓State.refreshSleep_kept, ↓State.foldN_kept, implies_true]

theorem State.applyEntries_kept (s : State) (es : List StagedEntry) : (s.applyEntries es).kept = s.kept := by
  simp only [State.applyEntries, ↓State.kept_ite, ite_self, ↓State.afterEntries_kept, ↓State.putEntry_kept, ↓State.foldl_kept, implies_true]

theorem State.takeFlash_kept (s : State) : s.takeFlash.kept = s.kept := by
  simp only [State.takeFlash, ↓State.kept_with, ↓State.applyEntries_kept]

theorem State.awaitStripe_kept (s : State) (e : StagedEntry) : (s.awaitStripe e).kept = s.kept := by rfl

theorem State.acceptEntries_kept (s : State) (es : List StagedEntry) : (s.acceptEntries es).kept = s.kept := by
  simp only [State.acceptEntries, ↓State.kept_with, ↓State.kept_ite, ite_self, ↓State.awaitStripe_kept, ↓State.applyEntries_kept, ↓State.foldl_kept,
    implies_true]

theorem State.enterReady_kept (s : State) : s.enterReady.kept = s.kept := by
  simp only [State.enterReady, ↓State.advanceRaster_kept, ↓State.refreshSleep_kept, ↓State.refreshBlk_kept, ↓State.refreshCams_kept]

/-! ### The order of sweeps -/

theorem State.calEnd_kept (s : State) (status : Nat) : (s.calEnd status).kept = s.kept := by
  simp only [State.calEnd, ↓State.kept_ite, ite_self, ↓State.setN_kept, ↓State.logEvent_kept]

theorem State.calAbandon_kept (s : State) : s.calAbandon.kept = s.kept := by
  simp only [State.calAbandon, ↓State.kept_with, ↓State.kept_ite, ite_self, ↓State.setN_kept, ↓State.calEnd_kept]

theorem State.gateStop_kept (s : State) (v : Nat) : (s.gateStop v).kept = s.kept := by
  simp only [State.gateStop, ↓State.kept_with, ↓State.kept_ite, ↓State.setN_kept]
  (repeat' split) <;>
    simp only [↓State.setN_kept]

theorem State.endTurnaround_kept (s : State) : s.endTurnaround.kept = s.kept := by
  simp only [State.endTurnaround, ↓State.kept_with, ↓State.setN_kept]

theorem State.kept_arm (s : State) (st : Stripe) (kind : Nat) (w : Sweep) : (s.arm st kind w).kept = s.kept := by
  simp only [State.arm, ↓State.kept_with, ↓State.kept_ite, ite_self, ↓State.calAbandon_kept, ↓State.gateStop_kept, ↓State.takeStripe_kept,
    ↓State.set_kept, ↓State.setN_kept, ↓State.enterSearching_kept]

theorem State.armMain_kept (s : State) (st : Stripe) : (s.armMain st).kept = s.kept := by
  simp only [State.armMain, ↓State.kept_with, ↓State.kept_arm]

theorem State.unloadBeyond_kept (s : State) (st : Stripe) (n : Int) : (s.unloadBeyond st n).kept = s.kept := by rfl

theorem State.armResume_kept (s : State) (st : Stripe) (n : Int) : (s.armResume st n).kept = s.kept := by
  simp only [State.armResume, ↓State.kept_with, ↓State.unloadBeyond_kept, ↓State.kept_arm]

theorem State.armBurn_kept (s : State) (st : Stripe) (b : Burn) (plan : List Nat) : (s.armBurn st b plan).kept = s.kept := by
  simp only [State.armBurn, ↓State.kept_with, ↓State.kept_arm, ↓State.setN_kept, ↓State.inc_kept, ↓State.advanceRaster_kept]

theorem State.finishJob_kept (s : State) : s.finishJob.kept = s.kept := by
  simp only [State.finishJob, ↓State.kept_with, ↓State.setN_kept, ↓State.endTurnaround_kept, ↓State.refreshStream_kept, ↓State.setJobState_kept]

theorem State.takeHold_kept (s : State) : s.takeHold.kept = s.kept := by
  simp only [State.takeHold, ↓State.kept_with, ↓State.setJobState_kept]

theorem State.afterBurn_kept (s : State) (a : AfterBurn) : (s.afterBurn a).kept = s.kept := by
  simp only [State.afterBurn]
  split <;>
    simp only [↓State.kept_with, ↓State.kept_ite, ite_self, ↓State.setN_kept, ↓State.setHold_kept, ↓State.takeHold_kept, ↓State.freeTiles_kept,
      ↓State.reportOpen_kept, ↓State.finishJob_kept]

theorem State.settleBurn_kept (n : Nat) (s : State) : (State.settleBurn n s).kept = s.kept := by
  induction n generalizing s with
  | zero => rfl
  | succ n ih =>
    rw [State.settleBurn]
    split
    · rfl
    · split
      · exact State.afterBurn_kept ..
      · simp only [↓State.kept_ite, ↓State.kept_with, ↓State.setN_kept, ↓ih, ite_self]

theorem State.startBurn_kept (s : State) (stripes : List Nat) (a : AfterBurn) : (s.startBurn stripes a).kept = s.kept := by
  simp only [State.startBurn, ↓State.kept_with, ↓State.settleBurn_kept]

theorem State.earlyBurn_kept (s : State) (stripes : List Nat) (a : AfterBurn) : (s.earlyBurn stripes a).kept = s.kept := by
  simp only [State.earlyBurn, ↓State.kept_ite, ite_self, ↓State.afterBurn_kept, ↓State.startBurn_kept, ↓State.inc_kept]

theorem State.mainEnded_kept (s : State) : s.mainEnded.kept = s.kept := by
  simp only [State.mainEnded]
  split <;>
    simp only [↓State.kept_ite, ite_self, ↓State.afterBurn_kept, ↓State.startBurn_kept, ↓State.earlyBurn_kept]

theorem State.lastStripe_kept (s : State) : s.lastStripe.kept = s.kept := by
  simp only [State.lastStripe, ↓State.kept_with, ↓State.kept_ite, ite_self, ↓State.startBurn_kept, ↓State.setJobState_kept, ↓State.finishJob_kept]

theorem State.drawEnd_kept (s : State) : s.drawEnd.kept = s.kept := by
  simp only [State.drawEnd]
  (repeat' split) <;>
    simp only [↓State.kept_with, ↓State.settleBurn_kept, ↓State.afterBurn_kept, ↓State.earlyBurn_kept, ↓State.mainEnded_kept]

theorem State.endSweep_kept (s : State) : s.endSweep.kept = s.kept := by
  simp only [State.endSweep, ↓State.kept_with, ↓State.kept_ite, ite_self, ↓State.inc_kept, ↓State.setN_kept, ↓State.refreshSleep_kept,
    ↓State.drawEnd_kept]

theorem State.settle_kept (s : State) : s.settle.kept = s.kept := by
  simp only [State.settle, ↓State.kept_ite]
  (repeat' split) <;>
    simp only [↓State.settleBurn_kept, ↓State.takeHold_kept, ↓State.lastStripe_kept]

theorem State.tryArm_kept (s : State) : s.tryArm.kept = s.kept := by
  simp only [State.tryArm, ↓State.kept_ite]
  (repeat' split) <;>
    simp only [↓State.armBurn_kept, ↓State.armResume_kept, ↓State.armMain_kept]

theorem State.park_kept (s : State) : s.park.kept = s.kept := by
  simp only [State.park]
  split <;>
    simp only [↓State.kept_with, ↓State.logEvent_kept, ↓State.set_kept, ↓State.inc_kept]

theorem State.parkCheck_kept (s : State) : s.parkCheck.kept = s.kept := by
  simp only [State.parkCheck, ↓State.kept_ite, ite_self, ↓State.park_kept]

theorem execBurnishRepairWait_goesOn (s : State) : s.goesOn (execBurnishRepairWait s) := by
  simp only [execBurnishRepairWait]
  split <;>
    simp only [↓State.kept_with, State.goesOn_next, State.goesOn_ite, keptLe_refl, ite_self, ↓State.settle_kept]

theorem writeTurnaroundRelease_kept (s : State) (by_ : Caller) : (writeTurnaroundRelease s by_).1.kept = s.kept := by
  simp only [writeTurnaroundRelease, ↓State.kept_with, ↓State.kept_ite, ↓apply_ite Prod.fst, ite_self, ↓State.gate_kept, ↓State.ok_kept,
    ↓State.endTurnaround_kept, implies_true]

theorem execTurnaroundRelease_goesOn (by_ : Caller) (s : State) : s.goesOn (execTurnaroundRelease by_ s) := by
  simp only [execTurnaroundRelease, State.goesOn_next, keptLe_refl, ↓writeTurnaroundRelease_kept]

theorem State.lateRelease_kept (s : State) : s.lateRelease.kept = s.kept := by
  simp only [State.lateRelease, ↓State.kept_ite, ite_self, ↓State.endTurnaround_kept]

theorem execRegionWakeDone_goesOn (region : Nat) (writingSide : Bool) (s : State) : s.goesOn (execRegionWakeDone region writingSide s) := by
  simp only [execRegionWakeDone, State.goesOn_next, State.goesOn_ite, keptLe_refl, ite_self, ↓State.setWriting_kept, ↓State.inc_kept,
    ↓State.advanceRaster_kept, ↓State.setRaster_kept]

/-! ### What the regions watch -/

theorem State.giveUpArea_kept (s : State) (r : Nat) (a : Area) : (s.giveUpArea r a).kept = s.kept := by
  simp only [State.giveUpArea, ↓State.kept_with, ↓State.kept_ite, ite_self, ↓State.giveUpTiles_kept, ↓State.logEvent_kept, ↓State.inc_kept,
    ↓State.advanceRaster_kept]

theorem State.tellGiveUp_kept (s : State) (block r : Nat) : (s.tellGiveUp block r).kept = s.kept := by
  simp only [State.tellGiveUp, ↓State.kept_ite, ite_self, ↓State.mirror_kept]

theorem State.giveUps_kept (s : State) : s.giveUps.kept = s.kept := by
  simp only [State.giveUps, ↓State.kept_ite, ite_self, ↓State.tellGiveUp_kept, ↓State.giveUpArea_kept, ↓State.foldl_kept, implies_true]

theorem State.lossOfPace_kept (s : State) (r : Nat) : (s.lossOfPace r).kept = s.kept := by
  simp only [State.lossOfPace, ↓State.kept_ite, ite_self, ↓State.raise_kept, ↓State.logEvent_kept]

theorem State.watchRegion_kept (s : State) (r : Nat) : (s.watchRegion r).kept = s.kept := by
  simp only [State.watchRegion, ↓State.kept_with, ↓State.kept_ite, ite_self, ↓State.logEvent_kept, ↓State.inc_kept, ↓State.lossOfPace_kept]

theorem State.watch_kept (s : State) : s.watch.kept = s.kept := by
  simp only [State.watch, ↓State.kept_ite, ite_self, ↓State.watchRegion_kept, ↓State.foldl_kept, implies_true]

/-! ### Head acknowledgements -/

theorem State.showInterruption_kept (s : State) : s.showInterruption.kept = s.kept := by
  simp only [State.showInterruption]
  (repeat' split) <;>
    simp only [↓State.setN_kept]

theorem State.noteShot_kept (s : State) (p : Period) (fired : BitVec 24) : (s.noteShot p fired).kept = s.kept := by
  simp only [State.noteShot]
  split <;>
    simp only [↓State.kept_with, ↓State.kept_ite, ite_self]

theorem State.decideFrames_kept (s : State) (p : Period) (v : Verdict) (fired : BitVec 24) : (s.decideFrames p v fired).kept = s.kept := by
  simp only [State.decideFrames, ↓State.kept_with, ↓State.noteShot_kept, ↓State.showInterruption_kept, ↓State.putPeriod_kept, ↓State.add_kept]

theorem State.compareOwn_kept (s : State) (k : Nat) : (s.compareOwn k).kept = s.kept := by
  simp only [State.compareOwn]
  (repeat' split) <;>
    simp only [↓State.inc_kept]

theorem State.takeVerdict_kept (s : State) (p : Period) (v : Verdict) (fired : BitVec 24) : (s.takeVerdict p v fired).kept = s.kept := by
  simp only [State.takeVerdict, ↓State.kept_ite, ite_self, ↓State.compareOwn_kept, ↓State.putPeriod_kept, ↓State.decideFrames_kept]

theorem State.setThermal_kept (s : State) (v : Nat) : (s.setThermal v).kept = s.kept := by
  simp only [State.setThermal, ↓State.kept_with, ↓State.kept_ite, ite_self]

theorem State.headTemp_kept (s : State) (temp : Int) : (s.headTemp temp).kept = s.kept := by
  simp only [State.headTemp]
  split <;>
    simp only [↓State.kept_ite, ite_self, ↓State.set_kept, ↓State.setThermal_kept]

theorem State.thermalEffect_kept (s : State) : s.thermalEffect.kept = s.kept := by
  simp only [State.thermalEffect]
  split <;>
    simp only [↓State.kept_with, ↓State.kept_ite, ite_self, ↓State.setN_kept, ↓State.logEvent_kept, ↓State.inc_kept]

theorem State.tempStale_kept (s : State) : s.tempStale.kept = s.kept := by
  simp only [State.tempStale, ↓State.kept_ite, ite_self, ↓State.setThermal_kept]

theorem State.setCmds_kept (s : State) (cs : List HeadCmd) : (s.setCmds cs).kept = s.kept := by
  simp only [State.setCmds, ↓State.kept_with, ↓State.setN_kept]

theorem State.queueDisable_kept (s : State) (beam : Nat) : (s.queueDisable beam).kept = s.kept := by
  simp only [State.queueDisable, ↓State.setCmds_kept]

theorem State.echo_kept (s : State) (e : Nat) : (s.echo e).kept = s.kept := by
  simp only [State.echo]
  split <;>
    simp only [↓State.kept_ite, ite_self, ↓State.setCmds_kept]

theorem State.unechoed_kept (s : State) : s.unechoed.kept = s.kept := by
  simp only [State.unechoed]
  split <;>
    simp only [↓State.kept_ite, ite_self, ↓State.logEvent_kept, ↓State.setCmds_kept]

theorem State.countCommand_kept (s : State) : s.countCommand.kept = s.kept := by
  simp only [State.countCommand]
  split <;>
    simp only [↓State.kept_ite, ite_self, ↓State.setCmds_kept, ↓State.unechoed_kept, ↓State.inc_kept]

theorem State.acceptCopy_kept (s : State) (p : Period) (m : AckMessage) : (s.acceptCopy p m).kept = s.kept := by
  have verdicts (t : State) : ((List.range 24).foldl (fun (s : State) l =>
      match laneVerdict p m l with
      | .protocol => (s.inc Obj.HEAD_PROTOCOL_ERRORS).logEvent ⟨2, 7, l / 6, l, Obj.HEAD_PROTOCOL_ERRORS, p.k, l⟩
      | .badCrc => (s.inc Obj.HEAD_CRC_MISMATCHES).logEvent ⟨2, 7, l / 6, l, Obj.HEAD_CRC_MISMATCHES, p.k, l⟩
      | _ => s) t).kept = t.kept := by
    refine State.foldl_kept (fun s l => ?_) _ t
    split <;> simp only [↓State.logEvent_kept, ↓State.inc_kept]
  unfold State.acceptCopy
  simp only [↓State.headTemp_kept, ↓State.takeVerdict_kept, ↓State.kept_with, ↓State.kept_ite, ↓State.foldl_kept, ↓State.inc_kept, implies_true, ite_self]
  exact (verdicts _).trans (by rw [State.echo_kept, State.inc_kept])

theorem State.lateCopy_kept (s : State) (p : Option Period) (m : AckMessage) : (s.lateCopy p m).kept = s.kept := by
  simp only [State.lateCopy]
  (repeat' split) <;>
    simp only [↓State.inc_kept, ↓State.logEvent_kept]

theorem execAcknowledgement_goesOn (hst t : Nat) (msg : AckMessage) (s : State) : s.goesOn (execAcknowledgement hst t msg s) := by
  simp only [execAcknowledgement, State.goesOn_next, State.goesOn_ite, keptLe_refl, ↓State.at_kept, ↓State.inc_kept]
  (repeat' split) <;>
    simp only [State.goesOn_next, keptLe_refl, ↓State.at_kept, ↓State.acceptCopy_kept, ↓State.lateCopy_kept]

theorem State.timeoutOne_kept (s : State) (k : Nat) : (s.timeoutOne k).kept = s.kept := by
  simp only [State.timeoutOne]
  split <;>
    simp only [↓State.kept_with, ↓State.inc_kept, ↓State.takeVerdict_kept]

theorem State.timeouts_kept (s : State) (k : Nat) : (s.timeouts k).kept = s.kept := by
  simp only [State.timeouts, ↓State.tempStale_kept, ↓State.timeoutOne_kept, ↓State.foldN_kept, implies_true]

theorem execAckTimeout_goesOn (s : State) : s.goesOn (execAckTimeout s) := by
  simp only [execAckTimeout, ↓State.kept_ite, State.goesOn_next, keptLe_refl, ite_self, ↓State.timeoutOne_kept]

theorem execTempStale_goesOn (s : State) : s.goesOn (execTempStale s) := by
  simp only [execTempStale, ↓State.kept_ite, State.goesOn_next, keptLe_refl, ite_self, ↓State.tempStale_kept]

theorem execCmdUnechoed_goesOn (s : State) : s.goesOn (execCmdUnechoed s) := by
  simp only [execCmdUnechoed, ↓State.kept_ite, State.goesOn_next, keptLe_refl, ite_self, ↓State.unechoed_kept]

theorem execHstLaneLock_goesOn (lane : Nat) (s : State) : s.goesOn (execHstLaneLock lane s) := by
  simp only [execHstLaneLock, ↓State.kept_ite, State.goesOn_next, keptLe_refl, ite_self, ↓State.refreshEligible_kept, ↓State.setN_kept]

theorem execGateRxLinkChange_goesOn (dataPhase : Bool) (s : State) : s.goesOn (execGateRxLinkChange dataPhase s) := by
  simp only [execGateRxLinkChange, ↓State.kept_ite, State.goesOn_next, keptLe_refl, ite_self, ↓State.setN_kept]

/-! ### The per-beam table -/

theorem State.setBeam_kept (s : State) (b e : Nat) : (s.setBeam b e).kept = s.kept := by rfl

theorem State.recountBeams_kept (s : State) : s.recountBeams.kept = s.kept := by
  simp only [State.recountBeams, ↓State.setN_kept]

theorem State.sendBeams_kept (s : State) (cs : List (Nat × Nat)) (identity : Bool) : (s.sendBeams cs identity).1.kept = s.kept := by
  simp only [State.sendBeams, ↓State.kept_with, ↓State.kept_ite, ↓apply_ite Prod.fst, ite_self, ↓State.mirror_kept]

theorem State.addResults_kept (s : State) (cs : List (Nat × Nat)) : (s.addResults cs).kept = s.kept := by
  simp only [State.addResults, ↓State.kept_with, ↓State.kept_ite, ite_self, ↓State.sendBeams_kept]

theorem State.setEdits_kept (s : State) (es : List BeamResult) : (s.setEdits es).kept = s.kept := by
  simp only [State.setEdits, ↓State.kept_with, ↓State.setN_kept]

theorem State.putResult_kept (s : State) (r : BeamResult) (before : List BeamResult) : (s.putResult r before).kept = s.kept := by
  simp only [State.putResult, ↓State.kept_ite, ite_self, ↓State.setBeam_kept]

theorem State.killWords_kept (s : State) : s.killWords.kept = s.kept := by
  simp only [State.killWords, ↓State.addResults_kept, ↓State.queueDisable_kept, ↓State.foldl_kept, implies_true]

theorem State.dropKilled_kept (s : State) : s.dropKilled.kept = s.kept := by rfl

theorem State.epoch_kept (s : State) (k : Nat) : (s.epoch k).kept = s.kept := by
  unfold State.epoch
  split
  · rfl
  · simp only [↓State.recountBeams_kept, ↓State.dropKilled_kept, ↓State.setEdits_kept, ↓State.kept_with]
    rw [State.foldl_kept fun s r => s.setBeam_kept _ _]
    rw [State.foldl_kept fun s r => s.putResult_kept _ _]
    split <;> simp only [↓State.kept_ite, ↓State.kept_with, ↓State.killWords_kept, ↓State.inc_kept, ite_self]

theorem execBeamEpoch_goesOn (s : State) : s.goesOn (execBeamEpoch s) := by
  simp only [execBeamEpoch, ↓State.kept_ite, State.goesOn_next, keptLe_refl, ite_self, ↓State.epoch_kept]

theorem writeBeamEdit_kept (s : State) (by_ : Caller) (v : Nat) : (writeBeamEdit s by_ v).1.kept = s.kept := by
  simp only [writeBeamEdit, ↓State.kept_ite, ↓apply_ite Prod.fst, ite_self, ↓State.gate_kept, ↓State.deny_kept, ↓State.sendBeams_kept,
    ↓State.setEdits_kept, ↓State.ok_kept, ↓State.queueDisable_kept, implies_true]

theorem execBeamEdit_goesOn (by_ : Caller) (value : BitVec 64) (s : State) : s.goesOn (execBeamEdit by_ value s) := by
  simp only [execBeamEdit, State.goesOn_next, keptLe_refl, ↓writeBeamEdit_kept]

/-! ### The DRAM controller's events -/

theorem State.enterPhase_kept (s : State) (n : Nat) : (s.enterPhase n).kept = s.kept := by
  simp only [State.enterPhase, ↓State.setN_kept]

theorem State.startupFail_kept (s : State) (error detail : Nat) : (s.startupFail error detail).kept = s.kept := by
  simp only [State.startupFail, ↓State.setN_kept]

theorem State.afterFill_kept (s : State) : s.afterFill.kept = s.kept := by
  simp only [State.afterFill, ↓State.kept_with, ↓State.kept_ite, ite_self, ↓State.startupFail_kept, ↓State.setN_kept, ↓State.enterPhase_kept]

theorem State.loseInStartup_kept (s : State) (ch : Nat) : (s.loseInStartup ch).kept = s.kept := by
  simp only [State.loseInStartup, ↓State.desync_kept, ↓State.inc_kept, ↓State.setN_kept]

theorem execDramTrainingDone_goesOn (ch : Nat) (rates : List Nat) (s : State) : s.goesOn (execDramTrainingDone ch rates s) := by
  simp only [execDramTrainingDone, State.goesOn_next, State.goesOn_ite, keptLe_refl, ite_self, ↓State.enterPhase_kept]
  (repeat' split) <;>
    simp only [keptLe_refl, ↓State.setN_kept, ↓State.loseInStartup_kept, ↓State.loseChannel_kept]

/-- The fill lists no byte (R275, R276). -/
theorem execDramFillDone_goesOn (timeUs : Nat) (s : State) : s.goesOn (execDramFillDone timeUs s) := by
  unfold execDramFillDone
  split
  · exact State.goesOn_next.2 (keptLe_refl _)
  · simp only [State.goesOn_next, ↓State.afterFill_kept, ↓State.setN_kept]
    exact ⟨Otp.le_refl _, fun _ => rfl⟩

theorem execDramTempPoll_goesOn (ch : Nat) (temps : List Int) (s : State) : s.goesOn (execDramTempPoll ch temps s) := by
  simp only [execDramTempPoll, State.goesOn_next, State.goesOn_ite, keptLe_refl, ite_self, ↓State.setN_kept]

theorem execRefresh_goesOn (ch : Nat) (busy : List Nat) (s : State) : s.goesOn (execRefresh ch busy s) := by
  simp only [execRefresh, State.goesOn_next, State.goesOn_ite, keptLe_refl, ite_self, ↓State.modChan_kept]

theorem State.refreshRow_kept (s : State) (ch bank row : Nat) : (s.refreshRow ch bank row).kept = s.kept := by
  simp only [State.refreshRow, ↓State.emit_kept]

theorem State.activate_kept (s : State) (ch bank row : Nat) : (s.activate ch bank row).kept = s.kept := by
  simp only [State.activate, ↓State.kept_with, ↓State.kept_ite, ite_self, ↓State.modChan_kept, ↓State.inc_kept, ↓State.refreshRow_kept,
    ↓State.foldl_kept, implies_true]

theorem execNeighbourRefresh_goesOn (ch bank : Nat) (activates : List Nat) (s : State) : s.goesOn (execNeighbourRefresh ch bank activates s) := by
  simp only [execNeighbourRefresh, State.goesOn_next, State.goesOn_ite, keptLe_refl, ite_self, ↓State.activate_kept, ↓State.foldl_kept,
    implies_true]

theorem execDisturbCountClear_goesOn (ch : Nat) (s : State) : s.goesOn (execDisturbCountClear ch s) := by
  simp only [execDisturbCountClear, State.goesOn_next, keptLe_refl, ↓State.modChan_kept]

theorem writeRemapAdd_kept (s : State) (by_ : Caller) (v : Nat) : (writeRemapAdd s by_ v).1.kept = s.kept := by
  simp only [writeRemapAdd, ↓State.kept_ite, ↓apply_ite Prod.fst, ite_self, ↓State.gate_kept, ↓State.deny_kept, ↓State.ok_kept, ↓State.failRow_kept,
    implies_true]

theorem execRemapAdd_goesOn (by_ : Caller) (v : BitVec 32) (s : State) : s.goesOn (execRemapAdd by_ v s) := by
  simp only [execRemapAdd, State.goesOn_next, keptLe_refl, ↓writeRemapAdd_kept]

theorem execDramParityAlert_goesOn (ch t : Nat) (retrained : Bool) (s : State) : s.goesOn (execDramParityAlert ch t retrained s) := by
  simp only [execDramParityAlert, State.goesOn_next, State.goesOn_ite, keptLe_refl, ite_self, ↓State.at_kept, ↓State.modChan_kept,
    ↓State.loseChannel_kept]

theorem execDramPllLockLoss_goesOn (ch : Nat) (s : State) : s.goesOn (execDramPllLockLoss ch s) := by
  simp only [execDramPllLockLoss, State.goesOn_next, State.goesOn_ite, keptLe_refl, ite_self, ↓State.modChan_kept, ↓State.loseChannel_kept]

/-! ### Images and one-time-programmable memory -/

theorem State.slotFailed_kept (s : State) (status : Nat) : (s.slotFailed status).kept = s.kept := by
  simp only [State.slotFailed]
  split <;>
    simp only [↓State.kept_with, ↓State.kept_ite, ite_self, ↓State.setN_kept]

theorem execBootLoadDone_goesOn (flashOk : Bool) (s : State) : s.goesOn (execBootLoadDone flashOk s) := by
  simp only [execBootLoadDone, ↓State.kept_with, State.goesOn_next, State.goesOn_ite, keptLe_refl, ite_self, ↓State.slotFailed_kept,
    ↓State.enterPhase_kept]

theorem execBootVerifyDone_goesOn (s : State) : s.goesOn (execBootVerifyDone s) := by
  simp only [execBootVerifyDone, State.goesOn_next, State.goesOn_ite, keptLe_refl]
  (repeat' split) <;>
    simp only [↓State.kept_with, State.goesOn_next, keptLe_refl, ↓State.slotFailed_kept, ↓State.enterPhase_kept, ↓State.setN_kept]

theorem execFirmwareReadyTimeout_goesOn (s : State) : s.goesOn (execFirmwareReadyTimeout s) := by
  simp only [execFirmwareReadyTimeout, ↓State.kept_with, State.goesOn_next, State.goesOn_ite, keptLe_refl, ite_self, ↓State.startupFail_kept]

theorem writeImageVerify_kept (s : State) (by_ : Caller) : (writeImageVerify s by_).1.kept = s.kept := by
  simp only [writeImageVerify, ↓State.kept_ite, ↓apply_ite Prod.fst, ite_self, ↓State.gate_kept, ↓State.deny_kept, ↓State.ok_kept, ↓State.setN_kept,
    implies_true]

theorem writeImageBoot_kept (s : State) (by_ : Caller) : (writeImageBoot s by_).1.kept = s.kept := by
  simp only [writeImageBoot, ↓State.kept_with, ↓State.kept_ite, ↓apply_ite Prod.fst, ite_self, ↓State.gate_kept, ↓State.deny_kept, ↓State.setN_kept,
    ↓State.ok_kept, implies_true]

theorem writeImageProgram_kept (s : State) (by_ : Caller) (slot : Nat) : (writeImageProgram s by_ slot).1.kept = s.kept := by
  simp only [writeImageProgram, ↓State.kept_with, ↓State.kept_ite, ↓apply_ite Prod.fst, ite_self, ↓State.gate_kept, ↓State.deny_kept,
    ↓State.setN_kept, ↓State.ok_kept, implies_true]

theorem execImageVerify_goesOn (by_ : Caller) (s : State) : s.goesOn (execImageVerify by_ s) := by
  simp only [execImageVerify, State.goesOn_next, keptLe_refl, ↓writeImageVerify_kept]

theorem execImageBoot_goesOn (by_ : Caller) (s : State) : s.goesOn (execImageBoot by_ s) := by
  simp only [execImageBoot, State.goesOn_next, keptLe_refl, ↓writeImageBoot_kept]

theorem execImageProgramA_goesOn (by_ : Caller) (s : State) : s.goesOn (execImageProgramA by_ s) := by
  simp only [execImageProgramA, State.goesOn_next, keptLe_refl, ↓writeImageProgram_kept]

theorem execImageProgramB_goesOn (by_ : Caller) (s : State) : s.goesOn (execImageProgramB by_ s) := by
  simp only [execImageProgramB, State.goesOn_next, keptLe_refl, ↓writeImageProgram_kept]

theorem execImageProgramDone_goesOn (ok : Bool) (s : State) : s.goesOn (execImageProgramDone ok s) := by
  simp only [execImageProgramDone, ↓State.kept_with, ↓State.kept_ite, State.goesOn_next, State.goesOn_ite, keptLe_refl, ite_self,
    ↓State.freeBytes_kept, ↓State.setN_kept, ↓State.emit_kept]

/-- SECURITY_VERSION_MIN takes the greater of two values (R395). -/
theorem writeRollbackRaise_le {a : Kept} {s : State} (c : Caller) (h : keptLe a s.kept) : keptLe a (writeRollbackRaise s c).1.kept := by
  refine State.gate_le _ _ (fun t ht => ?_) h
  split
  · exact ht
  · obtain ⟨⟨version, revoked, keys⟩, mem⟩ := ht
    exact ⟨⟨version.trans (le_max_left _ _), revoked, keys⟩, mem⟩

/-- A revocation sets a bit and clears none (R395). -/
theorem writeKeyRevoke_le {a : Kept} {s : State} (c : Caller) (slot : Nat) (h : keptLe a s.kept) : keptLe a (writeKeyRevoke s c slot).1.kept := by
  refine State.gate_le _ _ (fun t ht => ?_) h
  dsimp only
  split
  · exact ht
  · split
    · exact ht
    · obtain ⟨⟨version, revoked, keys⟩, mem⟩ := ht
      refine ⟨⟨version, ?_, keys⟩, mem⟩
      exact (BitVec.and_or_distrib_left ..).trans (by
        rw [show a.1.revoked &&& t.otp.revoked = _ from revoked]
        ext i
        simp +contextual)

theorem execRollbackRaise_goesOn (c : Caller) (s : State) : s.goesOn (execRollbackRaise c s) :=
  State.goesOn_next.2 (writeRollbackRaise_le _ (keptLe_refl _))

theorem execKeyRevoke_goesOn (c : Caller) (slot : Nat) (s : State) : s.goesOn (execKeyRevoke c slot s) :=
  State.goesOn_next.2 (writeKeyRevoke_le _ _ (keptLe_refl _))

theorem writeNetSave_kept (s : State) (by_ : Caller) : (writeNetSave s by_).1.kept = s.kept := by
  simp only [writeNetSave, ↓State.kept_with, ↓State.gate_kept, ↓State.ok_kept, ↓State.emit_kept, implies_true]

theorem execNetSave_goesOn (by_ : Caller) (s : State) : s.goesOn (execNetSave by_ s) := by
  simp only [execNetSave, State.goesOn_next, keptLe_refl, ↓writeNetSave_kept]

theorem State.takeAddresses_kept (s : State) (net : Option NetConfig) : (s.takeAddresses net).kept = s.kept := by
  simp only [State.takeAddresses]
  split <;>
    simp only [↓State.kept_ite, ite_self, ↓State.setN_kept, ↓State.logEvent_kept]

theorem State.expireWatchdog_kept (s : State) : s.expireWatchdog.kept = s.kept := by
  simp only [State.expireWatchdog, ↓State.kept_with, ↓State.kept_ite, ite_self, ↓State.raise_kept, ↓State.inc_kept]

theorem execWatchdogExpiry_goesOn (x0 : WatchdogCause) (s : State) : s.goesOn (execWatchdogExpiry x0 s) := by
  simp only [execWatchdogExpiry, State.goesOn_next, State.goesOn_ite, keptLe_refl, ite_self, ↓State.expireWatchdog_kept]

theorem execPageReloadDone_goesOn (page : Nat) (good : Bool) (s : State) : s.goesOn (execPageReloadDone page good s) := by
  simp only [execPageReloadDone, ↓State.kept_with, State.goesOn_next, State.goesOn_ite, keptLe_refl, ite_self, ↓State.expireWatchdog_kept]

/-! ### Fiufen blocks -/

theorem State.clearJobCounts_kept (s : State) : s.clearJobCounts.kept = s.kept := by rfl

theorem State.clearJob_kept (s : State) : s.clearJob.kept = s.kept := by rfl

theorem State.acceptJob_kept (s : State) (b : BlockImage) (p : Bytes) (refFails : List Nat) : (s.acceptJob b p refFails).kept = s.kept := by
  simp only [State.acceptJob, ↓State.kept_with, ↓State.clearJob_kept, ↓State.clearJobCounts_kept, ↓State.setN_kept, ↓State.advanceRaster_kept,
    ↓State.setJobState_kept, ↓State.referenceTest_kept]

theorem State.completeStripes_kept (s : State) : s.completeStripes.kept = s.kept := by rfl

theorem State.acceptStripe_kept (s : State) (b : BlockImage) (p : Bytes) : (s.acceptStripe b p).kept = s.kept := by
  simp only [State.acceptStripe, ↓State.kept_with, ↓State.kept_ite, ite_self, ↓State.setPitch_kept, ↓State.completeStripes_kept,
    ↓State.takeStripe_kept, ↓State.advanceRaster_kept]

theorem State.acceptEnd_kept (s : State) : s.acceptEnd.kept = s.kept := by
  simp only [State.acceptEnd, ↓State.kept_with, ↓State.completeStripes_kept, ↓State.advanceRaster_kept]

theorem State.addPendingCell_kept (s : State) (id seq : Nat) : (s.addPendingCell id seq).kept = s.kept := by
  simp only [State.addPendingCell, ↓State.kept_with, ↓State.kept_ite, ite_self]

theorem State.acceptCell_kept (s : State) (b : BlockImage) (rs : List Rec) : (s.acceptCell b rs).kept = s.kept := by rfl

theorem State.countClamps_kept (s : State) (b : LBlock) (n : Nat) : (s.countClamps b n).kept = s.kept := by
  simp only [State.countClamps, ↓State.kept_ite, ite_self, ↓State.add_kept, ↓State.logEvent_kept, ↓State.foldl_kept, ↓State.foldN_kept,
    implies_true]

theorem State.noteBand_kept (s : State) (stripe band : Nat) (turn accepted : Bool) : (s.noteBand stripe band turn accepted).kept = s.kept := by
  simp only [State.noteBand]
  split <;>
    simp only [↓State.kept_with, ↓State.kept_ite, ite_self]

theorem State.noteRejected_kept (s : State) (p : Pend) : (s.noteRejected p).kept = s.kept := by
  simp only [State.noteRejected, ↓State.kept_ite, ite_self, ↓State.noteBand_kept]

theorem State.acceptBand_kept (s : State) (b : BlockImage) (halo : Bool) (rs : List Rec) (rails : List (Nat × List Bool)) (repair late : Bool) :
    (s.acceptBand b halo rs rails repair late).kept = s.kept := by
  simp only [State.acceptBand, ↓State.advanceRaster_kept, ↓State.placementRails_kept]
  split <;>
    simp only [↓State.kept_with, ↓State.noteBand_kept, ↓State.countClamps_kept]

theorem State.acceptMarks_kept (s : State) (ms : List Mark) : (s.acceptMarks ms).kept = s.kept := by
  simp only [State.acceptMarks, ↓State.kept_with, ↓State.kept_ite, ite_self, ↓State.setN_kept]

theorem State.recheckCell_kept (s : State) (id : Nat) : (s.recheckCell id).kept = s.kept := by
  unfold State.recheckCell
  dsimp only
  refine (State.foldl_kept (fun s b => ?_) _ _).trans (State.foldl_kept (fun s c => ?_) _ _)
  · split
    · split <;> simp only [↓State.countClamps_kept]
    · simp only [↓State.rejectLate_kept, ↓State.kept_with]
  · simp only [↓State.rejectLate_kept, ↓State.kept_with]

theorem State.afterRepair_kept (s : State) (p : Pend) (type : BlockType) (aux : Nat) : (s.afterRepair p type aux).kept = s.kept := by
  simp only [State.afterRepair, ↓State.advanceRaster_kept]
  split <;>
    simp only [↓State.kept_with, ↓State.kept_ite, ite_self, ↓State.recheckCell_kept]

/-! ### Check-value units -/

theorem State.cuFeed_kept (s : State) (u : Nat) (bs : Bytes) : (s.cuFeed u bs).kept = s.kept := by
  simp only [State.cuFeed, ↓State.kept_with, ↓State.add_kept, ↓State.setN_kept]

theorem State.cuStart_kept (s : State) (u : Nat) : (s.cuStart u).kept = s.kept := by
  simp only [State.cuStart, ↓State.setN_kept]

theorem State.cuPulse_kept (s : State) (u : Nat) : (s.cuPulse u).kept = s.kept := by rfl

theorem State.cuCapture_kept (s : State) (u : Nat) : (s.cuCapture u).kept = s.kept := by
  simp only [State.cuCapture]
  split <;>
    simp only [↓State.kept_with, ↓State.inc_kept, ↓State.setN_kept]

theorem writeCuValue_kept (s : State) (u v : Nat) : (writeCuValue s u v).1.kept = s.kept := by
  simp only [writeCuValue, ↓State.kept_ite, ↓apply_ite Prod.fst, ite_self, ↓State.deny_kept, ↓State.ok_kept, ↓State.setN_kept]

theorem writeCuPoly_kept (s : State) (u poly : Nat) : (writeCuPoly s u poly).1.kept = s.kept := by
  simp only [writeCuPoly, ↓State.kept_ite, ↓apply_ite Prod.fst, ite_self, ↓State.deny_kept, ↓State.ok_kept, ↓State.cuStart_kept, ↓State.setN_kept]

theorem writeCuFeed_kept (s : State) (u n v : Nat) : (writeCuFeed s u n v).1.kept = s.kept := by
  simp only [writeCuFeed, ↓State.kept_ite, ↓apply_ite Prod.fst, ite_self, ↓State.ok_kept, ↓State.cuFeed_kept, ↓State.deny_kept]

theorem writeCuInit_kept (s : State) (u : Nat) : (writeCuInit s u).1.kept = s.kept := by
  simp only [writeCuInit, ↓State.kept_ite, ↓apply_ite Prod.fst, ite_self, ↓State.ok_kept, ↓State.cuStart_kept, ↓State.deny_kept]

theorem execCuFeed8_goesOn (u : Nat) (v : BitVec 8) (s : State) : s.goesOn (execCuFeed8 u v s) := by
  simp only [execCuFeed8, ↓State.kept_ite, State.goesOn_next, keptLe_refl, ite_self, ↓writeCuFeed_kept]

theorem execCuFeed16_goesOn (u : Nat) (v : BitVec 16) (s : State) : s.goesOn (execCuFeed16 u v s) := by
  simp only [execCuFeed16, ↓State.kept_ite, State.goesOn_next, keptLe_refl, ite_self, ↓writeCuFeed_kept]

theorem execCuFeed32_goesOn (u : Nat) (v : BitVec 32) (s : State) : s.goesOn (execCuFeed32 u v s) := by
  simp only [execCuFeed32, ↓State.kept_ite, State.goesOn_next, keptLe_refl, ite_self, ↓writeCuFeed_kept]

theorem execCuValueWrite_goesOn (u : Nat) (v : BitVec 64) (s : State) : s.goesOn (execCuValueWrite u v s) := by
  simp only [execCuValueWrite, ↓State.kept_ite, State.goesOn_next, keptLe_refl, ite_self, ↓writeCuValue_kept]

theorem execCuInit_goesOn (u : Nat) (s : State) : s.goesOn (execCuInit u s) := by
  simp only [execCuInit, ↓State.kept_ite, State.goesOn_next, keptLe_refl, ite_self, ↓writeCuInit_kept]

theorem execCuPoly_goesOn (u poly : Nat) (s : State) : s.goesOn (execCuPoly u poly s) := by
  simp only [execCuPoly, ↓State.kept_ite, State.goesOn_next, keptLe_refl, ite_self, ↓writeCuPoly_kept]

theorem execCuLatch_goesOn (u : Nat) (s : State) : s.goesOn (execCuLatch u s) := by
  simp only [execCuLatch, ↓State.kept_ite, State.goesOn_next, keptLe_refl, ite_self, ↓State.cuCapture_kept]

theorem execCuStateRead_goesOn (u : Nat) (result : Bool) (s : State) : s.goesOn (execCuStateRead u result s) := by
  simp only [execCuStateRead, ↓State.kept_ite, State.goesOn_next, keptLe_refl, ite_self, ↓State.emit_kept]

/-! ### The DMA engine -/

theorem State.modDma_kept (s : State) (c : Nat) (f : DmaChannel → DmaChannel) : (s.modDma c f).kept = s.kept := by rfl

theorem State.refreshDma_kept (s : State) (c : Nat) : (s.refreshDma c).kept = s.kept := by
  simp only [State.refreshDma, ↓State.kept_ite, ite_self, ↓State.setN_kept]

theorem State.dmaWrote_kept (s : State) (c n : Nat) : (s.dmaWrote c n).kept = s.kept := by
  simp only [State.dmaWrote, ↓State.setN_kept, ↓State.add_kept]

theorem State.dmaDram_le {a : Kept} {s : State} (at_ : Nat) (bs : Bytes) (fs : List WordFault) (h : keptLe a s.kept) :
    keptLe a (s.dmaDram at_ bs fs).kept := by
  refine State.dramStore_le _ _ (foldl_keptLe (fun t wa ht => ?_) _ h)
  split
  · exact State.readWordAt_le _ _ _ ht
  · exact ht

theorem State.dmaPut_le {a : Kept} {s : State} (c : Nat) (d : DmaDesc) (o : Nat) (bs : Bytes) (fs : List WordFault) (h : keptLe a s.kept) :
    keptLe a (s.dmaPut c d o bs fs).kept := by
  unfold State.dmaPut
  dsimp only
  split
  · exact h
  · rw [State.dmaWrote_kept]
    split
    · exact State.dmaDram_le _ _ _ h
    · simpa only [↓State.kept_ite, State.emit_kept, State.cuFeed_kept, ite_self] using h

theorem State.dmaDrain_le {a : Kept} {s : State} (c : Nat) (d : DmaDesc) (fs : List WordFault) (flush : Bool) (h : keptLe a s.kept) :
    keptLe a (s.dmaDrain c d fs flush).kept := by
  unfold State.dmaDrain
  dsimp only
  split <;> exact State.dmaPut_le _ _ _ _ _ (by rwa [State.modDma_kept])

theorem State.dmaHalt_le {a : Kept} {s : State} (c cause at_ : Nat) (h : keptLe a s.kept) : keptLe a (s.dmaHalt c cause at_).kept := by
  unfold State.dmaHalt
  simp only [↓State.logEvent_kept, ↓State.modDma_kept, ↓State.setN_kept]
  split
  · exact State.dmaDrain_le _ _ _ _ h
  · exact h

theorem State.dmaBegin_le {a : Kept} {s : State} (c at_ : Nat) (fs : List WordFault) (h : keptLe a s.kept) : keptLe a (s.dmaBegin c at_ fs).kept := by
  unfold State.dmaBegin
  dsimp only
  have fresh : keptLe a ((s.setN (Obj.CH_DESC_ADDR + c) at_).modDma c fun x => { x with desc := none, moved := 0, funnel := [], port := [] }).kept := by
    rwa [State.modDma_kept, State.setN_kept]
  split
  · exact State.dmaHalt_le _ _ _ fresh
  · have read := State.readMem_le at_ 64 fs fresh
    split
    · next e => rw [e] at read; exact State.dmaHalt_le _ _ _ read
    · next e =>
      rw [e] at read
      split
      · exact State.dmaHalt_le _ _ _ read
      · split
        · exact State.dmaHalt_le _ _ _ read
        · rwa [State.refreshDma_kept, State.modDma_kept, State.setN_kept, State.setN_kept]

theorem State.dmaStart_le {a : Kept} {s : State} (c at_ : Nat) (fs : List WordFault) (h : keptLe a s.kept) : keptLe a (s.dmaStart c at_ fs).1.kept := by
  unfold State.dmaStart
  split
  · exact h
  · split
    · exact h
    · exact State.dmaBegin_le _ _ _ (by rwa [State.modDma_kept, State.setN_kept, State.setN_kept, State.setN_kept])

theorem writeChStart_le {a : Kept} {s : State} (by_ : Caller) (c at_ : Nat) (fs : List WordFault) (h : keptLe a s.kept) :
    keptLe a (writeChStart s by_ c at_ fs).1.kept := by
  refine State.gate_le _ _ (fun t ht => ?_) h
  split
  · exact State.dmaStart_le _ _ _ ht
  · exact ht

theorem execChStart_goesOn (by_ : Caller) (c at_ : Nat) (fs : List WordFault) (s : State) : s.goesOn (execChStart by_ c at_ fs s) :=
  State.goesOn_next.2 (.ite (writeChStart_le _ _ _ _ (keptLe_refl _)) (keptLe_refl _))

theorem State.pulseLine_kept (s : State) (line : Nat) : (s.pulseLine line).kept = s.kept := by
  simp only [State.pulseLine, ↓State.kept_ite, ite_self, ↓State.inc_kept, ↓State.refreshDma_kept, ↓State.modDma_kept, ↓State.cuPulse_kept,
    ↓State.setN_kept, ↓State.foldl_kept, implies_true]

theorem State.dmaRead_le {a : Kept} {s : State} (d : DmaDesc) (o n : Nat) (inp : DmaInputs) (h : keptLe a s.kept) :
    keptLe a (s.dmaRead d o n inp).1.kept := by
  have fwd : keptLe a (s.forwards (d.src + o) n inp.faults).1.kept := by rwa [State.forwards_kept]
  unfold State.dmaRead
  split
  · exact h
  · generalize s.forwards (d.src + o) n inp.faults = f at fwd ⊢
    obtain ⟨t, gs⟩ := f
    have read (at_ k : Nat) : keptLe a (t.readWords at_ k gs).1.kept := State.readWords_le at_ k gs fwd
    dsimp only
    split
    · specialize read (d.src + o) n
      generalize t.readWords (d.src + o) n gs = r at read ⊢
      exact read
    · next wa _ =>
      specialize read (if d.descending then d.src + o + n - d.before d.src o n (8 * wa) else d.src + o) (d.before d.src o n (8 * wa))
      generalize t.readWords (if d.descending then _ else _) _ gs = r at read ⊢
      exact State.readWordAt_le _ _ _ read

theorem State.dmaMove_le {a : Kept} {s : State} (c : Nat) (d : DmaDesc) (inp : DmaInputs) (h : keptLe a s.kept) : keptLe a (s.dmaMove c d inp).kept := by
  unfold State.dmaMove
  dsimp only
  generalize hr : State.dmaRead _ d _ _ inp = r
  have read : keptLe a r.1.kept := by
    rw [← hr]
    exact State.dmaRead_le _ _ _ _ (by simpa only [↓State.kept_ite, State.modDma_kept, State.inc_kept, ite_self] using h)
  clear hr
  split
  · refine keptLe.ite (by rwa [State.refreshDma_kept, State.modDma_kept]) ?_
    split
    · exact State.dmaHalt_le _ _ _ (by rwa [State.modDma_kept])
    · rw [State.refreshDma_kept]; exact State.dmaDrain_le c d _ _ (by rwa [State.modDma_kept])
  · exact keptLe.ite (by rwa [State.refreshDma_kept, State.modDma_kept]) (State.dmaHalt_le _ _ _ (by rwa [State.modDma_kept]))

theorem State.dmaHostHalt_le {a : Kept} {s : State} (c : Nat) (d : DmaDesc) (h : keptLe a s.kept) : keptLe a (s.dmaHostHalt c d).kept :=
  State.dmaHalt_le _ _ _ h

theorem execDmaBurst_goesOn (c : Nat) (inp : DmaInputs) (s : State) : s.goesOn (execDmaBurst c inp s) := by
  unfold execDmaBurst
  split
  · simp only [State.goesOn_ite, State.goesOn_next, State.dmaHostHalt_le _ _ (keptLe_refl _), State.dmaMove_le _ _ _ (keptLe_refl _), keptLe_refl, ite_self]
  · exact State.goesOn_next.2 (keptLe_refl _)

theorem execCuPortWrite_goesOn (c u : Nat) (s : State) : s.goesOn (execCuPortWrite c u s) := by
  simp only [execCuPortWrite]
  split <;>
    simp only [State.goesOn_next, State.goesOn_ite, keptLe_refl, ite_self, ↓State.modDma_kept, ↓State.dmaWrote_kept, ↓State.cuFeed_kept]

theorem execDmaDescriptorEnd_goesOn (c : Nat) (samePulse : Bool) (faults : DescFaults) (s : State) :
    s.goesOn (execDmaDescriptorEnd c samePulse faults s) := by
  unfold execDmaDescriptorEnd
  dsimp only
  split
  · next d _ =>
    have event : keptLe s.kept (if !d.eventOnEnd then s else if samePulse then s.inc Obj.EVENT_MERGES else s.pulseLine (s.dmaCh c).line).kept := by
      simp only [↓State.kept_ite, State.inc_kept, State.pulseLine_kept, ite_self, keptLe_refl]
    simp only [State.goesOn_ite, State.goesOn_next, State.setN_kept, event, State.dmaBegin_le _ _ _ event, keptLe_refl, ite_self]
  · exact State.goesOn_next.2 (keptLe_refl _)

theorem State.abortChannel_le {a : Kept} {s : State} (c : Nat) (h : keptLe a s.kept) : keptLe a (s.abortChannel c).kept := by
  unfold State.abortChannel
  split
  · rw [State.setN_kept, State.modDma_kept]
    split
    · exact State.dmaDrain_le _ _ _ _ (by simpa only [↓State.kept_ite, State.dmaWrote_kept, State.cuFeed_kept, ite_self] using h)
    · exact h
  · exact h

theorem State.abortDma_le {a : Kept} {s : State} (mask : Nat) (h : keptLe a s.kept) : keptLe a (s.abortDma mask).kept := by
  refine foldl_keptLe (fun t c ht => ?_) _ h
  split
  · exact State.abortChannel_le _ ht
  · exact ht

theorem State.abortDmaBy_le {a : Kept} {s : State} (selector : Nat) (h : keptLe a s.kept) : keptLe a (s.abortDmaBy selector).kept := by
  unfold State.abortDmaBy
  split
  · rw [State.setN_kept]; exact State.abortDma_le _ h
  · exact h

theorem State.haltHostDma_le {a : Kept} {s : State} (h : keptLe a s.kept) : keptLe a s.haltHostDma.kept := by
  refine foldl_keptLe (fun t c ht => ?_) _ h
  split
  · split
    · exact State.dmaHostHalt_le _ _ ht
    · exact ht
  · exact ht

/-! ### Rings and the host port -/

theorem State.writeStatus_kept (s : State) (r : Sys2Proof.Ring) (i status fetches detail : Nat) : (s.writeStatus r i status fetches detail).kept =
    s.kept := by
  simp only [State.writeStatus, ↓State.kept_with, ↓State.kept_ite, ite_self, ↓State.emit_kept]

theorem State.passConsumer_kept (s : State) (r : Sys2Proof.Ring) : (s.passConsumer r).kept = s.kept := by
  simp only [State.passConsumer]
  split <;>
    simp only [↓State.kept_with, ↓State.setN_kept]

theorem State.tellIndexes_kept (s : State) : s.tellIndexes.kept = s.kept := by
  simp only [State.tellIndexes, ↓State.tell_kept]

theorem State.tellBlock_kept (s : State) (t : BlockType) (d : Desc) (b : BlockImage) : (s.tellBlock t d b).kept = s.kept := by
  simp only [State.tellBlock, ↓State.kept_ite, ite_self, ↓State.mirror_kept]

theorem State.recordReject_kept (s : State) (d : Desc) (t : BlockType) (b : BlockImage) (r : Reject) (stalls : Bool) : (s.recordReject d t b r
    stalls).kept = s.kept := by
  simp only [State.recordReject, ↓State.kept_ite, ite_self, ↓State.setN_kept, ↓State.inc_kept, ↓State.logEvent_kept]

theorem State.stall_kept (s : State) : s.stall.kept = s.kept := by
  simp only [State.stall, ↓State.kept_with, ↓State.refreshStream_kept]

theorem State.addPending_kept (s : State) (t : BlockType) (b : BlockImage) (r : Reject) : (s.addPending t b r).kept = s.kept := by
  simp only [State.addPending, ↓State.kept_with, ↓State.kept_ite, ite_self, ↓State.noteRejected_kept, ↓State.tell_kept, ↓State.addPendingCell_kept,
    ↓State.setN_kept]

theorem State.rejectStream_kept (s : State) (d : Desc) (t : BlockType) (b : BlockImage) (r : Reject) (fetches : Nat) : (s.rejectStream d t b r
    fetches).kept = s.kept := by
  simp only [State.rejectStream, ↓State.kept_ite, ite_self, ↓State.writeStatus_kept, ↓State.refreshStream_kept, ↓State.advanceRelease_kept,
    ↓State.passConsumer_kept, ↓State.recordReject_kept, ↓State.stall_kept, ↓State.setN_kept, ↓State.addPending_kept]

theorem State.rejectRepair_kept (s : State) (d : Desc) (t : BlockType) (b : BlockImage) (r : Reject) (fetches : Nat) : (s.rejectRepair d t b r
    fetches).kept = s.kept := by
  simp only [State.rejectRepair, ↓State.writeStatus_kept, ↓State.refreshStream_kept, ↓State.advanceRelease_kept, ↓State.passConsumer_kept,
    ↓State.recordReject_kept]

theorem State.reject_kept (s : State) (d : Desc) (t : BlockType) (b : BlockImage) (r : Reject) (fetches : Nat) : (s.reject d t b r fetches).kept =
    s.kept := by
  simp only [State.reject]
  split <;>
    simp only [↓State.rejectStream_kept, ↓State.rejectRepair_kept]

theorem State.startInflate_kept (s : State) (t : BlockType) (f : Fetch) (fetches : Nat) : (s.startInflate t f fetches).kept = s.kept := by
  simp only [State.startInflate, ↓State.kept_with, ↓State.feedLanes_kept]

theorem State.content_kept {s u : State} {f : Fetch} {t : BlockType} {p : Bytes} {repair late : Bool} (h : s.content f t p repair late = .ok u) :
    u.kept = s.kept := by
  unfold State.content at h
  dsimp only at h
  split at h
  · split at h
    · rw [← Except.ok.inj h]; exact State.acceptJob_kept ..
    · cases h
  · split at h
    · cases h
    · split at h
      · cases h
      · rw [← Except.ok.inj h]; exact State.acceptStripe_kept ..
  · split at h
    · cases h
    · split at h
      · cases h
      · split at h
        · cases h
        · rw [← Except.ok.inj h]; exact State.acceptCell_kept ..
  · split at h
    · cases h
    · split at h
      · cases h
      · split at h
        · cases h
        · rw [← Except.ok.inj h]; exact State.acceptBand_kept ..
  · split at h
    · cases h
    · split at h
      · cases h
      · split at h
        · cases h
        · rw [← Except.ok.inj h]; exact State.acceptBand_kept ..
  · split at h
    · cases h
    · rw [← Except.ok.inj h]; exact State.acceptMarks_kept ..
  · rw [← Except.ok.inj h]; exact State.acceptEnd_kept ..

theorem State.noteSlot_kept (s : State) (d : Desc) (t : BlockType) (b : BlockImage) : (s.noteSlot d t b).kept = s.kept := by
  simp only [State.noteSlot, ↓State.kept_with, ↓State.kept_ite, ite_self]

theorem State.acceptedBlock_kept (s : State) (d : Desc) (t : BlockType) (b : BlockImage) (fetches : Nat) : (s.acceptedBlock d t b fetches).kept =
    s.kept := by
  simp only [State.acceptedBlock, ↓State.kept_with, ↓State.kept_ite, ite_self, ↓State.tellBlock_kept, ↓State.writeStatus_kept, ↓State.noteSlot_kept,
    ↓State.add_kept, ↓State.inc_kept, ↓State.passConsumer_kept, ↓State.refreshStream_kept, ↓State.tellIndexes_kept, ↓State.advanceRelease_kept,
    ↓State.releaseBands_kept]

theorem State.repairAccepted_kept (s : State) (p : Pend) : (s.repairAccepted p).kept = s.kept := by
  simp only [State.repairAccepted, ↓State.kept_with, ↓State.kept_ite, ite_self, ↓State.inc_kept, ↓State.setN_kept, ↓State.tell_kept,
    ↓State.logEvent_kept]

theorem State.waitForHead_kept (s : State) (f : Fetch) (fetches : Nat) : (s.waitForHead f fetches).kept = s.kept := by
  simp only [State.waitForHead, ↓State.kept_with, ↓State.refreshStream_kept]

theorem State.repairContent_kept (s : State) (p : Pend) (f : Fetch) (t : BlockType) (bytes : Bytes) (fetches : Nat) :
    (s.repairContent p f t bytes fetches).kept = s.kept := by
  unfold State.repairContent
  split
  · exact State.reject_kept ..
  · next h => rw [State.acceptedBlock_kept, State.afterRepair_kept, State.repairAccepted_kept, State.content_kept h]

theorem State.streamSteps_kept {s retry : State} {f : Fetch} {t : BlockType} {fetches : Nat} {ready : Bool} (again : retry.kept = s.kept) :
    (s.streamSteps f t fetches retry ready).kept = s.kept := by
  unfold State.streamSteps
  dsimp only
  split
  · split
    · simp only [↓State.refreshStream_kept, ↓State.advanceRelease_kept, ↓State.passConsumer_kept, ↓State.writeStatus_kept]
    · split
      · exact State.reject_kept ..
      · split
        · exact State.startInflate_kept ..
        · split <;> simp only [↓State.kept_ite, ↓State.reject_kept, ↓State.acceptedBlock_kept, ↓State.acceptJob_kept, ↓State.refreshStream_kept,
            ↓State.kept_with, again, ite_self]
  · split
    · exact State.reject_kept ..
    · split
      · exact State.reject_kept ..
      · split
        · exact State.reject_kept ..
        · split
          · exact State.startInflate_kept ..
          · split
            · simp only [↓State.kept_ite, ↓State.reject_kept, again, ite_self]
            · split
              · exact State.waitForHead_kept ..
              · split
                · exact State.reject_kept ..
                · next h => rw [State.acceptedBlock_kept, State.setN_kept, State.content_kept h]

theorem State.repairSteps_kept {s retry : State} {f : Fetch} {t : BlockType} {fetches : Nat} {ready : Bool} (again : retry.kept = s.kept) :
    (s.repairSteps f t fetches retry ready).kept = s.kept := by
  unfold State.repairSteps
  dsimp only
  split
  · exact State.reject_kept ..
  · split
    · exact State.reject_kept ..
    · split
      · exact State.reject_kept ..
      · split
        · exact State.reject_kept ..
        · split
          · exact State.startInflate_kept ..
          · split <;> simp only [↓State.kept_ite, ↓State.reject_kept, ↓State.waitForHead_kept, ↓State.repairContent_kept, again, ite_self]

theorem State.checkBlock_kept (s : State) (t : BlockType) (f : Fetch) (second ready : Bool) : (s.checkBlock t f second ready).kept = s.kept := by
  simp only [State.checkBlock, ↓State.kept_with, ↓State.kept_ite, ite_self, ↓State.inc_kept, ↓State.reject_kept]
  (repeat' split) <;>
    simp only [↓State.kept_with, ↓State.inc_kept, ↓State.streamSteps_kept, ↓State.repairSteps_kept]

theorem State.finishInflate_kept (s : State) (x : Inflating) : (s.finishInflate x).kept = s.kept := by
  simp only [State.finishInflate, ↓State.kept_with, ↓State.kept_ite, ite_self, ↓State.checkBlock_kept]

theorem State.segmentDone_kept (s : State) (l : Nat) : (s.segmentDone l).kept = s.kept := by
  simp only [State.segmentDone]
  split <;>
    simp only [↓State.kept_with, ↓State.kept_ite, ite_self, ↓State.modLane_kept, ↓State.finishInflate_kept]

theorem State.fetchedBlock_kept (s : State) (t : BlockType) (f : Fetch) : (s.fetchedBlock t f).kept = s.kept := by
  simp only [State.fetchedBlock, ↓State.kept_ite, ite_self, ↓State.checkBlock_kept]

theorem State.streamBlock_goesOn (s : State) (t : BlockType) (f : Fetch) : s.goesOn (s.streamBlock t f) := by
  simp only [State.streamBlock, State.goesOn_next, State.goesOn_ite, keptLe_refl, ite_self, ↓State.fetchedBlock_kept]

theorem execJobBlock_goesOn (f : Fetch) (s : State) : s.goesOn (execJobBlock f s) := by
  simp only [execJobBlock, ↓State.streamBlock_goesOn]

theorem execStripeBlock_goesOn (f : Fetch) (s : State) : s.goesOn (execStripeBlock f s) := by
  simp only [execStripeBlock, ↓State.streamBlock_goesOn]

theorem execCelldefBlock_goesOn (f : Fetch) (s : State) : s.goesOn (execCelldefBlock f s) := by
  simp only [execCelldefBlock, ↓State.streamBlock_goesOn]

theorem execBandBlock_goesOn (f : Fetch) (s : State) : s.goesOn (execBandBlock f s) := by
  simp only [execBandBlock, ↓State.streamBlock_goesOn]

theorem execHaloBlock_goesOn (f : Fetch) (s : State) : s.goesOn (execHaloBlock f s) := by
  simp only [execHaloBlock, ↓State.streamBlock_goesOn]

theorem execMarksBlock_goesOn (f : Fetch) (s : State) : s.goesOn (execMarksBlock f s) := by
  simp only [execMarksBlock, ↓State.streamBlock_goesOn]

theorem execEndBlock_goesOn (f : Fetch) (s : State) : s.goesOn (execEndBlock f s) := by
  simp only [execEndBlock, ↓State.streamBlock_goesOn]

theorem execRepairBlock_goesOn (t : BlockType) (f : Fetch) (s : State) : s.goesOn (execRepairBlock t f s) := by
  simp only [execRepairBlock, State.goesOn_next, State.goesOn_ite, keptLe_refl, ite_self, ↓State.fetchedBlock_kept]

theorem State.reloaded_kept (s : State) (t : BlockType) (f : Fetch) (x : SlotRef) : (s.reloaded t f x).kept = s.kept := by
  simp only [State.reloaded, ↓State.kept_with, ↓State.kept_ite, ↓State.advanceRaster_kept]
  (repeat' split) <;>
    simp only [↓State.kept_with, ↓State.dropBlock_kept]

theorem execBlockRefetch_goesOn (t : BlockType) (f : Fetch) (s : State) : s.goesOn (execBlockRefetch t f s) := by
  simp only [execBlockRefetch]
  (repeat' split) <;>
    simp only [↓State.kept_with, State.goesOn_next, keptLe_refl, ↓State.reloaded_kept, ↓State.checkBlock_kept]

theorem execDescriptorFetch_goesOn (d : Desc) (s : State) : s.goesOn (execDescriptorFetch d s) := by
  simp only [execDescriptorFetch, ↓State.kept_with, State.goesOn_next, State.goesOn_ite, keptLe_refl, ite_self, ↓State.reject_kept]

theorem State.writeProducer_kept (s : State) (r : Sys2Proof.Ring) (v : Nat) : (s.writeProducer r v).kept = s.kept := by
  simp only [State.writeProducer, ↓State.kept_ite, ite_self, ↓State.setN_kept, ↓State.inc_kept, ↓State.refreshStream_kept, ↓State.tell_kept]

theorem State.doorbell_kept (s : State) (r : Sys2Proof.Ring) (v : Nat) : (s.doorbell r v).kept = s.kept := by
  simp only [State.doorbell, ↓State.kept_with, ↓State.kept_ite, ite_self, ↓State.writeProducer_kept]

theorem execStreamProducer_goesOn (value : Nat) (s : State) : s.goesOn (execStreamProducer value s) := by
  simp only [execStreamProducer, State.goesOn_next, keptLe_refl, ↓State.doorbell_kept]

theorem execRepairProducer_goesOn (value : Nat) (s : State) : s.goesOn (execRepairProducer value s) := by
  simp only [execRepairProducer, State.goesOn_next, keptLe_refl, ↓State.doorbell_kept]

theorem State.raiseMsix_kept (s : State) : s.raiseMsix.kept = s.kept := by
  simp only [State.raiseMsix, ↓State.kept_with, ↓State.kept_ite, ite_self, ↓State.emit_kept]

theorem State.releaseMsix_kept (s : State) : s.releaseMsix.kept = s.kept := by
  simp only [State.releaseMsix, ↓State.kept_with, ↓State.kept_ite, ite_self, ↓State.emit_kept]

theorem State.barWrite_kept (s : State) (offset value : Nat) : (s.barWrite offset value).kept = s.kept := by
  unfold State.barWrite
  split
  · exact State.doorbell_kept ..
  · split
    · exact State.doorbell_kept ..
    · split
      · rw [State.releaseMsix_kept, State.kept_with]
      · rfl

theorem execBarAccessError_goesOn (offset size : Nat) (write : Option Nat) (s : State) : s.goesOn (execBarAccessError offset size write s) := by
  simp only [execBarAccessError, State.goesOn_next, State.goesOn_ite, keptLe_refl]
  (repeat' split) <;>
    simp only [State.goesOn_next, keptLe_refl, ↓State.inc_kept, ↓State.emit_kept, ↓State.barWrite_kept]

theorem State.writeProgress_kept (s : State) : s.writeProgress.kept = s.kept := by
  simp only [State.writeProgress, ↓State.kept_with, ↓State.kept_ite, ite_self, ↓State.emit_kept, ↓State.raiseMsix_kept]

theorem execWriteback_goesOn (s : State) : s.goesOn (execWriteback s) := by
  simp only [execWriteback, State.goesOn_next, keptLe_refl, ↓State.writeProgress_kept]

theorem State.flushHost_kept (s : State) : s.flushHost.kept = s.kept := by
  simp only [State.flushHost, ↓State.kept_with, ↓State.kept_ite, ite_self, ↓State.emit_kept, ↓State.writeProgress_kept, ↓State.foldl_kept,
    implies_true]

theorem State.configure_kept (s : State) (x1 : ConfigRequest) : (s.configure x1).kept = s.kept := by
  simp only [State.configure]
  split <;>
    simp only [↓State.kept_with, ↓State.kept_ite, ite_self, ↓State.releaseMsix_kept, ↓State.flushHost_kept, ↓State.emit_kept]

theorem execBusMasterEnable_goesOn (s : State) (request : ConfigRequest) : s.goesOn (execBusMasterEnable s request) := by
  simp only [execBusMasterEnable, ↓State.kept_ite, State.goesOn_next, keptLe_refl, ite_self, ↓State.configure_kept]

theorem execHostPortReset_goesOn (cause : HostReset) (s : State) : s.goesOn (execHostPortReset cause s) := by
  unfold execHostPortReset
  split
  · exact State.goesOn_next.2 (keptLe_refl _)
  · refine State.goesOn_next.2 (State.haltHostDma_le ?_)
    simp only [↓State.logEvent_kept, ↓State.inc_kept, ↓State.setN_kept, ↓State.kept_with, keptLe_refl]

theorem execHostLinkUp_goesOn (width speed : Nat) (s : State) : s.goesOn (execHostLinkUp width speed s) := by
  simp only [execHostLinkUp, ↓State.kept_with, State.goesOn_next, State.goesOn_ite, keptLe_refl, ite_self, ↓State.setN_kept, ↓State.flushHost_kept]

theorem State.takeHeldJob_kept (s : State) : s.takeHeldJob.kept = s.kept := by
  simp only [State.takeHeldJob]
  (repeat' split) <;>
    simp only [↓State.kept_with, ↓State.acceptedBlock_kept, ↓State.acceptJob_kept]

theorem State.takeWaiting_kept (s : State) : s.takeWaiting.kept = s.kept := by
  unfold State.takeWaiting
  split
  · split
    · rfl
    · dsimp only
      split
      · exact State.reject_kept ..
      · split
        · split
          · exact State.repairContent_kept ..
          · exact State.reject_kept ..
        · split
          · exact State.reject_kept ..
          · next h => rw [State.acceptedBlock_kept, State.setN_kept, State.content_kept h]; rfl
  · rfl

theorem State.takeHeld_kept (s : State) : s.takeHeld.kept = s.kept := by
  simp only [State.takeHeld, ↓State.takeWaiting_kept, ↓State.takeHeldJob_kept]

/-! ### Decision points -/

theorem State.passTo_kept (s : State) (a b : Int) : (s.passTo a b).1.kept = s.kept := by
  simp only [State.passTo, ↓State.add_kept, ↓State.reach_kept, ↓State.loseIndex_kept, ↓State.foldl_kept, implies_true]

theorem State.issue_kept (s : State) (n : Int) : (s.issue n).kept = s.kept := by
  simp only [State.issue, ↓State.kept_with, ↓State.kept_ite, ite_self, ↓State.inc_kept, ↓State.setN_kept, ↓State.set_kept, ↓State.snapshot_kept]

theorem State.choose_kept (s : State) (w : Look) (valid : Bool) : (s.choose w valid).1.kept = s.kept := by
  unfold State.choose
  split
  · rfl
  · split
    · rfl
    · simp only [↓apply_ite Prod.fst, ↓State.kept_ite, ↓State.issue_kept, ↓State.kept_with, ↓State.passTo_kept, ↓State.inc_kept, ite_self]

theorem State.overspeed_kept (s : State) (k jump : Nat) : (s.overspeed k jump).kept = s.kept := by
  simp only [State.overspeed, ↓State.kept_with, ↓State.kept_ite, ite_self, ↓State.setN_kept, ↓State.driveStageSlow_kept, ↓State.logEvent_kept,
    ↓State.blankRest_kept]

theorem State.nextCalShot_kept (s : State) : s.nextCalShot.1.kept = s.kept := by
  simp only [State.nextCalShot]
  split <;>
    simp only [↓State.kept_with, ↓State.kept_ite, ↓apply_ite Prod.fst, ite_self]

theorem State.testShot_kept (s : State) : s.testShot.1.kept = s.kept := by
  simp only [State.testShot, ↓State.kept_ite, ↓apply_ite Prod.fst, ↓State.nextCalShot_kept]
  (repeat' split) <;>
    simp only [↓State.kept_with, ↓State.setN_kept]

theorem State.takeCommits_kept (s : State) : s.takeCommits.kept = s.kept := by
  simp only [State.takeCommits, ↓State.kept_with, ↓State.kept_ite, ↓State.takeFlash_kept]
  (repeat' split) <;>
    simp only [↓State.kept_with, ↓State.applyEntries_kept]

theorem State.sweepBoundary_kept (s : State) : s.sweepBoundary.kept = s.kept := by
  simp only [State.sweepBoundary, ↓State.effectLoads_kept, ↓State.closeColumns_kept, ↓State.retirePixels_kept, ↓State.retireDue_kept,
    ↓State.parkCheck_kept, ↓State.settle_kept, ↓State.endSweep_kept, ↓State.wakeCheck_kept, ↓State.watch_kept, ↓State.giveUps_kept,
    ↓State.tryArm_kept]

theorem State.boundary_kept (s : State) (k : Nat) (history : List HistoryFault) : (s.boundary k history).kept = s.kept := by
  simp only [State.boundary, ↓State.kept_ite, ite_self, ↓State.takeCommits_kept, ↓State.effectDecisions_kept, ↓State.thermalEffect_kept,
    ↓State.timeouts_kept, ↓State.sweepBoundary_kept, ↓State.countCommand_kept, ↓State.epoch_kept]

theorem State.pushPeriod_kept (s : State) (p : Period) : (s.pushPeriod p).kept = s.kept := by rfl

theorem State.pushTarget_kept (s : State) (w : Look) : (s.pushTarget w).kept = s.kept := by rfl

theorem State.decidePeriod_kept (s : State) (w : Look) (valid handover : Bool) (events : Nat) : (s.decidePeriod w valid handover events).kept =
    s.kept := by
  simp only [State.decidePeriod, ↓State.kept_ite, ↓apply_ite Prod.fst, ite_self, ↓State.choose_kept, ↓State.overspeed_kept, ↓State.testShot_kept,
    ↓State.pushPeriod_kept]

theorem State.nextGrid_kept (s : State) : s.nextGrid.kept = s.kept := by
  simp only [State.nextGrid, ↓State.kept_with, ↓State.refreshRails_kept]

theorem State.takeHoldPin_kept (s : State) (hold : Bool) : (s.takeHoldPin hold).kept = s.kept := by
  simp only [State.takeHoldPin, ↓State.kept_ite, ite_self, ↓State.setN_kept, ↓State.inc_kept]

theorem State.decideActive_kept (s : State) (inp : DecisionInputs) : (s.decideActive inp).kept = s.kept := by
  simp only [State.decideActive, ↓State.kept_with, ↓State.kept_ite, ite_self, ↓State.takeHoldPin_kept, ↓State.boundary_kept,
    ↓State.decidePeriod_kept, ↓State.pushTarget_kept, ↓State.takeHeld_kept, ↓State.nextGrid_kept]
  split <;>
    simp only [↓State.computeActive_kept]

theorem State.ownEpoch_kept (s : State) : s.ownEpoch.kept = s.kept := by
  simp only [State.ownEpoch, ↓State.kept_ite, ite_self, ↓State.epoch_kept]

theorem State.decideNothing_kept (s : State) (hold : Bool) : (s.decideNothing hold).kept = s.kept := by
  simp only [State.decideNothing, ↓State.nextGrid_kept, ↓State.ownEpoch_kept, ↓State.timeouts_kept, ↓State.takeHoldPin_kept]

theorem State.handoverPeriod_kept (s : State) (w : Look) : (s.handoverPeriod w).kept = s.kept := by
  unfold State.handoverPeriod
  dsimp only
  split
  · rw [State.computeActive_kept, State.decidePeriod_kept, State.boundary_kept]
  · rw [State.decidePeriod_kept, State.boundary_kept]

theorem State.adoptDecisions_kept (s : State) : s.adoptDecisions.kept = s.kept := by
  refine State.foldl_kept (fun s p => ?_) _ s
  split <;> simp only [↓State.decideFrames_kept, ↓State.putPeriod_kept]

theorem State.resumeRings_kept (s : State) : s.resumeRings.kept = s.kept := by
  simp only [State.resumeRings, ↓State.kept_with, ↓State.refreshStream_kept, ↓State.setCmds_kept, ↓State.writeProgress_kept]

theorem State.adoptPending_kept (s : State) : s.adoptPending.kept = s.kept := by
  simp only [State.adoptPending, ↓State.kept_with, ↓State.kept_ite, ite_self, ↓State.acceptEntries_kept, ↓State.foldl_kept, implies_true]

theorem State.takeOver_kept (s : State) : s.takeOver.kept = s.kept := by
  simp only [State.takeOver, ↓State.kept_with, ↓State.kept_ite, ite_self, ↓State.inc_kept, ↓State.setN_kept, ↓State.adoptDecisions_kept,
    ↓State.logEvent_kept, ↓State.refreshBlk_kept, ↓State.handoverPeriod_kept, ↓State.resumeRings_kept, ↓State.adoptPending_kept,
    ↓State.foldl_kept, implies_true]

theorem State.decideStandby_kept (s : State) (inp : DecisionInputs) : (s.decideStandby inp).kept = s.kept := by
  simp only [State.decideStandby, ↓State.kept_with, ↓State.kept_ite, ite_self, ↓State.decideActive_kept, ↓State.takeOver_kept,
    ↓State.pushTarget_kept, ↓State.timeouts_kept, ↓State.takeHoldPin_kept, ↓State.nextGrid_kept, ↓State.ownEpoch_kept]

theorem execFlashDecision_goesOn (inp : DecisionInputs) (s : State) : s.goesOn (execFlashDecision inp s) := by
  simp only [execFlashDecision, ↓State.kept_ite, State.goesOn_next, State.goesOn_ite, keptLe_refl, ite_self, ↓State.nextGrid_kept, ↓State.inc_kept,
    ↓State.at_kept, ↓State.decideStandby_kept, ↓State.decideNothing_kept, ↓State.decideActive_kept]

theorem State.checkFiring_kept (s : State) (p : Period) : (s.checkFiring p).kept = s.kept := by
  simp only [State.checkFiring, ↓State.kept_ite, ite_self, ↓State.at_kept, ↓State.putPeriod_kept, ↓State.inc_kept]

theorem execFiringCheck_goesOn (s : State) : s.goesOn (execFiringCheck s) := by
  simp only [execFiringCheck, State.goesOn_next, State.goesOn_ite, keptLe_refl]
  (repeat' split) <;>
    simp only [State.goesOn_next, keptLe_refl, ↓State.checkFiring_kept]

theorem State.raiseSync_kept (s : State) (p : Period) : (s.raiseSync p).kept = s.kept := by
  simp only [State.raiseSync, ↓State.kept_with, ↓State.at_kept, ↓State.putPeriod_kept, ↓State.emit_kept, ↓State.showInterruption_kept,
    ↓State.foldl_kept, implies_true]

theorem execFrameSync_goesOn (s : State) : s.goesOn (execFrameSync s) := by
  simp only [execFrameSync, State.goesOn_next, State.goesOn_ite, keptLe_refl]
  (repeat' split) <;>
    simp only [State.goesOn_next, keptLe_refl, ↓State.checkFiring_kept, ↓State.raiseSync_kept]

/-! ### The staging set -/

theorem State.setStaging_kept (s : State) (owner : Nat) (es : List StagedEntry) : (s.setStaging owner es).kept = s.kept := by
  simp only [State.setStaging, ↓State.kept_with, ↓State.setN_kept]

theorem State.discardStaging_kept (s : State) : s.discardStaging.kept = s.kept := by
  simp only [State.discardStaging, ↓State.setStaging_kept]

theorem State.stage_kept (s : State) (session : Nat) (o : ObjRef) (v : StagedVal) : (s.stage session o v).1.kept = s.kept := by
  simp only [State.stage, ↓State.kept_with, ↓State.kept_ite, ↓apply_ite Prod.fst, ite_self, ↓State.deny_kept, ↓State.ok_kept,
    ↓State.setStaging_kept]

theorem State.wouldBe_kept (s : State) (es : List StagedEntry) : (s.wouldBe es).kept = s.kept := by
  simp only [State.wouldBe, ↓State.putEntry_kept, ↓State.foldl_kept, implies_true]

theorem State.recordCommit_kept (s : State) (result code : Nat) (c1 c2 : ObjRef) : (s.recordCommit result code c1 c2).kept = s.kept := by
  simp only [State.recordCommit, ↓State.setN_kept]

theorem State.acceptCommit_kept (s : State) (es : List StagedEntry) (own : Bool) : (s.acceptCommit es own).kept = s.kept := by
  simp only [State.acceptCommit, ↓State.kept_ite, ite_self, ↓State.acceptEntries_kept, ↓State.recordCommit_kept, ↓State.inc_kept,
    ↓State.applyEntries_kept]

theorem State.commitEntries_kept (s : State) (es : List StagedEntry) (own : Bool) (reply : Option (Caller × Nat)) : (s.commitEntries es own
    reply).1.kept = s.kept := by
  simp only [State.commitEntries, ↓State.kept_with, ↓State.kept_ite, ↓apply_ite Prod.fst, ite_self, ↓State.acceptCommit_kept, ↓State.mirror_kept]

theorem State.commitBy_kept (s : State) (by_ : Caller) (reply : Option (Caller × Nat)) : (s.commitBy by_ reply).1.kept = s.kept := by
  simp only [State.commitBy, ↓State.kept_ite, ↓apply_ite Prod.fst, ↓State.recordCommit_kept]
  (repeat' split) <;>
    simp only [↓State.recordCommit_kept, ↓State.commitEntries_kept, ↓State.discardStaging_kept]

theorem State.commitOwn_kept (s : State) (es : List (ObjRef × StagedVal)) : (s.commitOwn es).kept = s.kept := by
  simp only [State.commitOwn, ↓State.commitEntries_kept]

theorem writeCommit_kept (s : State) (c : Caller) (v : Nat) : (writeCommit s c v).1.kept = s.kept := by
  refine State.gate_kept _ _ _ fun t => ?_
  split
  · rfl
  · have committed := t.commitBy_kept c none
    split <;> next e => rwa [e] at committed

/-! ### Head identity and gate check -/

theorem State.clearIdentity_kept (s : State) : s.clearIdentity.kept = s.kept := by
  simp only [State.clearIdentity, ↓State.kept_with, ↓State.setN_kept, ↓State.foldl_kept, implies_true]

theorem State.i2cRead_kept (s : State) (address count : Nat) : (s.i2cRead address count).kept = s.kept := by
  simp only [State.i2cRead, ↓State.kept_ite, ite_self, ↓State.emit_kept]

theorem State.i2cReads_kept (s : State) (address count : Nat) : (s.i2cReads address count).kept = s.kept := by
  simp only [State.i2cReads, ↓State.i2cRead_kept, ↓State.foldN_kept, implies_true]

theorem State.startAttach_kept (s : State) (v : Nat) : (s.startAttach v).kept = s.kept := by
  simp only [State.startAttach, ↓State.kept_with, ↓State.setN_kept, ↓State.clearIdentity_kept, ↓State.i2cRead_kept]

theorem writeHeadAttach_kept (s : State) (by_ : Caller) (v : Nat) : (writeHeadAttach s by_ v).1.kept = s.kept := by
  simp only [writeHeadAttach, ↓State.kept_ite, ↓apply_ite Prod.fst, ite_self, ↓State.gate_kept, ↓State.deny_kept, ↓State.ok_kept,
    ↓State.startAttach_kept, implies_true]

theorem execHeadAttachFactory_goesOn (by_ : Caller) (s : State) : s.goesOn (execHeadAttachFactory by_ s) := by
  simp only [execHeadAttachFactory, State.goesOn_next, keptLe_refl, ↓writeHeadAttach_kept]

theorem execHeadAttachKeep_goesOn (by_ : Caller) (s : State) : s.goesOn (execHeadAttachKeep by_ s) := by
  simp only [execHeadAttachKeep, State.goesOn_next, keptLe_refl, ↓writeHeadAttach_kept]

theorem State.attachFail_kept (s : State) (code : Nat) : (s.attachFail code).kept = s.kept := by
  simp only [State.attachFail, ↓State.kept_with, ↓State.setN_kept]

theorem State.showIdentity_kept (s : State) (i : HeadIdentity) : (s.showIdentity i).kept = s.kept := by
  simp only [State.showIdentity, ↓State.setN_kept, ↓State.set_kept]

theorem State.attachPass_kept (s : State) (m : HeadMemory) : (s.attachPass m).kept = s.kept := by
  unfold State.attachPass
  extract_lets i dead same s₁ _ s₂ table s₃
  rw [State.takeHeld_kept]
  have shown : s₂.kept = s.kept := by simp only [s₂, s₁, ↓State.kept_with, ↓State.showIdentity_kept, ↓State.setN_kept]
  rw [← shown]
  clear_value s₂
  unfold s₃
  split
  · have sent := s₂.sendBeams_kept [] true
    generalize s₂.sendBeams [] true = p at sent ⊢
    exact (State.foldl_kept (fun t _ => t.queueDisable_kept _) _ _).trans sent
  · have sent := s₂.sendBeams_kept (tableEntries table) true
    generalize s₂.sendBeams (tableEntries table) true = p at sent ⊢
    exact (State.setEdits_kept _ _).trans sent

theorem State.readMemory_kept (s : State) (m : HeadMemory) : (s.readMemory m).kept = s.kept := by
  simp only [State.readMemory, ↓State.kept_ite, ite_self, ↓State.i2cReads_kept]

theorem execHeadAttachComplete_goesOn (mem : HeadMemory) (s : State) : s.goesOn (execHeadAttachComplete mem s) := by
  simp only [execHeadAttachComplete, State.goesOn_next, State.goesOn_ite, keptLe_refl]
  (repeat' split) <;>
    simp only [State.goesOn_next, keptLe_refl, ↓State.readMemory_kept, ↓State.attachPass_kept, ↓State.attachFail_kept]

theorem execI2cStretchTimeout_goesOn (s : State) : s.goesOn (execI2cStretchTimeout s) := by
  simp only [execI2cStretchTimeout, ↓State.kept_ite, State.goesOn_next, keptLe_refl, ite_self, ↓State.attachFail_kept]

theorem writeGateCheckStart_kept (s : State) (by_ : Caller) (v : Nat) : (writeGateCheckStart s by_ v).1.kept = s.kept := by
  simp only [writeGateCheckStart, ↓State.kept_with, ↓State.kept_ite, ↓apply_ite Prod.fst, ite_self, ↓State.gate_kept, ↓State.deny_kept,
    ↓State.setN_kept, ↓State.ok_kept, implies_true]

theorem execGateCheckStart_goesOn (by_ : Caller) (s : State) : s.goesOn (execGateCheckStart by_ s) := by
  simp only [execGateCheckStart, State.goesOn_next, keptLe_refl, ↓writeGateCheckStart_kept]

theorem State.gateEnd_kept (s : State) (v : Nat) : (s.gateEnd v).kept = s.kept := by
  simp only [State.gateEnd, ↓State.kept_ite, ite_self, ↓State.lateRelease_kept, ↓State.gateStop_kept]

theorem writeGateCheckStop_kept (s : State) (by_ : Caller) (v : Nat) : (writeGateCheckStop s by_ v).1.kept = s.kept := by
  simp only [writeGateCheckStop, ↓State.kept_ite, ↓apply_ite Prod.fst, ite_self, ↓State.gate_kept, ↓State.deny_kept, ↓State.ok_kept,
    ↓State.gateEnd_kept, implies_true]

theorem execGateCheckStop_goesOn (by_ : Caller) (s : State) : s.goesOn (execGateCheckStop by_ s) := by
  simp only [execGateCheckStop, State.goesOn_next, keptLe_refl, ↓writeGateCheckStop_kept]

theorem State.stuckSuspect_kept (s : State) : s.stuckSuspect.kept = s.kept := by
  simp only [State.stuckSuspect, ↓State.kept_ite, ite_self, ↓State.logEvent_kept, ↓State.setHold_kept]

theorem execGateDarkDone_goesOn (shots : Shots) (s : State) : s.goesOn (execGateDarkDone shots s) := by
  simp only [execGateDarkDone]
  split <;>
    simp only [↓State.kept_with, State.goesOn_next, State.goesOn_ite, keptLe_refl, ite_self, ↓State.stuckSuspect_kept, ↓State.gateEnd_kept,
      ↓State.setN_kept]

theorem State.showEcode_kept (s : State) (ecode : Option Int) : (s.showEcode ecode).kept = s.kept := by
  simp only [State.showEcode]
  split <;>
    simp only [↓State.kept_ite, ite_self, ↓State.set_kept, ↓State.freeNat_kept]

theorem State.gateMeasured_kept (s : State) (g : Gate) (b : Nat) (sum : Int) : (s.gateMeasured g b sum).kept = s.kept := by
  simp only [State.gateMeasured, ↓State.kept_with, ↓State.kept_ite, ite_self, ↓State.setN_kept, ↓State.showEcode_kept, ↓State.addResults_kept,
    ↓State.gateEnd_kept]

theorem State.gateResult_kept (s : State) (g : Gate) (b : Nat) (rest : List Nat) (sum : Int) (fired : Bool) : (s.gateResult g b rest sum
    fired).kept = s.kept := by
  simp only [State.gateResult, ↓State.kept_with, ↓State.kept_ite, ite_self, ↓State.gateMeasured_kept, ↓State.gateEnd_kept]

theorem execGateBeamMeasured_goesOn (t : Nat) (shots : Shots) (s : State) : s.goesOn (execGateBeamMeasured t shots s) := by
  simp only [execGateBeamMeasured]
  (repeat' split) <;>
    simp only [State.goesOn_next, keptLe_refl, ↓State.at_kept, ↓State.gateResult_kept]

theorem writeImageStart_kept (s : State) (by_ : Caller) (v : Nat) : (writeImageStart s by_ v).1.kept = s.kept := by
  simp only [writeImageStart, ↓State.kept_with, ↓State.kept_ite, ↓apply_ite Prod.fst, ite_self, ↓State.gate_kept, ↓State.deny_kept,
    ↓State.setN_kept, ↓State.ok_kept, ↓State.modSpot_kept, implies_true]

theorem execImageStart_goesOn (by_ : Caller) (s : State) : s.goesOn (execImageStart by_ s) := by
  simp only [execImageStart, State.goesOn_next, keptLe_refl, ↓writeImageStart_kept]

theorem State.imageEnd_kept (s : State) (v : Nat) : (s.imageEnd v).kept = s.kept := by
  simp only [State.imageEnd, ↓State.kept_with, ↓State.kept_ite, ite_self, ↓State.setN_kept]

theorem State.imageDone_kept (s : State) : s.imageDone.kept = s.kept := by
  simp only [State.imageDone, ↓State.setN_kept, ↓State.imageEnd_kept, ↓State.queueDisable_kept, ↓State.addResults_kept, ↓State.foldl_kept,
    implies_true]

theorem execImagePhaseDone_goesOn (t : Nat) (s : State) : s.goesOn (execImagePhaseDone t s) := by
  simp only [execImagePhaseDone]
  split <;>
    simp only [↓State.kept_with, State.goesOn_next, State.goesOn_ite, keptLe_refl, ite_self, ↓State.at_kept, ↓State.imageEnd_kept,
      ↓State.modSpot_kept, ↓State.setN_kept, ↓State.imageDone_kept]

/-! ### Calibration -/

theorem State.queueItems_kept (s : State) (mask : Nat) : (s.queueItems mask).kept = s.kept := by
  simp only [State.queueItems, ↓State.kept_ite, ite_self, ↓State.setN_kept]

theorem writeCalStart_kept (s : State) (by_ : Caller) (mask : Nat) : (writeCalStart s by_ mask).1.kept = s.kept := by
  simp only [writeCalStart, ↓State.kept_ite, ↓apply_ite Prod.fst, ite_self, ↓State.gate_kept, ↓State.deny_kept, ↓State.ok_kept,
    ↓State.queueItems_kept, implies_true]

theorem execCalStart_goesOn (by_ : Caller) (mask : Nat) (s : State) : s.goesOn (execCalStart by_ mask s) := by
  simp only [execCalStart, State.goesOn_next, keptLe_refl, ↓writeCalStart_kept]

theorem State.calFinish_kept (s : State) (status : Nat) : (s.calFinish status).kept = s.kept := by
  simp only [State.calFinish, ↓State.lateRelease_kept, ↓State.calEnd_kept]

theorem execCalItemStart_goesOn (s : State) : s.goesOn (execCalItemStart s) := by
  simp only [execCalItemStart]
  split <;>
    simp only [↓State.kept_with, ↓State.kept_ite, State.goesOn_next, State.goesOn_ite, keptLe_refl, ite_self, ↓State.setN_kept, ↓State.calFinish_kept]

theorem execCalRefclkDone_goesOn (cycles : Nat) (refcalOk : Bool) (s : State) : s.goesOn (execCalRefclkDone cycles refcalOk s) := by
  simp only [execCalRefclkDone, State.goesOn_next, State.goesOn_ite, keptLe_refl, ite_self, ↓State.calFinish_kept, ↓State.setN_kept,
    ↓State.set_kept]

theorem execCalStrobeSkewDone_goesOn (edges : List (List Int)) (refcalOk : Bool) (s : State) : s.goesOn (execCalStrobeSkewDone edges refcalOk s)
    := by
  simp only [execCalStrobeSkewDone, State.goesOn_next, State.goesOn_ite, keptLe_refl, ite_self, ↓State.calFinish_kept, ↓State.set_kept,
    ↓State.commitOwn_kept, ↓State.foldl_kept, implies_true]

theorem execCalGateOffsetDone_goesOn (shots : Shots) (s : State) : s.goesOn (execCalGateOffsetDone shots s) := by
  simp only [execCalGateOffsetDone]
  (repeat' split) <;>
    simp only [State.goesOn_next, keptLe_refl, ↓State.calFinish_kept, ↓State.commitOwn_kept]

theorem State.calMeasured_kept {α : Type} (s : State) (dark : Shots) (lit : Option α) {f : α → State} (hf : ∀ x, (f x).kept = s.kept) :
    (s.calMeasured dark lit f).kept = s.kept := by
  unfold State.calMeasured
  split
  · exact State.calFinish_kept ..
  · split
    · simp only [↓State.kept_ite, ↓State.stuckSuspect_kept, ↓State.calFinish_kept, hf, ite_self]
    · rfl

theorem State.calGain_kept (s : State) (sum : Int) : (s.calGain sum).kept = s.kept := by
  simp only [State.calGain, ↓State.kept_ite, ↓State.calFinish_kept]
  (repeat' split) <;>
    simp only [↓State.calFinish_kept, ↓State.commitOwn_kept]

theorem execCalGateGainDone_goesOn (t : Nat) (dark shots : Shots) (s : State) : s.goesOn (execCalGateGainDone t dark shots s) := by
  simp only [execCalGateGainDone, State.goesOn_next, State.goesOn_ite, keptLe_refl, ite_self, ↓State.at_kept, ↓State.calMeasured_kept,
    ↓State.calGain_kept, implies_true]

theorem State.calBeamResults_kept (s : State) (sums : List (Nat × Int)) : (s.calBeamResults sums).kept = s.kept := by
  simp only [State.calBeamResults, ↓State.kept_ite, ite_self, ↓State.calFinish_kept, ↓State.setN_kept, ↓State.addResults_kept]

theorem execCalBeamEfficiencyDone_goesOn (t : Nat) (dark : Shots) (beams : List (Nat × Shots)) (s : State) : s.goesOn (execCalBeamEfficiencyDone t
    dark beams s) := by
  simp only [execCalBeamEfficiencyDone, State.goesOn_next, State.goesOn_ite, keptLe_refl, ite_self, ↓State.at_kept, ↓State.calMeasured_kept,
    ↓State.calBeamResults_kept, implies_true]

theorem State.i32OrFree_kept (s : State) (v : Int) : (s.i32OrFree v).2.kept = s.kept := by
  simp only [State.i32OrFree]
  split <;>
    simp only [↓State.freeNat_kept]

theorem State.calPoint_kept (s : State) (positions sums : List Int) : (s.calPoint positions sums).kept = s.kept := by
  simp only [State.calPoint]
  split <;>
    simp only [↓State.kept_with, ↓State.kept_ite, ite_self, ↓State.calFinish_kept, ↓State.i32OrFree_kept]

theorem execCalDeflScanDone_goesOn (t : Nat) (dark : Shots) (steps : List Shots) (positions : List Int) (s : State) : s.goesOn
    (execCalDeflScanDone t dark steps positions s) := by
  simp only [execCalDeflScanDone, State.goesOn_next, State.goesOn_ite, keptLe_refl, ite_self, ↓State.at_kept, ↓State.calMeasured_kept,
    ↓State.calPoint_kept, implies_true]

theorem execCalDeflSolveDone_goesOn (s : State) : s.goesOn (execCalDeflSolveDone s) := by
  simp only [execCalDeflSolveDone, ↓State.kept_with, State.goesOn_next, State.goesOn_ite, keptLe_refl, ite_self, ↓State.calFinish_kept,
    ↓State.set_kept, ↓State.commitOwn_kept, ↓State.foldl_kept, implies_true]

theorem writeDeflPointsClear_kept (s : State) (by_ : Caller) (v : Nat) : (writeDeflPointsClear s by_ v).1.kept = s.kept := by
  simp only [writeDeflPointsClear, ↓State.kept_with, ↓State.kept_ite, ↓apply_ite Prod.fst, ite_self, ↓State.gate_kept, ↓State.deny_kept,
    ↓State.ok_kept, implies_true]

theorem execDeflPointsClear_goesOn (by_ : Caller) (s : State) : s.goesOn (execDeflPointsClear by_ s) := by
  simp only [execDeflPointsClear, State.goesOn_next, keptLe_refl, ↓writeDeflPointsClear_kept]

theorem execCalCamDarkDone_goesOn (frames : List (List (List Nat))) (s : State) : s.goesOn (execCalCamDarkDone frames s) := by
  simp only [execCalCamDarkDone, State.goesOn_next, State.goesOn_ite, keptLe_refl, ite_self, ↓State.calFinish_kept, ↓State.commitOwn_kept]

theorem execCalCamFlatDone_goesOn (frames : List (List (List Nat))) (s : State) : s.goesOn (execCalCamFlatDone frames s) := by
  simp only [execCalCamFlatDone, State.goesOn_next, State.goesOn_ite, keptLe_refl, ite_self, ↓State.calFinish_kept, ↓State.commitOwn_kept]

theorem execCalCamTimeout_goesOn (s : State) : s.goesOn (execCalCamTimeout s) := by
  simp only [execCalCamTimeout, State.goesOn_next, State.goesOn_ite, keptLe_refl, ite_self, ↓State.calFinish_kept, ↓State.at_kept]

theorem State.endCalibration_kept (s : State) (all : Bool) : (s.endCalibration all).kept = s.kept := by
  simp only [State.endCalibration, ↓State.kept_with, ↓State.kept_ite, ite_self, ↓State.setN_kept, ↓State.calFinish_kept]

theorem State.abortCalibration_kept (s : State) : s.abortCalibration.kept = s.kept := by
  simp only [State.abortCalibration, ↓State.kept_ite, ite_self, ↓State.setN_kept, ↓State.imageEnd_kept, ↓State.gateEnd_kept,
    ↓State.endCalibration_kept]

theorem State.abortCamera_kept (s : State) (selector : Nat) : (s.abortCamera selector).kept = s.kept := by
  simp only [State.abortCamera, ↓State.kept_ite, ite_self, ↓State.abortCams_kept, ↓State.calFinish_kept]

theorem execRefcalPresentChange_goesOn (present : Bool) (s : State) : s.goesOn (execRefcalPresentChange present s) := by
  simp only [execRefcalPresentChange, State.goesOn_next, keptLe_refl, ↓State.setN_kept]

/-! ### The placement fit -/

theorem writeFitField_kept (s : State) (by_ : Caller) (f : Nat) : (writeFitField s by_ f).1.kept = s.kept := by
  simp only [writeFitField, ↓State.kept_with, ↓State.kept_ite, ↓apply_ite Prod.fst, ite_self, ↓State.gate_kept, ↓State.deny_kept, ↓State.ok_kept,
    ↓State.setN_kept, implies_true]

theorem execFitField_goesOn (by_ : Caller) (f : Nat) (s : State) : s.goesOn (execFitField by_ f s) := by
  simp only [execFitField, State.goesOn_next, keptLe_refl, ↓writeFitField_kept]

theorem State.showI32_kept (s : State) (o : ObjRef) (v : Option Int) : (s.showI32 o v).kept = s.kept := by
  simp only [State.showI32]
  split <;>
    simp only [↓State.kept_ite, ite_self, ↓State.set_kept, ↓State.freeNat_kept]

theorem State.showFit_kept (s : State) (o : ObjRef) (cs : Option (List Int)) : (s.showFit o cs).kept = s.kept := by
  simp only [State.showFit, ↓State.showI32_kept, ↓State.foldN_kept, implies_true]

theorem State.showResiduals_kept (s : State) (rs : Option (List Nat)) : (s.showResiduals rs).kept = s.kept := by
  simp only [State.showResiduals]
  split <;>
    simp only [↓State.freeNat_kept, ↓State.setN_kept]

theorem execFitComplete_goesOn (s : State) : s.goesOn (execFitComplete s) := by
  simp only [execFitComplete]
  split <;>
    simp only [↓State.kept_with, State.goesOn_next, keptLe_refl, ↓State.setN_kept, ↓State.showResiduals_kept, ↓State.showFit_kept]

theorem writeFitStage_kept (s : State) (by_ : Caller) (v : Nat) : (writeFitStage s by_ v).1.kept = s.kept := by
  simp only [writeFitStage, ↓State.kept_ite, ↓apply_ite Prod.fst, ite_self, ↓State.gate_kept, ↓State.deny_kept, ↓State.ok_kept, ↓State.stage_kept,
    ↓State.foldl_kept, implies_true]

theorem execFitStage_goesOn (by_ : Caller) (s : State) : s.goesOn (execFitStage by_ s) := by
  simp only [execFitStage, State.goesOn_next, keptLe_refl, ↓writeFitStage_kept]

/-! ### The job -/

theorem State.startJob_kept (s : State) : s.startJob.1.kept = s.kept := by
  simp only [State.startJob]
  split <;>
    simp only [↓State.deny_kept, ↓State.setN_kept, ↓State.ok_kept, ↓State.tellJob_kept, ↓State.setJobState_kept]

theorem State.holdJob_kept (s : State) : s.holdJob.kept = s.kept := by
  simp only [State.holdJob, ↓State.kept_with, ↓State.tellJob_kept]

theorem writeJobControl_kept (s : State) (c : Caller) (v : Nat) : (writeJobControl s c v).1.kept = s.kept := by
  refine State.gate_kept _ _ _ fun t => ?_
  split
  · rfl
  · split
    · rfl
    · split <;>
        simp only [↓apply_ite Prod.fst, ↓State.kept_ite, State.startJob_kept, State.deny_kept, State.ok_kept, State.holdJob_kept, State.tellJob_kept,
          State.setJobState_kept, State.kept_with, ite_self]

theorem execStart_goesOn (by_ : Caller) (s : State) : s.goesOn (execStart by_ s) := by
  simp only [execStart, State.goesOn_next, keptLe_refl, ↓writeJobControl_kept]

theorem execHold_goesOn (by_ : Caller) (s : State) : s.goesOn (execHold by_ s) := by
  simp only [execHold, State.goesOn_next, keptLe_refl, ↓writeJobControl_kept]

theorem execResume_goesOn (by_ : Caller) (s : State) : s.goesOn (execResume by_ s) := by
  simp only [execResume, State.goesOn_next, keptLe_refl, ↓writeJobControl_kept]

theorem execJobAutoStart_goesOn (s : State) : s.goesOn (execJobAutoStart s) := by
  simp only [execJobAutoStart, ↓State.kept_with, State.goesOn_next, State.goesOn_ite, keptLe_refl, ite_self, ↓State.startJob_kept]

theorem execProgressSnapshot_goesOn (s : State) : s.goesOn (execProgressSnapshot s) := by
  simp only [execProgressSnapshot, ↓State.kept_with, ↓State.kept_ite, State.goesOn_next, keptLe_refl, ite_self, ↓State.snapshot_kept]

theorem State.abortJobNow_kept (s : State) : s.abortJobNow.kept = s.kept := by
  simp only [State.abortJobNow, ↓State.kept_with, ↓State.kept_ite, ite_self, ↓State.setJobState_kept, ↓State.endTurnaround_kept, ↓State.setN_kept,
    ↓State.beginQuiet_kept]

theorem writeAbortJob_kept (s : State) (by_ : Caller) (v : Nat) : (writeAbortJob s by_ v).1.kept = s.kept := by
  simp only [writeAbortJob, ↓State.kept_ite, ↓apply_ite Prod.fst, ite_self, ↓State.gate_kept, ↓State.deny_kept, ↓State.ok_kept,
    ↓State.abortJobNow_kept, implies_true]

theorem State.dropWaiting_kept (s : State) : s.dropWaiting.kept = s.kept := by
  simp only [State.dropWaiting]
  split <;>
    simp only [↓State.kept_with, ↓State.passConsumer_kept, ↓State.writeStatus_kept]

theorem State.quiet_kept (s : State) : s.quiet.kept = s.kept := by
  simp only [State.quiet, ↓State.kept_with, ↓State.kept_ite, ite_self, ↓State.dropWaiting_kept, ↓State.endTurnaround_kept, ↓State.setN_kept,
    ↓State.advanceRelease_kept, ↓State.refreshSleep_kept]

theorem execAbortQuiet_goesOn (s : State) : s.goesOn (execAbortQuiet s) := by
  simp only [execAbortQuiet, State.goesOn_next, State.goesOn_ite, keptLe_refl, ite_self, ↓State.takeHeld_kept, ↓State.refreshStream_kept,
    ↓State.setJobState_kept, ↓State.quiet_kept]

/-! ### Messages of the device -/

theorem State.modSession_kept (s : State) (id : Nat) (f : Session → Session) : (s.modSession id f).kept = s.kept := by rfl

theorem State.sendBytes_kept (s : State) (via : Via) (dst : Source) (sport : Nat) (bs : Bytes) : (s.sendBytes via dst sport bs).kept = s.kept :=
    by
  simp only [State.sendBytes]
  split <;>
    simp only [↓State.kept_with, ↓State.emit_kept]

theorem State.keepResponse_kept (s : State) (via : Via) (session seq : Nat) (bs : Bytes) : (s.keepResponse via session seq bs).kept = s.kept := by
  simp only [State.keepResponse]
  split <;>
    simp only [↓State.kept_with, ↓State.kept_ite, ite_self, ↓State.modSession_kept]

theorem State.answer_kept (s : State) (via : Via) (dst : Source) (sport session seq type status : Nat) (payload : Bytes) : (s.answer via dst sport
    session seq type status payload).kept = s.kept := by
  simp only [State.answer, ↓State.sendBytes_kept, ↓State.keepResponse_kept]

theorem State.lateReply_kept (s : State) (sport : Nat) (reply : Option (Caller × Nat)) (refused : Bool) : (s.lateReply sport reply refused).kept =
    s.kept := by
  simp only [State.lateReply]
  (repeat' split) <;>
    simp only [↓State.answer_kept]

/-! ### The checkpoint -/

theorem State.sendCheckpoint_kept (s : State) : s.sendCheckpoint.kept = s.kept := by
  simp only [State.sendCheckpoint, ↓State.mirror_kept, ↓State.foldl_kept, implies_true]

/-! ### The pair -/

theorem State.sendNak_kept (s : State) (lane : Nat) : (s.sendNak lane).kept = s.kept := by
  simp only [State.sendNak, ↓State.mirror_kept]

theorem State.received_kept (s : State) (x : Receipt) {f : State → State} (hf : ∀ t, (f t).kept = t.kept) : (s.received x f).kept = s.kept := by
  unfold State.received
  simp only [↓State.kept_ite, ↓State.sendNak_kept, ↓hf, ↓State.kept_with, ite_self]

theorem State.finishCommit_kept (s : State) (a : AwaitCommit) : (s.finishCommit a).kept = s.kept := by
  simp only [State.finishCommit, ↓State.kept_with, ↓State.lateReply_kept, ↓State.acceptCommit_kept]

theorem State.confirmed_kept (s : State) (seq : Nat) : (s.confirmed seq).kept = s.kept := by
  simp only [State.confirmed]
  split <;>
    simp only [↓State.kept_with, ↓State.finishCommit_kept]

theorem State.proceedAlone_kept (s : State) : s.proceedAlone.kept = s.kept := by
  simp only [State.proceedAlone, ↓State.confirmed_kept, ↓State.foldl_kept, implies_true]

theorem State.takeConfirm_kept (s : State) (seq : Nat) : (s.takeConfirm seq).kept = s.kept := by
  simp only [State.takeConfirm, ↓State.kept_ite, ite_self, ↓State.confirmed_kept]

theorem State.confirmLate_kept (s : State) : s.confirmLate.kept = s.kept := by
  simp only [State.confirmLate, ↓State.kept_ite, ite_self, ↓State.desync_kept, ↓State.proceedAlone_kept, ↓State.setN_kept]

theorem State.peerLapse_kept (s : State) : s.peerLapse.kept = s.kept := by
  simp only [State.peerLapse, ↓State.kept_ite, ite_self, ↓State.proceedAlone_kept]

theorem State.refreshLink_kept (s : State) : s.refreshLink.kept = s.kept := by
  simp only [State.refreshLink, ↓State.kept_ite, ite_self, ↓State.setN_kept, ↓State.desync_kept, ↓State.refreshEligible_kept, ↓State.peerLapse_kept]

theorem State.lanesLocked_kept (s : State) (lanes : Nat) : (s.lanesLocked lanes).kept = s.kept := by
  simp only [State.lanesLocked, ↓State.kept_with, ↓State.refreshLink_kept, ↓State.setN_kept]

theorem execHealthSend_goesOn (s : State) : s.goesOn (execHealthSend s) := by
  simp only [execHealthSend, State.goesOn_next, State.goesOn_ite, keptLe_refl, ite_self, ↓State.mirror_kept]

theorem State.takeHealth_kept (s : State) (record : Bytes) : (s.takeHealth record).kept = s.kept := by
  simp only [State.takeHealth, ↓State.kept_with, ↓State.kept_ite, ite_self, ↓State.setN_kept, ↓State.desync_kept, ↓State.refreshLink_kept,
    ↓State.sendCheckpoint_kept]

theorem State.healthLate_kept (s : State) : s.healthLate.kept = s.kept := by
  simp only [State.healthLate, ↓State.kept_with, ↓State.kept_ite, ite_self, ↓State.refreshLink_kept, ↓State.setN_kept]

theorem State.replayFrom_kept (s : State) (lane seq : Nat) : (s.replayFrom lane seq).kept = s.kept := by
  simp only [State.replayFrom]
  split <;>
    simp only [↓State.kept_ite, ite_self, ↓State.transmit_kept, ↓State.desync_kept, ↓State.inc_kept, ↓State.foldl_kept, implies_true]

theorem execNak_goesOn (rx : Receipt) (ask : Nat × Nat) (s : State) : s.goesOn (execNak rx ask s) := by
  simp only [execNak, State.goesOn_next, keptLe_refl, ↓State.received_kept, ↓State.replayFrom_kept, implies_true]

theorem State.cutFrame_kept (s : State) (l : Nat) : (s.cutFrame l).kept = s.kept := by
  simp only [State.cutFrame]
  split <;>
    simp only [↓State.kept_ite, ite_self, ↓State.emit_kept]

theorem State.blkLost_kept (s : State) (l : Nat) : (s.blkLost l).kept = s.kept := by
  simp only [State.blkLost, ↓State.kept_with, ↓State.kept_ite, ite_self, ↓State.refreshBlk_kept, ↓State.cutFrame_kept, ↓State.retireLinks_kept]

theorem State.laneLost_kept (s : State) (port : LanePort) (lane : Nat) : (s.laneLost port lane).kept = s.kept := by
  simp only [State.laneLost, ↓State.kept_ite]
  (repeat' split) <;>
    simp only [↓State.blkLost_kept, ↓State.refreshEligible_kept, ↓State.setN_kept, ↓State.refreshLink_kept]

theorem execPeerActFall_goesOn (s : State) : s.goesOn (execPeerActFall s) := by
  simp only [execPeerActFall, ↓State.kept_with, State.goesOn_next, State.goesOn_ite, keptLe_refl, ite_self, ↓State.refreshBlk_kept]

theorem execTakeoverCheck_goesOn (s : State) : s.goesOn (execTakeoverCheck s) := by
  simp only [execTakeoverCheck, ↓State.kept_with, State.goesOn_next, State.goesOn_ite, keptLe_refl, ite_self, ↓State.halt_kept,
    ↓State.logEvent_kept]

theorem execPeerActRise_goesOn (s : State) : s.goesOn (execPeerActRise s) := by
  simp only [execPeerActRise, ↓State.kept_with, ↓State.kept_ite, State.goesOn_next, State.goesOn_ite, keptLe_refl, ite_self, ↓State.setN_kept,
    ↓State.refreshBlk_kept]

theorem execClaimDelay_goesOn (s : State) : s.goesOn (execClaimDelay s) := by
  simp only [execClaimDelay, ↓State.kept_with, State.goesOn_next, State.goesOn_ite, keptLe_refl, ite_self, ↓State.refreshBlk_kept, ↓State.setN_kept]

theorem State.dropAwait_kept (s : State) : s.dropAwait.kept = s.kept := by
  unfold State.dropAwait
  dsimp only
  rw [State.setEdits_kept, State.kept_with]
  refine State.foldl_kept (fun s a => ?_) _ s
  split <;> simp only [↓State.setStaging_kept, ↓State.lateReply_kept]

theorem State.releaseAct_kept (s : State) : s.releaseAct.kept = s.kept := by
  simp only [State.releaseAct]
  split <;>
    simp only [↓State.kept_with, ↓State.kept_ite, ite_self, ↓State.dropAwait_kept, ↓State.endCalibration_kept, ↓State.imageEnd_kept,
      ↓State.gateEnd_kept, ↓State.inc_kept, ↓State.setN_kept, ↓State.refreshEligible_kept, ↓State.refreshBlk_kept]

theorem writeHandoverRequest_kept (s : State) (by_ : Caller) (v : Nat) : (writeHandoverRequest s by_ v).1.kept = s.kept := by
  simp only [writeHandoverRequest, ↓State.kept_ite, ↓apply_ite Prod.fst, ite_self, ↓State.gate_kept, ↓State.deny_kept, ↓State.ok_kept,
    ↓State.raise_kept, implies_true]

theorem execHandoverRequest_goesOn (by_ : Caller) (s : State) : s.goesOn (execHandoverRequest by_ s) := by
  simp only [execHandoverRequest, State.goesOn_next, keptLe_refl, ↓writeHandoverRequest_kept]

theorem execReleaseMessage_goesOn (rx : Receipt) (body : Nat × Nat) (s : State) : s.goesOn (execReleaseMessage rx body s) := by
  simp only [execReleaseMessage, ↓State.kept_with, ↓State.kept_ite, State.goesOn_next, keptLe_refl, ite_self, ↓State.received_kept, implies_true]

theorem State.standbyCommit_kept (s : State) : s.standbyCommit.kept = s.kept := by
  unfold State.standbyCommit
  split <;>
    simp only [↓State.kept_with, ↓State.applyEntries_kept, ↓State.awaitStripe_kept, ↓State.foldl_kept, implies_true]

theorem State.standbyEpoch_kept (s : State) : s.standbyEpoch.kept = s.kept := by
  simp only [State.standbyEpoch, ↓State.kept_with, ↓State.kept_ite, ite_self, ↓State.inc_kept, ↓State.setBeam_kept, ↓State.recountBeams_kept,
    ↓State.dropKilled_kept, ↓State.foldl_kept, implies_true]

theorem State.standbySweep_kept (s : State) : s.standbySweep.kept = s.kept := by
  simp only [State.standbySweep, ↓State.kept_with, ↓State.effectLoads_kept, ↓State.closeColumns_kept, ↓State.retirePixels_kept,
    ↓State.retireDue_kept, ↓State.settle_kept, ↓State.endSweep_kept]

theorem State.standbyHold_kept (s : State) : s.standbyHold.kept = s.kept := by
  simp only [State.standbyHold, ↓State.kept_ite, ite_self, ↓State.takeHold_kept]

theorem State.standbyPark_kept (s : State) : s.standbyPark.kept = s.kept := by
  simp only [State.standbyPark, ↓State.kept_with, ↓State.kept_ite, ite_self, ↓State.park_kept]

theorem State.standbyArm_kept (s : State) : s.standbyArm.kept = s.kept := by
  simp only [State.standbyArm, ↓State.kept_with, ↓State.kept_ite, ite_self, ↓State.drawEnd_kept, ↓State.setJobState_kept, ↓State.setN_kept,
    ↓State.tryArm_kept]

theorem State.standbyBoundary_kept (s : State) (r : FlashRecord) : (s.standbyBoundary r).kept = s.kept := by
  simp only [State.standbyBoundary, ↓State.kept_with, ↓State.kept_ite, ite_self, ↓State.effectDecisions_kept, ↓State.thermalEffect_kept,
    ↓State.standbyCommit_kept, ↓State.countCommand_kept, ↓State.standbyEpoch_kept, ↓State.standbySweep_kept, ↓State.standbyPark_kept,
    ↓State.standbyArm_kept, ↓State.standbyHold_kept, ↓State.wakeCheck_kept, ↓State.abortJobNow_kept]

theorem State.standbyIndex_kept (s : State) (r : FlashRecord) : (s.standbyIndex r).kept = s.kept := by
  simp only [State.standbyIndex, ↓State.kept_with, ↓State.kept_ite, ite_self, ↓State.inc_kept, ↓State.passTo_kept, ↓State.issue_kept]

theorem State.standbyChecks_kept (s : State) (p : Period) (a : FlashAcc) (faults : FlashFaults) (own : List (Nat × BitVec 32)) : (s.standbyChecks
    p a faults own).kept = s.kept := by
  simp only [State.standbyChecks, ↓State.kept_ite, ite_self, ↓State.desync_kept, ↓State.windowUe_kept, ↓State.tableUe_kept, ↓State.inc_kept,
    ↓State.linkHit_kept, ↓State.laneHit_kept, ↓State.add_kept, ↓State.foldl_kept, implies_true]

theorem State.standbyFlash_kept (s : State) (r : FlashRecord) (faults : FlashFaults) : (s.standbyFlash r faults).kept = s.kept := by
  simp only [State.standbyFlash, ↓State.kept_ite, ite_self, ↓State.noteReads_kept, ↓State.standbyIndex_kept, ↓State.visitsOf_kept,
    ↓State.reachOf_kept, ↓State.pushPeriod_kept, ↓State.pushHist_kept, ↓State.standbyChecks_kept]

theorem State.takeDecision_kept (s : State) (k : Nat) (fired : BitVec 24) : (s.takeDecision k fired).kept = s.kept := by
  simp only [State.takeDecision]
  split <;>
    simp only [↓State.kept_with, ↓State.putPeriod_kept, ↓State.add_kept, ↓State.compareOwn_kept]

theorem State.alignGrid_kept (s : State) (k : Nat) : (s.alignGrid k).kept = s.kept := by
  simp only [State.alignGrid, ↓State.kept_with, ↓State.freeNat_kept]

theorem State.applyRecord_kept (s : State) (r : FlashRecord) : (s.applyRecord r).kept = s.kept := by
  simp only [State.applyRecord, ↓State.kept_with, ↓State.kept_ite, ite_self, ↓State.alignGrid_kept, ↓State.standbyFlash_kept, ↓State.setN_kept,
    ↓State.standbyBoundary_kept, ↓State.takeDecision_kept, ↓State.refreshEligible_kept, ↓State.inc_kept, ↓State.foldl_kept, implies_true]

theorem execFlashRecord_goesOn (r : FlashRecord) (bad : List Nat) (s : State) : s.goesOn (execFlashRecord r bad s) := by
  simp only [execFlashRecord, State.goesOn_next, State.goesOn_ite, keptLe_refl, ite_self, ↓State.sendNak_kept, ↓State.desync_kept, ↓State.inc_kept,
    ↓State.applyRecord_kept, ↓State.foldl_kept, implies_true]

theorem execRecordDeadline_goesOn (s : State) : s.goesOn (execRecordDeadline s) := by
  simp only [execRecordDeadline, State.goesOn_next, State.goesOn_ite, keptLe_refl, ite_self, ↓State.desync_kept, ↓State.inc_kept]

theorem State.firstStripe_kept (s : State) (n : Nat) : (s.firstStripe n).kept = s.kept := by rfl

theorem State.useBlock_kept (s : State) (t : BlockType) (ring : Ring) (index tag : Nat) (b : BlockImage) :
    (s.useBlock t ring index tag b).kept = s.kept := by
  unfold State.useBlock
  dsimp only
  generalize hs : (if t = .stripe ∧ s.lay.stripes.isEmpty then s.firstStripe b.stripe else s) = u
  have hu : u.kept = s.kept := by rw [← hs]; simp only [↓State.kept_ite, ↓State.firstStripe_kept, ite_self]
  split
  · exact hu
  · split
    · exact hu
    · next h =>
      simp only [↓State.refreshStream_kept, ↓State.kept_ite, ↓State.kept_with, ↓State.add_kept, ↓State.inc_kept, ↓State.noteSlot_kept, ite_self]
      split <;> simp only [↓State.afterRepair_kept, ↓State.repairAccepted_kept, ↓State.kept_ite, ↓State.setN_kept, State.content_kept h, hu, ite_self]

theorem execMirrorBlock_goesOn (rx : Receipt) (type : BlockType) (ring : Sys2Proof.Ring) (slot : Nat × Nat) (image : BlockImage) (s : State) :
    s.goesOn (execMirrorBlock rx type ring slot image s) := by
  simp only [execMirrorBlock, ↓State.kept_ite, State.goesOn_next, keptLe_refl, ite_self, ↓State.received_kept, ↓State.useBlock_kept, implies_true]

theorem State.forwardIndex_kept (s : State) (o : ObjRef) (v : Nat) : (s.forwardIndex o v).kept = s.kept := by
  simp only [State.forwardIndex, ↓State.kept_ite, ite_self, ↓State.setN_kept]

theorem State.unstore_kept (s : State) (p : Pend) : (s.unstore p).kept = s.kept := by
  simp only [State.unstore, ↓State.kept_with, ↓State.kept_ite, ite_self]

theorem State.useEvent_kept (s : State) (x1 : StreamEvent) : (s.useEvent x1).kept = s.kept := by
  simp only [State.useEvent]
  (repeat' split) <;>
    simp only [↓State.kept_with, ↓State.forwardIndex_kept, ↓State.setN_kept, ↓State.addPendingCell_kept, ↓State.noteRejected_kept,
      ↓State.unstore_kept, ↓State.giveUpArea_kept]

theorem execStreamEvent_goesOn (m : Receipt × StreamEvent) (s : State) : s.goesOn (execStreamEvent m s) := by
  simp only [execStreamEvent, ↓State.kept_ite, State.goesOn_next, keptLe_refl, ite_self, ↓State.received_kept, ↓State.refreshStream_kept,
    ↓State.useEvent_kept, implies_true]

theorem State.sendConfirm_kept (s : State) (seq : Nat) : (s.sendConfirm seq).kept = s.kept := by
  simp only [State.sendConfirm, ↓State.mirror_kept]

theorem execMirrorCommit_goesOn (rx : Receipt) (entries : List (ObjRef × Int)) (s : State) : s.goesOn (execMirrorCommit rx entries s) := by
  simp only [execMirrorCommit, ↓State.kept_with, ↓State.kept_ite, State.goesOn_next, keptLe_refl, ite_self, ↓State.received_kept,
    ↓State.sendConfirm_kept, implies_true]

theorem State.takeBeams_kept (s : State) (seq : Nat) (changes : List BeamChange) (epoch : Nat) (identity : Option HeadIdentity) :
    (s.takeBeams seq changes epoch identity).kept = s.kept := by
  unfold State.takeBeams
  split
  · rfl
  · dsimp only
    rw [State.sendConfirm_kept]
    split
    · simp only [↓State.showIdentity_kept, ↓State.kept_with, ↓State.setN_kept]
    · exact (State.foldl_kept (fun s c => s.queueDisable_kept _) _ _).trans rfl

theorem execBeamChanges_goesOn (rx : Receipt) (changes : List BeamChange) (epoch : Nat) (identity : Option HeadIdentity) (s : State) : s.goesOn
    (execBeamChanges rx changes epoch identity s) := by
  simp only [execBeamChanges, State.goesOn_next, keptLe_refl, ↓State.received_kept, ↓State.takeBeams_kept, implies_true]

theorem State.startSync_kept (s : State) : s.startSync.kept = s.kept := by
  simp only [State.startSync, ↓State.kept_with, ↓State.clearJob_kept, ↓State.setN_kept]

theorem writeSyncStart_kept (s : State) (by_ : Caller) (v : Nat) : (writeSyncStart s by_ v).1.kept = s.kept := by
  simp only [writeSyncStart, ↓State.kept_ite, ↓apply_ite Prod.fst, ite_self, ↓State.gate_kept, ↓State.deny_kept, ↓State.ok_kept,
    ↓State.startSync_kept, implies_true]

theorem execSyncStart_goesOn (by_ : Option Caller) (s : State) : s.goesOn (execSyncStart by_ s) := by
  simp only [execSyncStart]
  split <;>
    simp only [↓State.kept_ite, State.goesOn_next, keptLe_refl, ite_self, ↓writeSyncStart_kept, ↓State.startSync_kept]

theorem State.adoptJob_kept (s : State) (v : Nat) : (s.adoptJob v).kept = s.kept := by
  simp only [State.adoptJob, ↓State.kept_ite, ite_self, ↓State.setJobState_kept, ↓State.setN_kept]

theorem State.adoptProgress_kept (s : State) (retired : Nat) : (s.adoptProgress retired).kept = s.kept := by rfl

theorem State.storeItem_kept (s : State) (d : CheckpointData) : (s.storeItem d).1.kept = s.kept := by
  unfold State.storeItem
  split
  · dsimp only
    rw [State.afterEntries_kept, State.kept_with]
    split <;> simp only [↓State.adoptJob_kept, ↓State.foldl_kept, ↓State.set_kept, implies_true]
  · dsimp only
    rw [State.setCmds_kept]
    split <;> simp only [↓State.showIdentity_kept, ↓State.kept_with, ↓State.setN_kept]
  · simp only [↓State.recountBeams_kept, ↓State.setN_kept]
    exact State.foldl_kept (fun s c => s.setBeam_kept _ _) _ _
  · simp only [↓State.kept_with, ↓State.setN_kept]
    rw [State.foldl_kept (fun s e => s.useEvent_kept e), State.useEvent_kept]
  · simp only [↓State.setN_kept, ↓State.useBlock_kept]
  · rfl
  · simp only [↓State.kept_ite, ↓State.kept_with, ↓State.storeTile_kept, ite_self]
  · rfl
  · simp only [↓State.adoptProgress_kept]
    exact State.foldl_kept (fun s e => s.set_kept _ _) _ _

theorem State.takeItem_kept (s : State) (data : CheckpointData) (bytes : Nat) : (s.takeItem data bytes).kept = s.kept := by
  simp only [State.takeItem, ↓State.kept_ite, ite_self, ↓State.storeItem_kept, ↓State.setN_kept, ↓State.add_kept]

theorem execCheckpoint_goesOn (rx : Receipt) (chunk : CheckpointData × Nat) (s : State) : s.goesOn (execCheckpoint rx chunk s) := by
  simp only [execCheckpoint, State.goesOn_next, keptLe_refl, ↓State.received_kept, ↓State.takeItem_kept, implies_true]

theorem State.restoreFlow_kept (s : State) : s.restoreFlow.kept = s.kept := by rfl

theorem execSyncComplete_goesOn (s : State) : s.goesOn (execSyncComplete s) := by
  simp only [execSyncComplete, ↓State.kept_with, State.goesOn_next, State.goesOn_ite, keptLe_refl, ite_self, ↓State.setN_kept,
    ↓State.restoreFlow_kept, ↓State.refreshEligible_kept]

/-! ### The core domain -/

theorem State.abortAllDma_le {a : Kept} {s : State} (h : keptLe a s.kept) : keptLe a s.abortAllDma.kept := State.abortDma_le _ h

theorem State.abortAllCameras_kept (s : State) : s.abortAllCameras.kept = s.kept := by
  simp only [State.abortAllCameras, ↓State.setN_kept, ↓State.abortCamera_kept]

theorem State.stopCalibration_kept (s : State) : s.stopCalibration.kept = s.kept := by
  simp only [State.stopCalibration, ↓State.imageEnd_kept, ↓State.gateEnd_kept, ↓State.endCalibration_kept]

theorem State.linksDown_kept (s : State) : s.linksDown.kept = s.kept := by
  simp only [State.linksDown, ↓State.kept_ite, ite_self, ↓State.setN_kept, ↓State.driveSysref_kept, ↓State.refreshLink_kept, ↓State.foldN_kept,
    implies_true]

theorem State.clearUnits_kept (s : State) : s.clearUnits.kept = s.kept := by rfl

theorem State.clearOnChip_kept (s : State) : s.clearOnChip.kept = s.kept := by
  simp only [State.clearOnChip, ↓State.kept_with, ↓State.setN_kept, ↓State.clearUnits_kept, ↓State.foldN_kept, implies_true]

theorem State.attachAfterWake_kept (s : State) : s.attachAfterWake.kept = s.kept := by rfl

theorem State.attachAtStart_kept (s : State) : s.attachAtStart.kept = s.kept := by rfl

theorem State.readyEntered_kept (s : State) : s.readyEntered.kept = s.kept := by
  simp only [State.readyEntered, ↓State.kept_with, ↓State.kept_ite, ite_self, ↓State.enterReady_kept, ↓State.startAttach_kept]

theorem State.startGrid_kept (s : State) : s.startGrid.kept = s.kept := by rfl

/-! ### Reset, supplies, clocks and power -/

/-- A reset keeps one-time-programmable memory and lists no byte of DRAM (R391). -/
theorem State.resetAll_le {a : Kept} {s : State} (h : keptLe a s.kept) : keptLe a s.resetAll.kept := ⟨h.1, fun _ => rfl⟩

theorem execPorstNAssert_goesOn (s : State) : s.goesOn (execPorstNAssert s) := State.goesOn_next.2 (State.resetAll_le (keptLe_refl _))

theorem execVaonGood_goesOn (mainGood backupGood : BitVec 5) (s : State) : s.goesOn (execVaonGood mainGood backupGood s) := by
  simp only [execVaonGood, ↓State.kept_with, State.goesOn_next, State.goesOn_ite, keptLe_refl, ite_self]

theorem execVaonLoss_goesOn (s : State) : s.goesOn (execVaonLoss s) := State.goesOn_next.2 (State.resetAll_le (s := s) (keptLe_refl _))

theorem State.claimAtStart_kept (s : State) : s.claimAtStart.kept = s.kept := by
  simp only [State.claimAtStart, ↓State.kept_with, ↓State.kept_ite, ite_self, ↓State.setN_kept]

theorem execPorstNDeassert_goesOn (straps : Straps) (peerAct : Bool) (mainGood backupGood : BitVec 5) (s : State) :
    s.goesOn (execPorstNDeassert straps peerAct mainGood backupGood s) := by
  unfold execPorstNDeassert
  split
  · exact State.goesOn_next.2 (keptLe_refl _)
  · rw [State.goesOn_next, State.claimAtStart_kept, State.kept_with]
    exact State.resetAll_le (s := s) (keptLe_refl _)

theorem execPllLock_goesOn (pll : Pll) (s : State) : s.goesOn (execPllLock pll s) := by
  simp only [execPllLock, State.goesOn_next, State.goesOn_ite, keptLe_refl, ite_self, ↓State.enterPhase_kept]
  (repeat' split) <;>
    simp only [↓State.kept_with, keptLe_refl, ↓State.startGrid_kept, ↓State.refreshBlk_kept]

theorem State.supplyFault_kept (s : State) (rail : Nat) : (s.supplyFault rail).kept = s.kept := by
  simp only [State.supplyFault, ↓State.raise_kept, ↓State.inc_kept]

theorem execCorePllLoss_goesOn (s : State) : s.goesOn (execCorePllLoss s) := by
  simp only [execCorePllLoss, ↓State.kept_with, State.goesOn_next, State.goesOn_ite, keptLe_refl, ite_self, ↓State.inc_kept,
    ↓State.supplyFault_kept, ↓State.refreshDefl_kept]

theorem execSupplyFault_goesOn (rail : Nat) (cause : SupplyCause) (s : State) : s.goesOn (execSupplyFault rail cause s) := by
  simp only [execSupplyFault, State.goesOn_next, State.goesOn_ite, keptLe_refl]
  (repeat' split) <;>
    simp only [State.goesOn_next, keptLe_refl, ↓State.supplyFault_kept, ↓State.setN_kept]

theorem State.trip_kept (s : State) : s.trip.kept = s.kept := by
  simp only [State.trip, ↓State.kept_with, ↓State.refreshBlk_kept, ↓State.refreshDefl_kept, ↓State.setN_kept]

theorem execSupplyTrip_goesOn (x0 : Nat) (s : State) : s.goesOn (execSupplyTrip x0 s) := by
  simp only [execSupplyTrip, State.goesOn_next, State.goesOn_ite, keptLe_refl, ite_self, ↓State.trip_kept]

theorem execTjSample_goesOn (temps : List Int) (s : State) : s.goesOn (execTjSample temps s) := by
  simp only [execTjSample, State.goesOn_next, State.goesOn_ite, keptLe_refl]
  (repeat' split) <;>
    simp only [↓State.kept_with, State.goesOn_next, keptLe_refl, ↓State.set_kept, ↓State.logEvent_kept, ↓State.raise_kept, ↓State.trip_kept,
      ↓State.inc_kept]

theorem State.beginSwitch_kept (s : State) (rail src : Nat) : (s.beginSwitch rail src).kept = s.kept := by rfl

theorem execRailSourceFault_goesOn (rail : Nat) (s : State) : s.goesOn (execRailSourceFault rail s) := by
  simp only [execRailSourceFault, ↓State.kept_with, State.goesOn_next, State.goesOn_ite, keptLe_refl, ite_self, ↓State.beginSwitch_kept]

theorem execSwitchoverEngage_goesOn (rail : Nat) (s : State) : s.goesOn (execSwitchoverEngage rail s) := by
  simp only [execSwitchoverEngage]
  split <;>
    simp only [↓State.kept_with, State.goesOn_next, keptLe_refl, ↓State.logEvent_kept, ↓State.inc_kept, ↓State.setN_kept]

theorem execSupplyReturn_goesOn (rail : Nat) (s : State) : s.goesOn (execSupplyReturn rail s) := by
  simp only [execSupplyReturn, ↓State.kept_with, State.goesOn_next, State.goesOn_ite, keptLe_refl, ite_self, ↓State.beginSwitch_kept]

theorem writeSupplyReturnNow_kept (s : State) (by_ : Caller) (mainGood : BitVec 5) : (writeSupplyReturnNow s by_ mainGood).1.kept = s.kept := by
  simp only [writeSupplyReturnNow, ↓State.kept_with, ↓State.kept_ite, ↓apply_ite Prod.fst, ite_self, ↓State.gate_kept, ↓State.deny_kept,
    ↓State.ok_kept, ↓State.beginSwitch_kept, ↓State.foldl_kept, implies_true]

theorem execSupplyReturnNow_goesOn (by_ : Caller) (mainGood : BitVec 5) (s : State) : s.goesOn (execSupplyReturnNow by_ mainGood s) := by
  simp only [execSupplyReturnNow, State.goesOn_next, keptLe_refl, ↓writeSupplyReturnNow_kept]

theorem execVaonMainFail_goesOn (s : State) : s.goesOn (execVaonMainFail s) := by
  simp only [execVaonMainFail, State.goesOn_next, State.goesOn_ite, keptLe_refl, ite_self, ↓State.inc_kept, ↓State.setN_kept]

theorem execVaonMainReturn_goesOn (s : State) : s.goesOn (execVaonMainReturn s) := by
  simp only [execVaonMainReturn, State.goesOn_next, State.goesOn_ite, keptLe_refl, ite_self, ↓State.inc_kept, ↓State.setN_kept]

theorem State.stopCore_kept (s : State) : s.stopCore.kept = s.kept := by
  simp only [State.stopCore, ↓State.kept_with, ↓State.kept_ite, ite_self, ↓State.setN_kept, ↓State.foldl_kept, implies_true]

theorem State.quiesce_le {a : Kept} {s : State} (h : keptLe a s.kept) : keptLe a s.quiesce.kept := by
  unfold State.quiesce
  rw [State.linksDown_kept, State.stopCore_kept, State.stopCalibration_kept, State.abortAllCameras_kept]
  exact State.abortAllDma_le h

theorem writePowerControl_le {a : Kept} {s : State} (c : Caller) (h : keptLe a s.kept) : keptLe a (writePowerControl s c).1.kept := by
  refine State.gate_le _ _ (fun t ht => ?_) h
  split
  · exact ht
  · split
    · exact ht
    · rw [State.ok_kept, State.kept_with]; exact State.quiesce_le ht

theorem writePowerDeep_le {a : Kept} {s : State} (c : Caller) (h : keptLe a s.kept) : keptLe a (writePowerDeep s c).1.kept := by
  refine State.gate_le _ _ (fun t ht => ?_) h
  split
  · exact ht
  · split
    · exact ht
    · rw [State.ok_kept, State.kept_with]; exact .ite ht (State.quiesce_le ht)

theorem writePowerReady_kept (s : State) (by_ : Caller) : (writePowerReady s by_).1.kept = s.kept := by
  simp only [writePowerReady, ↓State.kept_with, ↓State.kept_ite, ↓apply_ite Prod.fst, ite_self, ↓State.gate_kept, ↓State.deny_kept, ↓State.ok_kept,
    implies_true]

theorem execPowerRequestDeep_goesOn (c : Caller) (s : State) : s.goesOn (execPowerRequestDeep c s) :=
  State.goesOn_next.2 (writePowerDeep_le _ (keptLe_refl _))

theorem execPowerRequestControl_goesOn (c : Caller) (s : State) : s.goesOn (execPowerRequestControl c s) :=
  State.goesOn_next.2 (writePowerControl_le _ (keptLe_refl _))

theorem execPowerRequestReady_goesOn (by_ : Caller) (s : State) : s.goesOn (execPowerRequestReady by_ s) := by
  simp only [execPowerRequestReady, State.goesOn_next, keptLe_refl, ↓writePowerReady_kept]

theorem State.leaveSelfRefresh_kept (s : State) : s.leaveSelfRefresh.kept = s.kept := by
  simp only [State.leaveSelfRefresh, ↓State.kept_ite, ite_self, ↓State.setN_kept, ↓State.foldl_kept, implies_true]

theorem State.takeKeptProducers_kept (s : State) : s.takeKeptProducers.kept = s.kept := by
  simp only [State.takeKeptProducers, ↓State.kept_with, ↓State.writeProducer_kept, ↓State.foldl_kept, implies_true]

theorem State.startWake_kept (s : State) (mask : Nat) : (s.startWake mask).kept = s.kept := by
  simp only [State.startWake, ↓State.kept_with, ↓State.kept_ite, ite_self, ↓State.setN_kept, ↓State.foldl_kept, implies_true]

theorem State.enterDeep_kept (s : State) : s.enterDeep.kept = s.kept := by
  simp only [State.enterDeep, ↓State.kept_with, ↓State.clearOnChip_kept, ↓State.setN_kept, ↓State.inc_kept]

theorem execPowerTransitionDone_goesOn (s : State) : s.goesOn (execPowerTransitionDone s) := by
  simp only [execPowerTransitionDone]
  split <;>
    simp only [↓State.kept_with, ↓State.kept_ite, State.goesOn_next, State.goesOn_ite, keptLe_refl, ite_self, ↓State.enterDeep_kept,
      ↓State.startWake_kept, ↓State.stopCore_kept, ↓State.setN_kept, ↓State.takeKeptProducers_kept, ↓State.leaveSelfRefresh_kept,
      ↓State.readyEntered_kept]

theorem execWake_goesOn (source : Nat) (s : State) : s.goesOn (execWake source s) := by
  simp only [execWake, ↓State.kept_with, State.goesOn_next, State.goesOn_ite, keptLe_refl, ite_self, ↓State.startWake_kept]

/-- DRAM keeps its bytes when the rest of the save is lost (R390). -/
theorem execWakeRestoreDone_goesOn (saveReadable : Bool) (s : State) : s.goesOn (execWakeRestoreDone saveReadable s) := by
  unfold execWakeRestoreDone
  split
  · exact State.goesOn_next.2 (keptLe_refl _)
  · split
    · rw [State.goesOn_next, State.attachAfterWake_kept, State.kept_with]; exact keptLe_refl _
    · rw [State.goesOn_next, State.afterFill_kept, State.setN_kept, State.setN_kept,
        State.foldl_kept fun b i => by rw [State.setN_kept, State.setN_kept]]
      exact keptLe_refl _

theorem execFirmwareReady_goesOn (net : Option NetConfig) (s : State) : s.goesOn (execFirmwareReady net s) := by
  simp only [execFirmwareReady, ↓State.kept_with, ↓State.kept_ite, State.goesOn_next, State.goesOn_ite, keptLe_refl, ite_self, ↓State.setN_kept,
    ↓State.takeAddresses_kept, ↓State.stopCore_kept, ↓State.attachAtStart_kept, ↓State.readyEntered_kept]

theorem execCtlLinkChange_goesOn (port : Nat) (up : Bool) (s : State) : s.goesOn (execCtlLinkChange port up s) := by
  simp only [execCtlLinkChange, State.goesOn_next, State.goesOn_ite, keptLe_refl, ite_self, ↓State.setN_kept]

/-! ### Self-supervision -/

theorem State.scrubWindow_kept (s : State) (r : Nat) (f : WordFault) : (s.scrubWindow r f).kept = s.kept := by
  unfold State.scrubWindow
  split
  · rfl
  · extract_lets place w
    split
    · rfl
    · generalize sramOutcome _ _ _ = o
      split
      · rfl
      · rfl
      · exact State.sramCorrected_kept ..
      · rw [State.desync_kept]
        generalize place = p
        cases p
        · exact State.windowUe_kept ..
        · rw [State.kept_with, State.windowUe_kept]

theorem State.scrubTable_kept (s : State) (f : WordFault) : (s.scrubTable f).kept = s.kept := by
  simp only [State.scrubTable, ↓State.kept_ite]
  (repeat' split) <;>
    simp only [↓State.sramCorrected_kept, ↓State.tableUe_kept]

theorem execSramScrub_goesOn (met : List (Nat × WordFault) × List MarkFault) (s : State) : s.goesOn (execSramScrub met s) := by
  simp only [execSramScrub, ↓State.kept_ite, State.goesOn_next, State.goesOn_ite, keptLe_refl, ite_self, ↓State.scrubWindow_kept,
    ↓State.scrubTable_kept, ↓State.readMarks_kept, ↓State.foldl_kept, implies_true]

theorem execMemtestRead_goesOn (words : Nat) (faults : List WordFault) (s : State) : s.goesOn (execMemtestRead words faults s) := by
  simp only [execMemtestRead, State.goesOn_next, State.goesOn_ite, keptLe_refl, ite_self, ↓State.add_kept,
    ↓State.failRow_kept, ↓State.foldl_kept, implies_true]

theorem State.deliverMatch_kept (s : State) (owner : Nat) : (s.deliverMatch owner).kept = s.kept := by
  simp only [State.deliverMatch]
  split <;>
    simp only [↓State.kept_ite, ite_self, ↓State.ttoPulse_kept, ↓State.strobePulse_kept,
      ↓State.queueItems_kept]

theorem execComparatorMatch_goesOn (c : Nat) (s : State) : s.goesOn (execComparatorMatch c s) := by
  simp only [execComparatorMatch, State.goesOn_next, State.goesOn_ite, keptLe_refl]
  (repeat' split) <;>
    simp only [State.goesOn_next, keptLe_refl, ↓State.at_kept,
      ↓State.deliverMatch_kept, ↓State.comparatorStep_kept]

theorem execHealthIndexUpdate_goesOn (s : State) : s.goesOn (execHealthIndexUpdate s) := by
  simp only [execHealthIndexUpdate, ↓State.kept_with, State.goesOn_next, keptLe_refl, ↓State.freeNat_kept, ↓State.setN_kept, ↓State.foldN_kept, implies_true]

/-! ### Reading objects -/

theorem State.scalar_kept (s : State) (o : ObjRef) : (s.scalar o).1.kept = s.kept := by
  simp only [State.scalar, ↓State.kept_ite, ↓apply_ite Prod.fst, ite_self, ↓State.freeNat_kept]

theorem State.readBytes_kept (s : State) (o : ObjRef) (staged : Bool) : (s.readBytes o staged).1.kept = s.kept := by
  unfold State.readBytes
  split
  · rfl
  · split
    · rfl
    · split
      · rfl
      · split
        · rfl
        · dsimp only
          split
          · rfl
          · simp only [↓State.kept_ite, State.set_kept, State.scalar_kept, ite_self]

theorem State.readObject_kept (s : State) (via : Via) (o : ObjRef) (staged : Bool) : (s.readObject via o staged).1.kept = s.kept := by
  unfold State.readObject
  dsimp only
  split
  · rfl
  · exact State.readBytes_kept ..

theorem execRcRead_goesOn (c : Caller) (o : ObjRef) (s : State) : s.goesOn (execRcRead c o s) := by
  unfold execRcRead
  split
  · exact State.goesOn_next.2 (keptLe_refl _)
  · rw [State.goesOn_next, State.emit_kept, State.readBytes_kept]; exact keptLe_refl _

/-! ### Writing objects -/

theorem State.setSessions_kept (s : State) (l : List Session) : (s.setSessions l).kept = s.kept := by
  simp only [State.setSessions, ↓State.kept_with, ↓State.setN_kept]

theorem State.endSession_kept (s : State) (id : Nat) : (s.endSession id).kept = s.kept := by
  simp only [State.endSession, ↓State.kept_ite, ite_self, ↓State.setSessions_kept, ↓State.discardStaging_kept]

theorem writeSessionClose_kept (s : State) (by_ : Caller) (id : Nat) : (writeSessionClose s by_ id).1.kept = s.kept := by
  simp only [writeSessionClose, ↓State.kept_ite, ↓apply_ite Prod.fst, ite_self, ↓State.gate_kept, ↓State.deny_kept, ↓State.ok_kept,
    ↓State.endSession_kept, implies_true]

theorem execSessionClose_goesOn (by_ : Caller) (id : Nat) (s : State) : s.goesOn (execSessionClose by_ id s) := by
  simp only [execSessionClose, ↓State.kept_ite, State.goesOn_next, keptLe_refl, ite_self, ↓writeSessionClose_kept]

theorem execSessionTimeout_goesOn (id : Nat) (s : State) : s.goesOn (execSessionTimeout id s) := by
  simp only [execSessionTimeout, State.goesOn_next, keptLe_refl, ↓State.endSession_kept]

theorem writeAuthKey_kept (s : State) (by_ : Caller) (key : Bytes) : (writeAuthKey s by_ key).1.kept = s.kept := by
  simp only [writeAuthKey, ↓State.kept_with, ↓State.kept_ite, ↓apply_ite Prod.fst, ite_self, ↓State.gate_kept, ↓State.deny_kept, ↓State.ok_kept,
    implies_true]

theorem execAuthKey_goesOn (by_ : Caller) (key : Bytes) (s : State) : s.goesOn (execAuthKey by_ key s) := by
  simp only [execAuthKey, ↓State.kept_ite, State.goesOn_next, keptLe_refl, ite_self, ↓writeAuthKey_kept]

theorem writePowerRequest_le {a : Kept} {s : State} (c : Caller) (v : Nat) (h : keptLe a s.kept) : keptLe a (writePowerRequest s c v).1.kept := by
  unfold writePowerRequest
  split
  · exact writePowerDeep_le _ h
  · exact writePowerControl_le _ h
  · rwa [writePowerReady_kept]

theorem writeImageCommand_kept (s : State) (by_ : Caller) (v : Nat) : (writeImageCommand s by_ v).1.kept = s.kept := by
  simp only [writeImageCommand]
  split <;>
    simp only [↓writeImageVerify_kept, ↓writeImageBoot_kept, ↓writeImageProgram_kept]

theorem State.writeIndexed_le {a : Kept} {s : State} (c : Caller) (o : ObjRef) (v : Nat) (h : keptLe a s.kept) :
    keptLe a (s.writeIndexed c o v).1.kept := by
  unfold State.writeIndexed
  dsimp only
  split
  · exact writeChStart_le _ _ _ _ h
  · rwa [apply_ite Prod.fst, State.kept_ite, writeCuPoly_kept, writeCuInit_kept, ite_self]
  · rwa [writeCuValue_kept]
  · rwa [writeCuFeed_kept]
  · rwa [writeCuFeed_kept]
  · rwa [writeCuFeed_kept]
  · rwa [writeCamRestart_kept]
  · rwa [writeTciAck_kept]
  · rwa [State.ok_kept, State.setN_kept]

theorem State.writeEffect_le {a : Kept} {s : State} (c : Caller) (o : ObjRef) (v : Int) (bs : Bytes) (h : keptLe a s.kept) :
    keptLe a (s.writeEffect c o v bs).1.kept := by
  unfold State.writeEffect
  simp only [↓apply_ite Prod.fst, ↓State.kept_ite, writeSessionClose_kept, State.deny_kept, State.ok_kept, State.refreshStream_kept, State.set_kept,
    State.setN_kept, State.doorbell_kept, writeCommit_kept, writeAbortJob_kept, State.abortCamera_kept, State.abortCalibration_kept,
    State.discardStaging_kept, writeJobControl_kept, writeFitField_kept, writeFitStage_kept, writeTurnaroundRelease_kept, writeHeadAttach_kept,
    writeGateCheckStart_kept, writeGateCheckStop_kept, writeImageStart_kept, writeBeamEdit_kept, writeDefectAck_kept, writeSyncStart_kept,
    writeHandoverRequest_kept, writeRemapAdd_kept, writeTimeIncrement_kept, writeTimeSet_kept, writeTimeStep_kept, writeCalStart_kept,
    writeDeflPointsClear_kept, writeImageCommand_kept, writeNetSave_kept, writeSupplyReturnNow_kept, ite_self]
  simp only [apply_ite (keptLe a), h, State.abortDmaBy_le _ h, State.abortHosts_le _ h, writeHjResume_le _ _ h, writeRollbackRaise_le _ h,
    writeKeyRevoke_le _ _ h, writePowerRequest_le _ _ h, State.writeIndexed_le _ _ _ h, ite_self]

theorem State.writeEntry_le {a : Kept} {s : State} (c : Caller) (o : ObjRef) (type : Nat) (bs : Bytes) (h : keptLe a s.kept) :
    keptLe a (s.writeEntry c o type bs).1.kept := by
  unfold State.writeEntry
  dsimp only
  split
  · exact h
  · split
    · exact h
    · split
      · exact h
      · split
        · exact h
        · split
          · rwa [writeAuthKey_kept]
          · split
            · exact h
            · split
              · exact h
              · split
                · exact h
                · split
                  · exact h
                  · split
                    · rwa [State.stage_kept]
                    · exact State.writeEffect_le _ _ _ _ h

theorem State.writeBlockAt_kept (s : State) (c : Caller) (o off : Nat) (bs : Bytes) : (s.writeBlockAt c o off bs).1.kept = s.kept := by
  unfold State.writeBlockAt
  split
  · rfl
  · split
    · rfl
    · split
      · rfl
      · simp only [↓apply_ite Prod.fst, ↓State.kept_ite, State.deny_kept, State.ok_kept, State.kept_with, writeMfRequest_kept, State.stage_kept, ite_self]

theorem execObjectWrite_goesOn (c : Caller) (o type : Nat) (value : Bytes) (s : State) : s.goesOn (execObjectWrite c o type value s) :=
  State.goesOn_next.2 (.ite (State.writeEntry_le _ _ _ _ (keptLe_refl _)) (keptLe_refl _))

theorem State.writeAbort_le {a : Kept} {s : State} (c : Caller) (o : ObjRef) (v : Nat) (h : keptLe a s.kept) : keptLe a (s.writeAbort c o v).kept := by
  unfold State.writeAbort
  split
  · split
    · exact .ite (State.writeEffect_le _ _ _ _ h) h
    · exact h
  · exact h

theorem State.abortFunction_le {a : Kept} {s : State} (fn sel : Nat) (h : keptLe a s.kept) : keptLe a (s.abortFunction fn sel).1.kept := by
  unfold State.abortFunction
  split
  · exact h
  · split
    · exact h
    · split
      · exact h
      · split
        · rwa [apply_ite Prod.fst, State.kept_ite, State.deny_kept, State.ok_kept, State.abortJobNow_kept, ite_self]
        · exact State.abortDmaBy_le _ h
        · exact State.abortHosts_le _ h
        · rwa [State.ok_kept, State.abortCamera_kept]
        · rwa [State.ok_kept, State.abortCalibration_kept]
        · rwa [State.ok_kept, State.discardStaging_kept]
        · exact h

/-! ### Faceplate -/

theorem State.discards_kept {s t : State} {via : Via} {type : Nat} {d : Datagram} (h : s.discards via type d = some t) : t.kept = s.kept := by
  unfold State.discards at h
  split at h
  · cases h; rfl
  · split at h
    · cases h; rfl
    · split at h
      · cases h; exact State.inc_kept ..
      · split at h
        · cases h; exact State.inc_kept ..
        · cases h

theorem State.newId_kept (s : State) : s.newId.2.kept = s.kept := by
  simp only [State.newId, ↓State.freeNat_kept]

theorem State.replyPlain_kept (s : State) (via : Via) (dst : Source) (session seq type status : Nat) (payload : Bytes) : (s.replyPlain via dst
    session seq type status payload).kept = s.kept := by
  simp only [State.replyPlain, ↓State.sendBytes_kept, ↓State.inc_kept]

theorem State.openSession_kept (s : State) (via : Via) (src : Source) (nonce : Bytes) (tagged : Bool) : (s.openSession via src nonce tagged).kept
    = s.kept := by
  simp only [State.openSession]
  split <;>
    simp only [↓State.kept_ite, ite_self, ↓State.sendBytes_kept, ↓State.inc_kept, ↓State.replyPlain_kept, ↓State.newId_kept, ↓State.freeBytes_kept,
      ↓State.setSessions_kept]

theorem execSessionOpen_goesOn (via : Via) (src : Source) (nonce : Bytes) (tagged : Bool) (s : State) : s.goesOn (execSessionOpen via src nonce
    tagged s) := by
  simp only [execSessionOpen, State.goesOn_next, State.goesOn_ite, keptLe_refl, ite_self, ↓State.inc_kept, ↓State.openSession_kept]

theorem State.readList_kept (s : State) (via : Via) (staged : Bool) (l : List ObjRef) : (s.readList via staged l).1.kept = s.kept := by
  induction l generalizing s with
  | nil => rfl
  | cons o r ih => exact (ih _).trans (State.readObject_kept ..)

/-- How a message of a TYPE is executed keeps what every step keeps. -/
def Runner.Keeps (run : Runner) : Prop := ∀ {a : Kept} (s : State) (m : Message), keptLe a s.kept → keptLe a (run s m).1.kept

theorem runRead_keeps : Runner.Keeps runRead := by
  intro a s m h
  unfold runRead
  split
  · exact h
  · split
    · exact h
    · show keptLe a (s.readList m.by_.via (flagStaged m.flags) _).1.kept
      rwa [State.readList_kept]

theorem State.writeList_le {a : Kept} {s : State} (c : Caller) (l : List ValueEntry) (h : keptLe a s.kept) : keptLe a (s.writeList c l).1.kept := by
  induction l generalizing s with
  | nil => exact h
  | cons e r ih => exact ih (State.writeEntry_le _ _ _ _ h)

theorem runWrite_keeps : Runner.Keeps runWrite := by
  intro a s m h
  unfold runWrite
  split
  · exact h
  · exact State.writeList_le _ _ h

theorem runReadBlock_keeps : Runner.Keeps runReadBlock := by
  intro a s m h
  unfold runReadBlock
  split <;> exact h

theorem runWriteBlock_keeps : Runner.Keeps runWriteBlock := by
  intro a s m h
  unfold runWriteBlock
  split
  · exact h
  · next r bs _ =>
    show keptLe a (s.writeBlockAt m.by_ r.obj r.offset bs).1.kept
    rwa [State.writeBlockAt_kept]

theorem runCommit_keeps : Runner.Keeps runCommit := by
  intro a s m h
  unfold runCommit
  split
  · exact h
  · have committed : keptLe a (s.commitBy m.by_ (some (m.by_, m.seq))).1.kept := by rwa [State.commitBy_kept]
    split <;> next e => rwa [e] at committed

theorem runAbort_keeps : Runner.Keeps runAbort := by
  intro a s m h
  unfold runAbort
  split
  · exact h
  · exact State.abortFunction_le _ _ h

theorem State.subscribeList_kept (s : State) (id : Nat) (l : List SubEntry) : (s.subscribeList id l).1.kept = s.kept := by
  induction l generalizing s with
  | nil => rfl
  | cons e r ih =>
    rw [State.subscribeList]
    dsimp only
    rw [ih]
    split
    · rfl
    · split
      · rfl
      · exact (State.modSession_kept ..).trans (State.readBytes_kept ..)

theorem runSubscribe_keeps : Runner.Keeps runSubscribe := by
  intro a s m h
  unfold runSubscribe
  split
  · exact h
  · split
    · exact h
    · split
      · exact h
      · show keptLe a (s.subscribeList m.by_.session _).1.kept
        rwa [State.subscribeList_kept]

theorem runUnknown_keeps : Runner.Keeps runUnknown := fun _ _ h => h

theorem State.runMessage_le {a : Kept} {s : State} (m : WaitingMsg) {run : Runner} (hr : run.Keeps) (h : keptLe a s.kept) :
    keptLe a (s.runMessage m run).kept := by
  unfold State.runMessage
  simp only [↓State.kept_ite, ↓State.sendBytes_kept, ↓State.keepResponse_kept, ite_self]
  exact hr _ _ h

theorem State.executeIn_le {a : Kept} {s : State} (via : Via) (src : Source) (type : Nat) (d : Datagram) {run : Runner} (hr : run.Keeps)
    (h : keptLe a s.kept) : keptLe a (s.executeIn via src type d run).kept := by
  have entered : keptLe a (match via with
      | .spi => { s.inc Obj.FP_MESSAGES_ACCEPTED with fp := { (s.inc Obj.FP_MESSAGES_ACCEPTED).fp with spiSeq := d.seq, spiStored := [], spiOut := [] } }
      | _ => (s.inc Obj.FP_MESSAGES_ACCEPTED).modSession d.session fun (x : Session) => { x with lastSeq := d.seq, executed := true, stored := [] } :
        State).kept := by
    split
    · rwa [State.kept_with, State.inc_kept]
    · rwa [State.modSession_kept, State.inc_kept]
  exact .ite (by rwa [State.kept_with]) (State.runMessage_le _ hr entered)

theorem State.seqError_kept (s : State) (via : Via) (src : Source) (type : Nat) (d : Datagram) : (s.seqError via src type d).kept = s.kept := by
  simp only [State.seqError, ↓State.sendBytes_kept, ↓State.inc_kept]

theorem State.resend_kept (s : State) (via : Via) (src : Source) (stored : Bytes) : (s.resend via src stored).kept = s.kept := by
  simp only [State.resend, ↓State.kept_ite, ite_self, ↓State.sendBytes_kept, ↓State.inc_kept]

theorem State.receiveSpi_le {a : Kept} {s : State} (src : Source) (type : Nat) (d : Datagram) {run : Runner} (hr : run.Keeps) (h : keptLe a s.kept) :
    keptLe a (s.receiveSpi src type d run).kept := by
  unfold State.receiveSpi
  refine .ite (by rwa [State.replyPlain_kept]) (.ite (State.executeIn_le _ _ _ _ hr h) (.ite (by rwa [State.resend_kept]) (.ite (by rwa [State.seqError_kept]) ?_)))
  exact State.executeIn_le _ _ _ _ hr h

theorem State.receiveOpening_kept (s : State) (via : Via) (src : Source) (type : Nat) (d : Datagram) : (s.receiveOpening via src type d).kept =
    s.kept := by
  simp only [State.receiveOpening]
  split <;>
    simp only [↓State.kept_ite, ite_self, ↓State.replyPlain_kept, ↓State.openSession_kept]

theorem State.receiveCtl_le {a : Kept} {s : State} (via : Via) (src : Source) (type : Nat) (d : Datagram) {run : Runner} (hr : run.Keeps)
    (h : keptLe a s.kept) : keptLe a (s.receiveCtl via src type d run).kept := by
  unfold State.receiveCtl
  split
  · rwa [State.receiveOpening_kept]
  · split
    · rwa [State.replyPlain_kept]
    · refine .ite (by rwa [State.replyPlain_kept]) (.ite (by rwa [State.resend_kept]) (.ite (by rwa [State.seqError_kept]) ?_))
      exact State.executeIn_le _ _ _ _ hr h

theorem runnerOf_keeps (type : Nat) : Runner.Keeps (runnerOf type) := by
  unfold runnerOf
  split
  · exact runRead_keeps
  · exact runWrite_keeps
  · exact runReadBlock_keeps
  · exact runWriteBlock_keeps
  · exact runCommit_keeps
  · exact runAbort_keeps
  · exact runSubscribe_keeps
  · exact runUnknown_keeps

theorem State.runWaiting_le {a : Kept} (n : Nat) {s : State} (h : keptLe a s.kept) : keptLe a (State.runWaiting n s).kept := by
  induction n generalizing s with
  | zero => exact h
  | succ n ih =>
    rw [State.runWaiting]
    split
    · exact h
    · split
      · exact h
      · exact ih (.ite (State.runMessage_le _ (runnerOf_keeps _) (by rwa [State.kept_with])) (by rwa [State.sendBytes_kept, State.kept_with]))

theorem State.goOn_le {a : Kept} {s : State} (h : keptLe a s.kept) : keptLe a s.goOn.kept := State.runWaiting_le _ h

theorem State.receive_le {a : Kept} {s : State} (via : Via) (src : Source) (type : Nat) (d : Datagram) {run : Runner} (hr : run.Keeps)
    (h : keptLe a s.kept) : keptLe a (s.receive via src type d run).kept := by
  unfold State.receive
  dsimp only
  split
  · exact State.goOn_le h
  · split
    · next e => rw [State.discards_kept e]; exact State.goOn_le h
    · split
      · exact State.receiveSpi_le _ _ _ hr (State.goOn_le h)
      · exact State.receiveCtl_le _ _ _ _ hr (State.goOn_le h)

theorem execRead_goesOn (via : Via) (src : Source) (dg : Datagram) (s : State) : s.goesOn (execRead via src dg s) :=
  State.goesOn_next.2 (State.receive_le _ _ _ _ runRead_keeps (keptLe_refl _))

theorem execWrite_goesOn (via : Via) (src : Source) (dg : Datagram) (s : State) : s.goesOn (execWrite via src dg s) :=
  State.goesOn_next.2 (State.receive_le _ _ _ _ runWrite_keeps (keptLe_refl _))

theorem execReadBlock_goesOn (via : Via) (src : Source) (dg : Datagram) (s : State) : s.goesOn (execReadBlock via src dg s) :=
  State.goesOn_next.2 (State.receive_le _ _ _ _ runReadBlock_keeps (keptLe_refl _))

theorem execWriteBlock_goesOn (via : Via) (src : Source) (dg : Datagram) (s : State) : s.goesOn (execWriteBlock via src dg s) :=
  State.goesOn_next.2 (State.receive_le _ _ _ _ runWriteBlock_keeps (keptLe_refl _))

theorem execSubscribe_goesOn (via : Via) (src : Source) (dg : Datagram) (s : State) : s.goesOn (execSubscribe via src dg s) :=
  State.goesOn_next.2 (State.receive_le _ _ _ _ runSubscribe_keeps (keptLe_refl _))

theorem execMalformedTypeMessage_goesOn (via : Via) (src : Source) (type : Nat) (dg : Datagram) (s : State) :
    s.goesOn (execMalformedTypeMessage via src type dg s) :=
  State.goesOn_next.2 (.ite (keptLe_refl _) (State.receive_le _ _ _ _ runUnknown_keeps (keptLe_refl _)))

theorem State.request_le {a : Kept} {s : State} (r : Request) (type : Nat) {run : Runner} {write : State → Caller → Nat → State} (hr : run.Keeps)
    (hw : ∀ c v, keptLe a (write s c v).kept) (h : keptLe a s.kept) : keptLe a (s.request r type run write).kept := by
  cases r with
  | message via src d => exact State.receive_le _ _ _ _ hr h
  | write c v => exact hw c v

theorem execCommit_goesOn (r : Request) (s : State) : s.goesOn (execCommit r s) :=
  State.goesOn_next.2 (State.request_le _ _ runCommit_keeps (fun _ _ => .ite (by rw [writeCommit_kept]; exact keptLe_refl _) (keptLe_refl _)) (keptLe_refl _))

/-- An abort of a function of Table 02-10, by a message or by a write. -/
theorem State.abortRequest_goesOn (s : State) (r : Request) (o : ObjRef) :
    s.goesOn (.next (s.request r 6 runAbort fun s c v => s.writeAbort c o v)) :=
  State.goesOn_next.2 (State.request_le _ _ runAbort_keeps (fun _ _ => State.writeAbort_le _ _ _ (keptLe_refl _)) (keptLe_refl _))

theorem execAbortDramFill_goesOn (via : Via) (src : Source) (dg : Datagram) (s : State) : s.goesOn (execAbortDramFill via src dg s) :=
  State.goesOn_next.2 (State.receive_le _ _ _ _ runAbort_keeps (keptLe_refl _))

theorem State.notify_kept (s : State) (x : Session) (o : ObjRef) (v : Bytes) : (s.notify x o v).kept = s.kept := by
  simp only [State.notify, ↓State.modSession_kept, ↓State.emit_kept]

theorem execNotifyOnChange_goesOn (session : Nat) (obj : ObjRef) (s : State) : s.goesOn (execNotifyOnChange session obj s) := by
  unfold execNotifyOnChange
  split
  · exact State.goesOn_next.2 (keptLe_refl _)
  · simp only [State.goesOn_next, ↓State.kept_ite, State.notify_kept, State.readBytes_kept, ite_self, keptLe_refl]

theorem execNotifyPeriodic_goesOn (session : Nat) (obj : ObjRef) (s : State) : s.goesOn (execNotifyPeriodic session obj s) := by
  unfold execNotifyPeriodic
  split
  · exact State.goesOn_next.2 (keptLe_refl _)
  · simp only [State.goesOn_next, ↓State.kept_ite, State.notify_kept, State.readBytes_kept, ite_self, keptLe_refl]

/-! ### Ends of work -/

theorem execCompressionUnitDone_goesOn (lane : Nat) (railsAgree : Bool) (inputFaults : List WordFault) (s : State) :
    s.goesOn (execCompressionUnitDone lane railsAgree inputFaults s) := by
  unfold execCompressionUnitDone
  split
  · exact State.goesOn_next.2 (keptLe_refl _)
  · split
    · exact State.goesOn_next.2 (keptLe_refl _)
    · dsimp only
      split
      · simp only [State.goesOn_next, ↓State.advanceRaster_kept, ↓State.runLanes_kept, ↓State.laneMismatch_kept, ↓State.modLane_kept, keptLe_refl]
      · split
        · simp only [State.goesOn_next, ↓State.advanceRaster_kept, ↓State.runLanes_kept, ↓State.packTile_kept, ↓State.modLane_kept, keptLe_refl]
        · simp only [State.goesOn_next, ↓State.runLanes_kept, ↓State.packResidual_kept, ↓State.modLane_kept, keptLe_refl]
        · simp only [State.goesOn_next, ↓State.runLanes_kept, ↓State.segmentDone_kept, ↓State.modLane_kept, keptLe_refl]
        · split
          · rw [State.goesOn_next, State.runLanes_kept]
            exact State.hostSegment_le _ _ (by rw [State.modLane_kept, State.modLane_kept]; exact keptLe_refl _)
          · simp only [State.goesOn_next, ↓State.runLanes_kept, ↓State.modLane_kept, keptLe_refl]

/-! ### Confirmations -/

theorem execConfirm_goesOn (m : Receipt × Nat) (s : State) : s.goesOn (execConfirm m s) :=
  State.goesOn_next.2 (State.goOn_le (by rw [State.received_kept _ _ fun _ => State.takeConfirm_kept ..]; exact keptLe_refl _))

theorem execConfirmTimeout_goesOn (s : State) : s.goesOn (execConfirmTimeout s) :=
  State.goesOn_next.2 (State.goOn_le (by rw [State.confirmLate_kept]; exact keptLe_refl _))

theorem execMirrorLinkChange_goesOn (lanes : BitVec 8) (s : State) : s.goesOn (execMirrorLinkChange lanes s) :=
  State.goesOn_next.2 (State.goOn_le (by rw [State.lanesLocked_kept]; exact keptLe_refl _))

theorem execHealth_goesOn (m : Receipt × Bytes) (s : State) : s.goesOn (execHealth m s) :=
  State.goesOn_next.2 (State.goOn_le (by rw [State.received_kept _ _ fun _ => State.takeHealth_kept ..]; exact keptLe_refl _))

theorem execPeerHealthTimeout_goesOn (s : State) : s.goesOn (execPeerHealthTimeout s) :=
  State.goesOn_next.2 (State.goOn_le (by rw [State.healthLate_kept]; exact keptLe_refl _))

theorem execLaneLockLoss_goesOn (port : LanePort) (lane : Nat) (s : State) : s.goesOn (execLaneLockLoss port lane s) :=
  State.goesOn_next.2 (State.goOn_le (by rw [State.laneLost_kept]; exact keptLe_refl _))

theorem execOwnActRelease_goesOn (s : State) : s.goesOn (execOwnActRelease s) :=
  State.goesOn_next.2 (State.goOn_le (by rw [State.releaseAct_kept]; exact keptLe_refl _))

/-! ### Every command -/

theorem exec_goesOn (c : Instr) (s : State) : s.goesOn (exec c s) :=
  match c with
  | .read via src dg => execRead_goesOn via src dg s
  | .write via src dg => execWrite_goesOn via src dg s
  | .readBlock via src dg => execReadBlock_goesOn via src dg s
  | .writeBlock via src dg => execWriteBlock_goesOn via src dg s
  | .subscribe via src dg => execSubscribe_goesOn via src dg s
  | .malformedTypeMessage via src type dg => execMalformedTypeMessage_goesOn via src type dg s
  | .sessionOpen via src nonce tagged => execSessionOpen_goesOn via src nonce tagged s
  | .sessionClose by_ id => execSessionClose_goesOn by_ id s
  | .sessionTimeout id => execSessionTimeout_goesOn id s
  | .authKey by_ key => execAuthKey_goesOn by_ key s
  | .objectWrite by_ obj typeCode value => execObjectWrite_goesOn by_ obj typeCode value s
  | .rcRead by_ obj => execRcRead_goesOn by_ obj s
  | .notifyOnChange session obj => execNotifyOnChange_goesOn session obj s
  | .notifyPeriodic session obj => execNotifyPeriodic_goesOn session obj s
  | .commit r => execCommit_goesOn r s
  | .abortJob r => State.abortRequest_goesOn s r _
  | .abortQuiet => execAbortQuiet_goesOn s
  | .abortDma r => State.abortRequest_goesOn s r _
  | .abortCompression r => State.abortRequest_goesOn s r _
  | .abortCamera r => State.abortRequest_goesOn s r _
  | .abortCalibration r => State.abortRequest_goesOn s r _
  | .discardStaging r => State.abortRequest_goesOn s r _
  | .abortDramFill via src dg => execAbortDramFill_goesOn via src dg s
  | .start by_ => execStart_goesOn by_ s
  | .hold by_ => execHold_goesOn by_ s
  | .resume by_ => execResume_goesOn by_ s
  | .jobAutoStart => execJobAutoStart_goesOn s
  | .progressSnapshot => execProgressSnapshot_goesOn s
  | .streamProducer value => execStreamProducer_goesOn value s
  | .repairProducer value => execRepairProducer_goesOn value s
  | .barAccessError offset size write => execBarAccessError_goesOn offset size write s
  | .jobBlock f => execJobBlock_goesOn f s
  | .stripeBlock f => execStripeBlock_goesOn f s
  | .celldefBlock f => execCelldefBlock_goesOn f s
  | .bandBlock f => execBandBlock_goesOn f s
  | .haloBlock f => execHaloBlock_goesOn f s
  | .marksBlock f => execMarksBlock_goesOn f s
  | .endBlock f => execEndBlock_goesOn f s
  | .blockRefetch type f => execBlockRefetch_goesOn type f s
  | .repairBlock type f => execRepairBlock_goesOn type f s
  | .writeback => execWriteback_goesOn s
  | .hostPortReset cause => execHostPortReset_goesOn cause s
  | .hostLinkUp width speed => execHostLinkUp_goesOn width speed s
  | .tileDispatch cell => execTileDispatch_goesOn cell s
  | .tileComplete cell fault => execTileComplete_goesOn cell fault s
  | .shadowTest cell => execShadowTest_goesOn cell s
  | .shadowTestResult cell crc => execShadowTestResult_goesOn cell crc s
  | .factorCompute region column railsAgree => execFactorCompute_goesOn region column railsAgree s
  | .fitField by_ f => execFitField_goesOn by_ f s
  | .fitComplete => execFitComplete_goesOn s
  | .fitStage by_ => execFitStage_goesOn by_ s
  | .flashDecision inp => execFlashDecision_goesOn inp s
  | .flashCompute faults => execFlashCompute_goesOn faults s
  | .windowLoad line word fault => execWindowLoad_goesOn line word fault s
  | .turnaroundRelease by_ => execTurnaroundRelease_goesOn by_ s
  | .positionSample t idle levels => execPositionSample_goesOn t idle levels s
  | .posTimeout t => execPosTimeout_goesOn t s
  | .posFault lowNs => execPosFault_goesOn lowNs s
  | .posFaultClear => execPosFaultClear_goesOn s
  | .firingCheck => execFiringCheck_goesOn s
  | .frameSync => execFrameSync_goesOn s
  | .deflectorWord tOut => execDeflectorWord_goesOn tOut s
  | .deflLinkChange running => execDeflLinkChange_goesOn running s
  | .laneLockLoss port lane => execLaneLockLoss_goesOn port lane s
  | .acknowledgement hst t msg => execAcknowledgement_goesOn hst t msg s
  | .ackTimeout => execAckTimeout_goesOn s
  | .tempStale => execTempStale_goesOn s
  | .cmdUnechoed => execCmdUnechoed_goesOn s
  | .headAttachFactory by_ => execHeadAttachFactory_goesOn by_ s
  | .headAttachKeep by_ => execHeadAttachKeep_goesOn by_ s
  | .headAttachComplete mem => execHeadAttachComplete_goesOn mem s
  | .i2cStretchTimeout => execI2cStretchTimeout_goesOn s
  | .beamEdit by_ value => execBeamEdit_goesOn by_ value s
  | .beamEpoch => execBeamEpoch_goesOn s
  | .gateCheckStart by_ => execGateCheckStart_goesOn by_ s
  | .gateCheckStop by_ => execGateCheckStop_goesOn by_ s
  | .gateDarkDone shots => execGateDarkDone_goesOn shots s
  | .gateBeamMeasured t shots => execGateBeamMeasured_goesOn t shots s
  | .imageStart by_ => execImageStart_goesOn by_ s
  | .imagePhaseDone t => execImagePhaseDone_goesOn t s
  | .burnishRepairWait => execBurnishRepairWait_goesOn s
  | .defectAck by_ n => execDefectAck_goesOn by_ n s
  | .peerActFall => execPeerActFall_goesOn s
  | .takeoverCheck => execTakeoverCheck_goesOn s
  | .peerActRise => execPeerActRise_goesOn s
  | .claimDelay => execClaimDelay_goesOn s
  | .ownActRelease => execOwnActRelease_goesOn s
  | .flashRecord r bad => execFlashRecord_goesOn r bad s
  | .recordDeadline => execRecordDeadline_goesOn s
  | .mirrorBlock rx type ring slot image => execMirrorBlock_goesOn rx type ring slot image s
  | .streamEvent m => execStreamEvent_goesOn m s
  | .mirrorCommit rx entries => execMirrorCommit_goesOn rx entries s
  | .beamChanges rx changes epoch identity => execBeamChanges_goesOn rx changes epoch identity s
  | .confirm m => execConfirm_goesOn m s
  | .confirmTimeout => execConfirmTimeout_goesOn s
  | .checkpoint rx chunk => execCheckpoint_goesOn rx chunk s
  | .health m => execHealth_goesOn m s
  | .healthSend => execHealthSend_goesOn s
  | .peerHealthTimeout => execPeerHealthTimeout_goesOn s
  | .nak rx ask => execNak_goesOn rx ask s
  | .releaseMessage rx body => execReleaseMessage_goesOn rx body s
  | .mirrorLinkChange lanes => execMirrorLinkChange_goesOn lanes s
  | .handoverRequest by_ => execHandoverRequest_goesOn by_ s
  | .syncStart by_ => execSyncStart_goesOn by_ s
  | .syncComplete => execSyncComplete_goesOn s
  | .dramTrainingDone ch rates => execDramTrainingDone_goesOn ch rates s
  | .dramFillDone timeUs => execDramFillDone_goesOn timeUs s
  | .dramTempPoll ch temps => execDramTempPoll_goesOn ch temps s
  | .refresh ch busy => execRefresh_goesOn ch busy s
  | .neighbourRefresh ch bank activates => execNeighbourRefresh_goesOn ch bank activates s
  | .disturbCountClear ch => execDisturbCountClear_goesOn ch s
  | .scrubRead faults => execScrubRead_goesOn faults s
  | .remapCopyDone copy => execRemapCopyDone_goesOn copy s
  | .remapAdd by_ value => execRemapAdd_goesOn by_ value s
  | .sramScrub met => execSramScrub_goesOn met s
  | .dramParityAlert ch t retrained => execDramParityAlert_goesOn ch t retrained s
  | .dramPllLockLoss ch => execDramPllLockLoss_goesOn ch s
  | .compressionUnitDone lane railsAgree inputFaults => execCompressionUnitDone_goesOn lane railsAgree inputFaults s
  | .spoolLaneWait region => execSpoolLaneWait_goesOn region s
  | .hjProducer value => execHjProducer_goesOn value s
  | .hjAssign => execHjAssign_goesOn s
  | .hjResume by_ lanes => execHjResume_goesOn by_ lanes s
  | .chStart by_ ch addr faults => execChStart_goesOn by_ ch addr faults s
  | .dmaBurst ch inp => execDmaBurst_goesOn ch inp s
  | .dmaDescriptorEnd ch samePulse faults => execDmaDescriptorEnd_goesOn ch samePulse faults s
  | .cuFeed8 u v => execCuFeed8_goesOn u v s
  | .cuFeed16 u v => execCuFeed16_goesOn u v s
  | .cuFeed32 u v => execCuFeed32_goesOn u v s
  | .cuPortWrite ch u => execCuPortWrite_goesOn ch u s
  | .cuValueWrite u v => execCuValueWrite_goesOn u v s
  | .cuInit u => execCuInit_goesOn u s
  | .cuPoly u poly => execCuPoly_goesOn u poly s
  | .cuStateRead u result => execCuStateRead_goesOn u result s
  | .cuLatch u => execCuLatch_goesOn u s
  | .csiFrameStart p t frameNumber => execCsiFrameStart_goesOn p t frameNumber s
  | .csiFrameEnd p t => execCsiFrameEnd_goesOn p t s
  | .csiLine p t eccCorrected crcOk pixels => execCsiLine_goesOn p t eccCorrected crcOk pixels s
  | .csiEmbeddedData p data => execCsiEmbeddedData_goesOn p data s
  | .csiPacketDiscard p why => execCsiPacketDiscard_goesOn p why s
  | .camLineTimeout p t => execCamLineTimeout_goesOn p t s
  | .camFramePublish p => execCamFramePublish_goesOn p s
  | .camRestart by_ p => execCamRestart_goesOn by_ p s
  | .mfRequest by_ offset data => execMfRequest_goesOn by_ offset data s
  | .mfResult railsAgree => execMfResult_goesOn railsAgree s
  | .mfTimeout => execMfTimeout_goesOn s
  | .spotStrobe => execSpotStrobe_goesOn s
  | .spotSumsDone railsAgree => execSpotSumsDone_goesOn railsAgree s
  | .spotTimeout => execSpotTimeout_goesOn s
  | .timeTick => execTimeTick_goesOn s
  | .timeIncrement by_ v => execTimeIncrement_goesOn by_ v s
  | .timeStep by_ v => execTimeStep_goesOn by_ v s
  | .timeSet by_ value => execTimeSet_goesOn by_ value s
  | .ptpSync p rx m => execPtpSync_goesOn p rx m s
  | .ptpFollowUp p m => execPtpFollowUp_goesOn p m s
  | .ptpDelayResp p m => execPtpDelayResp_goesOn p m s
  | .ptpDelayReqSend tx => execPtpDelayReqSend_goesOn tx s
  | .ptpPdelayReqSend tx => execPtpPdelayReqSend_goesOn tx s
  | .ptpPdelayReq p rx tx m => execPtpPdelayReq_goesOn p rx tx m s
  | .ptpPdelayResp p rx followUp m => execPtpPdelayResp_goesOn p rx followUp m s
  | .ptpAnnounce p m a => execPtpAnnounce_goesOn p m a s
  | .ptpAnnounceTimeout => execPtpAnnounceTimeout_goesOn s
  | .comparatorMatch c => execComparatorMatch_goesOn c s
  | .pulseEnd o => execPulseEnd_goesOn o s
  | .tciEdge k t rising => execTciEdge_goesOn k t rising s
  | .tciAck by_ k n => execTciAck_goesOn by_ k n s
  | .calStart by_ mask => execCalStart_goesOn by_ mask s
  | .calItemStart => execCalItemStart_goesOn s
  | .calRefclkDone cycles refcalOk => execCalRefclkDone_goesOn cycles refcalOk s
  | .calStrobeSkewDone edges refcalOk => execCalStrobeSkewDone_goesOn edges refcalOk s
  | .calGateOffsetDone shots => execCalGateOffsetDone_goesOn shots s
  | .calGateGainDone t dark shots => execCalGateGainDone_goesOn t dark shots s
  | .calBeamEfficiencyDone t dark beams => execCalBeamEfficiencyDone_goesOn t dark beams s
  | .calDeflScanDone t dark steps positions => execCalDeflScanDone_goesOn t dark steps positions s
  | .calDeflSolveDone => execCalDeflSolveDone_goesOn s
  | .calCamDarkDone frames => execCalCamDarkDone_goesOn frames s
  | .calCamFlatDone frames => execCalCamFlatDone_goesOn frames s
  | .calCamTimeout => execCalCamTimeout_goesOn s
  | .deflPointsClear by_ => execDeflPointsClear_goesOn by_ s
  | .porstNDeassert straps peerAct mainGood backupGood => execPorstNDeassert_goesOn straps peerAct mainGood backupGood s
  | .porstNAssert => execPorstNAssert_goesOn s
  | .pllLock pll => execPllLock_goesOn pll s
  | .corePllLoss => execCorePllLoss_goesOn s
  | .bootLoadDone flashOk => execBootLoadDone_goesOn flashOk s
  | .bootVerifyDone => execBootVerifyDone_goesOn s
  | .firmwareReady net => execFirmwareReady_goesOn net s
  | .firmwareReadyTimeout => execFirmwareReadyTimeout_goesOn s
  | .imageVerify by_ => execImageVerify_goesOn by_ s
  | .imageBoot by_ => execImageBoot_goesOn by_ s
  | .imageProgramA by_ => execImageProgramA_goesOn by_ s
  | .imageProgramB by_ => execImageProgramB_goesOn by_ s
  | .imageProgramDone ok => execImageProgramDone_goesOn ok s
  | .rollbackRaise by_ => execRollbackRaise_goesOn by_ s
  | .keyRevoke by_ slot => execKeyRevoke_goesOn by_ slot s
  | .netSave by_ => execNetSave_goesOn by_ s
  | .powerRequestDeep by_ => execPowerRequestDeep_goesOn by_ s
  | .powerRequestControl by_ => execPowerRequestControl_goesOn by_ s
  | .powerRequestReady by_ => execPowerRequestReady_goesOn by_ s
  | .powerTransitionDone => execPowerTransitionDone_goesOn s
  | .wake source => execWake_goesOn source s
  | .wakeRestoreDone saveReadable => execWakeRestoreDone_goesOn saveReadable s
  | .vaonMainFail => execVaonMainFail_goesOn s
  | .vaonMainReturn => execVaonMainReturn_goesOn s
  | .railSourceFault rail => execRailSourceFault_goesOn rail s
  | .switchoverEngage rail => execSwitchoverEngage_goesOn rail s
  | .supplyReturn rail => execSupplyReturn_goesOn rail s
  | .supplyReturnNow by_ mainGood => execSupplyReturnNow_goesOn by_ mainGood s
  | .supplyFault rail cause => execSupplyFault_goesOn rail cause s
  | .supplyTrip rail => execSupplyTrip_goesOn rail s
  | .tjSample temps => execTjSample_goesOn temps s
  | .watchdogExpiry cause => execWatchdogExpiry_goesOn cause s
  | .healthIndexUpdate => execHealthIndexUpdate_goesOn s
  | .descriptorFetch d => execDescriptorFetch_goesOn d s
  | .busMasterEnable request => execBusMasterEnable_goesOn s request
  | .regionWakeDone region writingSide => execRegionWakeDone_goesOn region writingSide s
  | .hstLaneLock lane => execHstLaneLock_goesOn lane s
  | .gateRxLinkChange dataPhase => execGateRxLinkChange_goesOn dataPhase s
  | .refcalPresentChange present => execRefcalPresentChange_goesOn present s
  | .ctlLinkChange port up => execCtlLinkChange_goesOn port up s
  | .vaonGood mainGood backupGood => execVaonGood_goesOn mainGood backupGood s
  | .vaonLoss => execVaonLoss_goesOn s
  | .pageReloadDone page good => execPageReloadDone_goesOn page good s
  | .memtestRead words faults => execMemtestRead_goesOn words faults s

/-- A step goes on, and keeps what every command keeps. -/
theorem keptLe_of_step {s t : State} (h : step s = .next t) : keptLe s.kept t.kept := by
  unfold step at h
  split at h
  next => rw [← Host.Outcome.next.inj h]; exact keptLe_refl _
  next c rest _ => exact State.goesOn_next.1 (h ▸ exec_goesOn c { s with pending := rest })

/-! ### The statements -/

/-- Settles O2: each constructor of `Instr` has its lemma. -/
theorem everyCommandGoesOn : Obligations.EveryCommandGoesOn := fun c s =>
  let ⟨t, h, _⟩ := exec_goesOn c s
  ⟨t, h⟩

/-- Settles O4: a step either idles or runs a command, and no command lowers what the one-time-programmable memory holds. -/
theorem oneTimeMemoryOnlyRises : Obligations.OneTimeMemoryOnlyRises := fun _ _ h => (keptLe_of_step h).1

/-- Settles O5: every write to DRAM inserts its bytes at their place in the canonical list. -/
theorem memoryStaysCanonical : Obligations.MemoryStaysCanonical := fun _ _ wf h => (keptLe_of_step h).2 wf

/-- Settles O6: no byte is listed after reset. -/
theorem memoryCanonicalAtReset : Obligations.MemoryCanonicalAtReset := by rfl

/-- Settles O1: the two cases of `step`. -/
theorem stepRunsTheFront : Obligations.StepRunsTheFront := by
  refine ⟨fun s c rest h => ?_, fun s h => ?_⟩
  · unfold step
    rw [h]
  · unfold step
    rw [h]


end Sys2Proof.Machine
end

section
/-! SUPPORT. The bytes of a value (Table 02-1). -/
namespace Sys2Proof.Machine

/-! ### Fields of byte strings -/

theorem length_leBytes (n x : Nat) : (leBytes n x).length = n := by
  induction n generalizing x with
  | zero => rfl
  | succ n ih => rw [leBytes, List.length_cons, ih]

/-- The field of `n` bytes that `pre` bytes stand before. -/
theorem leAt_append_leBytes {pre : Bytes} {off : Nat} (len : pre.length = off) (n x : Nat) (post : Bytes) :
    leAt (pre ++ leBytes n x ++ post) off n = x % 256 ^ n := by
  unfold leAt slice
  rw [List.append_assoc, List.drop_left' len, List.take_left' (length_leBytes n x), ofLe_leBytes]

theorem leAt_leBytes (n x : Nat) : leAt (leBytes n x) 0 n = x % 256 ^ n := by
  have field := leAt_append_leBytes (pre := []) rfl n x []
  rwa [List.nil_append, List.append_nil] at field

/-! ### Two's complement -/

theorem toUnsigned_lt (w : Nat) (v : Int) : toUnsigned w v < 2 ^ w := by
  have pos : (0 : Int) < 2 ^ w := by positivity
  have lt := Int.emod_lt_of_pos v pos
  have nonneg := Int.emod_nonneg v pos.ne'
  unfold toUnsigned
  zify
  rw [Int.toNat_of_nonneg nonneg]
  exact lt

theorem toUnsigned_of_nonneg {w : Nat} {v : Int} (nonneg : 0 ≤ v) (lt : v < 2 ^ w) : (toUnsigned w v : Int) = v := by
  rw [toUnsigned, Int.emod_eq_of_lt nonneg lt, Int.toNat_of_nonneg nonneg]

theorem toSigned_toUnsigned {w : Nat} (pos : 0 < w) {v : Int} (low : -2 ^ (w - 1) ≤ v) (high : v < 2 ^ (w - 1)) :
    toSigned w (toUnsigned w v) = v := by
  obtain ⟨k, rfl⟩ : ∃ k, w = k + 1 := ⟨w - 1, by omega⟩
  rw [Nat.add_sub_cancel] at low high
  have double : (2 : Int) ^ (k + 1) = 2 * 2 ^ k := pow_succ' 2 k
  have doubleNat : 2 ^ (k + 1) = 2 * 2 ^ k := pow_succ' 2 k
  have cast : ((2 ^ k : Nat) : Int) = 2 ^ k := by norm_cast
  unfold toSigned
  rw [Nat.mod_eq_of_lt (toUnsigned_lt _ _)]
  rcases le_or_gt 0 v with nonneg | neg
  · have same := toUnsigned_of_nonneg nonneg (w := k + 1) (by omega)
    rw [if_pos (by omega), same]
  · have wraps : (toUnsigned (k + 1) v : Int) = v + 2 ^ (k + 1) := by
      rw [toUnsigned, ← Int.add_emod_right, Int.emod_eq_of_lt (by omega) (by omega), Int.toNat_of_nonneg (by omega)]
    dsimp only
    rw [if_neg (by omega), wraps]
    omega

theorem ofLe_leBytesI (n : Nat) (v : Int) : ofLe (leBytesI n v) = toUnsigned (8 * n) v := by
  have lt := toUnsigned_lt (8 * n) v
  rw [leBytesI, ofLe_leBytes, Nat.mod_eq_of_lt]
  rwa [Nat.pow_mul] at lt

/-! ### Instants -/

/-- The fields of an instant's bytes: seconds, nanoseconds and their fraction. -/
theorem encodeTime_fields (v : Int) :
    leAt (encodeValue .time v) 0 6 = v.toNat / 2 ^ 32 / 1000000000 % 256 ^ 6 ∧ leAt (encodeValue .time v) 6 2 = 0 ∧
    leAt (encodeValue .time v) 8 4 = v.toNat / 2 ^ 32 % 1000000000 % 256 ^ 4 ∧ leAt (encodeValue .time v) 12 4 = v.toNat % 2 ^ 32 % 256 ^ 4 := by
  have zero : zeros 2 = leBytes 2 0 := rfl
  unfold encodeValue
  dsimp only
  rw [zero]
  generalize v.toNat / 2 ^ 32 / 1000000000 = sec, v.toNat / 2 ^ 32 % 1000000000 = ns, v.toNat % 2 ^ 32 = frac
  refine ⟨?_, ?_, ?_, ?_⟩
  · rw [List.append_assoc, List.append_assoc]
    exact leAt_append_leBytes (pre := []) rfl 6 sec _
  · rw [List.append_assoc]
    exact leAt_append_leBytes (by simp [length_leBytes]) 2 0 _
  · exact leAt_append_leBytes (by simp [length_leBytes]) 4 ns _
  · have field := leAt_append_leBytes (pre := leBytes 6 sec ++ leBytes 2 0 ++ leBytes 4 ns) (off := 12) (by simp [length_leBytes]) 4 frac []
    rwa [List.append_nil] at field

theorem decodeValue_encodeTime {v : Int} (nonneg : 0 ≤ v) (lt : v < 2 ^ 48 * 1000000000 * 2 ^ 32) :
    decodeValue .time (encodeValue .time v) = some v := by
  obtain ⟨n, rfl⟩ := Int.eq_ofNat_of_zero_le nonneg
  obtain ⟨sec, reserved, ns, frac⟩ := encodeTime_fields n
  unfold decodeValue
  dsimp only
  rw [sec, reserved, ns, frac, Int.toNat_natCast, if_neg (by omega)]
  congr 1
  omega

/-! ### The statement -/

/-- Settles O10, type by type. -/
theorem valuesEncode : Obligations.ValuesEncode := by
  refine ⟨fun v hv => ?_, fun t ht v nonneg lt => ?_, fun t ht v low high => ?_, fun v => decodeValue_encodeTime⟩
  · rcases hv with rfl | rfl <;> decide
  · have value : (ofLe (leBytesI t.bytes v) : Int) = v := by rw [ofLe_leBytesI, toUnsigned_of_nonneg nonneg lt]
    simp only [List.mem_cons, List.not_mem_nil, or_false] at ht
    rcases ht with rfl | rfl | rfl | rfl <;> exact congrArg some value
  · have pos : ∀ t ∈ [OType.i16, .i32, .i64], 0 < 8 * t.bytes := by decide
    have value : toSigned (8 * t.bytes) (ofLe (leBytesI t.bytes v)) = v := by
      rw [ofLe_leBytesI, toSigned_toUnsigned (pos t ht) low high]
    simp only [List.mem_cons, List.not_mem_nil, or_false] at ht
    rcases ht with rfl | rfl | rfl <;> exact congrArg some value

end Sys2Proof.Machine
end

section
/-! SUPPORT. Held triggers and HALT (R401, R404), and where the statement about them fails: it speaks of every subsystem number. -/
namespace Sys2Proof.Machine

/-- Trigger 3 from a subsystem that no unit has: HEALTH_INDEX of subsystem 8192 is the reference of HALT_CAUSE. -/
def strayTrigger : Trig := ⟨3, 8192, 255, 255, 0⟩

theorem healthIndex_stray : Obj.HEALTH_INDEX + strayTrigger.subsys = Obj.HALT_CAUSE := by decide

/-- A single device that is active. -/
def loneActive : State := State.reset.setN Obj.PAIR_STATE 1

/-- HALT clears the health of its subsystem last, so here it clears its own cause. -/
theorem haltCause_of_strayTrigger : (loneActive.raise strayTrigger).getN Obj.HALT_CAUSE = 0 := by decide +kernel

/-! ### The statement -/

/-- Refutes O11: its clause on triggers 3, 4 and 6 without an eligible standby takes a trigger with any subsystem number, and HALT writes 0 to
HEALTH_INDEX of that number. For 8192 this is HALT_CAUSE, which then reads 0 and not 1. -/
theorem not_errorLogAndTriggers : ¬ Obligations.ErrorLogAndTriggers := by
  rintro ⟨-, -, -, stops, -⟩
  obtain ⟨t, raised, -, -, -, cause, -⟩ :=
    stops loneActive strayTrigger (by decide +kernel) (by decide +kernel) (.inl rfl) (by decide +kernel) rfl (by decide)
  rw [← raised, haltCause_of_strayTrigger] at cause
  exact absurd cause (by decide)

end Sys2Proof.Machine
end

section
/-! SUPPORT. Device time (R349 to R351): the tick, and what is written to it. -/
namespace Sys2Proof.Machine

/-! ### The tick -/

/-- The objects that a tick writes, before a rate write takes effect. -/
def State.tickObjects (s : State) : State :=
  (s.add Obj.STEPS_APPLIED s.clk.adjust.length).setN Obj.TIMESTAMP_RESOLUTION (if s.clk.coreLocked then 2500 else 40000)

/-- The clock after a tick. -/
def State.tickClock (s : State) : Clock :=
  { cycle := max s.clk.cycle (s.clk.tickCycle + 16), tickCycle := s.clk.tickCycle + 16
    T := s.clk.adjust.foldl (applyAdj (s.getN Obj.TIME_INCREMENT) (s.clk.tickCycle + 16)) ((s.clk.T + s.getN Obj.TIME_INCREMENT) % timeModulus)
    incNext := none, adjust := [], coreLocked := s.clk.coreLocked, fine := s.clk.coreLocked }

/-- The increment that a rate write leaves, if one waits. -/
def State.takeRate (s : State) (v : Option Nat) : State :=
  match v with
  | some v => s.setN Obj.TIME_INCREMENT v
  | none => s

theorem execTimeTick_eq (s : State) : execTimeTick s = .next { s.tickObjects.takeRate s.clk.incNext with clk := s.tickClock } := rfl

theorem State.takeRate_eq (s : State) (v : Option Nat) : s.takeRate v = { s with od := (s.takeRate v).od } := by cases v <;> rfl

theorem State.tickObjects_eq (s : State) : s.tickObjects = { s with od := s.tickObjects.od } := by
  unfold State.tickObjects
  rw [State.add_eq]
  rfl

theorem State.get_takeRate_other (s : State) (v : Option Nat) {o : ObjRef} (h : o ≠ Obj.TIME_INCREMENT) : (s.takeRate v).get o = s.get o := by
  cases v with
  | none => rfl
  | some v => exact s.get_setN_other v h

theorem State.get_tickObjects_other (s : State) {o : ObjRef} (steps : o ≠ Obj.STEPS_APPLIED) (resolution : o ≠ Obj.TIMESTAMP_RESOLUTION) :
    s.tickObjects.get o = s.get o :=
  (State.get_setN_other _ _ resolution).trans (s.get_add_other _ steps)

/-! ### Statements about getN -/

theorem State.getN_congr {s t : State} {o : ObjRef} (h : t.get o = s.get o) : t.getN o = s.getN o := congrArg Int.toNat h

theorem tick_effect (s : State) : ∃ t, exec .timeTick s = .next t ∧
    (s.clk.adjust = [] → t.clk.T = (s.clk.T + s.getN Obj.TIME_INCREMENT) % timeModulus) ∧
    (∀ v, s.clk.adjust = [.step v] → (t.clk.T : Int) = (((s.clk.T + s.getN Obj.TIME_INCREMENT) % timeModulus : Nat) + v * 2 ^ 16) % timeModulus) ∧
    (∀ v, s.clk.incNext = some v → t.getN Obj.TIME_INCREMENT = v) ∧
    (s.clk.incNext = none → t.getN Obj.TIME_INCREMENT = s.getN Obj.TIME_INCREMENT) ∧
    t.clk.tickCycle = s.clk.tickCycle + 16 ∧ t.clk.adjust = [] ∧ t.clk.incNext = none ∧
    t.getN Obj.TIMESTAMP_RESOLUTION = (if s.clk.coreLocked then 2500 else 40000) ∧
    t = { s with od := t.od, clk := t.clk } ∧
    s.sameObjects t [Obj.STEPS_APPLIED, Obj.TIMESTAMP_RESOLUTION, Obj.TIME_INCREMENT] := by
  refine ⟨_, execTimeTick_eq s, fun none => ?_, fun v step => ?_, fun v rate => ?_, fun noRate => ?_, rfl, rfl, rfl, ?_, ?_, fun o other => ?_⟩
  · show s.tickClock.T = _
    rw [State.tickClock, none, List.foldl_nil]
  · show (s.tickClock.T : Int) = _
    rw [State.tickClock, step, List.foldl_cons, List.foldl_nil]
    exact Int.toNat_of_nonneg (Int.emod_nonneg _ (by decide))
  · show (s.tickObjects.takeRate s.clk.incNext).getN _ = v
    rw [rate]
    exact State.getN_setN_self _ _ _
  · show (s.tickObjects.takeRate s.clk.incNext).getN _ = _
    rw [noRate]
    exact State.getN_congr (s.get_tickObjects_other (by decide) (by decide))
  · exact (State.getN_congr (State.get_takeRate_other _ _ (by decide))).trans (State.getN_setN_self _ _ _)
  · rw [State.takeRate_eq, State.tickObjects_eq]
  · simp only [List.mem_cons, List.not_mem_nil, or_false, not_or] at other
    obtain ⟨steps, resolution, increment⟩ := other
    exact (State.get_takeRate_other _ _ increment).trans (s.get_tickObjects_other steps resolution)

/-! ### Rates, steps and sets -/

theorem timeStepEffect_of_small {s : State} {v : Int} (small : v.natAbs ≤ s.getN Obj.JUMP_THRESHOLD * 2 ^ 16) :
    timeStepEffect v s = ({ s with clk := { s.clk with adjust := s.clk.adjust ++ [TimeAdj.step v] } }).ok :=
  if_neg (by unfold State.jumpLimit; omega)

theorem timeStepEffect_of_large {s : State} {v : Int} (large : s.getN Obj.JUMP_THRESHOLD * 2 ^ 16 < v.natAbs) :
    timeStepEffect v s = refuseJump s v := by
  have beyond : v.natAbs * 65536 > s.jumpLimit := by
    have scaled : s.getN Obj.JUMP_THRESHOLD * 2 ^ 16 * 65536 < v.natAbs * 65536 := Nat.mul_lt_mul_of_pos_right large (by decide)
    rwa [Nat.mul_assoc] at scaled
  exact if_pos beyond

theorem execTimeStep_of_mayWrite {s : State} {c : Caller} (v : Int) (may : s.mayWrite c Obj.TIME_STEP) :
    execTimeStep c v s = .next (timeStepEffect v s).1 := by
  have effect : writeTimeStep s c v = timeStepEffect v s := State.gate_of_mayWrite (timeStepEffect v) may
  rw [execTimeStep, effect]

/-- The effect of a rate write, behind its gate. -/
def rateEffect (v : Nat) (s : State) : Wr :=
  if v < 171626893148 ∨ v > 171970490532 then s.deny stRange else ({ s with clk := { s.clk with incNext := some v } }).ok

theorem rateEffect_inside {s : State} {v : Nat} (low : 171626893148 ≤ v) (high : v ≤ 171970490532) :
    rateEffect v s = ({ s with clk := { s.clk with incNext := some v } }).ok :=
  if_neg (by omega)

theorem rateEffect_outside {s : State} {v : Nat} (out : v < 171626893148 ∨ 171970490532 < v) : rateEffect v s = s.deny stRange := if_pos out

theorem execTimeIncrement_of_mayWrite {s : State} {c : Caller} (v : Nat) (may : s.mayWrite c Obj.TIME_INCREMENT) :
    execTimeIncrement c v s = .next (rateEffect v s).1 := by
  have effect : writeTimeIncrement s c v = rateEffect v s := State.gate_of_mayWrite (rateEffect v) may
  rw [execTimeIncrement, effect]

theorem execTimeSet_kept_threshold {s : State} {c : Caller} {bs : Bytes} {v : Int} (may : s.mayWrite c Obj.TIME_SET) (len : bs.length = 16)
    (value : decodeValue .time bs = some v) (taken : s.getN Obj.TIME_STATE = 0 ∨ (v - (s.now : Int)).natAbs ≤ s.getN Obj.JUMP_THRESHOLD * 2 ^ 32) :
    execTimeSet c bs s = .next { s.setN Obj.TIME_STATE 1 with clk := { s.clk with adjust := s.clk.adjust ++ [.setTo v.toNat s.clk.cycle] } } := by
  have within : ¬(s.getN Obj.TIME_STATE = 1 ∧ (v - (s.now : Int)).natAbs > s.jumpLimit) := by
    unfold State.jumpLimit
    omega
  rw [execTimeSet, writeTimeSet, State.gate_of_mayWrite _ may, if_neg (not_not.2 len), value]
  dsimp only
  rw [if_neg within, State.ok_fst]

/-! ### The statement -/

/-- Settles O13: the tick as it is written, and one branch of each write. -/
theorem deviceTime : Obligations.DeviceTime := by
  refine ⟨tick_effect, fun c v s may low high => ?_, fun c v s may out => ?_, fun c v s may small => ?_, fun c v s may large => ?_,
    fun c bs s v => execTimeSet_kept_threshold⟩
  · exact (execTimeIncrement_of_mayWrite v may).trans (by rw [rateEffect_inside low high, State.ok_fst])
  · exact (execTimeIncrement_of_mayWrite v may).trans (by rw [rateEffect_outside out, State.deny_fst])
  · exact (execTimeStep_of_mayWrite v may).trans (by rw [timeStepEffect_of_small small, State.ok_fst])
  · exact (execTimeStep_of_mayWrite v may).trans (by rw [timeStepEffect_of_large large, refuseJump])

end Sys2Proof.Machine
end

section
/-! SUPPORT. PTP (R353, R354): what each message of an exchange does, and the choice of a master. -/
namespace Sys2Proof.Machine

/-! ### Events -/

/-- The state at a stamped event, which counts. -/
abbrev State.stamped (s : State) (cycle : Nat) (o : ObjRef) : State := (s.at cycle).inc o

theorem State.ptpPeerDone_of_endToEnd {s : State} (mechanism : s.getN Obj.PTP_DELAY_MECHANISM = 1) : s.ptpPeerDone = s :=
  if_pos (by rw [mechanism]; decide)

theorem execPtpSync_of_master {s : State} {p rx : Nat} {m : PtpMessage} (on : s.ptpOn p = true)
    (domain : (s.stamped rx Obj.PTP_RX_EVENTS).ptpWrongDomain m = false) (master : (s.stamped rx Obj.PTP_RX_EVENTS).ptpFromMaster m = true)
    (mechanism : (s.stamped rx Obj.PTP_RX_EVENTS).getN Obj.PTP_DELAY_MECHANISM = 1) :
    execPtpSync p rx m s = let u := s.stamped rx Obj.PTP_RX_EVENTS
      .next { u with ptp := { u.ptp with
        sync := some ⟨m.seqId, u.rxStamp, if m.twoStep then none else some m.timestamp, m.correction, u.getN Obj.STEPS_APPLIED⟩
        delayReq := none } } := by
  unfold execPtpSync
  simp only [on, domain, master, Bool.not_true, Bool.false_eq_true, if_false]
  rw [State.ptpPeerDone_of_endToEnd]
  exact mechanism

theorem execPtpFollowUp_of_sync {s : State} {p t2 n : Nat} {c : Int} {m : PtpMessage} (on : s.ptpOn p = true) (domain : s.ptpWrongDomain m = false)
    (master : s.ptpFromMaster m = true) (mechanism : s.getN Obj.PTP_DELAY_MECHANISM = 1) (sync : s.ptp.sync = some ⟨m.seqId, t2, none, c, n⟩) :
    execPtpFollowUp p m s = .next { s with ptp := { s.ptp with sync := some ⟨m.seqId, t2, some m.timestamp, c + m.correction, n⟩ } } := by
  unfold execPtpFollowUp
  simp only [on, domain, master, sync, Bool.not_true, Bool.false_eq_true, if_false, ne_eq, not_true_eq_false]
  rw [State.ptpPeerDone_of_endToEnd]
  exact mechanism

theorem execPtpDelayReqSend_of_selected {s : State} {p : Nat} (tx : Nat) (port : s.ptpPort = some p) (mechanism : s.getN Obj.PTP_DELAY_MECHANISM = 1)
    (selected : s.getN Obj.PTP_PORT_STATE = 5 ∨ s.getN Obj.PTP_PORT_STATE = 6) :
    execPtpDelayReqSend tx s = let u := s.stamped tx Obj.PTP_TX_EVENTS
      .next { u.emit (.ptp p 1 s.ptp.nextSeq u.txStamp) with ptp := { u.ptp with
        delayReq := some (s.ptp.nextSeq, u.txStamp, u.getN Obj.STEPS_APPLIED), nextSeq := (s.ptp.nextSeq + 1) % 2 ^ 16 } } := by
  have seq : s.ptp.nextSeq = (s.stamped tx Obj.PTP_TX_EVENTS).ptp.nextSeq := by rw [State.stamped, State.inc_ptp]; rfl
  unfold execPtpDelayReqSend
  rw [port]
  dsimp only
  rw [if_neg (by omega), seq]
  rfl

theorem execPtpPdelayReqSend_of_peer {s : State} {p : Nat} (tx : Nat) (port : s.ptpPort = some p) (mechanism : s.getN Obj.PTP_DELAY_MECHANISM = 2) :
    execPtpPdelayReqSend tx s = let u := s.stamped tx Obj.PTP_TX_EVENTS
      .next { u.emit (.ptp p 2 s.ptp.nextPSeq u.txStamp) with ptp := { u.ptp with
        pdelayReq := some (s.ptp.nextPSeq, u.txStamp, u.getN Obj.STEPS_APPLIED), pdelayResp := none,
        nextPSeq := (s.ptp.nextPSeq + 1) % 2 ^ 16 } } := by
  have seq : s.ptp.nextPSeq = (s.stamped tx Obj.PTP_TX_EVENTS).ptp.nextPSeq := by rw [State.stamped, State.inc_ptp]; rfl
  unfold execPtpPdelayReqSend
  rw [port]
  dsimp only
  rw [if_neg (not_not.2 mechanism), seq]
  rfl

theorem execPtpPdelayReq_of_peer {s : State} {p rx tx : Nat} {m : PtpMessage} (on : s.ptpOn p = true)
    (domain : (s.stamped rx Obj.PTP_RX_EVENTS).ptpWrongDomain m = false)
    (mechanism : (s.stamped rx Obj.PTP_RX_EVENTS).getN Obj.PTP_DELAY_MECHANISM = 2) :
    execPtpPdelayReq p rx tx m s = let u := s.stamped rx Obj.PTP_RX_EVENTS; let v := u.stamped tx Obj.PTP_TX_EVENTS
      .next ((v.emit (.ptp p 3 m.seqId u.rxStamp)).emit (.ptp p 4 m.seqId v.txStamp)) := by
  unfold execPtpPdelayReq
  simp only [on, domain, mechanism, Bool.not_true, Bool.false_eq_true, if_false, ne_eq, not_true_eq_false, or_self]

theorem execPtpPdelayResp_of_followUp {s : State} {p rx t1 n : Nat} {m : PtpMessage} {r : PtpPeerPart} (on : s.ptpOn p = true)
    (domain : (s.at rx).ptpWrongDomain m = false) (mechanism : (s.at rx).getN Obj.PTP_DELAY_MECHANISM = 2)
    (request : s.ptp.pdelayReq = some (m.seqId, t1, n)) (response : s.ptp.pdelayResp = some r) :
    execPtpPdelayResp p rx true m s = .next { s.at rx with ptp := { s.ptp with
      pdelayReq := none, pdelayResp := none,
      linkDelay := some (((r.t4 : Int) - t1) - ((m.timestamp : Int) - r.t2) - (r.corr + m.correction) * 65536) } } := by
  have sent : (s.at rx).ptp.pdelayReq = some (m.seqId, t1, n) := request
  have answered : (s.at rx).ptp.pdelayResp = some r := response
  unfold execPtpPdelayResp
  simp only [on, domain, mechanism, sent, answered, Bool.not_true, Bool.false_eq_true, if_false, if_true, ne_eq, not_true_eq_false, or_self]
  rfl

/-! ### A complete exchange -/

/-- What an exchange publishes. -/
def exchangeObjects : List ObjRef := [Obj.PTP_MEAN_DELAY, Obj.PTP_OFFSET, Obj.PTP_T1, Obj.PTP_T1 + 1, Obj.PTP_T1 + 2, Obj.PTP_T1 + 3, Obj.PTP_EXCHANGES,
  Obj.PTP_PORT_STATE]

/-- The values of an exchange. -/
def State.showValues (s : State) (t1 t2 t3 t4 : Nat) (delay2 : Int) : State :=
  (((((s.set Obj.PTP_OFFSET (rneDiv (2 * ((t2 : Int) - (t1 : Int)) - delay2) 131072)).set Obj.PTP_MEAN_DELAY (rneDiv delay2 131072)).setN
    Obj.PTP_T1 t1).setN (Obj.PTP_T1 + 1) t2).setN (Obj.PTP_T1 + 2) t3).setN (Obj.PTP_T1 + 3) t4

/-- The values of an exchange, counted. -/
def State.showExchange (s : State) (t1 t2 t3 t4 : Nat) (delay2 : Int) : State := (s.showValues t1 t2 t3 t4 delay2).inc Obj.PTP_EXCHANGES

/-- UNCALIBRATED becomes SLAVE. -/
def State.calibrated (s : State) : State := if s.getN Obj.PTP_PORT_STATE = 5 then s.setN Obj.PTP_PORT_STATE 6 else s

theorem State.ptpPublish_eq (s : State) (t1 t2 t3 t4 : Nat) (delay2 : Int) : s.ptpPublish t1 t2 t3 t4 delay2 =
    let t := (s.showExchange t1 t2 t3 t4 delay2).calibrated
    { t with ptp := { t.ptp with sync := none, delayReq := none } } := rfl

theorem State.showExchange_eq (s : State) (t1 t2 t3 t4 : Nat) (delay2 : Int) :
    s.showExchange t1 t2 t3 t4 delay2 = { s with od := (s.showExchange t1 t2 t3 t4 delay2).od } := by
  unfold State.showExchange
  rw [State.inc_eq]
  rfl

theorem State.calibrated_eq (s : State) : s.calibrated = { s with od := s.calibrated.od } := by
  unfold State.calibrated
  split <;> rfl

theorem State.get_calibrated_other (s : State) {o : ObjRef} (h : o ≠ Obj.PTP_PORT_STATE) : s.calibrated.get o = s.get o := by
  unfold State.calibrated
  split
  · exact s.get_setN_other _ h
  · rfl

theorem State.getN_calibrated {s : State} (selected : s.getN Obj.PTP_PORT_STATE = 5 ∨ s.getN Obj.PTP_PORT_STATE = 6) :
    s.calibrated.getN Obj.PTP_PORT_STATE = 6 := by
  unfold State.calibrated
  split
  · exact s.getN_setN_self _ _
  · omega

theorem State.get_showValues_other (s : State) (t1 t2 t3 t4 : Nat) (delay2 : Int) {o : ObjRef}
    (h : o ∉ [Obj.PTP_MEAN_DELAY, Obj.PTP_OFFSET, Obj.PTP_T1, Obj.PTP_T1 + 1, Obj.PTP_T1 + 2, Obj.PTP_T1 + 3]) :
    (s.showValues t1 t2 t3 t4 delay2).get o = s.get o := by
  simp only [List.mem_cons, List.not_mem_nil, or_false, not_or] at h
  obtain ⟨mean, offset, h1, h2, h3, h4⟩ := h
  unfold State.showValues
  rw [State.get_setN_other _ _ h4, State.get_setN_other _ _ h3, State.get_setN_other _ _ h2, State.get_setN_other _ _ h1,
    State.get_set_other _ _ mean, State.get_set_other _ _ offset]

theorem State.get_showExchange_other (s : State) (t1 t2 t3 t4 : Nat) (delay2 : Int) {o : ObjRef}
    (h : o ∉ [Obj.PTP_MEAN_DELAY, Obj.PTP_OFFSET, Obj.PTP_T1, Obj.PTP_T1 + 1, Obj.PTP_T1 + 2, Obj.PTP_T1 + 3] ++ [Obj.PTP_EXCHANGES]) :
    (s.showExchange t1 t2 t3 t4 delay2).get o = s.get o :=
  (State.get_inc_other _ fun e => h (List.mem_append_right _ (List.mem_singleton.2 e))).trans
    (s.get_showValues_other _ _ _ _ _ fun e => h (List.mem_append_left _ e))

/-- Each value of an exchange reads as it was published. -/
theorem State.get_showExchange (s : State) (t1 t2 t3 t4 : Nat) (delay2 : Int) : let t := s.showExchange t1 t2 t3 t4 delay2
    t.get Obj.PTP_MEAN_DELAY = rneDiv delay2 131072 ∧ t.get Obj.PTP_OFFSET = rneDiv (2 * ((t2 : Int) - t1) - delay2) 131072 ∧
    t.get Obj.PTP_T1 = t1 ∧ t.get (Obj.PTP_T1 + 1) = t2 ∧ t.get (Obj.PTP_T1 + 2) = t3 ∧ t.get (Obj.PTP_T1 + 3) = t4 ∧
    s.counts t Obj.PTP_EXCHANGES := by
  refine ⟨?_, ?_, ?_, ?_, ?_, ?_, fun r row room => ?_⟩
  case refine_7 =>
    have before : (s.showValues t1 t2 t3 t4 delay2).get Obj.PTP_EXCHANGES = s.get Obj.PTP_EXCHANGES := s.get_showValues_other _ _ _ _ _ (by decide)
    rw [State.showExchange, State.get_inc_self _ _ r row (by rwa [before]), before]
  all_goals
    rw [State.showExchange, State.get_inc_other _ (by decide)]
    simp [State.showValues, State.get_setN, State.get_set, Obj.PTP_OFFSET, Obj.PTP_MEAN_DELAY, Obj.PTP_T1]

theorem execPtpDelayResp_of_exchange {s : State} {p t2 t3 o n : Nat} {c : Int} {m : PtpMessage} (on : s.ptpOn p = true)
    (domain : s.ptpWrongDomain m = false) (master : s.ptpFromMaster m = true) (mechanism : s.getN Obj.PTP_DELAY_MECHANISM = 1)
    (sync : s.ptp.sync = some ⟨m.seqId, t2, some o, c, n⟩) (request : s.ptp.delayReq = some (m.seqId, t3, n)) :
    execPtpDelayResp p m s = let t1 := timeAdd o ((c + m.correction) * 65536)
      .next (s.ptpPublish t1 t2 t3 m.timestamp (((t2 : Int) - t1) + ((m.timestamp : Int) - t3))) := by
  unfold execPtpDelayResp
  simp only [on, domain, master, mechanism, sync, request, Bool.not_true, Bool.false_eq_true, if_false, ne_eq, not_true_eq_false, or_self]

theorem State.selected_of_master {s : State} {m : PtpMessage} (master : s.ptpFromMaster m = true) :
    s.getN Obj.PTP_PORT_STATE = 5 ∨ s.getN Obj.PTP_PORT_STATE = 6 := by
  simp only [State.ptpFromMaster, Bool.and_eq_true, Bool.or_eq_true, decide_eq_true_eq] at master
  exact master.1.1

/-- What is published at the end of an exchange with the selected master. -/
theorem State.ptpPublish_effect {s : State} (selected : s.getN Obj.PTP_PORT_STATE = 5 ∨ s.getN Obj.PTP_PORT_STATE = 6) (t1 t2 t3 t4 : Nat)
    (delay2 : Int) : let t := s.ptpPublish t1 t2 t3 t4 delay2
    t.get Obj.PTP_MEAN_DELAY = rneDiv delay2 131072 ∧ t.get Obj.PTP_OFFSET = rneDiv (2 * ((t2 : Int) - t1) - delay2) 131072 ∧
    t.getN Obj.PTP_T1 = t1 ∧ t.getN (Obj.PTP_T1 + 1) = t2 ∧ t.getN (Obj.PTP_T1 + 2) = t3 ∧ t.getN (Obj.PTP_T1 + 3) = t4 ∧
    s.counts t Obj.PTP_EXCHANGES ∧ t.getN Obj.PTP_PORT_STATE = 6 ∧ t.ptp = { s.ptp with sync := none, delayReq := none } ∧
    t = { s with od := t.od, ptp := t.ptp } ∧ s.sameObjects t exchangeObjects := by
  obtain ⟨mean, offset, g1, g2, g3, g4, count⟩ := s.get_showExchange t1 t2 t3 t4 delay2
  have whole := s.showExchange_eq t1 t2 t3 t4 delay2
  have others (o : ObjRef) := s.get_showExchange_other t1 t2 t3 t4 delay2 (o := o)
  have state : (s.showExchange t1 t2 t3 t4 delay2).getN Obj.PTP_PORT_STATE = s.getN Obj.PTP_PORT_STATE := congrArg Int.toNat (others _ (by decide))
  rw [State.ptpPublish_eq]
  generalize s.showExchange t1 t2 t3 t4 delay2 = u at mean offset g1 g2 g3 g4 count whole others state ⊢
  have reads {o : ObjRef} (h : o ≠ Obj.PTP_PORT_STATE) : u.calibrated.get o = u.get o := u.get_calibrated_other h
  have ptp : u.calibrated.ptp = s.ptp := by rw [State.calibrated_eq, whole]
  refine ⟨(reads (by decide)).trans mean, (reads (by decide)).trans offset, congrArg Int.toNat ((reads (by decide)).trans g1),
    congrArg Int.toNat ((reads (by decide)).trans g2), congrArg Int.toNat ((reads (by decide)).trans g3),
    congrArg Int.toNat ((reads (by decide)).trans g4), fun r row room => (reads (by decide)).trans (count r row room),
    State.getN_calibrated (state ▸ selected), ?_, ?_, fun o other => ?_⟩
  · show { u.calibrated.ptp with sync := none, delayReq := none } = _
    rw [ptp]
  · rw [State.calibrated_eq, whole]
  · exact (reads fun h => other (by rw [h]; decide)).trans (others o fun h => other (List.mem_append_left [Obj.PTP_PORT_STATE] h))

/-! ### The choice of a master -/

theorem State.ptpSelect_of_none {s : State} (none : s.ptp.best = none) : s.ptpSelect = s := by
  unfold State.ptpSelect
  rw [none]

/-- A change of master: the port is UNCALIBRATED and the exchange in hand is dropped. -/
def State.takeMaster (s : State) (b : PtpMaster) : State :=
  { ((s.setN Obj.PTP_PORT_STATE 5).setN Obj.PTP_MASTER_ID b.clockId).setN Obj.PTP_MASTER_PORT b.port with
    ptp := { s.ptp with sync := none, delayReq := none } }

/-- What is reported of the selected master. -/
def State.showMaster (s : State) (b : PtpMaster) : State :=
  (s.set Obj.PTP_UTC_OFFSET b.announce.utcOffset).setN Obj.PTP_TIME_FLAGS (b.announce.timeFlags.toNat % 64)

theorem State.ptpSelect_of_listening {s : State} {b : PtpMaster} (best : s.ptp.best = some b) (listening : s.getN Obj.PTP_PORT_STATE = 3) :
    s.ptpSelect = (s.takeMaster b).showMaster b := by
  unfold State.ptpSelect
  rw [best]
  dsimp only
  rw [listening]
  rfl

/-- The objects of a master's selection. -/
def masterObjects : List ObjRef := [Obj.PTP_PORT_STATE, Obj.PTP_MASTER_ID, Obj.PTP_MASTER_PORT, Obj.PTP_UTC_OFFSET, Obj.PTP_TIME_FLAGS]

theorem State.get_showMaster_takeMaster (s : State) (b : PtpMaster) (o : ObjRef) : ((s.takeMaster b).showMaster b).get o =
    if o = Obj.PTP_TIME_FLAGS then ((b.announce.timeFlags.toNat % 64 : Nat) : Int) else if o = Obj.PTP_UTC_OFFSET then b.announce.utcOffset
    else if o = Obj.PTP_MASTER_PORT then (b.port : Int) else if o = Obj.PTP_MASTER_ID then (b.clockId : Int)
    else if o = Obj.PTP_PORT_STATE then ((5 : Nat) : Int) else s.get o := by
  unfold State.showMaster
  rw [State.get_setN, State.get_set]
  show (if _ then _ else if _ then _ else (((s.setN Obj.PTP_PORT_STATE 5).setN Obj.PTP_MASTER_ID b.clockId).setN Obj.PTP_MASTER_PORT b.port).get o) = _
  rw [State.get_setN, State.get_setN, State.get_setN]

/-- The effect of a first choice of a master. -/
theorem State.ptpSelect_effect {s : State} {b : PtpMaster} (best : s.ptp.best = some b) (listening : s.getN Obj.PTP_PORT_STATE = 3) :
    let t := s.ptpSelect
    t.getN Obj.PTP_PORT_STATE = 5 ∧ t.getN Obj.PTP_MASTER_ID = b.clockId ∧ t.getN Obj.PTP_MASTER_PORT = b.port ∧
    t.get Obj.PTP_UTC_OFFSET = b.announce.utcOffset ∧ t = { s with od := t.od, ptp := { s.ptp with sync := none, delayReq := none } } ∧
    s.sameObjects t masterObjects := by
  rw [State.ptpSelect_of_listening best listening]
  have reads := s.get_showMaster_takeMaster b
  refine ⟨congrArg Int.toNat (reads _), congrArg Int.toNat (reads _), congrArg Int.toNat (reads _), reads _, rfl, fun o other => ?_⟩
  simp only [masterObjects, List.mem_cons, List.not_mem_nil, or_false, not_or] at other
  obtain ⟨state, master, port, utc, flags⟩ := other
  rw [reads, if_neg flags, if_neg utc, if_neg port, if_neg master, if_neg state]

theorem execPtpAnnounce_of_domain {s : State} {p : Nat} {m : PtpMessage} (a : PtpAnnounce) (on : s.ptpOn p = true)
    (domain : s.ptpWrongDomain m = false) : execPtpAnnounce p m a s =
    let old := s.ptp.masters.find? fun x => x.clockId = m.clockId && x.port = m.portNumber
    let rest := s.ptp.masters.filter fun x => !(x.clockId = m.clockId && x.port = m.portNumber)
    let x : PtpMaster := ⟨m.clockId, m.portNumber, a, s.clk.cycle, old.map (·.receivedAt)⟩
    .next ({ s with ptp := { s.ptp with masters := x :: rest } } : State).ptpSelect := by
  unfold execPtpAnnounce
  rw [on, domain]
  rfl

theorem execPtpAnnounceTimeout_of_last {s : State} (selected : s.getN Obj.PTP_PORT_STATE = 5 ∨ s.getN Obj.PTP_PORT_STATE = 6) :
    let rest := s.ptp.masters.filter fun x => !(x.clockId = s.getN Obj.PTP_MASTER_ID && x.port = s.getN Obj.PTP_MASTER_PORT)
    let u : State := { s with ptp := { s.ptp with masters := rest, sync := none, delayReq := none } }
    u.ptp.best = none → execPtpAnnounceTimeout s = .next (u.setN Obj.PTP_PORT_STATE 3) := by
  intro rest u none
  unfold execPtpAnnounceTimeout
  rw [if_pos selected]
  exact congrArg _ (State.ptpSelect_of_none (s := u.setN Obj.PTP_PORT_STATE 3) none)

/-! ### The statement -/

/-- Settles O14: one lemma per message. -/
theorem ptpFollowsItsMaster : Obligations.PtpFollowsItsMaster := by
  refine ⟨⟨?_, ?_, ?_, ?_, ?_, ?_, ?_⟩, ?_, ?_⟩
  · exact fun p rx m s on => execPtpSync_of_master on
  · exact fun p m s t2 c n on domain master mechanism => execPtpFollowUp_of_sync on domain master mechanism
  · intro p m s t2 o c n t3 on domain master mechanism sync request
    exact ⟨_, execPtpDelayResp_of_exchange on domain master mechanism sync request, State.ptpPublish_effect (State.selected_of_master master) _ _ _ _ _⟩
  · exact fun tx s p => execPtpDelayReqSend_of_selected tx
  · exact fun tx s p => execPtpPdelayReqSend_of_peer tx
  · exact fun p rx tx m s on => execPtpPdelayReq_of_peer on
  · exact fun p rx m s t1 r n on => execPtpPdelayResp_of_followUp on
  · intro p m a s b on domain listening old rest x u best
    exact ⟨_, execPtpAnnounce_of_domain a on domain, State.ptpSelect_effect (s := u) best listening⟩
  · exact fun s => execPtpAnnounceTimeout_of_last

end Sys2Proof.Machine
end

section
/-! SUPPORT. Comparators, pulses and capture inputs (R355, R358, R360). -/
namespace Sys2Proof.Machine

/-! ### Matches -/

/-- The state at a match, counted; a late arm of the comparator is over. -/
def State.matched (s : State) (c n : Nat) : State :=
  { (s.at n).inc (Obj.CMP_MATCHES + c) with trg := { s.trg with lateArm := s.trg.lateArm.filter (· ≠ c) } }

theorem State.matched_eq (s : State) (c n : Nat) : s.matched c n =
    { s.at n with od := (s.matched c n).od, trg := { s.trg with lateArm := s.trg.lateArm.filter (· ≠ c) } } := by
  unfold State.matched
  rw [State.inc_eq]

theorem State.get_matched_other (s : State) (n : Nat) {c : Nat} {o : ObjRef} (h : o ≠ Obj.CMP_MATCHES + c) : (s.matched c n).get o = s.get o :=
  (s.at n).get_inc_other h

theorem State.counts_matched (s : State) (c n : Nat) : s.counts (s.matched c n) (Obj.CMP_MATCHES + c) :=
  (s.at n).counts_inc _

theorem mode_ne_matches (c : Nat) : Obj.CMP_MODE + c ≠ Obj.CMP_MATCHES + c := by simp [Obj.CMP_MODE, Obj.CMP_MATCHES]
theorem target_ne_matches (c : Nat) : Obj.CMP_TARGET + c ≠ Obj.CMP_MATCHES + c := by simp [Obj.CMP_TARGET, Obj.CMP_MATCHES]
theorem period_ne_matches (c : Nat) : Obj.CMP_PERIOD + c ≠ Obj.CMP_MATCHES + c := by simp [Obj.CMP_PERIOD, Obj.CMP_MATCHES]

theorem State.comparatorStep_at (s : State) (c n : Nat) : (s.at n).comparatorStep c =
    if s.getN (Obj.CMP_MODE + c) = 1 then (s.matched c n).setN (Obj.CMP_MODE + c) 0
    else (s.matched c n).setN (Obj.CMP_TARGET + c) (advanceTarget (s.getN (Obj.CMP_TARGET + c) + s.getN (Obj.CMP_PERIOD + c))
      (s.getN (Obj.CMP_PERIOD + c)) (s.matched c n).now % timeModulus) := by
  have trg : ((s.at n).inc (Obj.CMP_MATCHES + c)).trg = s.trg := State.inc_trg _ _
  have step : (s.at n).comparatorStep c = let u : State := s.matched c n
      if u.getN (Obj.CMP_MODE + c) = 1 then u.setN (Obj.CMP_MODE + c) 0
      else u.setN (Obj.CMP_TARGET + c) (advanceTarget (u.getN (Obj.CMP_TARGET + c) + u.getN (Obj.CMP_PERIOD + c)) (u.getN (Obj.CMP_PERIOD + c))
        u.now % timeModulus) := by
    unfold State.comparatorStep State.matched
    dsimp only
    rw [trg]
  have reads {o : ObjRef} (h : o ≠ Obj.CMP_MATCHES + c) : (s.matched c n).getN o = s.getN o := congrArg Int.toNat (s.get_matched_other n h)
  rw [step]
  dsimp only
  rw [reads (mode_ne_matches c), reads (target_ne_matches c), reads (period_ne_matches c)]

theorem execComparatorMatch_of_noUser {s : State} {c n : Nat} (up : s.pins.porstN = true) (match_ : s.matchCycle c = some n)
    (noUser : s.getN (Obj.CMP_OWNER + c) = 0) : execComparatorMatch c s = .next ((s.at n).comparatorStep c) := by
  have owner : (s.at n).getN (Obj.CMP_OWNER + c) = 0 := noUser
  unfold execComparatorMatch
  rw [up, match_]
  dsimp only
  rw [owner]
  rfl

/-- A match writes one object beside its count. -/
theorem State.match_effect (s : State) {c n : Nat} {o : ObjRef} (v : Nat) (h : o ≠ Obj.CMP_MATCHES + c) : let t := (s.matched c n).setN o v
    s.counts t (Obj.CMP_MATCHES + c) ∧ t.getN o = v ∧
    t = { s.at n with od := t.od, trg := { s.trg with lateArm := s.trg.lateArm.filter (· ≠ c) } } ∧ s.sameObjects t [Obj.CMP_MATCHES + c, o] := by
  refine ⟨fun r row room => (State.get_setN_other _ _ h.symm).trans (s.counts_matched c n r row room), State.getN_setN_self _ _ _, ?_, fun p other => ?_⟩
  · rw [State.matched_eq]
    rfl
  · simp only [List.mem_cons, List.not_mem_nil, or_false, not_or] at other
    exact (State.get_setN_other _ _ other.2).trans (s.get_matched_other n other.1)

theorem advanceTarget_next (target period now : Nat) : ∃ i, advanceTarget (target + period) period now = target + (i + 1) * period := by
  unfold advanceTarget
  split
  · exact ⟨0, by ring⟩
  · exact ⟨ceilDiv (now - (target + period)) period, by ring⟩

/-! ### Ends of pulses -/

theorem execPulseEnd_tto {s : State} {k e : Nat} (running : kvGet s.pins.ttoEnd k = some e) : execPulseEnd (.tto k) s =
    .next { s with clk := { s.clk with cycle := max s.clk.cycle e }, pins := { s.pins with ttoEnd := kvDel s.pins.ttoEnd k },
                   out := s.out ++ [.tto k false] } := by
  unfold execPulseEnd
  dsimp only
  rw [running]
  rfl

theorem execPulseEnd_strobe {s : State} {p e : Nat} (running : kvGet s.pins.strobeEnd p = some e) : execPulseEnd (.strobe p) s =
    .next { s with clk := { s.clk with cycle := max s.clk.cycle e }, pins := { s.pins with strobeEnd := kvDel s.pins.strobeEnd p },
                   out := s.out ++ [.strobe p false] } := by
  unfold execPulseEnd
  dsimp only
  rw [running]
  rfl

/-! ### Capture inputs -/

theorem execTciEdge_of_selected {s : State} {k : Nat} (t : Nat) {rising : Bool} (own : k < 4) (up : s.pins.porstN = true)
    (selected : s.getN (Obj.TCI_EDGE + k) = 3 ∨ (s.getN (Obj.TCI_EDGE + k) = 1 ∧ rising = true) ∨ (s.getN (Obj.TCI_EDGE + k) = 2 ∧ rising = false)) :
    execTciEdge k t rising s = let u := s.at t
      let v := (u.setN (Obj.TCI_LAST + k) u.now).inc (Obj.TCI_COUNT + k)
      if (atD s.trg.tci k []).length ≥ 16 then .next (v.inc (Obj.TCI_OVERRUNS + k))
      else .next { v.setN (Obj.TCI_QUEUED + k) ((atD s.trg.tci k []).length + 1) with
        trg := { s.trg with tci := setAt s.trg.tci k (atD s.trg.tci k [] ++ [(u.now, rising)]) } } := by
  have taken : ¬(k ≥ 4 ∨ ¬s.pins.porstN ∨ ¬(s.getN (Obj.TCI_EDGE + k) = 3 ∨ (s.getN (Obj.TCI_EDGE + k) = 1 ∧ rising) ∨
      (s.getN (Obj.TCI_EDGE + k) = 2 ∧ ¬rising))) := by
    rintro (far | down | other)
    · omega
    · exact down up
    · exact other (selected.imp_right (Or.imp_right fun h => ⟨h.1, by simp [h.2]⟩))
  have trg : (((s.at t).setN (Obj.TCI_LAST + k) (s.at t).now).inc (Obj.TCI_COUNT + k)).trg = s.trg := State.inc_trg _ _
  unfold execTciEdge
  dsimp only
  rw [if_neg taken, trg]
  rfl

theorem execTciAck_of_mayWrite {s : State} {c : Caller} {k : Nat} (n : Nat) (may : s.mayWrite c (Obj.TCI_ACK + k)) :
    execTciAck c k n s = .next (if n = 0 ∨ n > (atD s.trg.tci k []).length then s.deny stRange
      else ({ s.setN (Obj.TCI_QUEUED + k) ((atD s.trg.tci k []).length - n) with
        trg := { s.trg with tci := setAt s.trg.tci k ((atD s.trg.tci k []).drop n) } }).ok).1 := by
  rw [execTciAck, writeTciAck, State.gate_of_mayWrite _ may]

/-! ### The statement -/

/-- Settles O15: a match in once and in periodic mode, the two kinds of pulses, and the branches of an edge and of an acknowledgement. -/
theorem comparatorsAndCaptures : Obligations.ComparatorsAndCaptures := by
  refine ⟨⟨fun c s n up own match_ noUser once => ?_, fun c s n up own match_ noUser periodic => ?_, fun k s e running => ?_, fun p s e running => ?_⟩,
    fun k t rising s own up selected room => ?_, fun k t rising s own up selected full => ?_, fun c k n s may some_ enough => ?_,
    fun c k n s may tooMany => ?_⟩
  · refine ⟨_, execComparatorMatch_of_noUser up match_ noUser, ?_⟩
    rw [State.comparatorStep_at, if_pos once]
    exact s.match_effect 0 (mode_ne_matches c)
  · obtain ⟨i, next⟩ := advanceTarget_next (s.getN (Obj.CMP_TARGET + c)) (s.getN (Obj.CMP_PERIOD + c)) (s.matched c n).now
    obtain ⟨count, target, whole, others⟩ := s.match_effect (n := n) ((s.getN (Obj.CMP_TARGET + c) + (i + 1) * s.getN (Obj.CMP_PERIOD + c)) % timeModulus)
      (target_ne_matches c)
    refine ⟨_, execComparatorMatch_of_noUser up match_ noUser, ?_⟩
    rw [State.comparatorStep_at, if_neg (by omega), next]
    exact ⟨count, ⟨i, target⟩, whole, others⟩
  · exact execPulseEnd_tto running
  · exact execPulseEnd_strobe running
  · exact (execTciEdge_of_selected t own up selected).trans (if_neg (by omega))
  · exact (execTciEdge_of_selected t own up (.inl selected)).trans (if_pos full)
  · exact (execTciAck_of_mayWrite n may).trans (by rw [if_neg (by omega), State.ok_fst])
  · exact (execTciAck_of_mayWrite n may).trans (by rw [if_pos (.inr tooMany), State.deny_fst])

end Sys2Proof.Machine
end

section
/-! SUPPORT. The check-value units (R323 to R328). -/
namespace Sys2Proof.Machine

/-! ### Feeding -/

theorem writeCuFeed_of_on {s : State} (coreOn : s.coreOn = true) (u n v : Nat) : (writeCuFeed s u n v).1 = s.cuFeed u (leBytes n v) := by
  rw [writeCuFeed, if_pos coreOn, State.ok_fst]

theorem writeCuFeed_of_off {s : State} (coreOff : s.coreOn = false) (u n v : Nat) : (writeCuFeed s u n v).1 = s := by
  rw [writeCuFeed, coreOff, if_neg (by decide), State.deny_fst]

theorem leBytes_one (v : BitVec 8) : leBytes 1 v.toNat = [v] := by rw [leBytes, leBytes, BitVec.ofNat_toNat, BitVec.setWidth_eq]

theorem cuBytes_ne_cuValue (u : Nat) : Obj.CU_VALUE + u ≠ Obj.CU_BYTES + u := by simp [Obj.CU_VALUE, Obj.CU_BYTES]

/-- What taking bytes changes: the register, the count of bytes and the buffer of the port. -/
theorem State.cuFeed_effect (s : State) (u : Nat) (bs : Bytes) : let t := s.cuFeed u bs
    t.getN (Obj.CU_VALUE + u) = cuRun (s.getN (Obj.CU_POLY + u)) (s.getN (Obj.CU_VALUE + u)) bs ∧ t = { s with od := t.od, cus := t.cus } ∧
    s.sameObjects t [Obj.CU_VALUE + u, Obj.CU_BYTES + u] := by
  refine ⟨?_, ?_, fun o other => ?_⟩
  · exact congrArg Int.toNat ((State.get_add_other _ _ (cuBytes_ne_cuValue u)).trans (State.get_setN_self _ _ _))
  · unfold State.cuFeed
    rw [State.add_eq]
    rfl
  · simp only [List.mem_cons, List.not_mem_nil, or_false, not_or] at other
    exact (State.get_add_other _ _ other.2).trans (State.get_setN_other _ _ other.1)

theorem execCuPortWrite_of_room {s : State} {c u : Nat} {d : DmaDesc} (desc : (s.dmaCh c).desc = some d) (toPort : d.dstSpace = 2)
    (port : d.dst = u) (holds : (s.dmaCh c).port ≠ []) (room : s.cuLevel u + (s.dmaCh c).port.length ≤ 8192) : execCuPortWrite c u s =
    .next (((s.cuFeed u (s.dmaCh c).port).dmaWrote c (s.dmaCh c).port.length).modDma c fun x => { x with port := [] }) := by
  unfold execCuPortWrite
  dsimp only
  rw [desc]
  exact if_pos ⟨toPort, port, holds, room⟩

theorem execCuPortWrite_of_full {s : State} {c u : Nat} {d : DmaDesc} (desc : (s.dmaCh c).desc = some d)
    (full : 8192 < s.cuLevel u + (s.dmaCh c).port.length) : execCuPortWrite c u s = .next s := by
  unfold execCuPortWrite
  dsimp only
  rw [desc]
  exact if_neg fun ⟨_, _, _, room⟩ => absurd room (Nat.not_le.2 full)

/-! ### Registers and latches -/

theorem writeCuValue_of_fits {s : State} {u v : Nat} (coreOn : s.coreOn = true) (fits : v < 2 ^ cuWidth (s.getN (Obj.CU_POLY + u))) :
    (writeCuValue s u v).1 = s.setN (Obj.CU_VALUE + u) v := by
  rw [writeCuValue, coreOn, if_neg (by decide), if_neg (Nat.not_le.2 fits), State.ok_fst]

theorem writeCuValue_of_wide {s : State} {u v : Nat} (wide : 2 ^ cuWidth (s.getN (Obj.CU_POLY + u)) ≤ v) : (writeCuValue s u v).1 = s := by
  rw [writeCuValue, if_pos wide]
  split <;> rfl

theorem writeCuPoly_of_algorithm {s : State} {u p : Nat} (coreOn : s.coreOn = true) (algorithm : p ≤ 3) : (writeCuPoly s u p).1 =
    ((s.setN (Obj.CU_POLY + u) p).setN (Obj.CU_VALUE + u) (cuInitial p)).setN (Obj.CU_BYTES + u) 0 := by
  rw [writeCuPoly, coreOn, if_neg (by decide), if_neg (by omega), State.ok_fst, State.cuStart, State.getN_setN_self]

theorem State.cuCapture_of_waiting {s : State} {u r n : Nat} {rest : List (Nat × Nat)} (waiting : (s.cu u).latches = (r, n) :: rest) :
    s.cuCapture u = { ((s.setN (Obj.CU_LATCH + u) r).setN (Obj.CU_LATCH_BYTES + u) n).inc (Obj.CU_LATCH_COUNT + u) with
      cus := modifyAt s.cus u fun (c : CheckUnit) => { c with latches := rest } } := by
  unfold State.cuCapture
  rw [waiting]
  dsimp only
  rw [State.inc_cus]
  rfl

/-- With the core clock stopped no unit takes, starts or captures anything. -/
theorem checkUnits_stopped {s : State} (coreOff : s.coreOn = false) (u v p : Nat) :
    (writeCuValue s u v).1 = s ∧ (writeCuInit s u).1 = s ∧ (writeCuPoly s u p).1 = s := by
  rw [writeCuValue, writeCuInit, writeCuPoly, coreOff]
  exact ⟨rfl, rfl, rfl⟩

/-! ### The statement -/

/-- Settles O46: the feeds, the port of a channel, and each register in turn. -/
theorem checkValueUnits : Obligations.CheckValueUnits := by
  refine ⟨⟨fun u v s own on => ?_, fun u v s own on => ?_, fun u v s own on => ?_, fun u b w d s off => ?_, fun c u s d _ => execCuPortWrite_of_room,
    fun c u s d => execCuPortWrite_of_full, fun u bs s _ => ⟨_, rfl, s.cuFeed_effect u bs⟩⟩,
    fun u v s own on fits => ?_, fun u v s own wide => ?_, fun u s own on => ?_, fun u p s own on algorithm => ?_, fun u s own => ?_,
    fun u s r n rest own on waiting => ?_, fun u v p s off => ?_⟩
  · exact congrArg Host.Outcome.next ((if_pos own).trans ((writeCuFeed_of_on on u 1 _).trans (by rw [leBytes_one])))
  · exact congrArg Host.Outcome.next ((if_pos own).trans (writeCuFeed_of_on on u 2 _))
  · exact congrArg Host.Outcome.next ((if_pos own).trans (writeCuFeed_of_on on u 4 _))
  · have stopped (n v : Nat) : (if u < 4 then (writeCuFeed s u n v).1 else s) = s := by rw [writeCuFeed_of_off off, ite_self]
    exact ⟨congrArg Host.Outcome.next (stopped 1 _), congrArg Host.Outcome.next (stopped 2 _), congrArg Host.Outcome.next (stopped 4 _)⟩
  · exact congrArg Host.Outcome.next ((if_pos own).trans (writeCuValue_of_fits on fits))
  · exact congrArg Host.Outcome.next ((if_pos own).trans (writeCuValue_of_wide wide))
  · exact congrArg Host.Outcome.next ((if_pos own).trans (by rw [writeCuInit, if_pos on, State.ok_fst]; rfl))
  · exact congrArg Host.Outcome.next ((if_pos own).trans (writeCuPoly_of_algorithm on algorithm))
  · exact ⟨congrArg Host.Outcome.next (if_neg (by omega)), congrArg Host.Outcome.next (if_neg (by omega))⟩
  · exact congrArg Host.Outcome.next ((if_pos ⟨own, on⟩).trans (State.cuCapture_of_waiting waiting))
  · obtain ⟨value, init, poly⟩ := checkUnits_stopped off u v.toNat p
    refine ⟨congrArg Host.Outcome.next ?_, congrArg Host.Outcome.next ?_, congrArg Host.Outcome.next ?_, congrArg Host.Outcome.next ?_⟩
    · rw [value, ite_self]
    · rw [init, ite_self]
    · rw [poly, ite_self]
    · exact if_neg (by simp [off])

end Sys2Proof.Machine
end


section
/-! SUPPORT. Camera packets (R330 to R335): starts, lines, embedded data, ends. -/
namespace Sys2Proof.Machine

/-! ### Starts and ends of frames -/

theorem State.closeFrame_of_none {s : State} {p : Nat} (none : (s.cam p).frame = none) (noFe : Bool) : s.closeFrame p noFe = s := by
  unfold State.closeFrame
  rw [none]

/-- The frame that a start packet opens. -/
def State.openedFrame (s : State) (p n : Nat) : CamFrame :=
  ⟨(s.cam p).seq + 1, n % 65536, s.now, 0, s.clk.cycle, s.clk.cycle, [], 0, 0, [], s.camCfg p⟩

theorem execCsiFrameStart_of_closed {s : State} {p : Nat} (t n : Nat) (own : p < 2)
    (runs : s.getN (Obj.CAM_STATE + p) = 1 ∨ s.getN (Obj.CAM_STATE + p) = 3) (closed : (s.cam p).frame = none) : execCsiFrameStart p t n s =
    let u : State := (s.at t).modCam p fun c => { c with frame := some ((s.at t).openedFrame p n), seq := c.seq + 1 }
    .next ((u.setN (Obj.CAM_STATE + p) 2).inc (Obj.FRAMES_RECEIVED + p)) := by
  have state : (s.at t).camState p = 1 ∨ (s.at t).camState p = 3 := runs
  have open_ : ((s.at t).cam p).frame = none := closed
  unfold execCsiFrameStart
  dsimp only
  rw [if_neg (by omega), if_neg (by omega), State.closeFrame_of_none open_, if_neg (by omega)]
  rfl

/-- A frame leaves the port: it is offered to the finders, and the port is idle or off. -/
def State.frameLeaves (s : State) (p : Nat) (g : CamFrame) : State :=
  ((((s.modCam p fun c => { c with frame := none, closed := c.closed ++ [g] }).setN (Obj.CAM_STATE + p) 1).offerMark p g).offerSpot p g).refreshCams

theorem State.closeFrame_of_whole {s : State} {p : Nat} {f : CamFrame} (open_ : (s.cam p).frame = some f) (whole : f.cfg.height ≤ f.received) :
    s.closeFrame p false = s.frameLeaves p { f with feTime := s.now } := by
  unfold State.closeFrame
  rw [open_]
  dsimp only
  rw [if_neg (by omega), if_neg (by omega), if_neg (by decide), Nat.or_zero]
  rfl

theorem State.closeFrame_of_short {s : State} {p : Nat} {f : CamFrame} (open_ : (s.cam p).frame = some f) (short : f.received < f.cfg.height) :
    s.closeFrame p false = (s.inc (Obj.SHORT_FRAMES + p)).frameLeaves p { f with feTime := s.now, flags := setBit f.flags 0 } := by
  unfold State.closeFrame
  rw [open_]
  dsimp only
  rw [if_pos short, if_pos short, if_neg (by decide), Nat.or_zero]
  rfl

theorem execCsiFrameEnd_of_open {s : State} {p : Nat} (t : Nat) (own : p < 2) (state : s.getN (Obj.CAM_STATE + p) = 2) :
    execCsiFrameEnd p t s = .next ((s.at t).closeFrame p false) := if_pos ⟨own, state⟩

/-! ### Lines -/

/-- A line is accepted: it joins its frame with a flag, and the line buffer. -/
def State.lineJoins (s : State) (p : Nat) (f : CamFrame) (line : List Nat) (flag : Nat) : State :=
  s.modCam p fun c => { c with
    frame := some { f with lines := line :: f.lines, received := f.received + 1, flags := f.flags ||| flag, lastAt := s.clk.cycle }
    buffer := c.buffer ++ [(s.clk.cycle, f.cfg.width)] }

theorem State.lineTime_clk (s : State) (p : Nat) : (s.lineTime p).clk = s.clk := by
  unfold State.lineTime
  split <;> rfl

/-- The branches of a line without a header to correct, in an open frame that has room for it. -/
theorem execCsiLine_of_open {s : State} {p : Nat} (t : Nat) (ok : Bool) (px : List Nat) {f : CamFrame} (own : p < 2)
    (state : s.getN (Obj.CAM_STATE + p) = 2) (open_ : ((State.runPipe 100 t (s.at t)).cam p).frame = some f) (room : f.received < f.cfg.height) :
    execCsiLine p t false ok px s =
    let v := (State.runPipe 100 t (s.at t)).lineTime p
    if 32768 < v.buffered p v.clk.cycle + f.cfg.width then .next (v.dropFrame p)
    else
      let (line, flag) := if ok then f.line px else (f.lines.headD (List.replicate f.cfg.width 0), 16)
      let v := if flag = 4 then v.inc (Obj.SHORT_LINES + p) else if flag = 8 then v.inc (Obj.LONG_LINES + p)
        else if flag = 16 then v.inc (Obj.CRC_ERRORS + p) else v
      .next (v.lineJoins p f line flag) := by
  have listens : ¬(p ≥ 2 ∨ s.camState p = 0 ∨ s.camState p = 4) := by
    unfold State.camState
    omega
  unfold execCsiLine
  rw [if_neg listens]
  generalize State.runPipe 100 t (s.at t) = u at open_ ⊢
  dsimp only
  rw [if_neg (by decide), open_]
  dsimp only
  rw [if_neg (by omega)]
  rfl

theorem CamFrame.line_of_width {f : CamFrame} {px : List Nat} (width : px.length = f.cfg.width) :
    f.line px = (let w := 8 + 2 * (f.cfg.dtype - 0x2A); px.map fun x => x % 2 ^ w * 2 ^ (16 - w), 0) := by
  unfold CamFrame.line
  dsimp only
  rw [if_neg (by rw [List.length_map, width]; exact lt_irrefl _), if_neg (by rw [List.length_map, width]; exact lt_irrefl _)]

/-- A good line of the selected width joins its frame as it is. -/
theorem State.lineJoins_whole (s : State) (p : Nat) (f : CamFrame) (line : List Nat) : s.lineJoins p f line 0 = s.modCam p fun c => { c with
    frame := some { f with lines := line :: f.lines, received := f.received + 1, lastAt := s.clk.cycle }
    buffer := c.buffer ++ [(s.clk.cycle, f.cfg.width)] } := by
  unfold State.lineJoins
  rw [Nat.or_zero]

/-- A line that fails its CRC is counted and replaced by the line before it. -/
theorem State.lineJoins_replaced (s : State) (p : Nat) (f : CamFrame) :
    (s.inc (Obj.CRC_ERRORS + p)).lineJoins p f (f.lines.headD (List.replicate f.cfg.width 0)) 16 =
    (s.inc (Obj.CRC_ERRORS + p)).modCam p fun c => { c with
      frame := some { f with lines := f.lines.headD (List.replicate f.cfg.width 0) :: f.lines, received := f.received + 1, flags := f.flags ||| 16,
                             lastAt := s.clk.cycle }
      buffer := c.buffer ++ [(s.clk.cycle, f.cfg.width)] } := by
  unfold State.lineJoins
  rw [State.inc_clk]

theorem execCsiEmbeddedData_of_open {s : State} {p : Nat} {f : CamFrame} (bs : Bytes) (open_ : (s.cam p).frame = some f) :
    execCsiEmbeddedData p bs s = .next (s.modCam p fun c => { c with frame := some { f with emb := (f.emb ++ bs).take 16384 } }) := by
  unfold execCsiEmbeddedData
  rw [open_]

theorem execCsiPacketDiscard_of_on {s : State} {p : Nat} (why : CsiDiscard) (own : p < 2) (on : s.getN (Obj.CAM_STATE + p) ≠ 0)
    (listens : s.getN (Obj.CAM_STATE + p) ≠ 4) : execCsiPacketDiscard p why s =
    .next (s.inc ((if why = .uncorrectableHeader then Obj.ECC_UNCORRECTABLE else Obj.PACKETS_DISCARDED) + p)) := by
  have taken : ¬(p ≥ 2 ∨ s.camState p = 0 ∨ s.camState p = 4) := by
    unfold State.camState
    omega
  unfold execCsiPacketDiscard
  rw [if_neg taken]
  cases why <;> rfl

theorem execCamLineTimeout_of_open {s : State} {p : Nat} {f : CamFrame} (t : Nat) (open_ : (s.cam p).frame = some f) :
    execCamLineTimeout p t s =
    if t < f.lastAt + (if s.getN (Obj.LINE_PERIOD + p) = 0 then 10 * msCycles else nsCycles (10 * s.getN (Obj.LINE_PERIOD + p))) then .next s
    else .next ((s.at t).closeFrame p true) := by
  unfold execCamLineTimeout
  rw [open_]

/-! ### The statement -/

/-- Settles O47: one lemma for starts, one for lines, one for ends. -/
theorem cameraPackets : Obligations.CameraPackets := by
  refine ⟨fun p t n s => execCsiFrameStart_of_closed t n, fun p t px s f own state open_ width received room => ?_,
    fun p t px s f own state open_ received room => ?_, fun p t ok px s f own state open_ received full => ?_,
    fun p bs s f => execCsiEmbeddedData_of_open bs, fun p why s => execCsiPacketDiscard_of_on why, fun p t s f own state open_ whole => ?_,
    fun p t s f own state open_ short => ?_, fun p t s f open_ => ⟨fun late => ?_, fun early => ?_⟩⟩
  · have line := execCsiLine_of_open t true px own state open_ received
    have clk := (State.runPipe 100 t (s.at t)).lineTime_clk p
    rw [← clk] at room ⊢
    exact line.trans ((if_neg (Nat.not_lt.2 room)).trans (by rw [if_pos rfl, CamFrame.line_of_width width, ← State.lineJoins_whole]; rfl))
  · have line := execCsiLine_of_open t false px own state open_ received
    have clk := (State.runPipe 100 t (s.at t)).lineTime_clk p
    rw [← clk] at room ⊢
    refine line.trans ((if_neg (Nat.not_lt.2 room)).trans (Eq.trans ?_ (congrArg _ (State.lineJoins_replaced _ p f))))
    rfl
  · have line := execCsiLine_of_open t ok px own state open_ received
    rw [← State.lineTime_clk] at full
    exact line.trans (if_pos full)
  · exact (execCsiFrameEnd_of_open t own state).trans (congrArg _ (State.closeFrame_of_whole open_ whole))
  · exact (execCsiFrameEnd_of_open t own state).trans (congrArg _ (State.closeFrame_of_short open_ short))
  · exact (execCamLineTimeout_of_open t open_).trans (if_neg (Nat.not_lt.2 late))
  · exact (execCamLineTimeout_of_open t open_).trans (if_pos early)

end Sys2Proof.Machine
end

section
/-! SUPPORT. The strobe of a phase (R345), and where the statement about it fails: it takes any value of SPOT_PORT. -/
namespace Sys2Proof.Machine

/-- The state at the start of a phase, before its strobe. -/
def State.phaseStarted (s : State) : State :=
  (s.setN Obj.SPOT_STATE (s.getN Obj.IMAGE_STATE)).modSpot fun x => { x with strobeAt := some s.clk.cycle, frame := none }

/-- A phase whose port has its strobe disabled once SPOT_STATE is written starts without a strobe. -/
theorem execSpotStrobe_of_disabled {s : State} (phase : s.getN Obj.IMAGE_STATE ∈ [1, 2])
    (runs : ¬(s.camState (s.getN Obj.SPOT_PORT) = 0 ∨ s.camState (s.getN Obj.SPOT_PORT) = 4 ∨ s.getN (Obj.CAM_TRIGGER + s.getN Obj.SPOT_PORT) ≠ 2))
    (disabled : s.phaseStarted.on (Obj.CAM_STROBE_ENABLE + s.getN Obj.SPOT_PORT) = false) : execSpotStrobe s = .next s.phaseStarted := by
  have strobe : (!s.phaseStarted.on (Obj.CAM_STROBE_ENABLE + s.getN Obj.SPOT_PORT)) = true := by rw [disabled]; rfl
  unfold execSpotStrobe
  dsimp only
  rw [if_neg (not_not.2 phase), if_neg runs]
  exact if_pos strobe

/-- A number that no port has: CAM_STROBE_ENABLE of it is the reference of SPOT_STATE. -/
def strayPort : Nat := 0x4604

theorem strobeEnable_stray : Obj.CAM_STROBE_ENABLE + strayPort = Obj.SPOT_STATE := by decide

/-- The lit phase of an image with that number in SPOT_PORT: its objects read as those of a port that runs, is triggered and has its strobe
enabled. -/
def strayPhase : State :=
  ((((State.reset.setN Obj.SPOT_PORT strayPort).setN Obj.IMAGE_STATE 2).setN Obj.SPOT_STATE 1).setN (Obj.CAM_STATE + strayPort) 1).setN
    (Obj.CAM_TRIGGER + strayPort) 2

theorem strayPhase_objects : strayPhase.getN Obj.SPOT_PORT = strayPort ∧ strayPhase.getN Obj.IMAGE_STATE = 2 ∧ strayPhase.camState strayPort = 1 ∧
    strayPhase.getN (Obj.CAM_TRIGGER + strayPort) = 2 ∧ strayPhase.on (Obj.CAM_STROBE_ENABLE + strayPort) = true ∧
    strayPhase.phaseStarted.on (Obj.CAM_STROBE_ENABLE + strayPort) = false := by decide +kernel

theorem execSpotStrobe_strayPhase : execSpotStrobe strayPhase = .next strayPhase.phaseStarted := by
  obtain ⟨port, phase, runs, trigger, -, disabled⟩ := strayPhase_objects
  refine execSpotStrobe_of_disabled (by rw [phase]; decide) ?_ (by rw [port]; exact disabled)
  rw [port, runs, trigger]
  decide

/-! ### The statement -/

/-- Refutes O49: its clause on the strobe takes any value of SPOT_PORT. With 0x4604, CAM_STROBE_ENABLE of the port is SPOT_STATE itself: it reads 1
before the phase and 2 once the phase is written to it, so no strobe rises. -/
theorem not_marksAndSpots : ¬ Obligations.MarksAndSpots := by
  rintro ⟨-, strobes, -⟩
  obtain ⟨port, phase, runs, trigger, enabled, -⟩ := strayPhase_objects
  obtain ⟨t, e, ran, -, -, -, out, -⟩ := strobes strayPhase (by rw [phase]; decide) (by rw [port, runs]; decide) (by rw [port, runs]; decide)
    (by rw [port, trigger]) (by rw [port, enabled])
  have same : t = strayPhase.phaseStarted := Host.Outcome.next.inj (ran.symm.trans execSpotStrobe_strayPhase)
  have quiet : t.out = strayPhase.out := by rw [same]; rfl
  rw [quiet] at out
  exact absurd out (by decide)

end Sys2Proof.Machine
end

section
/-! SUPPORT. The calibration queue and its items 0 to 4 (R363 to R372). -/
namespace Sys2Proof.Machine

/-! ### The clock beside a measurement -/

theorem State.calRuns_at (s : State) (n i : Nat) : (s.at n).calRuns i = s.calRuns i := rfl
theorem State.calShotsDone_at (s : State) (n : Nat) : (s.at n).calShotsDone = s.calShotsDone := rfl
theorem State.gateSum_at (s : State) (n : Nat) (xs : Shots) : (s.at n).gateSum xs = s.gateSum xs := rfl
theorem State.darkStuck_at (s : State) (n : Nat) (d : Int) : (s.at n).darkStuck d = s.darkStuck d := rfl
theorem State.gainOf_at (s : State) (n : Nat) (sum : Int) : (s.at n).gainOf sum = s.gainOf sum := rfl

theorem State.gateSums_at (s : State) (n : Nat) (xs : List Shots) : (s.at n).gateSums xs = s.gateSums xs := by
  induction xs with
  | nil => rfl
  | cons x r ih => rw [State.gateSums, State.gateSums, ih, State.gateSum_at]

/-! ### The queue -/

/-- Nine items are queued bit by bit. -/
theorem queued_mask : ∀ m : Fin 512, (List.range 9).foldl (fun q i => if bitOf m.val i then setBit q i else q) 0 = m.val := by decide +kernel

theorem State.queueItems_of_idle {s : State} {m : Nat} (some_ : 0 < m) (nine : m ≤ 0x1FF) (idle : s.getN Obj.CAL_STATE = 0)
    (empty : s.getN Obj.CAL_QUEUE = 0) : s.queueItems m = (s.setN Obj.CAL_QUEUE m).setN Obj.CAL_STATE 1 := by
  have mask := queued_mask ⟨m, by omega⟩
  have state : (s.setN Obj.CAL_QUEUE m).getN Obj.CAL_STATE = 0 := (s.getN_setN_other _ (by decide)).trans idle
  unfold State.queueItems
  dsimp only at mask ⊢
  rw [empty, mask, if_pos ⟨state, by omega⟩]

theorem execCalStart_of_mask {s : State} {c : Caller} {m : Nat} (may : s.mayWrite c Obj.CAL_START) (some_ : 0 < m) (nine : m ≤ 0x1FF)
    (coreOn : s.coreOn = true) (idle : s.getN Obj.CAL_STATE = 0) (empty : s.getN Obj.CAL_QUEUE = 0) :
    execCalStart c m s = .next ((s.setN Obj.CAL_QUEUE m).setN Obj.CAL_STATE 1) := by
  rw [execCalStart, writeCalStart, State.gate_of_mayWrite _ may, if_neg (by omega), coreOn, if_neg (by decide), State.ok_fst,
    State.queueItems_of_idle some_ nine idle empty]

theorem execCalStart_of_range {s : State} {c : Caller} {m : Nat} (may : s.mayWrite c Obj.CAL_START) (range : m = 0 ∨ 0x1FF < m) :
    execCalStart c m s = .next s := by
  rw [execCalStart, writeCalStart, State.gate_of_mayWrite _ may, if_pos range, State.deny_fst]

/-- An item leaves the queue for its turn. -/
def State.calTurn (s : State) (i : Nat) : State :=
  { ((s.setN Obj.CAL_QUEUE (clearBit (s.getN Obj.CAL_QUEUE) i)).setN Obj.CAL_ITEM i).setN Obj.CAL_PERMILLE 0 with
    cal := { s.cal with first := none, begun := s.hs.k, cycle := s.clk.cycle, sent := 0, redo := [], tried := [], missed := false } }

theorem execCalItemStart_of_turn {s : State} {i : Nat} (next : s.calNext = some i) (free : s.getN Obj.CAL_STATE ≠ 2) (coreOn : s.coreOn = true)
    (gap : i ∉ [1, 2, 3, 4, 5] ∨ s.calMayGap = true) :
    execCalItemStart s = .next (if s.calReady i then (s.calTurn i).setN Obj.CAL_STATE 2 else (s.calTurn i).calFinish 4) := by
  have starts : ¬(s.getN Obj.CAL_STATE = 2 ∨ (!s.coreOn) = true ∨ (i ∈ [1, 2, 3, 4, 5] ∧ (!s.calMayGap) = true)) := by
    rw [coreOn]
    rintro (busy | off | ⟨inGap, noGap⟩)
    · exact free busy
    · exact absurd off (by decide)
    · rcases gap with h | h
      · exact h inGap
      · rw [h] at noGap
        exact absurd noGap (by decide)
  unfold execCalItemStart
  rw [next]
  dsimp only
  rw [if_neg starts]
  rfl

theorem execCalItemStart_of_noGap {s : State} {i : Nat} (next : s.calNext = some i) (inGap : i ∈ [1, 2, 3, 4, 5]) (noGap : s.calMayGap = false) :
    execCalItemStart s = .next s := by
  unfold execCalItemStart
  rw [next]
  exact if_pos (.inr (.inr ⟨inGap, by rw [noGap]; rfl⟩))

/-! ### The end of an item -/

/-- The objects of an item's end, before its log entry. -/
def State.calEnded (s : State) (st : Nat) : State :=
  let i := s.getN Obj.CAL_ITEM
  let t := ((s.setN (Obj.CAL_STATUS + i) st).setN (Obj.CAL_TIME + i) s.now).setN Obj.CAL_STATE (if s.getN Obj.CAL_QUEUE = 0 then 0 else 1)
  t.setN Obj.CAL_PERMILLE (if st = 1 then 1000 else t.getN Obj.CAL_PERMILLE)

theorem State.calEnd_eq (s : State) (st : Nat) : s.calEnd st =
    if 2 ≤ st then (s.calEnded st).logEvent ⟨2, 15, 255, 255, Obj.CAL_STATUS + s.getN Obj.CAL_ITEM, st, 0⟩ else s.calEnded st := rfl

theorem State.calFinish_of_noRelease {s : State} {st : Nat} (noRelease : s.flow.release = false) : s.calFinish st = s.calEnd st := by
  have flow : (s.calEnd st).flow = s.flow := by
    rw [State.calEnd_eq]
    split
    · exact State.logEvent_flow _ _
    · rfl
  rw [State.calFinish, State.lateRelease, flow, noRelease]
  rfl

/-- The status and the time of an item stand apart from each other, from the queue's objects and from those of the log. -/
theorem calObjects_apart : ∀ i < 9, Obj.CAL_STATUS + i ≠ Obj.CAL_TIME + i ∧ Obj.CAL_STATUS + i ≠ Obj.CAL_STATE ∧
    Obj.CAL_STATUS + i ≠ Obj.CAL_PERMILLE ∧ Obj.CAL_TIME + i ≠ Obj.CAL_STATE ∧ Obj.CAL_TIME + i ≠ Obj.CAL_PERMILLE ∧
    Obj.CAL_STATUS + i ∉ logObjects 2 ∧ Obj.CAL_TIME + i ∉ logObjects 2 := by decide

/-- What the objects of an ended item read. -/
theorem State.calEnded_objects {s : State} {st i : Nat} (item : s.getN Obj.CAL_ITEM = i) (nine : i < 9) : let t := s.calEnded st
    t.getN (Obj.CAL_STATUS + i) = st ∧ t.getN (Obj.CAL_TIME + i) = s.now ∧ t.getN Obj.CAL_STATE = (if s.getN Obj.CAL_QUEUE = 0 then 0 else 1) ∧
    (st = 1 → t.getN Obj.CAL_PERMILLE = 1000) := by
  obtain ⟨statusTime, statusState, statusPermille, timeState, timePermille, -, -⟩ := calObjects_apart i nine
  unfold State.calEnded
  rw [item]
  refine ⟨?_, ?_, ?_, fun done => ?_⟩
  · rw [State.getN_setN_other _ _ statusPermille, State.getN_setN_other _ _ statusState, State.getN_setN_other _ _ statusTime, State.getN_setN_self]
  · rw [State.getN_setN_other _ _ timePermille, State.getN_setN_other _ _ timeState, State.getN_setN_self]
  · rw [State.getN_setN_other _ _ (by decide), State.getN_setN_self]
  · rw [State.getN_setN_self, if_pos done]

theorem State.calFinish_effect {s : State} {st i : Nat} (item : s.getN Obj.CAL_ITEM = i) (nine : i < 9) (noRelease : s.flow.release = false) :
    let t := s.calFinish st
    t.getN (Obj.CAL_STATUS + i) = st ∧ t.getN (Obj.CAL_TIME + i) = s.now ∧ t.getN Obj.CAL_STATE = (if s.getN Obj.CAL_QUEUE = 0 then 0 else 1) ∧
    (st = 1 → t.getN Obj.CAL_PERMILLE = 1000 ∧ t.log = s.log) ∧ (2 ≤ st → t.newestLog 2 15 (Obj.CAL_STATUS + i)) ∧ t.stg = s.stg := by
  obtain ⟨status, time, state, permille⟩ := s.calEnded_objects (st := st) item nine
  obtain ⟨-, -, -, -, -, statusApart, timeApart⟩ := calObjects_apart i nine
  rw [State.calFinish_of_noRelease noRelease, State.calEnd_eq, item]
  by_cases failed : 2 ≤ st
  · have stateApart : Obj.CAL_STATE ∉ logObjects 2 := by decide
    rw [if_pos failed]
    exact ⟨(congrArg Int.toNat (State.get_logEvent_other _ _ statusApart)).trans status,
      (congrArg Int.toNat (State.get_logEvent_other _ _ timeApart)).trans time,
      (congrArg Int.toNat (State.get_logEvent_other _ _ stateApart)).trans state, fun done => by omega, fun _ => State.newestLog_logEvent _ _,
      State.logEvent_stg _ _⟩
  · rw [if_neg failed]
    exact ⟨status, time, state, fun done => ⟨permille done, rfl⟩, fun h => absurd h failed, rfl⟩

/-! ### Items 0 and 1 -/

/-- The judgement of item 0: the error of REFCLK over the reference seconds. -/
theorem execCalRefclkDone_of_runs {s : State} {c : Nat} (runs : s.calRuns 0 = true) (counted : 0 < c) :
    execCalRefclkDone c true s = let e : Nat := 40 * (10000000 * s.getN Obj.CAL_REF_SECONDS)
      let err := rneDiv (1000000000 * ((c : Int) - e)) e
      if 100000 < err.natAbs then .next (s.calFinish 2)
      else .next (((s.set Obj.REFCLK_ERROR err).setN Obj.SUGGESTED_INCREMENT (rneDivN (171798691840 * e) c)).calFinish 1) := by
  unfold execCalRefclkDone
  rw [runs, if_neg (by decide), if_neg (by simp [counted.ne'])]

theorem execCalRefclkDone_of_badRefcal {s : State} {c : Nat} (runs : s.calRuns 0 = true) : execCalRefclkDone c false s = .next (s.calFinish 3) := by
  unfold execCalRefclkDone
  rw [runs, if_neg (by decide), if_pos (.inl rfl)]

theorem execCalRefclkDone_of_idle {s : State} {c : Nat} {ok : Bool} (idle : s.calRuns 0 = false) : execCalRefclkDone c ok s = .next s := by
  unfold execCalRefclkDone
  rw [idle]
  rfl

/-- The mean rising edge of each group, about the mean of all. -/
def groupSkews (edges : List (List Int)) : List Rat := (edges.map meanI).map (· - (edges.map meanI).foldl (· + ·) 0 / 8)

/-- What each group lacks to its target. -/
def State.skewOff (s : State) (edges : List (List Int)) : List Rat :=
  (groupSkews edges).mapIdx fun k x => (s.get (Obj.FIRE_SKEW_TARGET + k) : Rat) - x

/-- The judgement of item 1. -/
theorem execCalStrobeSkewDone_of_edges {s : State} {edges : List (List Int)} (runs : s.calRuns 1 = true) (groups : edges.length = 8)
    (periods : ∀ l ∈ edges, l.length = 64) (ok : Bool) : execCalStrobeSkewDone edges ok s =
    if !ok then .next (s.calFinish 3)
    else if (s.skewOff edges).any (fun x => 1250 < absQ x) ∨ edges.any (fun l => 2500 < varianceI l) then .next (s.calFinish 2)
    else .next (((((groupSkews edges).mapIdx fun k x => (k, x)).foldl (fun (s : State) p => s.set (Obj.FIRE_SKEW_MEASURED + p.1) (rneQ p.2)) s).commitOwn
      ((s.skewOff edges).mapIdx fun k x => (Obj.FIRE_TRIM + k, StagedVal.scalar (rneQ (x * 8 / 625))))).calFinish 1) := by
  have measured : ¬((!s.calRuns 1) = true ∨ edges.length ≠ 8 ∨ (edges.any fun l => decide (l.length ≠ 64)) = true) := by
    rw [runs, groups]
    rintro (h | h | h)
    · exact absurd h (by decide)
    · exact h rfl
    · obtain ⟨l, mem, other⟩ := List.any_eq_true.1 h
      exact absurd (periods l mem) (by simpa using other)
  unfold execCalStrobeSkewDone
  exact if_neg measured

/-! ### Items 2 to 4 -/

/-- The statement on item 2 speaks of the sum as a rational. -/
theorem eq_some_of_cast {o : Option Int} {q : Rat} (h : (do let a ← o; pure (a : Rat)) = some q) : ∃ v, o = some v ∧ (v : Rat) = q := by
  cases o with
  | none => exact absurd h (by simp)
  | some v => exact ⟨v, rfl, Option.some.inj h⟩

theorem execCalGateOffsetDone_of_sum {s : State} {xs : Shots} {sum : Int} {b : Nat} (runs : s.calRuns 2 = true) (shots : s.calShotsDone = true)
    (gate : s.gateSum xs = some sum) (bits : f32Bits (f64Div (sum : Rat) (f64Mul (s.getN Obj.GATE_SHOTS) (s.getN Obj.GATE_SPAN))) = some b) :
    execCalGateOffsetDone xs s = let o := f64Div (sum : Rat) (f64Mul (s.getN Obj.GATE_SHOTS) (s.getN Obj.GATE_SPAN))
      if f32Val (s.getN Obj.GATE_OFFSET_LIMIT) < absQ o then .next (s.calFinish 2)
      else .next ((s.commitOwn [(Obj.GATE_OFFSET, .scalar b)]).calFinish 1) := by
  unfold execCalGateOffsetDone
  rw [gate]
  dsimp only
  rw [if_neg (by rw [runs, shots]; decide), bits]

theorem State.calMeasured_of_missed {α : Type} {s : State} (missed : s.cal.missed = true) (dark : Shots) (lit : Option α) (f : α → State) :
    s.calMeasured dark lit f = s.calFinish 3 := if_pos missed

/-- With all shots fired, a dark sum is judged before the others are used. -/
theorem State.calMeasured_of_sums {α : Type} {s : State} {dark : Shots} {d : Int} {x : α} (fired : s.cal.missed = false) (shots : s.calShotsDone = true)
    (sum : s.gateSum dark = some d) (f : α → State) :
    s.calMeasured dark (some x) f = if s.darkStuck d then (s.calFinish 3).stuckSuspect else f x := by
  unfold State.calMeasured
  rw [fired, sum, shots]
  rfl

theorem execCalGateGainDone_of_runs {s : State} (n : Nat) (dark xs : Shots) (runs : s.calRuns 3 = true) :
    execCalGateGainDone n dark xs s = .next ((s.at n).calMeasured dark ((s.at n).gateSum xs) (s.at n).calGain) := by
  exact if_neg (by rw [State.calRuns_at, runs]; decide)

theorem execCalBeamEfficiencyDone_of_runs {s : State} (n : Nat) (dark : Shots) (beams : List (Nat × Shots)) (runs : s.calRuns 4 = true) :
    execCalBeamEfficiencyDone n dark beams s = .next ((s.at n).calMeasured dark
      (((s.at n).gateSums (beams.map (·.2))).map fun v => (beams.map (·.1)).zip v) (s.at n).calBeamResults) := by
  exact if_neg (by rw [State.calRuns_at, runs]; decide)

/-- A gain within its change is committed. -/
theorem State.calGain_of_plausible {s : State} {sum : Int} {b : Nat} (bits : f32Bits (s.gainOf sum) = some b) (positive : 0 < s.gainOf sum)
    (near : f32Val (s.getN Obj.GATE_GAIN) = 0 ∨ 100 * absQ (s.gainOf sum - f32Val (s.getN Obj.GATE_GAIN)) ≤
      (s.getN Obj.GATE_GAIN_CHANGE : Rat) * absQ (f32Val (s.getN Obj.GATE_GAIN))) :
    s.calGain sum = (s.commitOwn [(Obj.GATE_GAIN, .scalar b)]).calFinish 1 := by
  have plausible : ¬(s.gainOf sum ≤ 0 ∨ (f32Val (s.getN Obj.GATE_GAIN) ≠ 0 ∧ (s.getN Obj.GATE_GAIN_CHANGE : Rat) *
      absQ (f32Val (s.getN Obj.GATE_GAIN)) < 100 * absQ (s.gainOf sum - f32Val (s.getN Obj.GATE_GAIN)))) := by
    rintro (h | ⟨h, far⟩)
    · exact absurd positive (not_lt.2 h)
    · exact near.elim h fun n => absurd far (not_lt.2 n)
  unfold State.calGain
  dsimp only
  rw [if_neg plausible, bits]

theorem State.calGain_of_nonpositive {s : State} {sum : Int} (negative : s.gainOf sum ≤ 0) : s.calGain sum = s.calFinish 2 := if_pos (.inl negative)

/-- The results of item 4, beam by beam. -/
def State.efficiencies (s : State) (sums : List (Nat × Int)) : List (Nat × Nat × Option Int) :=
  (sums.filter fun p => s.measurable p.1).map fun p => (p.1, s.beamThen p.1, s.ecodeOf p.2)

theorem State.efficiencies_at (s : State) (n : Nat) (sums : List (Nat × Int)) : (s.at n).efficiencies sums = s.efficiencies sums := rfl

/-- The new entries of the beams measured. -/
def State.newEntries (s : State) (res : List (Nat × Nat × Option Int)) : List (Nat × Nat) :=
  res.map fun r => (r.1, measuredEntry r.2.1 r.2.2 (s.getN Obj.GATE_EFF_TOLERANCE) (s.getN Obj.GATE_WEAK_LEVEL) (s.getN Obj.GATE_FAULT_LIMIT)
    (s.getN Obj.TURNAROUND_COUNT))

/-- The judgement of item 4. -/
theorem State.calBeamResults_eq (s : State) (sums : List (Nat × Int)) : ∃ n, s.calBeamResults sums =
    if s.getN Obj.BEAM_OFF_LIMIT * (s.efficiencies sums).length < 1000 * ((s.efficiencies sums).filter fun r => outOfRange r.2.2).length then s.calFinish 2
    else (((s.setN Obj.BEAM_RESULTS_OFF ((s.newEntries (s.efficiencies sums)).filter fun e => beamState e.2 = 2).length).setN
      Obj.BEAM_RESULTS_CHANGED n).addResults (s.newEntries (s.efficiencies sums))).calFinish 1 := ⟨_, rfl⟩

/-! ### The statement -/

/-- Settles O50: the queue, the end of an item, then the judgement of each item. -/
theorem calibrationOfClockAndGate : Obligations.CalibrationOfClockAndGate := by
  refine ⟨⟨fun c m s => execCalStart_of_mask, fun c m s => execCalStart_of_range, fun s i next free on gap ready => ?_,
    fun s i next free on gap unready => ?_, fun s i => execCalItemStart_of_noGap, fun s st i item nine _ noRelease => ?_⟩,
    ⟨fun c s runs => ⟨fun counted near => ?_, fun counted far => ?_, execCalRefclkDone_of_badRefcal runs⟩,
      fun edges s runs groups periods => ⟨fun near steady => ?_, fun far => ?_, ?_⟩, fun b s => rfl, fun c s => execCalRefclkDone_of_idle⟩,
    fun xs sum s b runs shots gate bits => ⟨fun within => ?_, fun beyond => ?_⟩,
    fun n dark xs d sum s b runs fired shots gate clean lit bits => ⟨fun positive near => ?_, fun negative => ?_⟩,
    fun n dark xs d s fired shots gate stuck lit => ⟨fun runs => ?_, fun runs b => ?_⟩,
    fun n dark xs s missed => ⟨fun runs => ?_, fun runs bs => ?_⟩,
    fun t dark beams d vs s runs fired shots gate clean lit => ⟨fun few => ?_, fun many => ?_⟩⟩
  · exact (execCalItemStart_of_turn next free on gap).trans (by rw [if_pos ready]; rfl)
  · exact (execCalItemStart_of_turn next free on gap).trans (by rw [unready]; rfl)
  · exact ⟨_, rfl, State.calFinish_effect item nine noRelease⟩
  · exact (execCalRefclkDone_of_runs runs counted).trans (if_neg (by omega))
  · exact (execCalRefclkDone_of_runs runs counted).trans (if_pos far)
  · have fits : ¬(((s.skewOff edges).any (fun x => 1250 < absQ x)) = true ∨ (edges.any fun l => 2500 < varianceI l) = true) := by
      simpa only [List.any_eq_true, decide_eq_true_eq, not_or, not_exists, not_and, not_lt] using ⟨near, steady⟩
    exact (execCalStrobeSkewDone_of_edges runs groups periods true).trans ((if_neg (by decide)).trans (if_neg fits))
  · obtain ⟨x, mem, beyond⟩ := far
    have off : (s.skewOff edges).any (fun x => 1250 < absQ x) = true := List.any_eq_true.2 ⟨x, mem, decide_eq_true beyond⟩
    exact (execCalStrobeSkewDone_of_edges runs groups periods true).trans ((if_neg (by decide)).trans (if_pos (.inl off)))
  · exact (execCalStrobeSkewDone_of_edges runs groups periods false).trans (if_pos rfl)
  · obtain ⟨v, read, rfl⟩ := eq_some_of_cast gate
    exact (execCalGateOffsetDone_of_sum runs shots read bits).trans (if_neg (not_lt.2 within))
  · obtain ⟨v, read, rfl⟩ := eq_some_of_cast gate
    exact (execCalGateOffsetDone_of_sum runs shots read bits).trans (if_pos beyond)
  · refine (execCalGateGainDone_of_runs n dark xs runs).trans ?_
    rw [State.gateSum_at, lit, State.calMeasured_of_sums (s := s.at n) fired shots gate, State.darkStuck_at, clean, if_neg (by decide)]
    exact congrArg _ (State.calGain_of_plausible (s := s.at n) bits positive near)
  · refine (execCalGateGainDone_of_runs n dark xs runs).trans ?_
    rw [State.gateSum_at, lit, State.calMeasured_of_sums (s := s.at n) fired shots gate, State.darkStuck_at, clean, if_neg (by decide)]
    exact congrArg _ (State.calGain_of_nonpositive (s := s.at n) negative)
  · obtain ⟨sum, lit⟩ := Option.ne_none_iff_exists'.1 lit
    refine (execCalGateGainDone_of_runs n dark xs runs).trans ?_
    rw [State.gateSum_at, lit, State.calMeasured_of_sums (s := s.at n) fired shots gate, State.darkStuck_at, stuck, if_pos rfl]
  · obtain ⟨sum, lit⟩ := Option.ne_none_iff_exists'.1 lit
    have sums : s.gateSums ([(b, xs)].map (·.2)) = some [sum] := by simp only [List.map_cons, List.map_nil, State.gateSums, lit]
    refine (execCalBeamEfficiencyDone_of_runs n dark [(b, xs)] runs).trans ?_
    rw [State.gateSums_at, sums, Option.map_some, State.calMeasured_of_sums (s := s.at n) fired shots gate, State.darkStuck_at,
      stuck, if_pos rfl]
  · exact (execCalGateGainDone_of_runs n dark xs runs).trans (congrArg _ (State.calMeasured_of_missed (s := s.at n) missed _ _ _))
  · exact (execCalBeamEfficiencyDone_of_runs n dark bs runs).trans (congrArg _ (State.calMeasured_of_missed (s := s.at n) missed _ _ _))
  · obtain ⟨n, judged⟩ := (s.at t).calBeamResults_eq ((beams.map (·.1)).zip vs)
    refine ⟨n, (execCalBeamEfficiencyDone_of_runs t dark beams runs).trans ?_⟩
    rw [State.gateSums_at, lit, Option.map_some, State.calMeasured_of_sums (s := s.at t) fired shots gate, State.darkStuck_at, clean,
      if_neg (by decide), judged]
    exact congrArg _ (if_neg (Nat.not_lt.2 few))
  · obtain ⟨n, judged⟩ := (s.at t).calBeamResults_eq ((beams.map (·.1)).zip vs)
    refine (execCalBeamEfficiencyDone_of_runs t dark beams runs).trans ?_
    rw [State.gateSums_at, lit, Option.map_some, State.calMeasured_of_sums (s := s.at t) fired shots gate, State.darkStuck_at, clean,
      if_neg (by decide), judged]
    exact congrArg _ (if_pos many)

end Sys2Proof.Machine
end

section
/-! SUPPORT. Calibration items 5 to 8 (R373 to R375). -/
namespace Sys2Proof.Machine

/-! ### Item 5 -/

theorem execCalDeflScanDone_of_scan {s : State} (n : Nat) (dark : Shots) {steps : List Shots} {ps : List Int} (runs : s.calRuns 5 = true)
    (whole : steps.length = s.getN Obj.DEFL_SCAN_STEPS) (some_ : ps ≠ []) :
    execCalDeflScanDone n dark steps ps s = .next ((s.at n).calMeasured dark (s.gateSums steps) ((s.at n).calPoint ps)) := by
  have scan : ¬((!(s.at n).calRuns 5) = true ∨ steps.length ≠ (s.at n).getN Obj.DEFL_SCAN_STEPS ∨ ps.isEmpty = true) := by
    rw [State.calRuns_at, runs, List.isEmpty_iff]
    rintro (h | h | h)
    · exact absurd h (by decide)
    · exact h whole
    · exact some_ h
  rw [← s.gateSums_at n]
  exact if_neg scan

/-- How far the stage moved during a scan. -/
def stageMoved (ps : List Int) : Int := ps.foldl max (ps.headD 0) - ps.foldl min (ps.headD 0)

/-- The distance of the beam from the edge, from the mean position. -/
def State.edgeDistance (s : State) (ps : List Int) : Int :=
  let p := rneDiv (ps.foldl (· + ·) 0) ps.length
  if s.getN Obj.DEFL_SCAN_AXIS = 1 then s.get Obj.DEFL_EDGE_Y - p
  else if s.getN Obj.SWEEP_DIRECTION = 1 then p - s.get Obj.DEFL_EDGE_X else s.get Obj.DEFL_EDGE_X - p

/-- The word of the edge in the sums of a scan. -/
def State.scanEdge (s : State) (sums : List Int) : Option Int := edgeWord (sums.map fun (x : Int) => f64Sub (x : Rat) s.offsetSum)

theorem State.i32OrFree_of_fits (s : State) {v : Int} (low : -2147483648 ≤ v) (high : v ≤ 2147483647) : s.i32OrFree v = (v, s) := if_pos ⟨low, high⟩

theorem State.calPoint_of_edge {s : State} {ps sums : List Int} {w : Int} (edge : s.scanEdge sums = some w) (room : s.cal.points.length < 16)
    (still : stageMoved ps ≤ s.getN Obj.DEFL_STILL_LIMIT) (low : -2147483648 ≤ s.edgeDistance ps) (high : s.edgeDistance ps ≤ 2147483647) :
    s.calPoint ps sums = ({ s with cal := { s.cal with points := s.cal.points ++
      [(⟨s.getN Obj.DEFL_SCAN_AXIS, s.edgeDistance ps, w⟩ : DeflPoint)] } }).calFinish 1 := by
  have good : ¬((s.getN Obj.DEFL_STILL_LIMIT : Int) < stageMoved ps ∨ 16 ≤ s.cal.points.length) := by omega
  have fits := s.i32OrFree_of_fits low high
  unfold State.calPoint
  unfold State.scanEdge at edge
  rw [edge]
  refine (if_neg good).trans ?_
  unfold State.edgeDistance at fits ⊢
  dsimp only at fits ⊢
  rw [fits]

theorem State.calPoint_of_bad {s : State} {ps sums : List Int}
    (bad : s.scanEdge sums = none ∨ 16 ≤ s.cal.points.length ∨ (s.getN Obj.DEFL_STILL_LIMIT : Int) < stageMoved ps) :
    s.calPoint ps sums = s.calFinish 3 := by
  unfold State.calPoint
  cases edge : s.scanEdge sums with
  | none =>
    unfold State.scanEdge at edge
    rw [edge]
  | some w =>
    have refused : (s.getN Obj.DEFL_STILL_LIMIT : Int) < stageMoved ps ∨ 16 ≤ s.cal.points.length := by
      rw [edge] at bad
      exact (bad.resolve_left (by simp)).symm
    unfold State.scanEdge at edge
    rw [edge]
    exact if_pos refused

/-! ### Item 6 -/

theorem State.axisPoints_of_all {s : State} {a : Nat} (all : ∀ x ∈ s.cal.points, x.axis = a) : s.axisPoints a = s.cal.points :=
  List.filter_eq_self.2 fun x mem => decide_eq_true (all x mem)

theorem State.axisPoints_of_none {s : State} {a b : Nat} (all : ∀ x ∈ s.cal.points, x.axis = a) (other : b ≠ a) : s.axisPoints b = [] :=
  List.filter_eq_nil_iff.2 fun x mem => by simp [all x mem, other.symm]

/-- The axes with two points or more. -/
def State.solvable (s : State) : List Nat := [0, 1].filter fun a => 2 ≤ (s.axisPoints a).length

theorem State.solvable_of_all {s : State} {a : Nat} (all : ∀ x ∈ s.cal.points, x.axis = a) (two : 2 ≤ s.cal.points.length) (axis : a < 2) :
    s.solvable = [a] := by
  have own := State.axisPoints_of_all all
  unfold State.solvable
  obtain rfl | rfl : a = 0 ∨ a = 1 := by omega
  · have other := State.axisPoints_of_none all (b := 1) (by decide)
    simp [own, other, two]
  · have other := State.axisPoints_of_none all (b := 0) (by decide)
    simp [own, other, two]

theorem State.solvable_of_few {s : State} (few : s.cal.points.length < 2) : s.solvable = [] := by
  refine List.filter_eq_nil_iff.2 fun a _ => ?_
  have below : (s.axisPoints a).length ≤ s.cal.points.length := List.length_filter_le _ _
  simp only [decide_eq_true_eq]
  omega

/-- The fit of each axis that has one. -/
def State.axisFits (s : State) : List (Nat × Fit1) :=
  s.solvable.map fun a => (a, fitAxis (s.axisPoints a) (s.get (Obj.DEFL_GAIN_X + a)) (s.getN Obj.DEFL_FIT_LIMIT))

/-- The result of item 6 takes effect. -/
def State.takeFits (s : State) (fits : List (Nat × Fit1)) : State :=
  let u := (fits.foldl (fun (s : State) f => s.set (Obj.DEFL_FIT_RMS + f.1) (rneQ (f64Mul 16 f.2.rms))) s).commitOwn
    (fits.flatMap fun f => [(Obj.DEFL_GAIN_X + f.1, .scalar f.2.gain), (Obj.DEFL_OFFSET_X + f.1, .scalar f.2.offset)])
  ({ u with cal := { u.cal with points := [] } }).calFinish 1

theorem execCalDeflSolveDone_of_runs {s : State} (runs : s.calRuns 6 = true) : execCalDeflSolveDone s = .next (if s.axisFits.isEmpty then s.calFinish 4
    else if s.axisFits.any fun f => !f.2.ok then s.calFinish 2 else s.takeFits s.axisFits) := by
  rw [apply_ite Host.Outcome.next, apply_ite Host.Outcome.next]
  exact if_neg (by rw [runs]; decide)

theorem execDeflPointsClear_of_mayWrite {s : State} {c : Caller} (may : s.mayWrite c Obj.DEFL_POINTS_CLEAR) :
    execDeflPointsClear c s = .next { s with cal := { s.cal with points := [] } } := by
  rw [execDeflPointsClear, writeDeflPointsClear, State.gate_of_mayWrite _ may, if_neg (not_not.2 rfl), State.ok_fst]

/-! ### Items 7 and 8 -/

/-- The mean of each colour phase. -/
def blackLevels (fs : List (List (List Nat))) : List Int := (List.range 4).map fun k => rneQ ((phaseMean fs k fun _ _ => true).getD 0)

theorem execCalCamDarkDone_of_frames {s : State} {fs : List (List (List Nat))} (frames : s.calFrames 7 fs = true) : execCalCamDarkDone fs s =
    if (blackLevels fs).any fun b => (s.getN Obj.CAM_BLACK_LIMIT : Int) < b then .next (s.calFinish 2)
    else .next ((s.commitOwn ((blackLevels fs).mapIdx fun k b => (Obj.BLACK_LEVEL + 4 * s.getN Obj.CAM_CAL_PORT + k, .scalar b))).calFinish 1) :=
  if_neg (by rw [frames]; decide)

theorem execCalCamFlatDone_of_frames {s : State} {fs : List (List (List Nat))} (frames : s.calFrames 8 fs = true) : execCalCamFlatDone fs s =
    let p := s.getN Obj.CAM_CAL_PORT
    let gs := (List.range 4).map (s.flatGains p fs)
    if gs.any Option.isNone then .next (s.calFinish 2)
    else .next ((s.commitOwn [(Obj.SHADING_GRID + p, .image (gs.flatMap fun g => (g.getD []).flatMap (leBytes 2))),
      (Obj.SHADING_ENABLE + p, .scalar 1)]).calFinish 1) :=
  if_neg (by rw [frames]; decide)

theorem execCalCamTimeout_of_runs {s : State} {i : Nat} (item : i = 7 ∨ i = 8) (runs : s.calRuns i = true) :
    execCalCamTimeout s = .next ((s.at (s.cal.cycle + 10 * secCycles)).calFinish 3) := by
  refine if_pos ?_
  rcases item with rfl | rfl
  · rw [runs, Bool.true_or]
  · rw [runs, Bool.or_true]

/-! ### The statement -/

/-- Settles O51, item by item. -/
theorem calibrationOfDeflectorAndCameras : Obligations.CalibrationOfDeflectorAndCameras := by
  refine ⟨⟨fun n dark steps ps d sums s runs whole some_ fired shots gate clean read => ⟨fun w edge room still low high => ?_, fun bad => ?_⟩,
    fun n dark steps ps s runs whole some_ missed => ?_, fun s a runs all two axis => ⟨fun good => ?_, fun bad => ?_⟩, fun s runs few => ?_,
    fun c s => execDeflPointsClear_of_mayWrite⟩, fun fs s frames => ⟨fun within => ?_, fun beyond => ?_⟩, fun fs s a b c d frames gains => ?_,
    fun fs s frames lacking => ?_, fun s i => execCalCamTimeout_of_runs, fun s noDark noFlat => ?_⟩
  · refine (execCalDeflScanDone_of_scan n dark runs whole some_).trans ?_
    rw [read, State.calMeasured_of_sums (s := s.at n) fired shots gate, State.darkStuck_at, clean, if_neg (by decide)]
    exact congrArg _ (State.calPoint_of_edge (s := s.at n) edge room still low high)
  · refine (execCalDeflScanDone_of_scan n dark runs whole some_).trans ?_
    rw [read, State.calMeasured_of_sums (s := s.at n) fired shots gate, State.darkStuck_at, clean, if_neg (by decide)]
    exact congrArg _ (State.calPoint_of_bad (s := s.at n) bad)
  · exact (execCalDeflScanDone_of_scan n dark runs whole some_).trans (congrArg _ (State.calMeasured_of_missed (s := s.at n) missed _ _ _))
  · refine (execCalDeflSolveDone_of_runs runs).trans ?_
    have fits : s.axisFits = [(a, fitAxis s.cal.points (s.get (Obj.DEFL_GAIN_X + a)) (s.getN Obj.DEFL_FIT_LIMIT))] := by
      rw [State.axisFits, State.solvable_of_all all two axis, List.map_singleton, State.axisPoints_of_all all]
    rw [fits, List.isEmpty_cons, if_neg (by decide), if_neg (by simp [good])]
    rfl
  · refine (execCalDeflSolveDone_of_runs runs).trans ?_
    have fits : s.axisFits = [(a, fitAxis s.cal.points (s.get (Obj.DEFL_GAIN_X + a)) (s.getN Obj.DEFL_FIT_LIMIT))] := by
      rw [State.axisFits, State.solvable_of_all all two axis, List.map_singleton, State.axisPoints_of_all all]
    rw [fits, List.isEmpty_cons, if_neg (by decide), if_pos (by simp [bad])]
  · refine (execCalDeflSolveDone_of_runs runs).trans ?_
    rw [State.axisFits, State.solvable_of_few few]
    rfl
  · have low : (blackLevels fs).any (fun b => (s.getN Obj.CAM_BLACK_LIMIT : Int) < b) = false :=
      List.any_eq_false.2 fun b mem => by simpa using within b mem
    exact (execCalCamDarkDone_of_frames frames).trans (if_neg (by rw [low]; decide))
  · obtain ⟨b, mem, high⟩ := beyond
    exact (execCalCamDarkDone_of_frames frames).trans (if_pos (List.any_eq_true.2 ⟨b, mem, decide_eq_true high⟩))
  · refine (execCalCamFlatDone_of_frames frames).trans ?_
    dsimp only
    rw [gains, if_neg (by simp)]
    simp only [List.flatMap_cons, List.flatMap_nil, Option.getD_some, List.append_nil, List.flatMap_append, List.append_assoc]
  · exact (execCalCamFlatDone_of_frames frames).trans (if_pos (List.any_eq_true.2 ⟨none, lacking, rfl⟩))
  · exact if_neg (by rw [noDark, noFlat]; decide)

end Sys2Proof.Machine
end

section
/-! SUPPORT. PORST_N, VAON and the claim at start-up (R391, R398, R419). -/
namespace Sys2Proof.Machine

/-! ### Objects with their defaults -/

theorem State.get_of_unlisted {s : State} {o : ObjRef} (unlisted : s.od = []) : s.get o = defaultOf s.straps o := by
  unfold State.get
  rw [unlisted]
  rfl

/-- POWER_STATE and STARTUP_PHASE stand at STARTING and 0 after a reset. -/
theorem defaultOf_start (x : Straps) : defaultOf x Obj.POWER_STATE = 4 ∧ defaultOf x Obj.STARTUP_PHASE = 0 := ⟨rfl, rfl⟩

/-! ### Start -/

/-- The state at the deassertion of PORST_N, before the claim. -/
def State.started (s : State) (x : Straps) (peerAct : Bool) (mainGood backupGood : BitVec 5) : State :=
  { s.resetAll with
    straps := x
    pins := { s.resetAll.pins with porstN := true, peerAct := peerAct, pwrEn := true, pwrEnDdq := true, pswM := 0x1F, pswB := 0 }
    pwr := { s.resetAll.pwr with mainGood := mainGood, backupGood := backupGood, locking := .control :: corePlls } }

theorem execPorstNDeassert_of_low {s : State} (x : Straps) (pa : Bool) (m b : BitVec 5) (low : s.pins.porstN = false) :
    execPorstNDeassert x pa m b s = .next (s.started x pa m b).claimAtStart := if_neg (by rw [low]; decide)

/-- A device of ROLE A claims beside an idle peer. -/
theorem State.claimAtStart_effect {s : State} (roleA : s.straps.roleB = false) (idle : s.pins.ownAct = false) : let t := s.claimAtStart
    t.pins = { s.pins with ownAct := !s.pins.peerAct } ∧ t.getN Obj.PAIR_STATE = b2n !s.pins.peerAct ∧
    t = { s with od := t.od, pins := t.pins } ∧ s.sameObjects t [Obj.PAIR_STATE] := by
  have others (v : Nat) : s.sameObjects (s.setN Obj.PAIR_STATE v) [Obj.PAIR_STATE] := fun o other =>
    s.get_setN_other v fun e => other (List.mem_singleton.2 e)
  unfold State.claimAtStart
  rw [roleA]
  cases peer : s.pins.peerAct with
  | false => exact ⟨rfl, State.getN_setN_self _ _ _, rfl, others 1⟩
  | true => exact ⟨congrArg (fun own => { s.pins with ownAct := own }) idle, State.getN_setN_self _ _ _, rfl, others 0⟩

/-! ### The statement -/

/-- Settles O56: what each of the four commands writes. -/
theorem resetAndStart : Obligations.ResetAndStart := by
  refine ⟨fun s => ⟨_, rfl, rfl, rfl, rfl, rfl, rfl, rfl, rfl, rfl, rfl, rfl, rfl, rfl⟩, fun x pa m b s low roleA => ?_, fun x pa m b s high => if_pos high,
    fun m b s low => ?_, fun s => ⟨_, rfl, rfl, rfl, rfl, rfl, rfl, rfl, rfl⟩⟩
  · obtain ⟨pins, pair, whole, others⟩ := State.claimAtStart_effect (s := s.started x pa m b) roleA rfl
    have unlisted (o : ObjRef) : (s.started x pa m b).get o = defaultOf x o := State.get_of_unlisted rfl
    obtain ⟨power, phase⟩ := defaultOf_start x
    refine ⟨_, execPorstNDeassert_of_low x pa m b low, ?_, ?_, ?_, ?_, ?_, ?_, ?_, ?_, ?_, pair, ?_⟩
    · rw [whole]
      rfl
    · exact congrArg Int.toNat ((others _ (by decide)).trans ((unlisted _).trans power))
    · exact congrArg Int.toNat ((others _ (by decide)).trans ((unlisted _).trans phase))
    · rw [pins]
      rfl
    · rw [pins]
      rfl
    · rw [pins]
      rfl
    · rw [pins]
      rfl
    · rw [whole]
      rfl
    · rw [pins]
      rfl
    · rw [whole]
      rfl
  · refine ⟨_, if_neg (by rw [low]; decide), rfl, rfl, rfl, rfl⟩

end Sys2Proof.Machine
end


section
/-! SUPPORT. Supplies, PLLs and junction temperature (R381 to R386, R397). -/
namespace Sys2Proof.Machine

/-! ### Switch-over -/

theorem execRailSourceFault_of_main {s : State} {r : Nat} (rail : r < 5) (up : s.pins.porstN = true) (main : s.getN (Obj.RAIL_SOURCE + r) = 0)
    (steady : kvGet s.pwr.engage r = none) : execRailSourceFault r s =
    if s.pwr.backupGood.getLsbD r then
      .next ({ s with pwr := { s.pwr with mainGood := s.pwr.mainGood &&& ~~~BitVec.ofNat 5 (2 ^ r) } }.beginSwitch r 1)
    else .next s := by
  have fault : ¬(r ≥ 5 ∨ ¬s.pins.porstN ∨ s.getN (Obj.RAIL_SOURCE + r) ≥ 2 ∨ (kvGet s.pwr.engage r).isSome) := by
    rw [up, main, steady]
    simp [rail]
  unfold execRailSourceFault
  dsimp only
  rw [if_neg fault, if_pos main]

/-- The other source takes a rail over. -/
def State.engaged (s : State) (r src : Nat) : State :=
  { s with
    pins := if src = 0 then { s.pins with pswM := s.pins.pswM ||| BitVec.ofNat 5 (2 ^ r) }
      else { s.pins with pswB := s.pins.pswB ||| BitVec.ofNat 5 (2 ^ r) }
    pwr := { s.pwr with engage := kvDel s.pwr.engage r } }

/-- The objects and the log entry of a switch-over. -/
def State.switched (s : State) (r src : Nat) : State :=
  ((s.setN (Obj.RAIL_SOURCE + r) src).inc (Obj.SWITCHOVERS + r)).logEvent ⟨1, 13, 255, r + 1, Obj.SWITCHOVERS + r, src, 0⟩

theorem execSwitchoverEngage_of_engage {s : State} {r src : Nat} (engage : kvGet s.pwr.engage r = some src) :
    execSwitchoverEngage r s = .next ((s.engaged r src).switched r src) := by
  unfold execSwitchoverEngage
  rw [engage]
  rfl

/-- The source and the count of a rail stand apart from each other, from the power state and from the objects of the log. -/
theorem railObjects_apart : ∀ r < 5, Obj.RAIL_SOURCE + r ≠ Obj.SWITCHOVERS + r ∧ Obj.RAIL_SOURCE + r ∉ logObjects 1 ∧
    Obj.SWITCHOVERS + r ∉ logObjects 1 ∧ Obj.POWER_STATE ≠ Obj.RAIL_SOURCE + r ∧ Obj.POWER_STATE ≠ Obj.SWITCHOVERS + r := by decide

theorem State.switched_effect (s : State) {r : Nat} (src : Nat) (rail : r < 5) : let t := s.switched r src
    t.getN (Obj.RAIL_SOURCE + r) = src ∧ s.counts t (Obj.SWITCHOVERS + r) ∧ t.newestLog 1 13 (Obj.SWITCHOVERS + r) ∧ t.power = s.power ∧
    t = { s with od := t.od, log := t.log } := by
  obtain ⟨apart, sourceLog, countLog, powerSource, powerCount⟩ := railObjects_apart r rail
  refine ⟨?_, fun row known room => ?_, State.newestLog_logEvent _ _, ?_, ?_⟩
  · exact congrArg Int.toNat ((State.get_logEvent_other _ _ sourceLog).trans ((State.get_inc_other _ apart).trans (State.get_setN_self _ _ _)))
  · have before : (s.setN (Obj.RAIL_SOURCE + r) src).get (Obj.SWITCHOVERS + r) = s.get (Obj.SWITCHOVERS + r) := State.get_setN_other _ _ apart.symm
    rw [← before] at room ⊢
    exact (State.get_logEvent_other _ _ countLog).trans (State.get_inc_self _ _ row known room)
  · have powerLog : Obj.POWER_STATE ∉ logObjects 1 := by decide
    exact congrArg Int.toNat ((State.get_logEvent_other _ _ powerLog).trans ((State.get_inc_other _ powerCount).trans
      (State.get_setN_other _ _ powerSource)))
  · unfold State.switched
    rw [State.logEvent_eq, State.inc_eq]
    rfl

theorem execSupplyReturn_of_backup {s : State} {r : Nat} (rail : r < 5) (backup : s.getN (Obj.RAIL_SOURCE + r) = 1)
    (enabled : s.getN Obj.SUPPLY_RETURN = 1) (steady : kvGet s.pwr.engage r = none) : execSupplyReturn r s =
    .next ({ s with pwr := { s.pwr with mainGood := s.pwr.mainGood ||| BitVec.ofNat 5 (2 ^ r) } }.beginSwitch r 0) :=
  if_neg (by rw [backup, enabled, steady]; simp [rail])

theorem execSupplyReturn_of_disabled {s : State} {r : Nat} (disabled : s.getN Obj.SUPPLY_RETURN ≠ 1) : execSupplyReturn r s = .next s :=
  if_pos (.inr (.inr (.inl disabled)))

/-- A write of SUPPLY_RETURN_NOW with one rail on BACKUP. -/
theorem execSupplyReturnNow_of_rail {s : State} {c : Caller} {m : BitVec 5} {r : Nat} (may : s.mayWrite c Obj.SUPPLY_RETURN_NOW)
    (backup : (List.range 5).filter (fun r => s.getN (Obj.RAIL_SOURCE + r) = 1) = [r]) (steady : kvGet s.pwr.engage r = none) :
    execSupplyReturnNow c m s = .next (if m.getLsbD r then { s with pwr := { s.pwr with mainGood := m } }.beginSwitch r 0 else s) := by
  rw [execSupplyReturnNow, writeSupplyReturnNow, State.gate_of_mayWrite _ may]
  dsimp only
  rw [backup]
  cases good : m.getLsbD r with
  | true => simp [good, steady]
  | false => simp [good, steady]

/-! ### Supply faults and the trip -/

theorem execSupplyFault_of_fault {s : State} {r : Nat} (up : s.pins.porstN = true) (alive : s.power ≠ 5) :
    execSupplyFault r .loadPoint s = .next (s.supplyFault (r + 1)) ∧
    execSupplyFault r .noSource s = .next ((s.setN (Obj.RAIL_SOURCE + r) 2).supplyFault (r + 1)) := by
  have taken : ¬(s.power = 5 ∨ ¬s.pins.porstN) := by simp [up, alive]
  exact ⟨if_neg taken, if_neg taken⟩

/-- Only pins and outputs follow SYSREF and STAGE_SLOW. -/
theorem State.driveSysref_eq (s : State) : ∃ v out, s.driveSysref = { s with pins := { s.pins with sysref := v }, out := out } := by
  unfold State.driveSysref
  dsimp only
  generalize (if s.getN Obj.DEFL_LINK_STATE ≠ 1 then none
    else some (if s.getN Obj.SYSREF_MODE = 1 then 1280 * s.getN Obj.SYSREF_PERIOD else 0)) = v
  split
  · exact ⟨s.pins.sysref, s.out, rfl⟩
  · exact ⟨_, _, rfl⟩

theorem State.driveStageSlow_eq (s : State) (low : Bool) : ∃ v out, s.driveStageSlow low = { s with pins := { s.pins with stageSlow := v }, out := out } := by
  unfold State.driveStageSlow
  split
  · exact ⟨s.pins.stageSlow, s.out, rfl⟩
  · exact ⟨_, _, rfl⟩

/-- The objects of the beam-link lanes. -/
def blkLaneStates : List ObjRef := (List.range 24).map fun l => Obj.BLK_LANE_STATE + l

theorem blkLaneState_mem {l : Nat} (lane : l < 24) : Obj.BLK_LANE_STATE + l ∈ blkLaneStates := List.mem_map.2 ⟨l, List.mem_range.2 lane, rfl⟩

/-- A lane that is not mapped out follows the power state and its PLL. -/
def State.followLane (s : State) (l : Nat) : State :=
  if s.getN (Obj.BLK_LANE_STATE + l) = 3 then s
  else if !(s.power = 2 || s.power = 3) || s.pwr.locking.contains (.lane .blk l) then s.setN (Obj.BLK_LANE_STATE + l) 0
  else s.setN (Obj.BLK_LANE_STATE + l) (if s.outputsOn then 1 else 2)

theorem State.refreshBlk_eq (s : State) : s.refreshBlk =
    let t := foldN 24 State.followLane s
    t.driveStageSlow (t.outputsOn && t.on Obj.STAGE_SLOW) := rfl

theorem State.followLane_cases (s : State) (l : Nat) : s.followLane l = s ∨ ∃ v, s.followLane l = s.setN (Obj.BLK_LANE_STATE + l) v := by
  unfold State.followLane
  split
  · exact .inl rfl
  · split
    · exact .inr ⟨_, rfl⟩
    · exact .inr ⟨_, rfl⟩

theorem State.followLanes_effect (s : State) {n : Nat} (le : n ≤ 24) :
    foldN n State.followLane s = { s with od := (foldN n State.followLane s).od } ∧ s.sameObjects (foldN n State.followLane s) blkLaneStates := by
  induction n with
  | zero => exact ⟨rfl, fun _ _ => rfl⟩
  | succ n ih =>
    obtain ⟨whole, others⟩ := ih (by omega)
    rw [foldN_succ]
    rcases (foldN n State.followLane s).followLane_cases n with same | ⟨v, set⟩
    · rw [same]
      exact ⟨whole, others⟩
    · rw [set]
      refine ⟨by rw [whole]; rfl, fun o other => ?_⟩
      have apart : o ≠ Obj.BLK_LANE_STATE + n := fun e => other (by rw [e]; exact blkLaneState_mem (by omega))
      exact (State.get_setN_other _ _ apart).trans (others o other)

/-- The lanes change their objects alone, and STAGE_SLOW. -/
theorem State.refreshBlk_effect (s : State) : (∃ v out, s.refreshBlk = { s with
    od := s.refreshBlk.od, pins := { s.pins with stageSlow := v }, out := out }) ∧ s.sameObjects s.refreshBlk blkLaneStates := by
  obtain ⟨whole, others⟩ := s.followLanes_effect (n := 24) le_rfl
  rw [State.refreshBlk_eq]
  generalize foldN 24 State.followLane s = t at whole others ⊢
  obtain ⟨v, out, slow⟩ := t.driveStageSlow_eq (t.outputsOn && t.on Obj.STAGE_SLOW)
  dsimp only
  rw [slow]
  exact ⟨⟨v, out, by rw [whole]⟩, others⟩

/-- A deflector link without the core clock stands still. -/
theorem State.refreshDefl_of_off {s : State} (coreOff : s.coreOn = false) : s.refreshDefl = (s.setN Obj.DEFL_LINK_STATE 0).driveSysref := by
  unfold State.refreshDefl
  rw [coreOff, Bool.and_false]
  rfl

/-- The levels and states that the island's trip sets itself. -/
def State.tripped (s : State) : State :=
  { s.setN Obj.POWER_STATE 5 with
    pins := { s.pins with ownAct := false, pwrEn := false, pwrEnDdq := false, ttoEnd := [], strobeEnd := [] }
    clk := { s.clk with coreLocked := false }
    boot := { s.boot with released := false }
    fp := {}
    pwr := { s.pwr with target := none, locking := [], engage := [] } }

/-- The objects of a trip. -/
def tripObjects : List ObjRef := Obj.POWER_STATE :: Obj.DEFL_LINK_STATE :: blkLaneStates

/-- The trip before the beam-link lanes fall. -/
theorem State.trip_eq (s : State) : ∃ u : State, s.trip = u.refreshBlk ∧ u.power = 5 ∧ u.getN Obj.DEFL_LINK_STATE = 0 ∧ u.pins.ownAct = false ∧
    u.pins.pwrEn = false ∧ u.boot.released = false ∧ u.otp = s.otp ∧ u.log = s.log ∧ s.sameObjects u [Obj.POWER_STATE, Obj.DEFL_LINK_STATE] := by
  have coreOff : s.tripped.coreOn = false := Bool.and_false _
  obtain ⟨v, out, sysref⟩ := (s.tripped.setN Obj.DEFL_LINK_STATE 0).driveSysref_eq
  refine ⟨s.tripped.refreshDefl, rfl, ?_⟩
  rw [State.refreshDefl_of_off coreOff, sysref]
  refine ⟨(State.getN_setN_other _ _ (by decide)).trans (s.getN_setN_self Obj.POWER_STATE 5), State.getN_setN_self s.tripped _ _, rfl, rfl, rfl, rfl, rfl,
    fun o other => ?_⟩
  simp only [List.mem_cons, List.not_mem_nil, or_false, not_or] at other
  exact (s.tripped.get_setN_other _ other.2).trans (s.get_setN_other _ other.1)

theorem State.trip_effect (s : State) : let t := s.trip
    t.power = 5 ∧ t.pins.ownAct = false ∧ t.pins.pwrEn = false ∧ t.boot.released = false ∧ t.otp = s.otp ∧ t.log = s.log ∧
    t.getN Obj.DEFL_LINK_STATE = 0 ∧ s.sameObjects t tripObjects := by
  obtain ⟨u, trip, power, link, ownAct, pwrEn, released, otp, log, before⟩ := s.trip_eq
  obtain ⟨⟨w, out, whole⟩, others⟩ := u.refreshBlk_effect
  have notPower : Obj.POWER_STATE ∉ blkLaneStates := by decide
  have notLink : Obj.DEFL_LINK_STATE ∉ blkLaneStates := by decide
  rw [trip]
  refine ⟨(congrArg Int.toNat (others _ notPower)).trans power, ?_, ?_, ?_, ?_, ?_, (congrArg Int.toNat (others _ notLink)).trans link, fun o other => ?_⟩
  · exact (congrArg (·.pins.ownAct) whole).trans ownAct
  · exact (congrArg (·.pins.pwrEn) whole).trans pwrEn
  · exact (congrArg (·.boot.released) whole).trans released
  · exact (congrArg (·.otp) whole).trans otp
  · exact (congrArg (·.log) whole).trans log
  · simp only [tripObjects, List.mem_cons, not_or] at other
    exact (others o other.2.2).trans (before o (by simp [other.1, other.2.1]))

theorem execSupplyTrip_of_up {s : State} (r : Nat) (up : s.pins.porstN = true) : execSupplyTrip r s = .next s.trip :=
  if_pos up

/-! ### PLLs -/

theorem execPllLock_of_control {s : State} (startUp : s.power = 4) (phase : s.getN Obj.STARTUP_PHASE = 0) (last : s.pwr.locking = [.control]) :
    execPllLock .control s = .next (({ s with pwr := { s.pwr with locking := [] } }).enterPhase 1) := by
  unfold execPllLock
  rw [last]
  have none : List.filter (· ≠ Pll.control) [Pll.control] = [] := by decide
  refine (if_neg (by decide)).trans ?_
  dsimp only
  rw [none]
  exact if_pos ⟨startUp, phase, rfl⟩

theorem execPllLock_of_core {s : State} (ready : s.power = 2) (last : s.pwr.locking = [.core]) : execPllLock .core s = .next ({ s with
    clk := { s.clk with coreLocked := true }, pwr := { s.pwr with locking := [], coreLossSeen := false } }).startGrid := by
  have notStarting : s.power ≠ 4 := by omega
  unfold execPllLock
  rw [last]
  have none : List.filter (· ≠ Pll.core) [Pll.core] = [] := by decide
  refine (if_neg (by decide)).trans ?_
  dsimp only
  rw [none]
  exact if_neg fun h => notStarting h.1

theorem execPllLock_of_idle {s : State} {p : Pll} (idle : p ∉ s.pwr.locking) : execPllLock p s = .next s :=
  if_pos (by simpa using idle)

theorem execCorePllLoss_of_on {s : State} (coreOn : s.coreOn = true) : execCorePllLoss s = .next (({ s.inc Obj.CORE_PLL_LOSSES with
      clk := { s.clk with coreLocked := false }
      pwr := { s.pwr with locking := .core :: s.pwr.locking, coreLossSeen := true } }).refreshDefl.supplyFault 0) := by
  refine (if_neg (by rw [coreOn]; decide)).trans ?_
  dsimp only
  rw [State.inc_clk, State.inc_pwr]

theorem execCorePllLoss_of_off {s : State} (coreOff : s.coreOn = false) : execCorePllLoss s = .next s :=
  if_pos (by rw [coreOff]; decide)

/-! ### The junction temperature -/

/-- TJ and TJ_PEAK after a reading. -/
def State.tjRead (s : State) (tj : Int) : State :=
  (s.set Obj.TJ tj).set Obj.TJ_PEAK (if s.pwr.tjSeen then max (s.get Obj.TJ_PEAK) tj else tj)

/-- What a reading enters: the warning and the trigger that it newly reaches. -/
def State.tjEntered (s : State) (tj : Int) (warn hot : Bool) : State :=
  let s := if warn && !s.pwr.tjWarned then s.logEvent ⟨2, 14, 255, 255, Obj.TJ, toUnsigned 64 tj, 0⟩ else s
  if hot && !s.pwr.tjHot then s.raise ⟨5, 14, 255, 255, 0⟩ else s

/-- The last step of a reading: the levels it leaves. -/
def State.tjLevels (s : State) (warn hot : Bool) : State := { s with pwr := { s.pwr with tjSeen := true, tjWarned := warn, tjHot := hot } }

theorem State.tjRead_warn (s : State) (tj : Int) : (s.tjRead tj).get Obj.TJ_WARN = s.get Obj.TJ_WARN :=
  (State.get_set_other _ _ (by decide)).trans (State.get_set_other _ _ (by decide))

theorem execTjSample_eq {s : State} (t0 : Int) (ts : List Int) (alive : s.power ≠ 5) (up : s.pins.porstN = true) : let tj := ts.foldl max t0
    let warn := decide (tj ≥ s.get Obj.TJ_WARN)
    let hot := decide (tj ≥ 2400)
    let t := ((s.tjRead tj).tjEntered tj warn hot).tjLevels warn hot
    execTjSample (t0 :: ts) s = if tj ≥ 2560 then .next (t.inc Obj.THERMAL_TRIPS).trip else .next t := by
  have taken : ¬(s.power = 5 ∨ ¬s.pins.porstN) := by simp [up, alive]
  refine (if_neg taken).trans ?_
  dsimp only
  generalize ts.foldl max t0 = tj
  rw [← s.tjRead_warn tj]
  rfl

theorem execTjSample_of_cool {s : State} {t0 : Int} {ts : List Int} (alive : s.power ≠ 5) (up : s.pins.porstN = true)
    (cool : ts.foldl max t0 < s.get Obj.TJ_WARN) (belowHot : ts.foldl max t0 < 2400) :
    execTjSample (t0 :: ts) s = .next ((s.tjRead (ts.foldl max t0)).tjLevels false false) := by
  rw [execTjSample_eq t0 ts alive up]
  generalize ts.foldl max t0 = tj at cool belowHot ⊢
  rw [decide_eq_false (by omega), decide_eq_false (by omega), if_neg (by omega)]
  rfl

theorem execTjSample_of_warm {s : State} {t0 : Int} {ts : List Int} (alive : s.power ≠ 5) (up : s.pins.porstN = true)
    (warm : s.get Obj.TJ_WARN ≤ ts.foldl max t0) (belowHot : ts.foldl max t0 < 2400) (fresh : s.pwr.tjWarned = false) :
    let u := (s.tjRead (ts.foldl max t0)).logEvent ⟨2, 14, 255, 255, Obj.TJ, toUnsigned 64 (ts.foldl max t0), 0⟩
    execTjSample (t0 :: ts) s = .next { u with pwr := { s.pwr with tjSeen := true, tjWarned := true, tjHot := false } } := by
  rw [execTjSample_eq t0 ts alive up]
  generalize ts.foldl max t0 = tj at warm belowHot ⊢
  have enters : (true && !(s.tjRead tj).pwr.tjWarned) = true := congrArg (true && !·) fresh
  rw [decide_eq_true (p := tj ≥ _) warm, decide_eq_false (by omega), if_neg (by omega)]
  unfold State.tjEntered
  rw [if_pos enters]
  exact congrArg (fun p => Host.Outcome.next { State.logEvent _ _ with pwr := { p with tjSeen := true, tjWarned := true, tjHot := false } })
    (State.logEvent_pwr _ _)

theorem execTjSample_of_hot {s : State} {t0 : Int} {ts : List Int} (alive : s.power ≠ 5) (up : s.pins.porstN = true)
    (warm : s.get Obj.TJ_WARN ≤ ts.foldl max t0) (hot : 2400 ≤ ts.foldl max t0) (belowTrip : ts.foldl max t0 < 2560)
    (warned : s.pwr.tjWarned = true) (fresh : s.pwr.tjHot = false) :
    execTjSample (t0 :: ts) s = .next (((s.tjRead (ts.foldl max t0)).raise ⟨5, 14, 255, 255, 0⟩).tjLevels true true) := by
  rw [execTjSample_eq t0 ts alive up]
  generalize ts.foldl max t0 = tj at warm hot belowTrip ⊢
  have known : ¬(true && !(s.tjRead tj).pwr.tjWarned) = true := by rw [show (s.tjRead tj).pwr = s.pwr from rfl, warned]; decide
  have rises : (true && !(s.tjRead tj).pwr.tjHot) = true := congrArg (true && !·) fresh
  rw [decide_eq_true (p := tj ≥ State.get _ _) warm, decide_eq_true (p := tj ≥ 2400) hot, if_neg (by omega)]
  unfold State.tjEntered
  rw [if_neg known]
  dsimp only
  rw [if_pos rises]

theorem execTjSample_of_trip {s : State} {t0 : Int} {ts : List Int} (alive : s.power ≠ 5) (up : s.pins.porstN = true)
    (trips : 2560 ≤ ts.foldl max t0) : ∃ t, execTjSample (t0 :: ts) s = .next t ∧ t.power = 5 ∧ t.pins.ownAct = false ∧ t.pins.pwrEn = false := by
  refine ⟨_, (execTjSample_eq t0 ts alive up).trans (if_pos trips), ?_⟩
  obtain ⟨power, ownAct, pwrEn, _⟩ := State.trip_effect _
  exact ⟨power, ownAct, pwrEn⟩

/-! ### The statement -/

/-- Settles O57: switch-overs, supply faults and trips (R381, R382, R384), PLLs (R386, R397), the junction temperature (R386). -/
theorem suppliesAndClocks : Obligations.SuppliesAndClocks := by
  unfold Obligations.SuppliesAndClocks
  refine ⟨⟨?_, ?_, ?_, ?_, ?_, ?_, ?_, ?_, ?_, ?_⟩, ?_, ?_, ?_, ?_, ?_, ?_⟩
  · intro r s rail up main steady good
    exact ⟨_, (execRailSourceFault_of_main rail up main steady).trans (if_pos good), rfl, kvGet_kvSet_self _ _ _, rfl, rfl⟩
  · intro r s rail up main steady bad
    exact (execRailSourceFault_of_main rail up main steady).trans (if_neg (by rw [bad]; decide))
  · intro r s rail engage
    obtain ⟨source, counts, entered, power, whole⟩ := (s.engaged r 1).switched_effect 1 rail
    exact ⟨_, execSwitchoverEngage_of_engage engage, congrArg (·.pins.pswB) whole, source, counts, entered, power, congrArg (·.job) whole⟩
  · exact fun r s rail backup enabled steady => execSupplyReturn_of_backup rail backup enabled steady
  · exact fun r s disabled => execSupplyReturn_of_disabled disabled
  · intro c m r s may backup steady
    have written := execSupplyReturnNow_of_rail (m := m) may backup steady
    exact ⟨fun good => written.trans (by rw [if_pos good]), fun bad => written.trans (by rw [if_neg (by rw [bad]; decide)])⟩
  · exact fun s main => if_neg (fun h => h main)
  · exact fun s backup => if_neg (fun h => h backup)
  · exact fun r s up alive => execSupplyFault_of_fault up alive
  · exact fun r s up => ⟨_, execSupplyTrip_of_up r up, s.trip_effect⟩
  · exact fun s startUp phase last => execPllLock_of_control startUp phase last
  · exact fun s ready last => execPllLock_of_core ready last
  · exact fun p s idle => execPllLock_of_idle idle
  · exact fun s coreOn => execCorePllLoss_of_on coreOn
  · exact fun s coreOff => execCorePllLoss_of_off coreOff
  · intro t0 ts s alive up
    exact ⟨execTjSample_of_cool alive up, execTjSample_of_warm alive up, execTjSample_of_hot alive up, execTjSample_of_trip alive up⟩

end Sys2Proof.Machine
end

section
/-! SUPPORT. Power requests, transitions and wakes (R388 to R390). -/
namespace Sys2Proof.Machine

/-! ### Requests -/

theorem State.powerRefused_of_busy {s : State} (target : Nat) (busy : s.power = 4 ∨ s.jobActive = true) : s.powerRefused target = true := by
  unfold State.powerRefused
  rcases busy with starting | active
  · simp [starting]
  · simp [active]

theorem State.powerRefused_of_peer {s : State} (active : s.getN Obj.PAIR_STATE = 1) (eligible : s.getN Obj.PEER_STATE = 4) :
    s.powerRefused 0 = true := by
  unfold State.powerRefused
  simp [active, eligible]

/-- Without a transition and a job, a device in CONTROL or READY takes every request but that for DEEP beside an eligible peer. -/
theorem State.powerRefused_of_idle {s : State} {target : Nat} (alive : s.power = 1 ∨ s.power = 2) (idle : s.jobActive = false)
    (steady : s.pwr.target = none) (alone : target ≠ 0 ∨ s.getN Obj.PAIR_STATE ≠ 1) : s.powerRefused target = false := by
  have notStarting : s.power ≠ 4 := by omega
  have notTripped : s.power ≠ 5 := by omega
  unfold State.powerRefused
  rw [steady, idle]
  rcases alone with other | single
  · simp [notStarting, notTripped, other]
  · simp [notStarting, notTripped, single]

theorem execPowerRequestControl_of_mayWrite {s : State} {c : Caller} (may : s.mayWrite c Obj.POWER_REQUEST) : execPowerRequestControl c s =
    .next (if s.powerRefused 1 then s else if s.power = 1 ∨ s.pwr.target = some 1 then s
      else { s.quiesce with pwr := { s.quiesce.pwr with target := some 1 } }) := by
  rw [execPowerRequestControl, writePowerControl, State.gate_of_mayWrite _ may]
  split
  · rfl
  · split <;> rfl

theorem execPowerRequestDeep_of_mayWrite {s : State} {c : Caller} (may : s.mayWrite c Obj.POWER_REQUEST) : execPowerRequestDeep c s =
    .next (if s.powerRefused 0 then s else if s.pwr.target = some 0 then s
      else let u := if s.power = 1 then s else s.quiesce; { u with pwr := { u.pwr with target := some 0 } }) := by
  rw [execPowerRequestDeep, writePowerDeep, State.gate_of_mayWrite _ may]
  split
  · rfl
  · split <;> rfl

theorem execPowerRequestReady_of_mayWrite {s : State} {c : Caller} (may : s.mayWrite c Obj.POWER_REQUEST) : execPowerRequestReady c s =
    .next (if s.powerRefused 2 then s else if s.power = 2 ∨ s.power = 3 ∨ s.pwr.target = some 2 then s
      else { s with pwr := { s.pwr with target := some 2, locking := s.pwr.locking ++ corePlls ++ lanePlls } }) := by
  rw [execPowerRequestReady, writePowerReady, State.gate_of_mayWrite _ may]
  split
  · rfl
  · split <;> rfl

/-- Beside a job, and while starting, every request is refused. -/
theorem execPowerRequests_of_busy {s : State} {c : Caller} (may : s.mayWrite c Obj.POWER_REQUEST) (busy : s.power = 4 ∨ s.jobActive = true) :
    execPowerRequestDeep c s = .next s ∧ execPowerRequestControl c s = .next s ∧ execPowerRequestReady c s = .next s := by
  rw [execPowerRequestDeep_of_mayWrite may, execPowerRequestControl_of_mayWrite may, execPowerRequestReady_of_mayWrite may,
    if_pos (State.powerRefused_of_busy 0 busy), if_pos (State.powerRefused_of_busy 1 busy), if_pos (State.powerRefused_of_busy 2 busy)]
  exact ⟨rfl, rfl, rfl⟩

section
variable {s : State} {c : Caller} (may : s.mayWrite c Obj.POWER_REQUEST) (idle : s.jobActive = false) (steady : s.pwr.target = none)
include may idle steady

theorem execPowerRequestReady_of_ready (ready : s.power = 2) : execPowerRequestReady c s = .next s := by
  have allowed := State.powerRefused_of_idle (target := 2) (.inr ready) idle steady (.inl (by decide))
  rw [execPowerRequestReady_of_mayWrite may, if_neg (by rw [allowed]; decide), if_pos (.inl ready)]

theorem execPowerRequestControl_of_ready (ready : s.power = 2) :
    execPowerRequestControl c s = .next { s.quiesce with pwr := { s.quiesce.pwr with target := some 1 } } := by
  have allowed := State.powerRefused_of_idle (target := 1) (.inr ready) idle steady (.inl (by decide))
  have new : ¬(s.power = 1 ∨ s.pwr.target = some 1) := by simp [ready, steady]
  rw [execPowerRequestControl_of_mayWrite may, if_neg (by rw [allowed]; decide), if_neg new]

theorem execPowerRequestDeep_of_ready (ready : s.power = 2) (single : s.getN Obj.PAIR_STATE ≠ 1) :
    execPowerRequestDeep c s = .next { s.quiesce with pwr := { s.quiesce.pwr with target := some 0 } } := by
  have allowed := State.powerRefused_of_idle (target := 0) (.inr ready) idle steady (.inr single)
  rw [execPowerRequestDeep_of_mayWrite may, if_neg (by rw [allowed]; decide), if_neg (by rw [steady]; decide), if_neg (by omega)]

theorem execPowerRequestControl_of_control (control : s.power = 1) : execPowerRequestControl c s = .next s := by
  have allowed := State.powerRefused_of_idle (target := 1) (.inl control) idle steady (.inl (by decide))
  rw [execPowerRequestControl_of_mayWrite may, if_neg (by rw [allowed]; decide), if_pos (.inl control)]

theorem execPowerRequestReady_of_control (control : s.power = 1) : execPowerRequestReady c s =
    .next { s with pwr := { s.pwr with target := some 2, locking := s.pwr.locking ++ corePlls ++ lanePlls } } := by
  have allowed := State.powerRefused_of_idle (target := 2) (.inl control) idle steady (.inl (by decide))
  have new : ¬(s.power = 2 ∨ s.power = 3 ∨ s.pwr.target = some 2) := by simp [control, steady]
  rw [execPowerRequestReady_of_mayWrite may, if_neg (by rw [allowed]; decide), if_neg new]

end

/-! ### The end of a transition -/

theorem execPowerTransitionDone_of_control {s : State} (target : s.pwr.target = some 1) (awake : s.power ≠ 0) :
    execPowerTransitionDone s = .next { s.setN Obj.POWER_STATE 1 with pwr := { s.pwr with target := none } } := by
  unfold execPowerTransitionDone
  rw [target]
  dsimp only
  rw [if_neg (by decide), if_neg (fun h => awake h.1), if_pos rfl, if_neg awake]

theorem execPowerTransitionDone_of_deep {s : State} (target : s.pwr.target = some 0) (quiet : s.pins.wakeSeen = 0) :
    execPowerTransitionDone s = .next s.enterDeep := by
  unfold execPowerTransitionDone
  rw [target]
  dsimp only
  rw [if_pos rfl, if_pos quiet]

theorem execPowerTransitionDone_of_ready {s : State} (target : s.pwr.target = some 2) (control : s.power = 1)
    (locked : ∀ p ∈ s.pwr.locking, p ∉ corePlls) : execPowerTransitionDone s =
    .next (({ ((s.setN Obj.POWER_STATE 2).leaveSelfRefresh).takeKeptProducers with
      pwr := { ((s.setN Obj.POWER_STATE 2).leaveSelfRefresh).takeKeptProducers.pwr with target := none } }).readyEntered) := by
  have awake : s.power ≠ 0 := by omega
  have none : ¬(s.pwr.locking.any corePlls.contains) = true := by
    simpa only [List.any_eq_true, List.contains_eq_mem, decide_eq_true_eq, not_exists, not_and] using locked
  unfold execPowerTransitionDone
  rw [target]
  dsimp only
  rw [if_neg (by decide), if_neg (fun h => awake h.1), if_neg (by decide), if_neg none, if_neg awake]

theorem execPowerTransitionDone_of_none {s : State} (steady : s.pwr.target = none) : execPowerTransitionDone s = .next s := by
  unfold execPowerTransitionDone
  rw [steady]

/-! ### The entry to DEEP -/

theorem kvGet_filter {α : Type} (l : List (Nat × α)) (keeps : Nat → Bool) {k : Nat} (kept : keeps k = true) :
    kvGet (l.filter fun p => keeps p.1) k = kvGet l k := by
  induction l with
  | nil => rfl
  | cons p l ih =>
    by_cases same : p.1 = k
    · rw [List.filter_cons_of_pos (by rw [same]; exact kept), kvGet, kvGet, if_pos same, if_pos same]
    · cases keep : keeps p.1 with
      | true => rw [List.filter_cons_of_pos (p := fun q : Nat × α => keeps q.1) keep, kvGet, kvGet, if_neg same, if_neg same, ih]
      | false => rw [List.filter_cons_of_neg (p := fun q : Nat × α => keeps q.1) (by rw [keep]; decide), kvGet, if_neg same, ih]

/-- Whether an object stands outside the check-value units. -/
def keptByUnits (o : ObjRef) : Bool := !(0x3300 ≤ o / 256 && o / 256 ≤ 0x33FF)

theorem State.get_clearUnits {s : State} {o : ObjRef} (kept : keptByUnits o = true) : s.clearUnits.get o = s.get o := by
  have same : kvGet s.clearUnits.od o = kvGet s.od o := kvGet_filter s.od keptByUnits kept
  unfold State.get
  rw [same]
  rfl

/-- The check-value units lose their contents and the DMA channels stop. -/
def State.channelsIdle (s : State) : State := foldN 32 (fun s c => s.setN (Obj.CH_STATE + c) 0) s.clearUnits

theorem State.channelsIdle_eq (s : State) : ∃ od cus, s.channelsIdle = { s with od := od, cus := cus } := by
  obtain ⟨od, cleared⟩ := s.clearUnits.foldN_setN_eq Obj.CH_STATE (fun _ => 0) 32
  exact ⟨od, _, cleared⟩

/-- The on-chip stores lose their contents. -/
def State.storesLost (s : State) : State :=
  { s with dma := List.replicate 32 {}, sweep := { s.sweep with win := List.replicate 640 [], loads := [] }, hist := []
           sram := { s.sram with tableUe := [] } }

theorem State.get_storesLost (s : State) (o : ObjRef) : s.storesLost.get o = s.get o := rfl

theorem State.clearOnChip_eq (s : State) : s.clearOnChip = s.channelsIdle.storesLost := rfl

theorem State.clearOnChip_whole (s : State) : ∃ od cus dma sweep sram, s.clearOnChip =
    { s with od := od, cus := cus, dma := dma, sweep := sweep, hist := [], sram := sram } := by
  obtain ⟨od, cus, idle⟩ := s.channelsIdle_eq
  rw [State.clearOnChip_eq, idle]
  exact ⟨_, _, _, _, _, rfl⟩

theorem State.getN_clearOnChip_channel (s : State) {ch : Nat} (channel : ch < 32) : s.clearOnChip.getN (Obj.CH_STATE + ch) = 0 := by
  have idle : s.channelsIdle.getN (Obj.CH_STATE + ch) = 0 := State.getN_foldN_setN s.clearUnits Obj.CH_STATE (fun _ => 0) channel
  rw [State.clearOnChip_eq]
  exact (congrArg Int.toNat (State.get_storesLost _ _)).trans idle

theorem State.get_clearOnChip_other (s : State) {o : ObjRef} (kept : keptByUnits o = true) (other : ∀ ch < 32, o ≠ Obj.CH_STATE + ch) :
    s.clearOnChip.get o = s.get o := by
  have idle : s.channelsIdle.get o = s.clearUnits.get o := State.get_foldN_setN_other s.clearUnits (fun _ => 0) other
  rw [State.clearOnChip_eq, State.get_storesLost, idle, State.get_clearUnits kept]

/-- The objects of a DEEP entry before the on-chip stores lose their contents. -/
def State.deepCounted (s : State) : State := ((s.setN Obj.POWER_STATE 0).inc Obj.DEEP_ENTRIES).setN Obj.SESSIONS_OPEN 0

/-- Sessions, the staging set, the supply of the core and the transition end. -/
def State.deepLost (s : State) : State :=
  { (s.setN Obj.STAGING_OWNER 0).setN Obj.STAGED_ENTRIES 0 with
    fp := { s.fp with sessions := [], spiSeq := 0, spiStored := [], waiting := [], spiOut := [] }
    stg := { s.stg with owner := 0, entries := [] }
    pins := { s.pins with pwrEn := false }
    pwr := { s.pwr with target := none, restored := false, locking := [] } }

theorem State.get_deepLost (s : State) {o : ObjRef} (owner : o ≠ Obj.STAGING_OWNER) (entries : o ≠ Obj.STAGED_ENTRIES) : s.deepLost.get o = s.get o :=
  (State.get_setN_other _ _ entries).trans (State.get_setN_other _ _ owner)

theorem State.enterDeep_eq (s : State) : s.enterDeep = s.deepCounted.clearOnChip.deepLost := rfl

theorem State.deepCounted_eq (s : State) : ∃ od, s.deepCounted = { s with od := od } := by
  unfold State.deepCounted
  rw [State.inc_eq]
  exact ⟨_, rfl⟩

theorem State.enterDeep_whole (s : State) : ∃ od cus dma sweep sram, s.enterDeep = { s with
    od := od, cus := cus, dma := dma, sweep := sweep, hist := [], sram := sram
    fp := { s.fp with sessions := [], spiSeq := 0, spiStored := [], waiting := [], spiOut := [] }
    stg := { s.stg with owner := 0, entries := [] }
    pins := { s.pins with pwrEn := false }
    pwr := { s.pwr with target := none, restored := false, locking := [] } } := by
  obtain ⟨od, cus, dma, sweep, sram, cleared⟩ := s.deepCounted.clearOnChip_whole
  obtain ⟨od', counted⟩ := s.deepCounted_eq
  rw [State.enterDeep_eq, cleared, counted]
  exact ⟨_, _, _, _, _, rfl⟩

/-- An object that stands outside the units, the channels and the staging set reads after the entry as it was counted. -/
theorem State.get_enterDeep (s : State) {o : ObjRef} (kept : keptByUnits o = true) (other : ∀ ch < 32, o ≠ Obj.CH_STATE + ch)
    (owner : o ≠ Obj.STAGING_OWNER) (entries : o ≠ Obj.STAGED_ENTRIES) : s.enterDeep.get o = s.deepCounted.get o := by
  rw [State.enterDeep_eq, State.get_deepLost _ owner entries, State.get_clearOnChip_other _ kept other]

theorem State.getN_enterDeep_channel (s : State) {ch : Nat} (channel : ch < 32) : s.enterDeep.getN (Obj.CH_STATE + ch) = 0 := by
  have apart : ∀ ch < 32, Obj.CH_STATE + ch ≠ Obj.STAGED_ENTRIES ∧ Obj.CH_STATE + ch ≠ Obj.STAGING_OWNER := by decide
  obtain ⟨entries, owner⟩ := apart ch channel
  rw [State.enterDeep_eq]
  exact (congrArg Int.toNat (State.get_deepLost _ owner entries)).trans (s.deepCounted.getN_clearOnChip_channel channel)

/-- What an entry to DEEP leaves, and what it keeps. -/
theorem State.enterDeep_effect (s : State) : let t := s.enterDeep
    t.power = 0 ∧ s.counts t Obj.DEEP_ENTRIES ∧ t.fp.sessions = [] ∧ t.stg.entries = [] ∧ t.getN Obj.SESSIONS_OPEN = 0 ∧ t.pins.pwrEn = false ∧
    (∀ ch < 32, t.getN (Obj.CH_STATE + ch) = 0) ∧ t.hist = [] ∧ t.head = s.head ∧ t.clk = s.clk ∧ t.otp = s.otp := by
  obtain ⟨od, cus, dma, sweep, sram, whole⟩ := s.enterDeep_whole
  have power : s.enterDeep.get Obj.POWER_STATE = s.deepCounted.get Obj.POWER_STATE := s.get_enterDeep rfl (by decide) (by decide) (by decide)
  have count : s.enterDeep.get Obj.DEEP_ENTRIES = s.deepCounted.get Obj.DEEP_ENTRIES := s.get_enterDeep rfl (by decide) (by decide) (by decide)
  have opened : s.enterDeep.get Obj.SESSIONS_OPEN = s.deepCounted.get Obj.SESSIONS_OPEN := s.get_enterDeep rfl (by decide) (by decide) (by decide)
  have powered : s.deepCounted.get Obj.POWER_STATE = 0 := (State.get_setN_other _ _ (by decide)).trans
    ((State.get_inc_other _ (by decide)).trans (s.get_setN_self Obj.POWER_STATE 0))
  have counted : s.counts s.deepCounted Obj.DEEP_ENTRIES := by
    intro row known room
    have before : (s.setN Obj.POWER_STATE 0).get Obj.DEEP_ENTRIES = s.get Obj.DEEP_ENTRIES := State.get_setN_other _ _ (by decide)
    rw [← before] at room ⊢
    exact (State.get_setN_other _ _ (by decide)).trans (State.get_inc_self _ _ row known room)
  have closed : s.deepCounted.get Obj.SESSIONS_OPEN = 0 := State.get_setN_self _ _ _
  have channels : ∀ ch < 32, s.enterDeep.getN (Obj.CH_STATE + ch) = 0 := fun ch channel => s.getN_enterDeep_channel channel
  generalize s.enterDeep = t at whole power count opened channels ⊢
  generalize s.deepCounted = u at power count opened powered counted closed
  refine ⟨congrArg Int.toNat (power.trans powered), fun row known room => count.trans (counted row known room), congrArg (·.fp.sessions) whole,
    congrArg (·.stg.entries) whole, congrArg Int.toNat (opened.trans closed), congrArg (·.pins.pwrEn) whole, channels, congrArg (·.hist) whole,
    congrArg (·.head) whole, congrArg (·.clk) whole, congrArg (·.otp) whole⟩

/-! ### Wakes -/

/-- A view of the state that the work on one region keeps, the work on all four keeps. -/
theorem foldl_regions_keeps {α : Type} (view : State → α) {f : State → Nat → State} (keeps : ∀ s, ∀ i < 4, view (f s i) = view s) (s : State) :
    view (regions.foldl f s) = view s := by
  simp only [regions, List.foldl_cons, List.foldl_nil]
  rw [keeps _ 3 (by decide), keeps _ 2 (by decide), keeps _ 1 (by decide), keeps _ 0 (by decide)]

/-- A channel that is not lost trains again at a wake. -/
def State.retrain (s : State) (i : Nat) : State :=
  if s.channelLost i then s else (s.setN (Obj.MC_STATE + i) 0).setN (Obj.MC_SPEED + i) 0

theorem State.retrain_eq (s : State) (i : Nat) : s.retrain i = { s with od := (s.retrain i).od } := by
  unfold State.retrain
  split <;> rfl

theorem State.get_retrain_other (s : State) {i : Nat} {o : ObjRef} (state : o ≠ Obj.MC_STATE + i) (speed : o ≠ Obj.MC_SPEED + i) :
    (s.retrain i).get o = s.get o := by
  unfold State.retrain
  split
  · rfl
  · exact (State.get_setN_other _ _ speed).trans (State.get_setN_other _ _ state)

/-- The supply, the PLLs and the target of a wake. -/
def State.waking (s : State) : State :=
  { s with pins := { s.pins with pwrEn := true, wakeSeen := 0 },
           pwr := { s.pwr with target := some (s.getN Obj.WAKE_TARGET), restored := false, locking := .control :: corePlls } }

theorem State.waking_effect (s : State) : let t := s.waking
    t.getN Obj.LAST_WAKE_SOURCE = s.getN Obj.LAST_WAKE_SOURCE ∧ t.pins.pwrEn = true ∧ t.pwr.target = some (s.getN Obj.WAKE_TARGET) ∧
    t.pwr.locking = .control :: corePlls := ⟨rfl, rfl, rfl, rfl⟩

/-- The channels of a device that wakes. -/
def State.retrained (s : State) : State := regions.foldl State.retrain s

theorem State.retrain_apply : (fun (s : State) i => if s.channelLost i then s else (s.setN (Obj.MC_STATE + i) 0).setN (Obj.MC_SPEED + i) 0) =
    State.retrain := rfl

theorem State.startWake_eq (s : State) (mask : Nat) : s.startWake mask = (s.setN Obj.LAST_WAKE_SOURCE mask).retrained.waking := by
  unfold State.startWake State.retrained
  dsimp only
  rw [State.retrain_apply]
  generalize regions.foldl State.retrain (s.setN Obj.LAST_WAKE_SOURCE mask) = u
  rfl

/-- The objects that say what woke the device, and to what. -/
theorem wakeObjects_apart : ∀ i < 4, Obj.LAST_WAKE_SOURCE ≠ Obj.MC_STATE + i ∧ Obj.LAST_WAKE_SOURCE ≠ Obj.MC_SPEED + i ∧
    Obj.WAKE_TARGET ≠ Obj.MC_STATE + i ∧ Obj.WAKE_TARGET ≠ Obj.MC_SPEED + i := by decide

theorem State.getN_retrained_source (s : State) : s.retrained.getN Obj.LAST_WAKE_SOURCE = s.getN Obj.LAST_WAKE_SOURCE :=
  foldl_regions_keeps (f := State.retrain) (·.getN Obj.LAST_WAKE_SOURCE) (fun s i region => by
    obtain ⟨state, speed, -, -⟩ := wakeObjects_apart i region
    exact congrArg Int.toNat (s.get_retrain_other state speed)) s

theorem State.getN_retrained_target (s : State) : s.retrained.getN Obj.WAKE_TARGET = s.getN Obj.WAKE_TARGET :=
  foldl_regions_keeps (f := State.retrain) (·.getN Obj.WAKE_TARGET) (fun s i region => by
    obtain ⟨-, -, state, speed⟩ := wakeObjects_apart i region
    exact congrArg Int.toNat (s.get_retrain_other state speed)) s

theorem State.startWake_effect (s : State) (mask : Nat) : let t := s.startWake mask
    t.getN Obj.LAST_WAKE_SOURCE = mask ∧ t.pins.pwrEn = true ∧ t.pwr.target = some (s.getN Obj.WAKE_TARGET) ∧ t.pwr.locking = .control :: corePlls := by
  rw [State.startWake_eq]
  obtain ⟨source, supply, target, plls⟩ := (s.setN Obj.LAST_WAKE_SOURCE mask).retrained.waking_effect
  rw [State.getN_retrained_source, State.getN_setN_self] at source
  rw [State.getN_retrained_target, State.getN_setN_other _ _ (by decide)] at target
  exact ⟨source, supply, target, plls⟩

/-- The enabled sources among those that act. -/
def State.wakeMask (s : State) (w : Nat) : Nat := (BitVec.ofNat 2 w &&& BitVec.ofNat 2 (s.getN Obj.WAKE_SOURCES)).toNat

theorem execWake_of_enabled {s : State} {w : Nat} (deep : s.power = 0) (steady : s.pwr.target = none) (enabled : s.wakeMask w ≠ 0) :
    execWake w s = .next (s.startWake (s.wakeMask w)) :=
  (if_neg enabled).trans (if_pos ⟨deep, by rw [steady]; rfl⟩)

theorem execWake_of_disabled {s : State} {w : Nat} (disabled : s.wakeMask w = 0) : execWake w s = .next s := if_pos disabled

/-! ### The restore -/

/-- The state that start-up goes on from when the save cannot be read: a reset that keeps the straps, the clock, DRAM, and that the PLLs lock. -/
def State.discarded (s : State) : State :=
  let b := s.resetAll
  { b with straps := s.straps, clk := s.clk, dram := { s.dram with channels := [{}, {}, {}, {}] },
           pins := { s.pins with wakeSeen := 0 }, pwr := { b.pwr with locking := s.pwr.locking } }

/-- A region keeps its state and its speed. -/
def State.keepRegion (s b : State) (i : Nat) : State :=
  (b.setN (Obj.MC_STATE + i) (s.getN (Obj.MC_STATE + i))).setN (Obj.MC_SPEED + i) (s.getN (Obj.MC_SPEED + i))

/-- What is left before start-up goes on from phase 3. -/
def State.restarted (s : State) : State :=
  ((regions.foldl s.keepRegion s.discarded).setN Obj.PAIR_STATE (s.getN Obj.PAIR_STATE)).setN Obj.FILL_STATE 1

section
variable {s : State} {v : Nat} (deep : s.power = 0) (target : s.pwr.target = some v) (fresh : s.pwr.restored = false)
include deep target fresh

theorem execWakeRestoreDone_of_waking (readable : Bool) : execWakeRestoreDone readable s =
    if readable then .next { s with pwr := { s.pwr with restored := true }, boot := { s.boot with released := true } }.attachAfterWake
    else .next s.restarted.afterFill := by
  have waking : ¬(s.power ≠ 0 ∨ s.pwr.target.isNone ∨ s.pwr.restored) := by simp [deep, target, fresh]
  exact if_neg waking

end

theorem State.restarted_effect (s : State) : let t := s.restarted.afterFill
    t.dram.mem = s.dram.mem ∧ t.straps = s.straps ∧ t.otp = s.otp ∧ t.getN Obj.FILL_STATE = 1 := by
  obtain ⟨objects, whole⟩ := s.restarted.afterFill_effect
  have fill : s.restarted.afterFill.get Obj.FILL_STATE = 1 := (objects _ (by decide)).trans (State.get_setN_self _ _ _)
  refine ⟨?_, ?_, ?_, congrArg Int.toNat fill⟩
  · exact (congrArg (·.dram.mem) whole).trans (foldl_regions_keeps (·.dram.mem) (fun _ _ _ => rfl) s.discarded)
  · exact (congrArg (·.straps) whole).trans (foldl_regions_keeps (·.straps) (fun _ _ _ => rfl) s.discarded)
  · exact (congrArg (·.otp) whole).trans (foldl_regions_keeps (·.otp) (fun _ _ _ => rfl) s.discarded)

/-! ### The statement -/

/-- Settles O58: requests (R388), the ends of transitions, wakes (R389) and the restore (R390). -/
theorem powerStates : Obligations.PowerStates := by
  unfold Obligations.PowerStates
  refine ⟨?_, ?_, ?_, ?_, ?_, ?_, ?_, ?_, ?_, ?_, ?_⟩
  · exact fun c s may busy => execPowerRequests_of_busy may busy
  · intro c s may active eligible
    rw [show exec (.powerRequestDeep c) s = _ from execPowerRequestDeep_of_mayWrite may, if_pos (State.powerRefused_of_peer active eligible)]
  · exact fun c s may ready idle steady => ⟨execPowerRequestReady_of_ready may idle steady ready,
      execPowerRequestControl_of_ready may idle steady ready, execPowerRequestDeep_of_ready may idle steady ready⟩
  · exact fun c s may control idle steady => ⟨execPowerRequestControl_of_control may idle steady control,
      execPowerRequestReady_of_control may idle steady control⟩
  · exact fun s target awake => execPowerTransitionDone_of_control target awake
  · exact fun s target quiet => ⟨_, execPowerTransitionDone_of_deep target quiet, s.enterDeep_effect⟩
  · exact fun s target control locked => execPowerTransitionDone_of_ready target control locked
  · exact fun s steady => execPowerTransitionDone_of_none steady
  · exact fun w s deep steady => ⟨fun enabled => ⟨_, execWake_of_enabled deep steady enabled, s.startWake_effect _⟩, execWake_of_disabled⟩
  · exact fun s v deep target fresh => execWakeRestoreDone_of_waking deep target fresh true
  · exact fun s v deep target fresh => ⟨_, execWakeRestoreDone_of_waking deep target fresh false, s.restarted_effect⟩

end Sys2Proof.Machine
end

section
/-! SUPPORT. Boot slots, firmware and pages (R392 to R394). -/
namespace Sys2Proof.Machine

/-! ### Slots -/

theorem State.getN_enterPhase (s : State) (n : Nat) : (s.enterPhase n).getN Obj.STARTUP_PHASE = n :=
  (State.getN_setN_other _ _ (by decide)).trans (State.getN_setN_self _ _ _)

theorem State.get_enterPhase_other (s : State) (n : Nat) {o : ObjRef} (phase : o ≠ Obj.STARTUP_PHASE) (permille : o ≠ Obj.STARTUP_PERMILLE) :
    (s.enterPhase n).get o = s.get o :=
  (State.get_setN_other _ _ permille).trans (State.get_setN_other _ _ phase)

theorem slotStatusObj_of_slot {x : Nat} (slot : x < 2) : slotStatusObj x = Obj.IMAGE_STATUS + x := if_pos (by omega)

/-- The status of a slot stands apart from the phase and from what a good image sets. -/
theorem slotStatus_apart : ∀ x < 2, Obj.IMAGE_STATUS + x ∉ startUpObjects ∧ Obj.IMAGE_STATUS + x ≠ Obj.BOOT_SLOT ∧
    Obj.IMAGE_STATUS + x ≠ Obj.FIRMWARE_VERSION := by decide

/-- A slot is given up: its status, and the slots that are left. -/
def State.slotLeft (s : State) (x status : Nat) (rest : List Nat) : State :=
  { s.setN (Obj.IMAGE_STATUS + x) status with boot := { s.boot with slots := rest, loaded := false } }

theorem State.getN_slotLeft (s : State) (x status : Nat) (rest : List Nat) : (s.slotLeft x status rest).getN (Obj.IMAGE_STATUS + x) = status :=
  State.getN_setN_self s _ _

theorem State.slotFailed_of_slot {s : State} {x status : Nat} {rest : List Nat} (slots : s.boot.slots = x :: rest) (slot : x < 2) : s.slotFailed status =
    let u := s.slotLeft x status rest
    if rest.isEmpty then ((u.setN Obj.STARTUP_PHASE 8).setN Obj.STARTUP_ERROR 2).setN Obj.STARTUP_DETAIL
      (u.getN Obj.IMAGE_STATUS + 256 * u.getN (Obj.IMAGE_STATUS + 1))
    else u.setN Obj.STARTUP_PHASE 3 := by
  have device : x ≠ 2 := by omega
  unfold State.slotFailed
  rw [slots]
  dsimp only
  rw [if_neg device, slotStatusObj_of_slot slot]
  rfl

/-- A failed slot has its status; the next one is read, or phase 8 waits. -/
theorem State.slotFailed_effect {s : State} {x : Nat} (status : Nat) {rest : List Nat} (slots : s.boot.slots = x :: rest) (slot : x < 2) :
    let t := s.slotFailed status
    t.getN (Obj.IMAGE_STATUS + x) = status ∧ t.boot.slots = rest ∧ (rest = [] → t.getN Obj.STARTUP_PHASE = 8 ∧ t.getN Obj.STARTUP_ERROR = 2) ∧
    (rest ≠ [] → t.getN Obj.STARTUP_PHASE = 3) := by
  obtain ⟨startUp, -, -⟩ := slotStatus_apart x slot
  simp only [startUpObjects, List.mem_cons, List.not_mem_nil, or_false, not_or] at startUp
  obtain ⟨phase, -, error, detail⟩ := startUp
  have left := s.getN_slotLeft x status rest
  have next : (s.slotLeft x status rest).boot.slots = rest := rfl
  rw [State.slotFailed_of_slot slots slot]
  generalize s.slotLeft x status rest = u at left next ⊢
  cases rest with
  | nil =>
    refine ⟨?_, next, fun _ => ⟨?_, ?_⟩, fun other => absurd rfl other⟩
    · exact (State.getN_setN_other _ _ detail).trans ((State.getN_setN_other _ _ error).trans ((State.getN_setN_other _ _ phase).trans left))
    · exact (State.getN_setN_other _ _ (by decide)).trans ((State.getN_setN_other _ _ (by decide)).trans (State.getN_setN_self _ _ _))
    · exact (State.getN_setN_other _ _ (by decide)).trans (State.getN_setN_self _ _ _)
  | cons y ys =>
    exact ⟨(State.getN_setN_other _ _ phase).trans left, next, fun other => absurd other (by simp), fun _ => State.getN_setN_self _ _ _⟩

theorem execBootLoadDone_of_read {s : State} (starting : s.power = 4) (phase : s.getN Obj.STARTUP_PHASE = 3) (good : Bool) : execBootLoadDone good s =
    if !good then .next (s.slotFailed 7) else .next { s.enterPhase 4 with boot := { s.boot with loaded := true } } :=
  if_neg (by simp [starting, phase])

/-- The image of a slot is released: the objects it sets. -/
def State.slotTaken (s : State) (x version : Nat) : State :=
  (((s.setN (Obj.IMAGE_STATUS + x) 1).setN Obj.BOOT_SLOT x).setN Obj.FIRMWARE_VERSION version).enterPhase 5

theorem State.slotTaken_effect (s : State) {x : Nat} (version : Nat) (slot : x < 2) : let t := s.slotTaken x version
    t.getN Obj.STARTUP_PHASE = 5 ∧ t.getN (Obj.IMAGE_STATUS + x) = 1 ∧ t.getN Obj.BOOT_SLOT = x ∧ t.getN Obj.FIRMWARE_VERSION = version := by
  obtain ⟨startUp, bootSlot, firmware⟩ := slotStatus_apart x slot
  simp only [startUpObjects, List.mem_cons, List.not_mem_nil, or_false, not_or] at startUp
  obtain ⟨phase, permille, -, -⟩ := startUp
  refine ⟨State.getN_enterPhase _ _, ?_, ?_, ?_⟩
  · exact (congrArg Int.toNat (State.get_enterPhase_other _ _ phase permille)).trans ((State.getN_setN_other _ _ firmware).trans
      ((State.getN_setN_other _ _ bootSlot).trans (State.getN_setN_self _ _ _)))
  · exact (congrArg Int.toNat (State.get_enterPhase_other _ _ (by decide) (by decide))).trans ((State.getN_setN_other _ _ (by decide)).trans
      (State.getN_setN_self _ _ _))
  · exact (congrArg Int.toNat (State.get_enterPhase_other _ _ (by decide) (by decide))).trans (State.getN_setN_self _ _ _)

/-- The end of a verification, by the status of the image. -/
theorem execBootVerifyDone_of_slot {s : State} {x : Nat} {rest : List Nat} (starting : s.power = 4) (phase : s.getN Obj.STARTUP_PHASE = 4)
    (slots : s.boot.slots = x :: rest) (slot : x < 2) : execBootVerifyDone s =
    let b := s.slotImage x
    if s.imageStatus b ≠ 1 then .next (s.slotFailed (s.imageStatus b))
    else .next { s.slotTaken x (imgVersion b) with
      boot := { s.boot with slots := [], released := true, runKey := imgKeySlot b, runSecurity := imgSecurity b } } := by
  have verifying : ¬(s.power ≠ 4 ∨ s.getN Obj.STARTUP_PHASE ≠ 4) := by simp [starting, phase]
  have device : x ≠ 2 := by omega
  unfold execBootVerifyDone
  rw [if_neg verifying, slots]
  dsimp only
  rw [slotStatusObj_of_slot slot, if_neg device]
  rfl

/-! ### The checks of an image -/

section
variable {s : State} {b : Bytes} (format : imgFormatOk b = true) (key : sha256 (slice b 32 64) = atD s.otp.keys (imgKeySlot b) [])
include format key

theorem State.imageStatus_of_revoked (revoked : s.otp.revoked.getLsbD (imgKeySlot b) = true) : s.imageStatus b = 4 := by
  unfold State.imageStatus
  rw [if_neg (by rw [format]; decide), if_neg (not_not_intro key), if_pos revoked]

theorem State.imageStatus_of_old (valid : s.otp.revoked.getLsbD (imgKeySlot b) = false) (old : imgSecurity b < s.otp.securityMin) :
    s.imageStatus b = 5 := by
  unfold State.imageStatus
  rw [if_neg (by rw [format]; decide), if_neg (not_not_intro key), if_neg (by rw [valid]; decide), if_pos old]

end

/-! ### Firmware -/

/-- The last phase of start-up and its end. -/
def State.startedUp (s : State) : State :=
  ((s.setN Obj.STARTUP_PHASE 6).setN Obj.STARTUP_PERMILLE 1000).setN Obj.STARTUP_TIME (s.clk.cycle / 400)

theorem State.takeAddresses_of_other {s : State} (net : Option NetConfig) (mode : s.straps.ctlmode % 4 = 3) : s.takeAddresses net = s := by
  unfold State.takeAddresses
  rw [mode]
  rfl

theorem State.stopCore_eq (s : State) : ∃ u : State, s.stopCore =
    { u with clk := { u.clk with coreLocked := false }, pwr := { u.pwr with locking := u.pwr.locking.filter (· = .control) } } ∧
    u.log = s.log ∧ ∀ o, (∀ i < 4, o ≠ Obj.MC_STATE + i) → u.get o = s.get o := by
  refine ⟨_, rfl, ?_, fun o other => ?_⟩
  · exact foldl_regions_keeps (·.log) (fun t i _ => by split <;> rfl) s
  · refine foldl_regions_keeps (·.get o) (fun t i region => ?_) s
    split
    · exact State.get_setN_other _ _ (other i region)
    · rfl

/-- The core stops: objects of the channels, the clock and the PLLs change, and nothing else. -/
theorem State.stopCore_effect (s : State) : s.stopCore.log = s.log ∧ ∀ o, (∀ i < 4, o ≠ Obj.MC_STATE + i) → s.stopCore.get o = s.get o := by
  obtain ⟨u, stopped, log, others⟩ := s.stopCore_eq
  rw [stopped]
  exact ⟨log, others⟩

theorem State.power_attachAtStart (s : State) : s.attachAtStart.power = s.power := rfl

theorem execFirmwareReady_of_control {s : State} (n : Option NetConfig) (starting : s.power = 4) (phase : s.getN Obj.STARTUP_PHASE = 5)
    (mode : s.straps.ctlmode % 4 = 3) (target : s.getN Obj.WAKE_TARGET = 1) :
    execFirmwareReady n s = .next (s.startedUp.setN Obj.POWER_STATE 1).stopCore.attachAtStart := by
  have running : ¬(s.power ≠ 4 ∨ s.getN Obj.STARTUP_PHASE ≠ 5) := by simp [starting, phase]
  have same : s.startedUp.takeAddresses n = s.startedUp := State.takeAddresses_of_other n mode
  have wake : s.startedUp.getN Obj.WAKE_TARGET = 1 := (State.getN_setN_other _ _ (by decide)).trans
    ((State.getN_setN_other _ _ (by decide)).trans ((State.getN_setN_other _ _ (by decide)).trans target))
  have control : (s.startedUp.setN Obj.POWER_STATE 1).power = 1 := State.getN_setN_self _ _ _
  have stopped : (s.startedUp.setN Obj.POWER_STATE 1).stopCore.power = 1 :=
    (congrArg Int.toNat ((State.stopCore_effect _).2 Obj.POWER_STATE (by decide))).trans control
  have kept := (State.power_attachAtStart _).trans stopped
  have phases : ((s.setN Obj.STARTUP_PHASE 6).setN Obj.STARTUP_PERMILLE 1000).setN Obj.STARTUP_TIME (s.clk.cycle / 400) = s.startedUp := rfl
  unfold execFirmwareReady
  rw [if_neg running]
  dsimp only
  rw [phases, same, wake, if_pos control, if_pos kept]

/-- The objects that a device shows at the end of start-up in CONTROL. -/
theorem State.startedUp_effect (s : State) : let t := (s.startedUp.setN Obj.POWER_STATE 1).stopCore.attachAtStart
    t.power = 1 ∧ t.getN Obj.STARTUP_PHASE = 6 ∧ t.getN Obj.STARTUP_PERMILLE = 1000 ∧ t.pwr.attachDue = 1 ∧ t.log = s.log := by
  obtain ⟨log, others⟩ := (s.startedUp.setN Obj.POWER_STATE 1).stopCore_effect
  have power := others Obj.POWER_STATE (by decide)
  have phase := others Obj.STARTUP_PHASE (by decide)
  have permille := others Obj.STARTUP_PERMILLE (by decide)
  generalize (s.startedUp.setN Obj.POWER_STATE 1).stopCore = t at log power phase permille ⊢
  refine ⟨?_, ?_, ?_, rfl, log⟩
  · exact (congrArg Int.toNat power).trans (State.getN_setN_self _ _ _)
  · exact (congrArg Int.toNat phase).trans ((State.getN_setN_other _ _ (by decide)).trans ((State.getN_setN_other _ _ (by decide)).trans
      ((State.getN_setN_other _ _ (by decide)).trans (State.getN_setN_self _ _ _))))
  · exact (congrArg Int.toNat permille).trans ((State.getN_setN_other _ _ (by decide)).trans ((State.getN_setN_other _ _ (by decide)).trans
      (State.getN_setN_self _ _ _)))

theorem execFirmwareReadyTimeout_of_running {s : State} (starting : s.power = 4) (phase : s.getN Obj.STARTUP_PHASE = 5) :
    execFirmwareReadyTimeout s = .next { s.startupFail 3 0 with boot := { s.boot with released := false } } :=
  if_neg (by simp [starting, phase])

/-- A page reload while firmware runs, by the failures of the page. -/
theorem execPageReloadDone_of_running {s : State} (p : Nat) (good : Bool) (released : s.boot.released = true) (awake : s.power ≠ 0)
    (alive : s.power ≠ 5) : execPageReloadDone p good s =
    let n := (kvGet s.boot.fails p).getD 0
    if good then .next { s with boot := { s.boot with fails := kvDel s.boot.fails p } }
    else let u : State := { s with boot := { s.boot with fails := kvSet s.boot.fails p (n + 1) } }
      if n + 1 ≥ 2 then .next u.expireWatchdog else .next u :=
  if_neg (by simp [released, awake, alive])

/-! ### The statement -/

/-- Settles O59: slots and images (R392), the firmware (R393), pages (R392, R394). -/
theorem startUp : Obligations.StartUp := by
  unfold Obligations.StartUp
  refine ⟨?_, ?_, ?_, ?_, ?_, ?_, ?_, ?_, ?_, ?_⟩
  · exact fun s starting phase => execBootLoadDone_of_read starting phase true
  · exact fun s x rest starting phase slots slot => ⟨_, execBootLoadDone_of_read starting phase false, s.slotFailed_effect 7 slots slot⟩
  · intro s x rest starting phase slots slot good
    obtain ⟨phase', status, bootSlot, version⟩ := s.slotTaken_effect (imgVersion (s.slotImage x)) slot
    refine ⟨_, (execBootVerifyDone_of_slot starting phase slots slot).trans (if_neg (not_not_intro good)), ?_⟩
    exact ⟨phase', status, bootSlot, version, rfl, rfl⟩
  · exact fun s x rest starting phase slots slot bad => (execBootVerifyDone_of_slot starting phase slots slot).trans (if_pos bad)
  · exact fun s b format key => ⟨State.imageStatus_of_revoked format key, State.imageStatus_of_old format key⟩
  · exact fun n s starting phase mode target => ⟨_, execFirmwareReady_of_control n starting phase mode target, s.startedUp_effect⟩
  · intro s starting phase
    obtain ⟨phase', error, -⟩ := s.startupFail_objects 3 0
    exact ⟨_, execFirmwareReadyTimeout_of_running starting phase, rfl, phase', error⟩
  · exact fun p s released awake alive => execPageReloadDone_of_running p true released awake alive
  · intro p s released awake alive first
    rw [show exec (.pageReloadDone p false) s = _ from execPageReloadDone_of_running p false released awake alive, first]
    rfl
  · intro p s released awake alive second
    rw [show exec (.pageReloadDone p false) s = _ from execPageReloadDone_of_running p false released awake alive, second]
    rfl

end Sys2Proof.Machine
end

section
/-! SUPPORT. The watchdog of an active whose HALT takes staged values (R405), and where the statement about images and keys fails. -/
namespace Sys2Proof.Machine

/-- An active whose firmware runs, with a value for PAIR_STATE that waits for the next stripe. HALT ends the job, and the end of the job takes
the values that wait, so this one leaves the pair. -/
def strayStripe : State :=
  { State.reset.setN Obj.PAIR_STATE 1 with
    boot := { State.reset.boot with released := true }
    stg := { State.reset.stg with atStripe := [⟨Obj.PAIR_STATE, .scalar 0, 0⟩] } }

theorem strayStripe_isStandby : strayStripe.isStandby = false := by decide +kernel

/-- The trigger of the expired watchdog stops the device, which is no active then. -/
theorem isStandby_of_strayStripe : ((strayStripe.inc Obj.WATCHDOG_EXPIRIES).raise ⟨6, 15, 255, 255, 0⟩).isStandby = true := by decide +kernel

/-- The firmware of a device that the trigger has made no active runs on. -/
theorem State.expireWatchdog_released {s : State} (standby : ((s.inc Obj.WATCHDOG_EXPIRIES).raise ⟨6, 15, 255, 255, 0⟩).isStandby = true) :
    s.expireWatchdog.boot.released = s.boot.released := by
  unfold State.expireWatchdog
  dsimp only
  rw [if_pos standby, State.raise_boot, State.inc_boot]

/-! ### The statement -/

/-- Refutes O60: its clause on the watchdog of an active takes every state. In one where a value for PAIR_STATE waits for a stripe, the HALT of
trigger 6 takes that value, the device is no active any more, and its firmware is not stopped. -/
theorem not_imagesAndKeys : ¬ Obligations.ImagesAndKeys := by
  rintro ⟨-, -, -, -, -, -, -, -, -, expires, -⟩
  obtain ⟨t, expired, stopped⟩ := expires .trap strayStripe rfl (by decide +kernel) (by decide +kernel) strayStripe_isStandby
  have runs : execWatchdogExpiry .trap strayStripe = .next strayStripe.expireWatchdog :=
    if_pos ⟨rfl, by decide +kernel, by decide +kernel⟩
  have same : strayStripe.expireWatchdog = t := Host.Outcome.next.inj (runs.symm.trans expired)
  have released := State.expireWatchdog_released isStandby_of_strayStripe
  rw [same, stopped] at released
  exact absurd released (by decide)

end Sys2Proof.Machine
end
